-- ==== Sys2Proof/Word.lean ====
section
/-!
DEFINITION. The word types of the model and the plain data that every later file shares: FP patterns, element
formats, the decoded form of a number, the sticky status of an operation.
-/

namespace Sys2Proof

/-- A 32-bit pattern: an FP32 number or a 32-bit integer (R96). -/
abbrev Word := BitVec 32

/-- One byte of memory. -/
abbrev Byte := BitVec 8

/-- A 64-bit word of a descriptor, an entry or a header. -/
abbrev DWord := BitVec 64

/-- The FMT codes of Table 0-2 (R7). -/
inductive Fmt where
  | fp32 | bf16 | e4m3 | e5m2 | e3m2 | e2m3 | e2m1 | int8 | int32 | mask
  deriving DecidableEq, Repr

/-- A number taken apart: NaN, an infinity, or (-1)^neg times `mag` times 2^`exp`, exactly. `mag = 0` is a zero,
and it keeps its sign (R40). -/
inductive Num where
  | nan
  | inf (neg : Bool)
  | fin (neg : Bool) (mag : Nat) (exp : Int)
  deriving DecidableEq, Repr

/-- The sticky status bits of an operation, in the bit order of Tables 2-5 and 4-7:
0 INV, 1 NAN_IN, 2 INF, 3 OVF, 4 SAT, 5 FTZ_IN, 6 FTZ_OUT, 7 DROPALL, 8 VRANGE, 9 CNTCLAMP. -/
abbrev Sts := BitVec 32

/-- A list of key and value pairs in one canonical form: keys strictly rising, no value equal to the default that an
unlisted key reads as. -/
abbrev Sparse (α : Type) := List (Nat × α)

end Sys2Proof
end

