-- ==== Sys2Proof/Syntax.lean ====
section
/-!
DEFINITION. The commands of the block: one constructor per row of the table of operations and events. Each row is one
whole step. A row's operands name the unit it happens at and what the world outside the model reports with it: the
bytes of a descriptor as the module fetched them, a measured value, a count of cycles (DESIGN CHOICE, log entry 4).
-/

namespace Sys2Proof

/-- What the boot ROM reports at 2 ms (R377): whether the known-answer tests passed, whether OTP was read. -/
structure BootTests where
  kat : Bool
  otp : Bool
  deriving DecidableEq, Repr

/-- What the boot self-test found in one physical cell: a fault that row repair does not reach (a column, a foot, an accumulator bank),
and for each of its four arrays a mask of the 33 physical rows found bad (R22, R87). -/
structure CellBoot where
  blk : Nat
  pos : Nat
  faulty : Bool
  rows : List Nat
  deriving DecidableEq, Repr

/-- What a unit reports of one operation's time and memory events: the cycle counters of Tables 3-10 and 4-8, slice
reads corrected and cured by retry, bank conflicts, and the channels on which a link-ECC correction fell (R93, R117,
R119, R144). -/
structure Perf where
  computing : Nat
  feederDry : Nat
  drainHeld : Nat
  swapWait : Nat
  vecIssue : Nat
  vecHeld : Nat
  vecQueue : Nat
  conflicts : Nat
  corrected : Nat
  retried : Nat
  linkCe : List Nat
  deriving DecidableEq, Repr

/-- The end of a run: the cycles that it reports, and the memory events of its accesses. -/
structure RunEnd where
  cycles : Nat
  perf : Perf
  deriving DecidableEq, Repr

/-- A page that arrives in staging (R139): the cycles for which a pass has waited for it, the memory events of its copy. -/
structure Arrival where
  page : Nat
  cycles : Nat
  perf : Perf
  deriving DecidableEq, Repr

/-- A page move begins, to a physical address, or ends (R138). -/
inductive MovePhase where
  | start (dest : Nat)
  | finish (p : Perf)
  deriving DecidableEq, Repr

/-- What a parity error struck (R25): the run at the position, and whether that run had performed its work. -/
structure Struck where
  run : Nat
  worked : Bool
  deriving DecidableEq, Repr

/-- The end of a feed (R187): copies repeated after an EPOCH change, the tiles (by their number in the feed) on which a drain landed during
their copy, the memory events. -/
structure FeedEnd where
  repeats : Nat
  torn : List Nat
  perf : Perf
  deriving DecidableEq, Repr

/-- Where a solve stops (R202): its block, the attempt at it, the iteration whose end it is, or 0 before the first. -/
structure StopPoint where
  block : Nat
  attempt : Nat
  iter : Nat
  deriving DecidableEq, Repr

/-- What a solve reports beside its cycles: those that it waited for memory, and its memory events (R211). -/
structure PortPerf where
  wait : Nat
  perf : Perf
  deriving DecidableEq, Repr

/-- What ended commands report of their DMA: whether the record's write succeeded, and the memory events of the accesses. -/
structure DmaEnd where
  ok : Bool
  perf : Perf
  deriving DecidableEq, Repr

/-- A number (a region, a class, a port, a domain), and the memory events of the accesses that the command's work makes (R18, R144). -/
structure Accessed where
  n : Nat
  perf : Perf
  deriving DecidableEq, Repr

/-- A domain's generation acknowledged by every target, with the stale writes that the quarantine sink has taken meanwhile (R125, R292), and the
contexts whose last record's write returned UR or CA (R296). -/
structure GenAcks where
  dom : Nat
  quar : Nat
  lost : List Nat
  deriving DecidableEq, Repr

/-- The payload of a frame of the segment, and whether the frame passed its FCS (R341). -/
structure Payload where
  fcsOk : Bool
  bytes : List Byte
  deriving DecidableEq, Repr

/-- A unit at its boundary (R326); for a Grader that solves, the number of blocks that it has finished (R192). -/
structure UnitAt where
  unit : Nat
  done : Nat
  deriving DecidableEq, Repr

/-- An ICMPv6 request (R336): an Echo Request, or a Neighbor Solicitation of an address. -/
inductive Icmp where
  | echo
  | solicit (target : Nat)
  deriving DecidableEq, Repr

/-- A queue: the admin queue, or local queue q of a domain (R287, R290). -/
inductive QRef where
  | admin
  | dom (d q : Nat)
  deriving DecidableEq, Repr

/-- Where a dictionary request comes from (R314): the ROM or the secure firmware, the PF mailbox, or the 10BASE-T1S
segment, unicast or multicast, with the requester's IPv6 address and UDP port. -/
inductive Source where
  | secure
  | mailbox
  | t1s (addr port : Nat) (multicast : Bool)
  deriving DecidableEq, Repr

/-- One dictionary operation (Table 11-6), without its STATUS. -/
structure DictOp where
  index : Nat
  sub : Nat
  ty : Nat
  shadow : Bool
  offset : Nat
  value : List Byte
  deriving DecidableEq, Repr

/-- A Tabkin frame as it arrives: its uncorrectable codewords, the codewords corrected, its ten bytes
of frame control as a number (Table 9-2) and its ten slots of 256 bytes (R247). -/
structure Frame where
  bad : Nat
  corrected : Nat
  control : Nat
  slots : List (List Byte)
  deriving DecidableEq, Repr

/-- The commands. -/
inductive Instr where
  /-- POWER_UP (R397): V40_IN crosses 37.5 V: the bulk capacitance charges and the always-on rails and the 25 MHz oscillator start. -/
  | powerUp
  /-- ALWAYS_ON_POWER_GOOD (R377): Always-on power-good: MGT_ADDR is sampled, the tick count starts and the boot ROM runs known-answer tests and checks the slots. -/
  | alwaysOnPowerGood (strap : Nat) (tests : BootTests) (recoveryLow : Bool) (cells : List CellBoot)
  /-- BOOT_LOCK_TIMEOUT (R379): The firmware has not set SEC_BOOT_LOCK within 10 ms, so the security unit sets it. -/
  | bootLockTimeout
  /-- RAILS_IN_REGULATION (R383): The data-plane rails are in regulation: both microcode areas are checked and copied into every block's program store. -/
  | railsInRegulation
  /-- IDENTITY_KEY_READY (R385): Derivation of the Falcon-1024 identity key pair from the device secret completes. -/
  | identityKeyReady
  /-- MEMORY_TRAINING_DONE (R377): LPDDR5X training ends and the data plane accepts work. -/
  | memoryTrainingDone
  /-- OVERVOLTAGE (R394): The input has been above 43 V for 10 µs: the non-always-on rails turn off, OV is set and ALERT_L is asserted. -/
  | overvoltage (millivolts : Nat)
  /-- UNDERVOLTAGE (R395): The bulk node falls below 36.5 V: every rail turns off and the module waits for the input to return. -/
  | undervoltage
  /-- INPUT_INTERRUPTION (R395): An input interruption of up to 100 µs is ridden through on the bulk capacitance and counted. -/
  | inputInterruption (micros : Nat)
  /-- CURRENT_TRIP (R396): Input current has exceeded 16 A for 20 µs: the hot-swap switch opens and the event is treated as undervoltage. -/
  | currentTrip
  /-- GOVERNOR_EVALUATION (R402): The 10 µs power evaluation lowers or raises n_gov against PWR_LIMIT and PWR_HYST. -/
  | governorEvaluation (p u a : Word)
  /-- GOVERNOR_FAST_PATH (R402): Input current has been above 14 A for 5 samples, so n_gov drops by 8 steps. -/
  | governorFastPath
  /-- THERMAL_EVALUATION (R412): The 100 µs thermal evaluation adjusts n_therm from the hottest sensor. -/
  | thermalEvaluation (t0 t1 t2 t3 : Word)
  /-- JUNCTION_LIMIT (R412): A 10 µs reading at or above 105 °C forces n_therm to 28. -/
  | junctionLimit (t0 t1 t2 t3 : Word)
  /-- THERMAL_TRIP (R413): A trip comparator reaches 115 °C: the non-always-on rails turn off and THERM_TRIP_L and ALERT_L are asserted. -/
  | thermalTrip
  /-- REFCLK100_LOSS (R407): Loss of REFCLK100 is detected and handled as a chip-level unit fault. -/
  | refclk100Loss
  /-- PCIE_REFCLK_LOSS (R407): Loss of PCIE_REFCLK takes the link down and stops the command unit clock. -/
  | pcieRefclkLoss
  /-- PCIE_REFCLK_RETURN (R407): The PCIe reference returns: the command unit resumes, the link retrains and held completion records are written. -/
  | pcieRefclkReturn (fullRate : Bool)
  /-- BLOCK_CLOCK_STOP (R406): A block has been IDLE for PWR_GATE_IDLE cycles and stops its fast clocks. -/
  | blockClockStop (blk : Nat)
  /-- RAMP_TURN (R406): A block waiting for a ramp turn begins its wake ramp. -/
  | rampTurn (blk ticks : Nat)
  /-- PERST_L_ASSERT (R297): PERST_L is asserted: the PCIe core is reset, every context is killed and admitted commands are stopped or finished as listed. -/
  | perstLAssert
  /-- PERST_L_RELEASE (R297): PERST_L is released and the PCIe link trains again. -/
  | perstLRelease (fullRate : Bool)
  /-- FLR (R292): A function level reset tears down the VF's domain, or every domain for the PF. -/
  | flr (fn : Nat)
  /-- CMD_SQ_DB (R295): A write to the submission doorbell stores the new tail, or sets ERROR if the tail is out of range. -/
  | cmdSqDb (q : QRef) (value : Nat)
  /-- CMD_CQ_DB (R295): A write to the completion doorbell records the host's completion head and frees ring room. -/
  | cmdCqDb (q : QRef) (value : Nat)
  /-- CMD_SQ_BASE (R294): A write to a ring base register is stored, or dropped and counted while ENABLE = 1. -/
  | cmdSqBase (q : QRef) (completion : Bool) (value : Nat)
  /-- CMD_Q_CTL (R294): A write to CMD_Q_CTL enables or disables fetching and sets ring sizes, vectors and coalescing. -/
  | cmdQCtl (q : QRef) (value : Nat)
  /-- BAR_WRITE (R286): A BAR write to a register without its own row is stored, or dropped and counted if reserved or narrow. -/
  | barWrite (fn off size value : Nat)
  /-- DOM_CREATE (R291): An admin command makes a FREE domain ACTIVE with its GEN, context range, quota and memory limit. -/
  | domCreate (desc : Nat)
  /-- DOM_TEARDOWN (R292): An admin command tears a domain down: it aborts commands and increments the generation. -/
  | domTeardown (desc : Nat)
  /-- TEARDOWN_GEN_ACKED (R292): Every target has acknowledged the new generation: segments, slots, pages and contexts are freed and the domain becomes FREE. -/
  | teardownGenAcked (x : GenAcks)
  /-- DOM_SET (R302): An admin command sets new QUOTA and MEMLIM for a domain. -/
  | domSet (desc : Nat)
  /-- Q_CREATE (R290): An admin command creates a queue context with its home region, optionally as step queue. -/
  | qCreate (desc : Nat)
  /-- Q_DELETE (R296): An admin command deletes a context, or is refused while it has commands in flight. -/
  | qDelete (desc : Nat)
  /-- Q_RESET (R290): An admin command returns a KILLED or ERROR context to IDLE with HEAD and TAIL at 0. -/
  | qReset (desc : Nat)
  /-- PROG_LOAD (R299): The image is read by DMA, checked whole and then placed, or refused with a reason. -/
  | progLoad (dom q desc : Nat) (image : Option (List Byte))
  /-- PROG_UNLOAD (R299): The domain's program is unloaded, or the command is refused while a step runs. -/
  | progUnload (dom q desc : Nat)
  /-- STEP (R299): STEP runs step NEXT_STEP with the named list set. -/
  | step (dom q desc : Nat)
  /-- COPY (R299): Data is copied between segments of the domain. -/
  | copy (dom q desc : Nat)
  /-- HOST_WRITE (R299): Data is written from host memory into a segment. -/
  | hostWrite (dom q desc : Nat) (data : Option (List Byte))
  /-- HOST_READ (R299): Data is read from a segment into host memory. -/
  | hostRead (dom q desc : Nat) (dmaOk : Bool)
  /-- EXPORT (R281): Committed reels or a daily half are sent as IMPORT packets to a destination module. -/
  | exportRun (dom q desc : Nat)
  /-- IMPORT_ARM (R281): An import is armed with its source coordinate, first page and count. -/
  | importArm (dom q desc : Nat)
  /-- FREEZE (R227): FROZEN of a page range is set or cleared at the next commit walk. -/
  | freeze (dom q desc : Nat)
  /-- GRADE (R299): A GRD request from the host is recorded by the Grader. -/
  | grade (dom q desc : Nat)
  /-- FENCE (R298): A fence command orders later commands after every earlier command of the domain. -/
  | fence (dom q desc : Nat)
  /-- DEFERRED_ADMISSION (R302): Credits free and the oldest deferred command that fits is admitted. -/
  | deferredAdmission (dom : Nat)
  /-- COMMAND_COMPLETION (R304): A command ends: its completion record is written, its result object is published and its credits are returned. -/
  | commandCompletion (q : QRef) (x : DmaEnd)
  /-- COALESCE_TIMER (R309): The oldest unsignalled record reaches COAL_T ticks and the MSI-X vector is signalled. -/
  | coalesceTimer (q : QRef)
  /-- STEP_RELEASE (R160): Every block has reported, and the chip releases the step to all blocks together. -/
  | stepRelease (dom cycles : Nat)
  /-- SIGNAL_ARRIVAL (R153): A signal reaches a readiness counter bank and is added, or clears the bank, or is dropped. -/
  | signalArrival (n : Nat)
  /-- TILE (R90): The sequencer starts a tile operation on a cell's arrays. -/
  | tile (blk pos : Nat) (perf : Perf)
  /-- CHAIN (R104): The sequencer starts a chain on a cell's vector engine. -/
  | chain (blk pos : Nat) (perf : Perf)
  /-- TILE_VEC (R113): A tile operation starts together with the chain that feeds its stream. -/
  | tileVec (blk pos : Nat) (perf : Perf)
  /-- RECORD_OPEN (R47): A RECORD item opens up to 16 tensor records. -/
  | recordOpen (blk : Nat)
  /-- RECORD_CLOSE (R49): A RECORD item closes tensor records, updating their history and coarse scale. -/
  | recordClose (blk : Nat)
  /-- MARK (R151): A MARK item does no work and only signals. -/
  | mark (blk : Nat)
  /-- SURVEY (R231): The Cutter adds the squared norm of its complete slots into NORM_ADDR, or completes unrun. -/
  | survey (blk : Nat)
  /-- PASS (R224): The Cutter starts a layer's update pass, deciding fallback from the preconditioner headers. -/
  | pass (blk : Nat)
  /-- DIR1 (R223): The Cutter generates tile operations for T = M × P_col, or completes unrun. -/
  | dir1 (blk : Nat) (perf : Perf)
  /-- DIR2 (R223): The Cutter generates tile operations for D = P_row × T, or completes unrun. -/
  | dir2 (blk : Nat) (perf : Perf)
  /-- FINISH (R220): The Cutter applies D to its pages and emits the working copy, or completes unrun. -/
  | finish (blk : Nat) (perf : Perf)
  /-- GRD_FEED (R186): A feed request is recorded by the slot's Grader. -/
  | grdFeed (blk : Nat)
  /-- GRD_SOLVE (R186): A solve request is queued at the slot, or ignored. -/
  | grdSolve (blk : Nat)
  /-- GRD_FEED_SOLVE (R185): A feed is requested, and a solve is queued once that feed completes. -/
  | grdFeedSolve (blk : Nat)
  /-- GRD_COLD (R185): The slot's next solve is made to start cold. -/
  | grdCold (blk : Nat)
  /-- XFER_WRITE (R262): The block unit hands a WRITE transfer to the port's transfer engine. -/
  | xferWrite (blk : Nat)
  /-- XFER_RADD (R262): The block unit hands a RADD transfer to the port's transfer engine. -/
  | xferRadd (blk : Nat)
  /-- XFER_SIGNAL (R261): A SIGNAL transfer is sent to a remote counter. -/
  | xferSignal (blk : Nat)
  /-- XFER_TREE (R267): A TREE transfer contributes the member's chunks to a combining tree. -/
  | xferTree (blk : Nat)
  /-- DEFER_PROMOTION (R158): A DEFER item has been ready CMD_DEFER_MAX cycles and is promoted to FWD. -/
  | deferPromotion (blk : Nat)
  /-- ITEM_COMPLETE (R155): An item's writes and updates are all performed, its hold decrement is made and its signals are sent. -/
  | itemComplete (blk n : Nat) (x : RunEnd)
  /-- BIND_WAIT_END (R134): A binding entry frees and a held write to an unbound slot proceeds. -/
  | bindWaitEnd (cell cycles : Nat)
  /-- SPILL_ZERO_FILL_DONE (R134): The spill adder has zero-filled a spilled binding and the held binding write is performed. -/
  | spillZeroFillDone (cell : Nat)
  /-- BLOCK_REPORT (R161): Every item of the block has completed: it checks for orphans and reports its flag and norm partial. -/
  | blockReport (blk : Nat)
  /-- CUTTER_SLOT_TAKE (R224): A slot completes and the Cutter consumes it and writes the page's other reel. -/
  | cutterSlotTake (blk : Nat) (perf : Perf)
  /-- STAGING_ARRIVAL (R139): A page's staged reel has arrived from LPDDR5X and the pass on it proceeds. -/
  | stagingArrival (blk : Nat) (x : Arrival)
  /-- MIG_WAIT_END (R138): MIG clears on a page, and the waiting pass proceeds. -/
  | migWaitEnd (blk cycles : Nat)
  /-- PAGE_MOVE (R138): The page mover copies both reels and updates TIER and PAGE_ADDR atomically. -/
  | pageMove (page : Nat) (m : MovePhase)
  /-- EMISSION_RESUME (R173): The buffer's HOLD reaches zero and the withheld working-copy emission proceeds. -/
  | emissionResume (blk cycles : Nat)
  /-- DAILY_STREAM_WAIT_END (R277): A page being streamed from the other reel becomes NONE, and the waiting Cutter write proceeds. -/
  | dailyStreamWaitEnd (blk cycles : Nat)
  /-- CLIP_PASS_COMPLETE (R234): Every Cutter's clip pass is done: the chip combines signatures and enters the signature exchange. -/
  | clipPassComplete (dom : Accessed)
  /-- SLICE_UE (R18): A slice read is still uncorrectable after two retries and is reported to the block, which escalates. -/
  | sliceUe (cell off : Nat) (mirrorLost : Bool)
  /-- PARITY_ERROR (R25): A feeder, stationary or engine parity error discards the tile, which is re-issued or leads to retirement. -/
  | parityError (blk pos : Nat) (x : Struck)
  /-- CELL_TIMEOUT (R25): A cell has not answered a dispatch within 4,096 cycles and is retired. -/
  | cellTimeout (blk pos : Nat) (worked : Bool)
  /-- SUBSTITUTION_COMPLETE (R363): Substitution has finished, and the held item is issued again. -/
  | substitutionComplete (blk : Nat)
  /-- DRAM_UE (R144): A DRAM read is uncorrectable after one retry and is reported as a region fault. -/
  | dramUe (pa : Nat)
  /-- GRANULE_MOVE_COMPLETE (R142): A granule move ends with every remap copy acknowledged and the source freed. -/
  | granuleMoveComplete (granule : Nat)
  /-- MEM_CH_RETRAIN (R143): A cue applies RETRAIN: after the space check, the channel's package is emptied. -/
  | memChRetrain (region : Nat)
  /-- MEM_CH_RETIRE (R143): A cue applies RETIRE: after the space check, the package is emptied and retired. -/
  | memChRetire (region : Nat)
  /-- PACKAGE_EMPTIED (R143): Every granule of the package has moved: the channel retrains or the package's channels retire. -/
  | packageEmptied (package : Nat)
  /-- CHANNEL_RETRAIN_DONE (R143): Channel training ends: the channels return ONLINE, or retire on failure. -/
  | channelRetrainDone (ok : Bool)
  /-- DEGRADED_RETRY (R144): Granules free, and the move of a DEGRADED channel's package is retried. -/
  | degradedRetry (channel : Nat)
  /-- SCRUB_LINE (R147): In an idle port cycle the scrubber reads, corrects and writes back a line, or poisons it. -/
  | scrubLine (cell off : Nat) (corrected uncorrectable : Bool)
  /-- FRAME_RECEIVE (R254): A Tabkin frame is accepted, NAKed or discarded, and its ACK, credits, HOLD or RESYNC are acted on. -/
  | frameReceive (port : Nat) (frame : Frame)
  /-- RETRY_TIMEOUT (R254): ACK has not advanced for 10 µs with frames outstanding, and the sender retransmits. -/
  | retryTimeout (port : Nat)
  /-- LANE_CHANGE (R282): The LCNT countdown ends and both ends switch to or from three-lane mode. -/
  | laneChange (port : Nat)
  /-- FAB_LANE_RECAL (R282): A cue applies RECAL to a lane: the port moves to three lanes and recalibrates. -/
  | fabLaneRecal (peerReady : Bool)
  /-- FAB_LANE_RETIRE (R282): A cue applies RETIRE to a lane. -/
  | fabLaneRetire
  /-- LANE_RECAL_DONE (R282): Recalibration ends: the port returns to UP4, or stays UP3 with the lane retired. -/
  | laneRecalDone (port : Nat) (ok : Bool)
  /-- PORT_TRAINED (R283): PMA training and link start-up complete with the peer, and the port leaves TRAINING. -/
  | portTrained (port : Nat)
  /-- PACKET_SEND (R262): A transfer engine holds a packet's data and credits and sends it whole. -/
  | packetSend (port cycles : Nat)
  /-- PACKET_FORWARD (R257): A packet not addressed to the module is routed on in dimension order, or dropped. -/
  | packetForward (port cls : Nat)
  /-- PKT_WRITE (R263): A WRITE packet is translated and written at the destination. -/
  | pktWrite (port cls : Nat)
  /-- PKT_RADD (R263): A RADD packet's values are added into REDUCE slots. -/
  | pktRadd (port : Nat) (cls : Accessed)
  /-- PKT_SIGNAL (R251): A SIGNAL packet signals its counter. -/
  | pktSignal (port cls : Nat)
  /-- TUP (R267): A child's chunk is combined into its entry and sent upward when complete. -/
  | tup (port : Accessed)
  /-- TDOWN (R268): A tree result is deposited into the local slot and forwarded to the children. -/
  | tdown (port : Accessed)
  /-- XNORM (R269): A flag and norm contribution is combined toward the root. -/
  | xnorm (port : Nat)
  /-- XNORM_RES (R269): The global F and N arrive and decide skip, clip or signature exchange. -/
  | xnormRes (port : Nat)
  /-- XSIG (R270): Signature contributions of 512 slots are combined toward the root. -/
  | xsig (port : Nat)
  /-- XSIG_RES (R270): Both combined signature packets have arrived, allowing the commit token. -/
  | xsigRes (port : Nat)
  /-- DAILY (R278): A DAILY packet writes page data into the buddy's receiving area. -/
  | daily (port cls : Nat)
  /-- DAILY_END (R279): DAILY_END closes a daily, recorded complete if every page is stored. -/
  | dailyEnd (port cls : Nat)
  /-- IMPORT (R281): An IMPORT packet writes a page's committed reel and emits its working copy. -/
  | importPkt (port : Nat) (cls : Accessed)
  /-- IMPORT_END (R281): IMPORT_END completes an armed import once COUNT pages have been written. -/
  | importEnd (port cls : Nat)
  /-- DAILY_PAGE_STREAM (R276): A mirror engine streams the next page of the daily to the buddy. -/
  | dailyPageStream (dom : Nat) (region : Accessed)
  /-- DAILY_ENGINES_DONE (R279): All four mirror engines have finished and the chip sends DAILY_END. -/
  | dailyEnginesDone (dom : Nat)
  /-- FEED_COMPLETE (R187): A feed has copied every marked tile into the mirror, making a queued solve eligible. -/
  | feedComplete (region slot : Nat) (x : FeedEnd)
  /-- SOLVE_START (R192): The Grader array is free and starts the eligible solve with the largest AGE. -/
  | solveStart (region : Nat)
  /-- SOLVE_DEADLINE (R203): The deadline has expired at a test, and the solve stops with a partial publication pending. -/
  | solveDeadline (region : Nat) (stop : StopPoint) (cycles : Nat) (x : PortPerf)
  /-- SOLVE_COMPLETE (R206): A solve ends and its publication waits for the next token. -/
  | solveComplete (region cycles : Nat) (x : PortPerf)
  /-- BLOCK_HANG (R343): The block watchdog reaches FLT_WDT_TICKS and reports a hang to the region. -/
  | blockHang (blk : Nat)
  /-- GRADER_HANG (R345): The Grader makes no progress for the window and is reported as a block hang. -/
  | graderHang (region : Nat)
  /-- HUB_HANG (R345): A hub output grants nothing for the window, which is a region fault. -/
  | hubHang (region : Nat)
  /-- MEM_CTRL_HANG (R345): A memory controller completes nothing for the window, which is a region fault. -/
  | memCtrlHang (region : Nat)
  /-- EXCHANGE_HANG (R346): An exchange result has not arrived in the window: a fault record is written and the module keeps waiting. -/
  | exchangeHang (dom : Nat)
  /-- COMMAND_UNIT_HANG (R345): The command unit watchdog expires after 100 µs and a chip warm reset follows. -/
  | commandUnitHang
  /-- FIRMWARE_HANG (R347): No firmware heartbeat for 100 ms, and the firmware is restarted from its live slot. -/
  | firmwareHang
  /-- FIRMWARE_FALLBACK (R347): The restarted slot sends no heartbeat within 200 ms, and the other slot is started. -/
  | firmwareFallback
  /-- CLAPPER_IN (R349): A rising edge on CLAPPER_IN strikes the clapper. -/
  | clapperIn (nanos : Nat)
  /-- FLT_CLAP_CMD (R349): A dictionary write strikes the clapper. -/
  | fltClapCmd (src : Source) (value : Nat)
  /-- DUMP_START (R353): The shadows are written or 20 µs have passed, and the dump engine starts reading into a slot. -/
  | dumpStart (region incomplete : Nat)
  /-- DUMP_COMPLETE (R353): The dump is written and the region reset starts. -/
  | dumpComplete (region : Nat)
  /-- REGION_RESET_COMPLETE (R357): The region is ONLINE again and the replay restarts steps, commands and contexts. -/
  | regionResetComplete (region : Nat)
  /-- REGION_RESET_OVERRUN (R32): A region has not left RESETTING within 600 µs, and a chip warm reset follows. -/
  | regionResetOverrun (region : Nat)
  /-- CHIP_WARM_RESET_COMPLETE (R365): The chip warm reset ends and the replay is issued. -/
  | chipWarmResetComplete (cells : List CellBoot)
  /-- CHIP_WARM_RESET_OVERRUN (R32): The warm reset has not completed in 900 µs: ALERT_L is asserted and the module waits for cold boot. -/
  | chipWarmResetOverrun
  /-- FLT_LOG_ACK (R351): The host acknowledges fault records up to the number written. -/
  | fltLogAck (src : Source) (value : Nat)
  /-- FLT_DUMP_REL (R353): The host releases a dump slot by clearing HELD. -/
  | fltDumpRel (src : Source) (slot value : Nat)
  /-- REGION_OFFLINE (R368): A region command makes the region DRAINING. -/
  | regionOffline (region : Nat)
  /-- REGION_DRAINED (R368): No command of an affected domain remains admitted and the draining region goes OFFLINE. -/
  | regionDrained (region : Nat)
  /-- REGION_ONLINE (R368): A region command starts the region's clocks, applies the pending layout and loads the live take. -/
  | regionOnline (region : Nat)
  /-- REGION_ONLINE_DONE (R368): The region reaches ONLINE within 300 µs. -/
  | regionOnlineDone (region : Nat)
  /-- REGION_RESET (R368): A region command kills and resets the region as for a fault. -/
  | regionReset (region : Nat)
  /-- FORCE_OFFLINE (R368): A region command takes the region OFFLINE at once without draining. -/
  | forceOffline (region : Nat)
  /-- UCODE_VERIFY (R369): The staged microcode image is checked with TYPE 0x02. -/
  | ucodeVerify (src : Source)
  /-- UCODE_VERIFY_DONE (R369): The microcode check ends as VERIFIED or FAILED. -/
  | ucodeVerifyDone
  /-- UCODE_ARM (R369): Every block copies the verified image into its spare program-store bank. -/
  | ucodeArm (src : Source)
  /-- UCODE_ARM_DONE (R369): Every block holds the image in its spare bank and the state becomes ARMED. -/
  | ucodeArmDone
  /-- UCODE_REVERT (R369): The other microcode bank is selected at the next group 8 cue. -/
  | ucodeRevert (src : Source)
  /-- DICT_MESSAGE (R318): A dictionary request message is taken whole, checked and its operations performed in order. A frame of the
  segment carries whether its FCS is right and the UDP port it is sent to. -/
  | dictMessage (src : Source) (udpPort : Nat) (x : Payload)
  /-- READ (R333): A READ operation returns an entry's live or shadow value. -/
  | read (src : Source) (op : DictOp)
  /-- WRITE (R323): A WRITE operation to an entry without its own row is checked and stored in the shadow or applied at once. -/
  | write (src : Source) (op : DictOp)
  /-- DESCRIBE (R334): A DESCRIBE operation returns an entry's type, access, persistence, groups and limits. -/
  | describe (src : Source) (op : DictOp)
  /-- MGT_MB_CTL (R339): A write with GO starts a mailbox request. -/
  | mgtMbCtl (value : Nat)
  /-- MGT_CUE (R325): A write strikes a cue that copies shadows to live values for the struck groups and may create a take. -/
  | mgtCue (src : Source) (value : Nat)
  /-- CUE_APPLY (R326): A unit applies the latest live values of its groups at its own boundary. -/
  | cueApply (group : Nat) (x : UnitAt)
  /-- TAKE_REVERT (R328): The live and previous takes swap and cues are struck where they differ. -/
  | takeRevert (src : Source)
  /-- TAKE_DISCARD (R328): Every shadow takes its live value. -/
  | takeDiscard (src : Source)
  /-- TAKE_DEFAULTS (R328): Every TAKE shadow takes its reset value. -/
  | takeDefaults (src : Source)
  /-- TAKE_STORE_WRITE_DONE (R329): A new take image finishes writing to the take store, or fails. -/
  | takeStoreWriteDone (ok : Bool)
  /-- CONFIG_SWEEP_START (R330): MGT_CUE_APPLY is 0 and a configuration sweep starts. -/
  | configSweepStart
  /-- CONFIG_SWEEP_COMPLETE (R330): A sweep ends, writing CFG_CRC_VAL and CFG_CRC_STS. -/
  | configSweepComplete
  /-- CUT_LS_WRITE (R53): A write to CUT_LS_INIT, MIN or MAX is rounded down to a power of two or refused. -/
  | cutLsWrite (src : Source) (sub : Nat) (value : Word)
  /-- PLCA_BEACON (R335): A PLCA beacon is received and T1S_NO_BEACON clears. -/
  | plcaBeacon
  /-- BEACON_TIMEOUT (R335): 100 ms pass without a beacon and T1S_NO_BEACON is set. -/
  | beaconTimeout
  /-- DUPLICATE_ADDRESS_DETECTION (R336): The 10 s timer runs duplicate address detection and updates T1S_ADDR_DUP. -/
  | duplicateAddressDetection (answered : Bool)
  /-- ICMPV6_REQUEST (R336): A Neighbor Solicitation or Echo Request is answered: the requester, the target address of a solicitation, the payload of an echo. -/
  | icmpv6Request (kind : Icmp) (peer : Nat) (payload : List Byte)
  /-- SEC_BOOT_LOCK (R316): A write of 1 by a secure master sets the boot lock. -/
  | secBootLock (src : Source) (value : Nat)
  /-- SEC_POLICY_NEXT (R380): A write stores the policy record for the next power-up. -/
  | secPolicyNext (src : Source) (value : Nat)
  /-- SEC_IDE_CTL (R389): A write enables or disables the IDE stream. -/
  | secIdeCtl (src : Source) (value : Nat)
  /-- SEC_FW_VERIFY (R381): The staged firmware image is checked and written to the idle slot. -/
  | secFwVerify (src : Source)
  /-- SEC_FW_VERIFY_DONE (R381): The firmware check and slot write end as WRITTEN or FAILED. -/
  | secFwVerifyDone
  /-- SEC_FW_SWITCH (R381): The other slot is marked TRIAL and the firmware restarts from it. -/
  | secFwSwitch (src : Source)
  /-- SEC_FW_CLEAR (R381): The staging buffer is emptied. -/
  | secFwClear (src : Source)
  /-- TRIAL_CONFIRM (R382): A TRIAL slot has run 10 s without a restart and becomes preferred. -/
  | trialConfirm
  /-- GET_VERSION (R387): The SPDM responder answers GET_VERSION. -/
  | getVersion
  /-- GET_CAPABILITIES (R387): The SPDM responder answers GET_CAPABILITIES. -/
  | getCapabilities
  /-- NEGOTIATE_ALGORITHMS (R387): The responder selects Falcon-1024 and SHAKE256, or nothing. -/
  | negotiateAlgorithms (asym hash : Bool)
  /-- GET_DIGESTS (R387): The responder returns the digest of certificate slot 0. -/
  | getDigests
  /-- GET_CERTIFICATE (R387): The responder returns the certificate chain of slot 0. -/
  | getCertificate (slot off len : Nat)
  /-- CHALLENGE (R387): The responder signs a challenge with the identity key, or answers ResponseNotReady. -/
  | challenge (slot : Nat) (nonce : List Byte)
  /-- GET_MEASUREMENTS (R388): The responder returns the measurement blocks taken at one instant. -/
  | getMeasurements (index : Nat) (signed : Bool) (nonce : List Byte)
  /-- LANE_LOSS (R282): A fabric lane fails in service: a port on four lanes falls back to three, and a port in UP3 that loses another lane goes DOWN as a port fault. -/
  | laneLoss (lane : Nat)
  /-- INPUT_LOW (R394): The input enters or leaves the band from 36.5 V to 38.0 V, setting or clearing PWR_STS.INPUT_LOW and counting each entry. -/
  | inputLow (enter : Bool)
  /-- PCIE_LINK_DOWN (R389): The PCIe link goes down, which makes the IDE stream Insecure until keys are written again. -/
  | pcieLinkDown
  /-- CHIP_LEVEL_UNIT_FAULT (R32): A fault detected in a chip-level unit other than the always-on domain, such as the flag and norm tree or the clapper, leads to a chip warm reset with cause 0x0C. -/
  | chipLevelUnitFault (detail : Nat)
  /-- FIRMWARE_HEARTBEAT (R347): The restarted management firmware sends its first heartbeat, ending the restart so that messages are answered and cues processed again. -/
  | firmwareHeartbeat
  deriving DecidableEq, Repr

end Sys2Proof
end

