-- ==== Sys2Proof/Decode.lean ====
section
/-!
DEFINITION. Decoding of the table's bits. The table gives no row any bits (its fields are empty), so no word spells a command
(DEDUCED, log entry 13).
-/

namespace Sys2Proof

/-- The command that a word spells by the table's bits: none, since no row has bits. -/
def decodeTableWord (_nbits _w : Nat) : Option Instr := none

end Sys2Proof
end

