-- ==== Sys2Proof/Config.lean ====
section
/-!
DEFINITION. What the spec leaves to the implementation, to manufacture or to the programs' tool chain, and the free
values: constants with no body, so that a claim holds whatever they are.
-/

namespace Sys2Proof

/-- The bits an approximated function returns inside its bound (R102 leaves them open): operation code, operand. The
model uses this value where it holds the bound and a reference value elsewhere (DESIGN CHOICE, log entry 8). -/
opaque Config.approx : Nat → Word → Word

/-- SHAKE256 of a byte string with an output length in bytes (FIPS 202; R375, R385, R387). DESIGN CHOICE, log entry 7. -/
opaque Config.shake256 : List Byte → Nat → List Byte

/-- Falcon-1024 verification of a signature over a message under a public key (R375, R376). DESIGN CHOICE, log entry 7. -/
opaque Config.falconVerify : List Byte → List Byte → List Byte → Bool

/-- The 256-bit device secret of OTP (R373): read by nothing but the derivation of the identity key. DESIGN CHOICE, log entry 14. -/
opaque Config.deviceSecret : Vector Byte 32

/-- Falcon-1024 key generation: the private key of a 48-byte seed (R385). DESIGN CHOICE, log entry 7. -/
opaque Config.falconKey : List Byte → List Byte

/-- Falcon-1024 signature of a message under a private key (R387). DESIGN CHOICE, log entry 7. -/
opaque Config.falconSignWith : List Byte → List Byte → List Byte

/-- The module's identity key (R385): seeded with the 48-byte SHAKE256 output over the device secret and the bytes of "UD4-IDENTITY". -/
def Config.identityKey : List Byte :=
  Config.falconKey (Config.shake256 (Config.deviceSecret.toList
    ++ [0x55, 0x44, 0x34, 0x2D, 0x49, 0x44, 0x45, 0x4E, 0x54, 0x49, 0x54, 0x59]) 48)

/-- The module's signature of a message, under its identity key (R385, R387). -/
def Config.falconSign (m : List Byte) : List Byte := Config.falconSignWith Config.identityKey m

/-- The exponent of the Grader's scaling constant c where its log2(g) is not a number of R193 (g zero or infinite):
free. DESIGN CHOICE, log entry 11. -/
opaque Config.solveScale : Word → Int

/-- Root key digest k, 64 bytes, fused at manufacture (R373). DESIGN CHOICE, log entry 14. -/
opaque Config.rootKeyDigest : Nat → Vector Byte 64

/-- SHAKE256 digest of the boot ROM, 64 bytes, from OTP (R373). DESIGN CHOICE, log entry 14. -/
opaque Config.romDigest : Vector Byte 64

/-- The device certificates of R386 in chain order: root, issuing CA, identity. DESIGN CHOICE, log entry 14. -/
opaque Config.certificate : Nat → List Byte

/-- MGT_SERIAL, up to 64 characters (Table 11-10). DESIGN CHOICE, log entry 14. -/
opaque Config.serial : List Byte

/-- Knalia's vendor ID of the PCI-SIG registry (R387). DESIGN CHOICE, log entry 14. -/
opaque Config.vendorId : BitVec 16

/-- The DMTF value type of measurement block i (bits 6:0 of the type byte): Table 13-3 gives its kind only. DESIGN CHOICE, log entry 16. -/
opaque Config.measType : Nat → BitVec 7

/-- MGT_MAC (Table 11-10). DESIGN CHOICE, log entry 14. -/
opaque Config.mac : BitVec 48

/-- A count of one block of a result that no solve has published since its program was loaded, by header and number: free. DESIGN CHOICE,
log entry 117. -/
opaque Config.carriedFigure : Nat → Nat → Word

/-- Byte `i` of a part of a slate, by the part's number and the numbers it holds: where in the part each stands is open, and so is what it holds
beside them (occupancies, router buffers). DESIGN CHOICE, log entry 19. -/
opaque Config.slateByte : Nat → List Nat → Nat → Byte

/-- A free byte, by its use (0 poisoned memory, 1 packed scales, 3 dumps) and number (DESIGN CHOICE, log entry 15). -/
opaque Config.freeByte : Nat → Nat → Byte

/-- A free 32-bit value, by number (DESIGN CHOICE, log entry 15). -/
opaque Config.freeWord : Nat → Word

end Sys2Proof
end

