-- ==== Sys2Proof/Machine/Bits.lean ====
section
/-!
DEFINITION. Bit fields (R6), byte order and the three cyclic redundancy checks: CRC-32C (R330), CRC-64/ECMA-182
(R238) and the frame CRC-16 (R248).
-/

namespace Sys2Proof.Machine

/-- Bits [msb:lsb] of a number, as R6 writes bit ranges. -/
def bits (w msb lsb : Nat) : Nat := (w / 2 ^ lsb) % 2 ^ (msb + 1 - lsb)

/-- Bit n of a number. -/
def bit (w n : Nat) : Bool := Nat.testBit w n

/-- `w` with bits [msb:lsb] replaced by `v`. -/
def setBits (w msb lsb v : Nat) : Nat :=
  w - bits w msb lsb * 2 ^ lsb + (v % 2 ^ (msb + 1 - lsb)) * 2 ^ lsb

/-- A Bool as a bit. -/
def b2n (b : Bool) : Nat := if b then 1 else 0

/-- Sum of disjoint fields placed at their least significant bits: the way a table's word is put together. -/
def pack (fs : List (Nat × Nat)) : Nat := fs.foldl (fun a f => a + f.2 * 2 ^ f.1) 0

/-- A little-endian byte list as a number. -/
def leNat : List Byte → Nat
  | [] => 0
  | b :: bs => b.toNat + 256 * leNat bs

/-- The `n` little-endian bytes of a number. -/
def leBytes : Nat → Nat → List Byte
  | 0, _ => []
  | n + 1, w => BitVec.ofNat 8 w :: leBytes n (w / 256)

/-- A big-endian byte list as a number. -/
def beNat (bs : List Byte) : Nat := bs.foldl (fun a b => a * 256 + b.toNat) 0

/-- The `n` big-endian bytes of a number. -/
def beBytes (n w : Nat) : List Byte := (leBytes n w).reverse

/-- `n` copies of a byte. -/
def fill (n : Nat) (b : Byte) : List Byte := List.replicate n b

/-- A list cut into pieces of `n` (n ≥ 1), the last one possibly shorter; `fuel` bounds the number of pieces. -/
def chunksAux {α : Type} (n : Nat) : Nat → List α → List (List α)
  | 0, _ => []
  | _ + 1, [] => []
  | fuel + 1, l => l.take n :: chunksAux n fuel (l.drop n)

/-- A list cut into pieces of `n`. -/
def chunks {α : Type} (n : Nat) (l : List α) : List (List α) := chunksAux n l.length l

/-- The signed value of a two's-complement field of `w` bits. -/
def signed (w n : Nat) : Int := if n < 2 ^ (w - 1) then (n : Int) else (n : Int) - 2 ^ w

/-- A clamp of an integer between two bounds. -/
def clampI (lo hi x : Int) : Int := if x < lo then lo else if hi < x then hi else x

/-- One reflected CRC bit step with polynomial `poly`. -/
def crcBitR (poly c : Nat) : Nat := if c % 2 = 1 then (c / 2) ^^^ poly else c / 2

/-- One reflected CRC byte step. -/
def crcByteR (poly c : Nat) (b : Byte) : Nat :=
  let f := crcBitR poly
  f (f (f (f (f (f (f (f (c ^^^ b.toNat))))))))

/-- CRC-32C (Castagnoli), reflected, initial value and final XOR all ones (R330). -/
def crc32c (bs : List Byte) : Nat := (bs.foldl (crcByteR 0x82F63B78) 0xFFFFFFFF) ^^^ 0xFFFFFFFF

/-- One CRC bit step, most significant bit first, width `w`. -/
def crcBitL (w poly c : Nat) : Nat :=
  if c.testBit (w - 1) then (2 * c % 2 ^ w) ^^^ poly else 2 * c % 2 ^ w

/-- One CRC byte step, most significant bit first, width `w`. -/
def crcByteL (w poly c : Nat) (b : Byte) : Nat :=
  let f := crcBitL w poly
  f (f (f (f (f (f (f (f (c ^^^ (b.toNat * 2 ^ (w - 8))))))))))

/-- CRC-64 with the ECMA-182 polynomial, initial value 0, no final XOR (R238). -/
def crc64 (bs : List Byte) : Nat := bs.foldl (crcByteL 64 0x42F0E1EBA9EA3693) 0

/-- CRC-16 with polynomial 0x1021, initial value 0xFFFF, no reflection, no final XOR (R248). -/
def crc16 (bs : List Byte) : Nat := bs.foldl (crcByteL 16 0x1021) 0xFFFF

end Sys2Proof.Machine
end

