-- ==== Sys2Proof/Machine/Float.lean ====
section
/-!
DEFINITION. FP32 and BF16 arithmetic of 02_arithmetic.md: exact intermediates, one round-to-nearest-even (R58),
subnormals flushed on input and output (R63), canonical NaNs (R43), and the sticky status of every operation (R64).
-/

namespace Sys2Proof.Machine

/-- INV. -/
def stINV : Sts := 0x001
/-- NAN_IN. -/
def stNANIN : Sts := 0x002
/-- INF. -/
def stINF : Sts := 0x004
/-- OVF. -/
def stOVF : Sts := 0x008
/-- SAT. -/
def stSAT : Sts := 0x010
/-- FTZ_IN. -/
def stFTZIN : Sts := 0x020
/-- FTZ_OUT. -/
def stFTZOUT : Sts := 0x040
/-- DROPALL. -/
def stDROPALL : Sts := 0x080
/-- VRANGE. -/
def stVRANGE : Sts := 0x100
/-- CNTCLAMP. -/
def stCNTCLAMP : Sts := 0x200

/-- A status when a condition holds. -/
def stIf (c : Bool) (s : Sts) : Sts := if c then s else 0

/-- `n / d` rounded to the nearest integer, ties to even (d > 0). -/
def rneDiv (n d : Nat) : Nat :=
  let q := n / d
  let r := n % d
  if 2 * r < d then q else if d < 2 * r then q + 1 else if q % 2 = 0 then q else q + 1

/-- Floor of the base-2 logarithm of the positive rational `n / d`. -/
def ilog2Q (n d : Nat) : Int :=
  let e : Int := (Nat.log2 n : Int) - (Nat.log2 d : Int)
  -- n / d lies in (2^(e-1), 2^(e+1))
  let ge : Bool := if 0 ≤ e then decide (d * 2 ^ e.toNat ≤ n) else decide (d ≤ n * 2 ^ (-e).toNat)
  if ge then e else e - 1

/-- The positive rational `(n / d) * 2^k` rounded to nearest even to a multiple of `2^q`: the multiple's factor. -/
def rneAt (n d : Nat) (k q : Int) : Nat :=
  let s := k - q
  if 0 ≤ s then rneDiv (n * 2 ^ s.toNat) d else rneDiv n (d * 2 ^ (-s).toNat)

/-- `(n / d) * 2^k` (n, d > 0) rounded to nearest even to `p` significant bits with an unbounded exponent:
a factor below `2^p` and its exponent. -/
def rneP (p : Nat) (n d : Nat) (k : Int) : Nat × Int :=
  let q := ilog2Q n d + k - ((p : Int) - 1)
  let m := rneAt n d k q
  if m = 2 ^ p then (2 ^ (p - 1), q + 1) else (m, q)

/-- The canonical FP32 NaN (R43). -/
def nan32 : Word := 0x7FC00000

/-- FP32 infinity of a sign. -/
def inf32 (neg : Bool) : Word := if neg then 0xFF800000 else 0x7F800000

/-- FP32 zero of a sign. -/
def zero32 (neg : Bool) : Word := if neg then 0x80000000 else 0

/-- A rational with sign, rounded and flushed into the 1-8-mant layout with `mant` mantissa bits (23 FP32, 7 BF16):
overflow gives an infinity and sets OVF, a non-zero value whose rounded magnitude is below 2^-126 gives a zero of
its sign and sets FTZ_OUT (R58, R63). -/
def packRnd (mant : Nat) (neg : Bool) (n d : Nat) (k : Int) : Nat × Sts :=
  let sgn := b2n neg * 2 ^ (mant + 8)
  if n = 0 then (sgn, 0)
  else
    let r := rneP (mant + 1) n d k
    let e := r.2 + mant            -- unbiased exponent of the rounded value
    if e < -126 then (sgn, stFTZOUT)
    else if 127 < e then (sgn + 255 * 2 ^ mant, stOVF)
    else (sgn + (e + 127).toNat * 2 ^ mant + (r.1 - 2 ^ mant), 0)

/-- An exact number written as FP32: one rounding, flushing, canonical NaN. -/
def wr32 : Num → Word × Sts
  | .nan => (nan32, 0)
  | .inf s => (inf32 s, 0)
  | .fin s m e => let r := packRnd 23 s m 1 e; (BitVec.ofNat 32 r.1, r.2)

/-- A signed rational written as FP32. -/
def wrQ32 (neg : Bool) (n d : Nat) (k : Int) : Word × Sts :=
  let r := packRnd 23 neg n d k; (BitVec.ofNat 32 r.1, r.2)

/-- An FP32 pattern as a number, subnormals read as zero with their sign (R63): no status. -/
def val32 (w : Word) : Num :=
  let n := w.toNat
  let s := n.testBit 31
  let e := bits n 30 23
  let m := bits n 22 0
  if e = 255 then (if m = 0 then .inf s else .nan)
  else if e = 0 then .fin s 0 0
  else .fin s (m + 2 ^ 23) ((e : Int) - 150)

/-- The status that reading an FP32 operand raises: NAN_IN for a NaN, FTZ_IN for a subnormal (R63, R64). -/
def rdSts32 (w : Word) : Sts :=
  let n := w.toNat
  let e := bits n 30 23
  let m := bits n 22 0
  if m = 0 then 0 else if e = 255 then stNANIN else if e = 0 then stFTZIN else 0

/-- Whether an FP32 pattern is infinite or NaN. -/
def nonfinite32 (w : Word) : Bool := bits w.toNat 30 23 == 255

/-- Whether an FP32 pattern is a NaN. -/
def isNaN32 (w : Word) : Bool := bits w.toNat 30 23 == 255 && bits w.toNat 22 0 != 0

/-- The exact product of two numbers, and INV for zero times infinity. -/
def mulNum : Num → Num → Num × Sts
  | .nan, _ => (.nan, 0)
  | _, .nan => (.nan, 0)
  | .inf s, .inf t => (.inf (s != t), 0)
  | .inf s, .fin t m _ => if m = 0 then (.nan, stINV) else (.inf (s != t), 0)
  | .fin s m _, .inf t => if m = 0 then (.nan, stINV) else (.inf (s != t), 0)
  | .fin s m e, .fin t n f => (.fin (s != t) (m * n) (e + f), 0)

/-- The signed integer of a number's significand on the grid of weight `2^q` (q at most its exponent). -/
def onGrid (neg : Bool) (m : Nat) (e q : Int) : Int :=
  let v : Int := ((m * 2 ^ (e - q).toNat : Nat) : Int)
  if neg then -v else v

/-- The exact sum of two numbers (round to nearest: an exact zero of opposite signs is +0), and INV for
infinity minus infinity. -/
def addNum : Num → Num → Num × Sts
  | .nan, _ => (.nan, 0)
  | _, .nan => (.nan, 0)
  | .inf s, .inf t => if s = t then (.inf s, 0) else (.nan, stINV)
  | .inf s, .fin _ _ _ => (.inf s, 0)
  | .fin _ _ _, .inf t => (.inf t, 0)
  | .fin s m e, .fin t n f =>
    if m = 0 then (if n = 0 then (.fin (s && t) 0 0, 0) else (.fin t n f, 0))
    else if n = 0 then (.fin s m e, 0)
    else
      let q := min e f
      let v := onGrid s m e q + onGrid t n f q
      (.fin (decide (v < 0)) v.natAbs q, 0)

/-- A number negated. -/
def negNum : Num → Num
  | .nan => .nan
  | .inf s => .inf (!s)
  | .fin s m e => .fin (!s) m e

/-- A number scaled by a power of two, exactly. -/
def scaleNum (k : Int) : Num → Num
  | .nan => .nan
  | .inf s => .inf s
  | .fin s m e => .fin s m (e + k)

/-- a + b in FP32: ftz(rne32(a + b)). -/
def add32 (a b : Word) : Word × Sts :=
  let s := addNum (val32 a) (val32 b)
  let r := wr32 s.1
  (r.1, r.2 ||| s.2 ||| rdSts32 a ||| rdSts32 b)

/-- The FP32 pattern with its sign turned, NaN canonical. -/
def neg32 (a : Word) : Word := if isNaN32 a then nan32 else (wr32 (negNum (val32 a))).1

/-- |a| in FP32, NaN canonical. -/
def abs32 (a : Word) : Word :=
  if isNaN32 a then nan32
  else match val32 a with
    | .nan => nan32
    | .inf _ => inf32 false
    | .fin _ m e => (wr32 (.fin false m e)).1

/-- a - b in FP32. -/
def sub32 (a b : Word) : Word × Sts :=
  let s := addNum (val32 a) (negNum (val32 b))
  let r := wr32 s.1
  (r.1, r.2 ||| s.2 ||| rdSts32 a ||| rdSts32 b)

/-- a × b in FP32: ftz(rne32(a × b)). -/
def mul32 (a b : Word) : Word × Sts :=
  let p := mulNum (val32 a) (val32 b)
  let r := wr32 p.1
  (r.1, r.2 ||| p.2 ||| rdSts32 a ||| rdSts32 b)

/-- a × b + c in FP32 with one rounding (R59). Zero × infinity sets INV also where c is a NaN (DESIGN CHOICE, log entry 103). -/
def fma32 (a b c : Word) : Word × Sts :=
  let p := mulNum (val32 a) (val32 b)
  let s := addNum p.1 (val32 c)
  let r := wr32 s.1
  (r.1, r.2 ||| s.2 ||| p.2 ||| rdSts32 a ||| rdSts32 b ||| rdSts32 c)

/-- −(a × b) + c in FP32 with one rounding; INV as fma32 sets it (log entry 103). -/
def fnma32 (a b c : Word) : Word × Sts :=
  let p := mulNum (val32 a) (val32 b)
  let s := addNum (negNum p.1) (val32 c)
  let r := wr32 s.1
  (r.1, r.2 ||| s.2 ||| p.2 ||| rdSts32 a ||| rdSts32 b ||| rdSts32 c)

/-- a / b in FP32, correctly rounded (R101): a finite non-zero dividend over ±0 gives ±inf and sets INF; 0 / 0 and
inf / inf give NaN and set INV. -/
def div32 (a b : Word) : Word × Sts :=
  let st := rdSts32 a ||| rdSts32 b
  match val32 a, val32 b with
  | .nan, _ => (nan32, st)
  | _, .nan => (nan32, st)
  | .inf _, .inf _ => (nan32, st ||| stINV)
  | .inf s, .fin t _ _ => (inf32 (s != t), st)
  | .fin s _ _, .inf t => (zero32 (s != t), st)
  | .fin s m e, .fin t n f =>
    if n = 0 then (if m = 0 then (nan32, st ||| stINV) else (inf32 (s != t), st ||| stINF))
    else
      let r := wrQ32 (s != t) m n (e - f)
      (r.1, r.2 ||| st)

/-- One bit of an integer square root: `r` grows by `2^i` if the square still fits. -/
def isqrtAux (n : Nat) : Nat → Nat → Nat
  | 0, r => r
  | i + 1, r => if (r + 2 ^ i) * (r + 2 ^ i) ≤ n then isqrtAux n i (r + 2 ^ i) else isqrtAux n i r

/-- Floor of the square root. -/
def isqrt (n : Nat) : Nat := isqrtAux n (Nat.log2 n / 2 + 1) 0

/-- √(m × 2^e) for m > 0 as a significand with 30 or more bits and a sticky last bit: enough for one correct
rounding to 24 bits. -/
def sqrtParts (m : Nat) (e : Int) : Nat × Int :=
  let k : Int := 64 + (e % 2)                -- make the exponent even after widening
  let n := m * 2 ^ k.toNat
  let h := (e - k) / 2
  let r := isqrt n
  (2 * r + (if r * r = n then 0 else 1), h - 1)

/-- √a in FP32, correctly rounded (R101): below −0 gives NaN and sets INV; √−0 is −0. -/
def sqrt32 (a : Word) : Word × Sts :=
  let st := rdSts32 a
  match val32 a with
  | .nan => (nan32, st)
  | .inf s => if s then (nan32, st ||| stINV) else (inf32 false, st)
  | .fin s m e =>
    if m = 0 then (zero32 s, st)
    else if s then (nan32, st ||| stINV)
    else
      let p := sqrtParts m e
      let r := wr32 (.fin false p.1 p.2)
      (r.1, r.2 ||| st)

/-- 1/√a in FP32, rounded once; of ±0 an infinity, below zero NaN. -/
def rsqrt32 (a : Word) : Word :=
  match val32 a with
  | .nan => nan32
  | .inf s => if s then nan32 else 0
  | .fin s m e =>
    if m = 0 then inf32 s
    else if s then nan32
    else
      let k : Int := 128 + e % 2
      let n := 2 ^ k.toNat
      let r := isqrt (n / m)
      (wr32 (.fin false (2 * r + (if r * r * m = n then 0 else 1)) (-(k + e) / 2 - 1))).1

/-- (a + b) × 0.5 in FP32, rounded once. -/
def halfSum32 (a b : Word) : Word := (wr32 (scaleNum (-1) (addNum (val32 a) (val32 b)).1)).1

/-- a × x + b × y in FP32, rounded once. -/
def lin32 (a x b y : Word) : Word := (wr32 (addNum (mulNum (val32 a) (val32 x)).1 (mulNum (val32 b) (val32 y)).1).1).1

/-- The order key of a non-NaN FP32 pattern: −0 below +0, subnormals as zeros. -/
def key32 (w : Word) : Int :=
  let v := if bits w.toNat 30 23 = 0 then 0 else bits w.toNat 30 0
  if w.toNat.testBit 31 then -(v : Int) * 2 - 1 else (v : Int) * 2

/-- Strictly less as numbers (−0 equals +0), for non-NaN operands. -/
def lt32 (a b : Word) : Bool :=
  let m (w : Word) : Int :=
    let v := if bits w.toNat 30 23 = 0 then 0 else bits w.toNat 30 0
    if w.toNat.testBit 31 then -(v : Int) else v
  decide (m a < m b)

/-- Equal as numbers (−0 equals +0), for non-NaN operands. -/
def eq32 (a b : Word) : Bool := !lt32 a b && !lt32 b a

/-- Flushed FP32 operand of MIN, MAX and the lane operations: a subnormal becomes zero with its sign. -/
def flush32 (a : Word) : Word :=
  if isNaN32 a then nan32 else if bits a.toNat 30 23 = 0 then zero32 (a.toNat.testBit 31) else a

/-- MAX under FP32 (R101): −0 below +0; one NaN operand gives the other one; two give the canonical NaN. -/
def max32 (a b : Word) : Word × Sts :=
  let st := rdSts32 a ||| rdSts32 b
  if isNaN32 a then (if isNaN32 b then nan32 else flush32 b, st)
  else if isNaN32 b then (flush32 a, st)
  else (if key32 a < key32 b then flush32 b else flush32 a, st)

/-- MIN under FP32 (R101). -/
def min32 (a b : Word) : Word × Sts :=
  let st := rdSts32 a ||| rdSts32 b
  if isNaN32 a then (if isNaN32 b then nan32 else flush32 b, st)
  else if isNaN32 b then (flush32 a, st)
  else (if key32 b < key32 a then flush32 b else flush32 a, st)

/-- A finite number rounded to the nearest integer, ties to even. -/
def rneInt (neg : Bool) (m : Nat) (e : Int) : Int :=
  let v : Nat := if 0 ≤ e then m * 2 ^ e.toNat else rneDiv m (2 ^ (-e).toNat)
  if neg then -(v : Int) else v

/-- An integer as a number. -/
def intNum (i : Int) : Num := .fin (decide (i < 0)) i.natAbs 0

/-- An integer in FP32, rounded to nearest even. -/
def ofInt32 (i : Int) : Word := (wr32 (intNum i)).1

/-- The nearest representable FP32 pattern of a power of two inside the normal range. -/
def pow2_32 (e : Int) : Word := (wr32 (.fin false 1 e)).1

/-- Clamp of a positive FP32 value between 2^-126 and the largest finite value (R49). -/
def clampScale (w : Word) : Word :=
  if isNaN32 w then w
  else if lt32 w 0x00800000 then 0x00800000
  else if lt32 0x7F7FFFFF w then 0x7F7FFFFF
  else w

/-- The largest power of two not above a positive finite FP32 value, a subnormal one included (R53). -/
def floorPow2 (w : Word) : Word :=
  BitVec.ofNat 32 (if bits w.toNat 30 23 = 0 then 2 ^ Nat.log2 w.toNat else bits w.toNat 30 23 * 2 ^ 23)

end Sys2Proof.Machine
end

