-- ==== Sys2Proof/Machine/Formats.lean ====
section
/-!
DEFINITION. The element formats of Table 2-1 (R40, R41), packing (R42), quantising (R50) and the conversions of R58.
-/

namespace Sys2Proof.Machine

/-- The format of an FMT code; none for a reserved code (R7, R8). -/
def fmtOf : Nat → Option Fmt
  | 0x0 => some .fp32 | 0x1 => some .bf16 | 0x2 => some .e4m3 | 0x3 => some .e5m2 | 0x4 => some .e3m2
  | 0x5 => some .e2m3 | 0x6 => some .e2m1 | 0x8 => some .int8 | 0x9 => some .int32 | 0xA => some .mask
  | _ => none

/-- Width of an element in bits (Table 0-2). -/
def fmtBits : Fmt → Nat
  | .fp32 => 32 | .bf16 => 16 | .e4m3 => 8 | .e5m2 => 8 | .e3m2 => 6 | .e2m3 => 6 | .e2m1 => 4
  | .int8 => 8 | .int32 => 32 | .mask => 1

/-- Exponent bits, mantissa bits and bias of the floating-point formats (Table 2-1). -/
def fmtLayout : Fmt → Nat × Nat × Int
  | .fp32 => (8, 23, 127) | .bf16 => (8, 7, 127) | .e4m3 => (4, 3, 7) | .e5m2 => (5, 2, 15)
  | .e3m2 => (3, 2, 3) | .e2m3 => (2, 3, 1) | .e2m1 => (2, 1, 1)
  | .int8 => (0, 7, 0) | .int32 => (0, 31, 0) | .mask => (0, 1, 0)

/-- FP8, FP6 and FP4: the formats that carry block scales (R44). -/
def isNarrow : Fmt → Bool
  | .e4m3 | .e5m2 | .e3m2 | .e2m3 | .e2m1 => true
  | .fp32 | .bf16 | .int8 | .int32 | .mask => false

/-- The floating-point formats. -/
def isFloat : Fmt → Bool
  | .int8 | .int32 | .mask => false
  | .fp32 | .bf16 | .e4m3 | .e5m2 | .e3m2 | .e2m3 | .e2m1 => true

/-- The formats whose tensors carry a coarse scale (R44). -/
def isScaled (f : Fmt) : Bool := isNarrow f || f == .int8

/-- Block bytes of a 32 × 32 block (R128). -/
def blockBytes (f : Fmt) : Nat := fmtBits f * 128

/-- Largest finite value as a significand with all its mantissa bits and the exponent of the last of them (Table 2-1); 127 for
INT8 (R49). -/
def fmtMax : Fmt → Nat × Int
  | .fp32 => (2 ^ 24 - 1, 104) | .bf16 => (255, 120) | .e4m3 => (14, 5) | .e5m2 => (7, 13)
  | .e3m2 => (7, 2) | .e2m3 => (15, -1) | .e2m1 => (3, 1) | .int8 => (127, 0) | .int32 => (2 ^ 31 - 1, 0)
  | .mask => (1, 0)

/-- An element code as a number (R40, R41), its exponent that of the last of its mantissa bits, as the grid of R55
asks. BF16 and FP32 subnormals read as zero. A mask is 1 or 0. -/
def decodeElem (f : Fmt) (c : Nat) : Num :=
  match f with
  | .fp32 => val32 (BitVec.ofNat 32 c)
  | .bf16 =>
    match val32 (BitVec.ofNat 32 (c * 65536)) with
    | .fin s m e => .fin s (m / 65536) (e + 16)
    | x => x
  | .int8 => intNum (signed 8 (c % 256))
  | .int32 => intNum (signed 32 (c % 2 ^ 32))
  | .mask => .fin false (c % 2) 0
  | _ =>
    let l := fmtLayout f
    let s := c.testBit (l.1 + l.2.1)
    let e := bits c (l.1 + l.2.1 - 1) l.2.1
    let m := c % 2 ^ l.2.1
    if f = .e4m3 ∧ e = 15 ∧ m = 7 then .nan
    else if f = .e5m2 ∧ e = 31 then (if m = 0 then .inf s else .nan)
    else if e = 0 then .fin s m (1 - l.2.2 - l.2.1)
    else .fin s (m + 2 ^ l.2.1) ((e : Int) - l.2.2 - l.2.1)

/-- The status that reading an element raises: FTZ_IN for FP32 and BF16 subnormals, NAN_IN for a NaN. -/
def elemSts (f : Fmt) (c : Nat) : Sts :=
  match f with
  | .fp32 => rdSts32 (BitVec.ofNat 32 c)
  | .bf16 => rdSts32 (BitVec.ofNat 32 (c * 65536))
  | _ => if decodeElem f c = .nan then stNANIN else 0

/-- Canonical NaN codes (R43). -/
def nanCode : Fmt → Nat
  | .fp32 => 0x7FC00000 | .bf16 => 0x7FC0 | .e4m3 => 0x7F | .e5m2 => 0x7E | _ => 0

/-- A finite number to a narrow format: round to nearest even, subnormals honoured, ± max finite when the rounded
magnitude exceeds it (SAT) (R50 rne_sat, R58). -/
def rneSat (f : Fmt) (neg : Bool) (m : Nat) (e : Int) : Nat × Sts :=
  let l := fmtLayout f
  let sgn := b2n neg * 2 ^ (l.1 + l.2.1)
  if m = 0 then (sgn, 0)
  else
    let minExp : Int := 1 - l.2.2                       -- exponent of the least normal
    let top := ilog2Q m 1 + e
    let q := (if top < minExp then minExp else top) - l.2.1
    let r := rneAt m 1 e q                              -- factor of 2^q, up to 2^(mant+1)
    let mx := fmtMax f
    -- r * 2^q against mx.1 * 2^mx.2
    let lo := min q mx.2
    if mx.1 * 2 ^ (mx.2 - lo).toNat < r * 2 ^ (q - lo).toNat then
      -- ± max finite
      let q' := ilog2Q mx.1 1 + mx.2
      let mm := mx.1 * 2 ^ (mx.2 - (q' - l.2.1)).toNat
      (sgn + (q' + l.2.2).toNat * 2 ^ l.2.1 + (mm - 2 ^ l.2.1), stSAT)
    else if r < 2 ^ l.2.1 then (sgn + r, 0)             -- subnormal or zero
    else
      -- a carry into the next binade adds into the exponent field by itself
      (sgn + (q + l.2.1 + l.2.2).toNat * 2 ^ l.2.1 + (r - 2 ^ l.2.1), 0)

/-- The code of a non-finite value in a narrow or INT8 tensor (R50, nonfinite_code). -/
def nonfiniteCode (f : Fmt) : Num → Nat
  | .inf s => if f = .e5m2 then b2n s * 128 + 0x7C else nanCode f
  | _ => nanCode f

/-- Whether a format has neither infinity nor NaN. -/
def noNonfinite : Fmt → Bool
  | .e3m2 | .e2m3 | .e2m1 => true
  | _ => false

/-- FP32 or BF16 from an FP32 pattern by R58 (BF16 rounds once more; NaN canonical). -/
def toBf16 (w : Word) : Nat × Sts :=
  match val32 w with
  | .nan => (0x7FC0, rdSts32 w)
  | .inf s => (b2n s * 32768 + 0x7F80, 0)
  | .fin s m e => let r := packRnd 7 s m 1 e; (r.1, r.2 ||| rdSts32 w)

/-- FP32 to an integer range, round to nearest even, saturating (SAT); a non-finite value gives `nf`. -/
def toIntSat (lo hi : Int) (w : Word) : Int × Sts :=
  match val32 w with
  | .nan => (0, rdSts32 w)
  | .inf _ => (0, 0)
  | .fin s m e =>
    let i := rneInt s m e
    (clampI lo hi i, rdSts32 w ||| stIf (i < lo || hi < i) stSAT)

/-- Element codes of a block row packed into bytes, little-endian (R42). -/
def packElems (f : Fmt) (cs : List Nat) : List Byte :=
  let w := fmtBits f
  let total := cs.foldr (fun c acc => c % 2 ^ w + acc * 2 ^ w) 0
  leBytes ((cs.length * w + 7) / 8) total

/-- Element `i` of a packed byte stream (R42). FP6 groups of four fill three bytes, so the bit offset is `6 i` in
every group too. -/
def elemAt (f : Fmt) (bs : List Byte) (i : Nat) : Nat :=
  let w := fmtBits f
  bits (leNat ((bs.drop (i * w / 8)).take ((w + 7) / 8 + 1))) (i * w % 8 + w - 1) (i * w % 8)

/-- The number of elements a block read as: every element of a block whose scale is 0xFF is NaN (R45). -/
def scaledElem (f : Fmt) (scale : Nat) (c : Nat) : Num :=
  if isNarrow f && scale == 0xFF then .nan else decodeElem f c

/-- The quantised 32-value block of R50: element codes, scale code, status, the indices that are non-finite as
written, and the finite maximum |x| before scaling. -/
structure QBlock where
  codes : List Nat
  scale : Nat
  sts : Sts
  nonfinite : List Bool
  amax : Word
  deriving DecidableEq, Repr

/-- The elements of a block that read as non-finite as written (R66): under a scale of 0xFF all 32 that it covers. -/
def QBlock.count (q : QBlock) : Nat := if q.scale = 0xFF then 32 else (q.nonfinite.filter id).length

/-- |y| of a finite FP32 value as significand and exponent; none for a non-finite one. -/
def finAbs (w : Word) : Option (Nat × Int) :=
  match val32 w with
  | .fin _ m e => some (m, e)
  | _ => none

/-- The smallest e with b ≤ fmt_max × 2^e, clamped to −127..127; −127 when b = 0 (R50). -/
def blockExp (f : Fmt) (b : Word) : Int :=
  match finAbs b with
  | none => -127
  | some (m, e) =>
    if m = 0 then -127
    else
      let mx := fmtMax f
      -- ratio m*2^e / (mx*2^me); smallest k with ratio ≤ 2^k
      let k := ilog2Q m mx.1 + (e - mx.2)
      let d := k - (e - mx.2)
      let exact : Bool :=
        if 0 ≤ d then decide (m = mx.1 * 2 ^ d.toNat) else decide (m * 2 ^ (-d).toNat = mx.1)
      clampI (-127) 127 (if exact then k else k + 1)

/-- The largest finite absolute value of a list, 0 if none. -/
def amax32 (ys : List Word) : Word :=
  ys.foldl (fun a y => if nonfinite32 y then a else let y' := abs32 y; if lt32 a y' then y' else a) 0

/-- The largest |x| over the elements written as finite ones: an element whose x × (1/C) or rounding overflows counts
as non-finite under R48, whatever x was (R50). -/
def amaxOf (xs : List Word) (nf : List Bool) : Word :=
  amax32 (((xs.zip nf).filter (fun p => !p.2)).map (·.1))

/-- A coarse scale, or its reciprocal, as it is applied: infinite or NaN, it is a NaN input (R45). -/
def coarseIn (c : Word) : Word := if nonfinite32 c then nan32 else c

/-- quantise_block of R50 for the narrow floating-point formats, with the reciprocal `rcp` of the coarse scale. The finite elements of a
block whose scale is written 0xFF count for CUR_AMAX (DESIGN CHOICE, log entry 69). -/
def quantBlock (f : Fmt) (rcp : Word) (xs : List Word) : QBlock :=
  let ys := xs.map (fun x => mul32 x (coarseIn rcp))
  let yv := ys.map (·.1)
  let e := blockExp f (amax32 yv)
  let qs := yv.map (fun y => match val32 y with
    | .fin s m k => rneSat f s m (k - e)
    | v => (nonfiniteCode f v, 0))
  let nf := yv.map nonfinite32
  let any := nf.any id
  let bad := any && noNonfinite f
  { codes := qs.map (·.1)
    scale := if bad then 0xFF else (e + 127).toNat
    sts := ys.foldl (fun a y => a ||| y.2) 0 ||| qs.foldl (fun a q => a ||| q.2) 0
      ||| stIf (yv.any (fun y => nonfinite32 y && !isNaN32 y)) stINF
    nonfinite := if bad then xs.map (fun _ => true) else nf
    amax := amaxOf xs nf }

/-- The other destinations of R50: INT8 with the coarse scale, INT32, BF16 and FP32 without a scale. -/
def quantPlain (f : Fmt) (rcp : Word) (xs : List Word) : QBlock :=
  let ys := if f = .int8 then xs.map (fun x => mul32 x (coarseIn rcp)) else xs.map (fun x => (x, 0))
  let one (y : Word) : Nat × Sts :=
    match f with
    | .int8 => let r := toIntSat (-128) 127 y; (((r.1 + 256) % 256).toNat, r.2)
    | .int32 => let r := toIntSat (-(2 ^ 31)) (2 ^ 31 - 1) y; (((r.1 + 2 ^ 32) % 2 ^ 32).toNat, r.2)
    | .bf16 => toBf16 y
    | _ => ((flush32 y).toNat, rdSts32 y)
  let qs := ys.map (fun y => one y.1)
  -- a BF16 rounding can itself overflow to infinity (R58): an element counts as it reads as written (R66)
  let nf := (ys.zip qs).map (fun p => match f with
    | .bf16 => nonfinite32 p.1.1 || bits p.2.1 14 7 == 255
    | _ => nonfinite32 p.1.1)
  { codes := qs.map (·.1)
    scale := 127
    sts := ys.foldl (fun a y => a ||| y.2) 0 ||| qs.foldl (fun a q => a ||| q.2) 0
      ||| stIf ((nf.zip ys).any (fun p => p.1 && !isNaN32 p.2.1)) stINF
    nonfinite := nf
    amax := amaxOf xs nf }

/-- Quantise up to 32 values into a destination format (R50). -/
def quant (f : Fmt) (rcp : Word) (xs : List Word) : QBlock :=
  if isNarrow f then quantBlock f rcp xs else quantPlain f rcp xs

/-- An operand element entering a vector lane as an FP32 pattern: q × 2^(e−127) × C with one rounding (R97). A NaN of an FP32 or BF16
input enters as the canonical NaN (R43: no NaN's payload is propagated; DEDUCED, log entry 102). -/
def dequant (f : Fmt) (scale : Nat) (coarse : Word) (c : Nat) : Word × Sts :=
  match f with
  | .fp32 => let w := BitVec.ofNat 32 c
             (if isNaN32 w then nan32 else flush32 w, rdSts32 w)
  | .bf16 => let w := BitVec.ofNat 32 (c * 65536)
             (if isNaN32 w then nan32 else flush32 w, rdSts32 w)
  | .int32 => (BitVec.ofNat 32 c, 0)
  | .mask => (if c % 2 = 1 then 0xFFFFFFFF else 0, 0)
  | _ =>
    let q := scaledElem f scale c
    let q' := if isNarrow f then scaleNum ((scale : Int) - 127) q else q
    let c := coarseIn coarse
    let p := mulNum q' (val32 c)
    let r := wr32 p.1
    (r.1, r.2 ||| p.2 ||| rdSts32 c ||| stIf (q == .nan) stNANIN)

end Sys2Proof.Machine
end

