-- ==== Sys2Proof/Machine/Layouts.lean ====
section
/-!
DEFINITION. The layouts that a program carries, taken apart field by field: tile descriptors (Table 3-8), chain
descriptors (Tables 4-4, 4-5), segment entries (Table 5-3), work item headers (Table 6-1). A descriptor is read as one
little-endian number, so that bit 0 of a table is bit 0 of the first byte.
-/

namespace Sys2Proof.Machine

/-- Tile operation descriptor (Table 3-8, R90). Steps are in 64-byte units. -/
structure TileDesc where
  opc : Nat
  fmtS : Nat
  fmtT : Nat
  fmtO : Nat
  srcS : Nat
  portMap : Nat
  accInit : Nat
  drain : Nat
  arrEn : Nat
  transS : Bool
  transT : Bool
  axisS : Bool
  axisT : Bool
  axisO : Bool
  chgEn : Bool
  mtBlks : Nat
  gramRow0 : Nat
  gramCol : Nat
  kBlks : Nat
  sAddr : Nat
  sKstep : Nat
  sMstep : Nat
  tAddr : Nat
  tKstep : Nat
  oAddr : Nat
  oMstep : Nat
  recAddr : Nat
  auxAddr : Nat
  fmapAddr : Nat
  altAddr : Nat
  emaBeta : Word
  emaAlpha : Word
  reserved : Bool
  deriving DecidableEq, Repr

/-- The tile descriptor of a 512-bit number. -/
def tileDesc (w : Nat) : TileDesc :=
  { opc := bits w 511 504, fmtS := bits w 503 500, fmtT := bits w 499 496, fmtO := bits w 495 492
    srcS := bits w 491 490, portMap := bits w 489 488, accInit := bits w 487 486, drain := bits w 485 484
    arrEn := bits w 483 480, transS := bit w 479, transT := bit w 478, axisS := bit w 477, axisT := bit w 476
    axisO := bit w 475, chgEn := bit w 473, mtBlks := bits w 471 468, gramRow0 := bits w 467 456
    gramCol := bits w 455 444, kBlks := bits w 443 428, sAddr := bits w 427 388, sKstep := bits w 387 368
    sMstep := bits w 367 348, tAddr := bits w 347 308, tKstep := bits w 307 288, oAddr := bits w 287 248
    oMstep := bits w 247 228, recAddr := bits w 227 188, auxAddr := bits w 187 148, fmapAddr := bits w 147 108
    altAddr := bits w 107 68, emaBeta := BitVec.ofNat 32 (bits w 67 36), emaAlpha := BitVec.ofNat 32 (bits w 35 4)
    reserved := bit w 474 || bit w 472 || bits w 3 0 != 0 }

/-- Chain stage word (Table 4-5). -/
structure Stage where
  op : Nat
  sa : Nat
  sb : Nat
  sc : Nat
  mod : Nat
  ty : Nat
  imm : Word
  reserved : Bool
  deriving DecidableEq, Repr

/-- The stage of a 64-bit word. -/
def stageOf (w : Nat) : Stage :=
  { op := bits w 63 56, sa := bits w 55 52, sb := bits w 51 48, sc := bits w 47 44, mod := bits w 43 40
    ty := bits w 39 38, imm := BitVec.ofNat 32 (bits w 31 0), reserved := bits w 37 32 != 0 }

/-- Chain descriptor header and its stages (Table 4-4, R104). -/
structure ChainDesc where
  opc : Nat
  nstg : Nat
  inEn : Nat
  outEn : Nat
  inMode : List Nat
  outMode : List Nat
  destO0 : Bool
  redMode : Nat
  redOp : Nat
  fmtI : List Nat
  fmtO : List Nat
  msrc : Nat
  nElem : Nat
  rowLen : Nat
  inAddr : List Nat
  outAddr : List Nat
  redAddr : Nat
  recAddr : List Nat
  cntAddr : Nat
  redSrc : Nat
  osrc : List Nat
  vlen : Nat
  cntIn : Bool
  reserved : Bool
  stages : List Stage
  deriving DecidableEq, Repr

/-- The chain descriptor of a 1,024-bit number: header in the low 512 bits, stage word s at bit 512 + 64 s. Stage
words beyond NSTG are ignored (R104); `nstg` is the number of stages. -/
def chainDesc (w : Nat) : ChainDesc :=
  { opc := bits w 511 504, nstg := bits w 503 501 + 1, inEn := bits w 500 498, outEn := bits w 497 496
    inMode := [bits w 495 494, bits w 493 492, bits w 491 490], outMode := [bits w 489 488, bits w 487 486]
    destO0 := bit w 485, redMode := bits w 484 483, redOp := bits w 482 480
    fmtI := [bits w 479 476, bits w 475 472, bits w 471 468], fmtO := [bits w 467 464, bits w 463 460]
    msrc := bits w 459 456, nElem := bits w 455 424, rowLen := bits w 423 404
    inAddr := [bits w 403 364, bits w 363 324, bits w 323 284], outAddr := [bits w 283 244, bits w 243 204]
    redAddr := bits w 203 164, recAddr := [bits w 163 124, bits w 123 84], cntAddr := bits w 83 44
    redSrc := bits w 43 41, osrc := [bits w 40 38, bits w 37 35], vlen := 8 * 2 ^ bits w 34 33
    cntIn := bit w 32, reserved := bits w 31 0 != 0
    stages := (List.range (bits w 503 501 + 1)).map (fun s => stageOf (bits w (512 + 64 * s + 63) (512 + 64 * s))) }

/-- Segment entry (Table 5-3). -/
structure Seg where
  valid : Bool
  kind : Nat
  tier : Bool
  spilled : Bool
  pin : Bool
  fmt : Nat
  cell0 : Nat
  ncell : Nat
  span : Nat
  size : Nat
  base : Nat
  sbase : Nat
  recA : Nat
  reserved : Bool
  deriving DecidableEq, Repr

/-- An entry that is not in use. -/
def segNone : Seg :=
  { valid := false, kind := 0, tier := false, spilled := false, pin := false, fmt := 0, cell0 := 0, ncell := 0, span := 0
    size := 0, base := 0, sbase := 0, recA := 0, reserved := false }

/-- The segment entry of a 256-bit number. -/
def segOf (w : Nat) : Seg :=
  { valid := bit w 255, kind := bits w 254 253, tier := bit w 252, spilled := bit w 251, pin := bit w 250
    fmt := bits w 247 244, cell0 := bits w 241 233, ncell := bits w 232 224, span := bits w 223 215, size := bits w 214 192
    base := bits w 191 152, sbase := bits w 151 112, recA := bits w 111 72
    reserved := bits w 249 248 != 0 || bits w 243 242 != 0 || bits w 71 0 != 0 }

/-- Work item header (Table 6-1). -/
structure ItemHdr where
  kind : Nat
  cls : Nat
  var : Nat
  vage : Bool
  wcEn : Bool
  wcField : Nat
  depEn : Bool
  mb : Nat
  wcHdr : Nat
  depExp : Nat
  waits : List (Nat × Nat)
  sigs : List (Nat × Nat)
  itemId : Nat
  reserved : Bool
  deriving DecidableEq, Repr

/-- The item header of a 256-bit number; `waits` are the (counter, threshold) pairs with a threshold above 0 and
`sigs` the (block, counter) pairs of the enabled signals. -/
def itemHdr (w : Nat) : ItemHdr :=
  { kind := bits w 255 252, cls := bits w 251 250, var := bits w 249 247, vage := bit w 246, wcEn := bit w 245
    wcField := bits w 244 243, depEn := bit w 242, mb := bits w 241 236, wcHdr := bits w 235 224
    depExp := bits w 223 208
    waits := [(bits w 207 198, bits w 197 182), (bits w 181 172, bits w 171 156), (bits w 155 146, bits w 145 130)].filter
      (fun p => p.2 != 0)
    sigs := (if bit w 129 then [(bits w 128 124, bits w 123 114)] else [])
      ++ (if bit w 113 then [(bits w 112 108, bits w 107 98)] else [])
    itemId := bits w 97 82, reserved := bits w 81 0 != 0 }

/-- A work item: its header and the 224 payload bytes as one number (R150). -/
structure Item where
  hdr : ItemHdr
  payload : Nat
  deriving DecidableEq, Repr

/-- The item of 256 bytes given as one number. -/
def itemOf (w : Nat) : Item := { hdr := itemHdr w, payload := w / 2 ^ 256 }

/-- The tile descriptor of a TILE or TILE_VEC item: payload bytes 0 to 63. -/
def Item.tile (i : Item) : TileDesc := tileDesc (i.payload % 2 ^ 512)

/-- The chain descriptor: payload bytes 0 to 127 of a CHAIN item, 64 to 191 of a TILE_VEC item. -/
def Item.chain (i : Item) : ChainDesc :=
  if i.hdr.kind = 2 then chainDesc (i.payload / 2 ^ 512 % 2 ^ 1024) else chainDesc (i.payload % 2 ^ 1024)

/-- 64-bit payload word k. -/
def Item.word (i : Item) (k : Nat) : Nat := bits i.payload (64 * k + 63) (64 * k)

/-- The pass descriptor of a CUT item (Table 8-2). -/
structure PassDesc where
  opc : Nat
  rule : Nat
  hpset : Nat
  sigEn : Bool
  axis : Bool
  sigSlot : Nat
  layer : Nat
  page0 : Nat
  npage : Nat
  rows : Nat
  cols : Nat
  gseg : Nat
  wchdr : Nat
  prbRow : Nat
  prbCol : Nat
  din : Nat
  dtmp : Nat
  dout : Nat
  norm : Nat
  reserved : Bool
  deriving DecidableEq, Repr

def passOf (w : Nat) : PassDesc :=
  { opc := bits w 1023 1016, rule := bits w 1015 1013, hpset := bits w 1012 1007, sigEn := bit w 1006, axis := bit w 1005
    sigSlot := bits w 1001 992, layer := bits w 991 972, page0 := bits w 971 951, npage := bits w 950 935, rows := bits w 934 915
    cols := bits w 914 895, gseg := bits w 894 883, wchdr := bits w 882 871, prbRow := bits w 870 863, prbCol := bits w 862 855
    din := bits w 839 800, dtmp := bits w 799 760, dout := bits w 759 720, norm := bits w 719 680
    reserved := bits w 1004 1002 != 0 || bits w 854 840 != 0 || bits w 679 0 != 0 }

def Item.pass (i : Item) : PassDesc := passOf (i.payload % 2 ^ 1024)
def Item.passRest (i : Item) : Nat := i.payload / 2 ^ 1024

/-- The unit number of a trace record for a list: 0–15 cell lists, 16 Cutter, 17 block unit (Table 6-12). -/
def listOfKind (kind pos : Nat) : Nat := if kind < 3 then pos else if kind = 4 then 16 else 17

end Sys2Proof.Machine
end

