-- ==== Sys2Proof/Machine/Sparse.lean ====
section
/-!
DEFINITION. The one way the model holds sparse data: a list of (key, value) pairs with keys strictly rising and no
value equal to what an unlisted key reads as. Memory, counters, dictionary values and tables are all held so.
-/

namespace Sys2Proof.Machine

/-- What key `k` reads as: its listed value, or the default of that key. -/
def spGet {α : Type} (dflt : Nat → α) : Sparse α → Nat → α
  | [], k => dflt k
  | (i, v) :: l, k => if i = k then v else spGet dflt l k

/-- Key `k` taken out of the list. -/
def spDel {α : Type} (l : Sparse α) (k : Nat) : Sparse α := l.filter (fun e => e.1 != k)

/-- Key `k` put into the list with value `v`. -/
def spPut {α : Type} : Sparse α → Nat → α → Sparse α
  | [], k, v => [(k, v)]
  | (i, w) :: l, k, v => if i = k then (i, v) :: l else if k < i then (k, v) :: (i, w) :: l else (i, w) :: spPut l k v

/-- Write of one key: a value equal to the key's default removes the entry. -/
def spSet {α : Type} [DecidableEq α] (dflt : Nat → α) (l : Sparse α) (k : Nat) (v : α) : Sparse α :=
  if v = dflt k then spDel l k else spPut l k v

/-- All keys of the list lie above `lo`, rise strictly, and no value equals its default. -/
def spWfFrom {α : Type} [DecidableEq α] (dflt : Nat → α) (lo : Option Nat) : Sparse α → Bool
  | [] => true
  | (i, v) :: l => (match lo with | none => true | some b => decide (b < i)) && decide (v ≠ dflt i)
      && spWfFrom dflt (some i) l

/-- The canonical form. -/
def spWf {α : Type} [DecidableEq α] (dflt : Nat → α) (l : Sparse α) : Bool := spWfFrom dflt none l

/-- A value changed in place through a function. -/
def spMod {α : Type} [DecidableEq α] (dflt : Nat → α) (l : Sparse α) (k : Nat) (f : α → α) : Sparse α :=
  spSet dflt l k (f (spGet dflt l k))

/-- Every listed key whose value satisfies a test, in rising order. -/
def spKeys {α : Type} (p : Nat → α → Bool) (l : Sparse α) : List Nat := (l.filter (fun e => p e.1 e.2)).map (·.1)

/-- Consecutive keys from `k` with their values, without those that equal their key's default. -/
def spSpan {α : Type} [DecidableEq α] (dflt : Nat → α) : Nat → List α → Sparse α
  | _, [] => []
  | k, v :: vs => if v = dflt k then spSpan dflt (k + 1) vs else (k, v) :: spSpan dflt (k + 1) vs

/-- Consecutive keys written from a list of values. -/
def spSetList {α : Type} [DecidableEq α] (dflt : Nat → α) (l : Sparse α) (k : Nat) (vs : List α) : Sparse α :=
  let hi := k + vs.length
  l.takeWhile (fun e => e.1 < k) ++ spSpan dflt k vs ++ l.dropWhile (fun e => e.1 < hi)

/-- `n` consecutive keys from `k` read off a list whose keys rise from `k`. -/
def spRun {α : Type} (dflt : Nat → α) : Nat → Nat → Sparse α → List α
  | 0, _, _ => []
  | n + 1, k, [] => dflt k :: spRun dflt n (k + 1) []
  | n + 1, k, (i, v) :: l => if i = k then v :: spRun dflt n (k + 1) l else dflt k :: spRun dflt n (k + 1) ((i, v) :: l)

/-- Consecutive keys read. -/
def spGetList {α : Type} (dflt : Nat → α) (l : Sparse α) (k n : Nat) : List α :=
  spRun dflt n k (l.dropWhile (fun e => e.1 < k))

/-- Element `n` of a list replaced through a function; the list unchanged if it is shorter. -/
def modifyAt {α : Type} (f : α → α) : Nat → List α → List α
  | _, [] => []
  | 0, a :: l => f a :: l
  | n + 1, a :: l => a :: modifyAt f n l

end Sys2Proof.Machine
end

