-- ==== Sys2Proof/Machine/DataParts.lean ====
section
/-!
DEFINITION. The parts that State is made of in the data plane: programs, steps, blocks, memory, Graders, fabric ports,
exchanges and dailies.
-/

namespace Sys2Proof.Machine

/-! ## Programs and steps (R149 to R179, R300) -/

/-- A problem descriptor (Tables 7-1, 7-2): the header's 512 bits and one 256-bit entry per diagonal block. -/
structure Problem where
  hdr : Nat
  blks : List Nat
  deriving DecidableEq, Repr

/-- A row of the PAGES section (Table 10-10). -/
structure PageRow where
  page : Nat
  owner : Nat
  layer : Nat
  image : Bool
  deriving DecidableEq, Repr

/-- A working-copy header (Table 6-8). -/
structure WcHdr where
  vcur : Nat
  vprev : Nat
  hold0 : Nat
  hold1 : Nat
  seg0 : Nat
  seg1 : Nat
  epend : Bool
  deriving DecidableEq, Repr

/-- A loaded program: work lists keyed by (list set × 24 + block) × 18 + list, pages, problems, the working-copy header
table; the masks of blocks and list sets that hold items; the list set last run. -/
structure Prog where
  loaded : Bool
  lists : Sparse (List Item)
  pages : List PageRow
  problems : List Problem
  hdrs : Sparse WcHdr
  blocks : Nat
  lsets : Nat
  lastSet : Nat
  deriving DecidableEq, Repr

/-- Where a step stands (Table 8-6): no step; dispatched; released and running; in the flag and norm exchange; in its
clip pass; in the signature exchange; decided (walks and header updates under way). -/
inductive Order where
  | none | starting | running | norm | clip | sig | decided
  deriving DecidableEq, Repr

/-- A domain's step: order; whether its attempt has been aborted and waits for the replay (R357); number, attempt, list set; the queue
context that runs it; whether the attempt has started a transfer; whether it is marked; the latched cutter entries and loss scale (R216) and
the differentiation modes (R160); outcome (0 none, 1 commit, 2 skip), F, N, c; the blocks that have reported, have walked, have made their
clip pass, have started it; whether it was restarted; the layers fallen back; divergence. -/
structure StepSt where
  order : Order
  stopped : Bool
  no : Nat
  att : Nat
  lset : Nat
  ctx : Nat
  xfer : Bool
  marked : Bool
  latch : Sparse Nat
  ls : Nat
  modes : Nat
  prevModes : Nat
  outcome : Nat
  f : Bool
  n : Word
  c : Word
  reported : Nat
  walked : Nat
  clipped : Nat
  clipOn : Nat
  rst : Bool
  fell : List Nat
  dv : Bool
  deriving DecidableEq, Repr

/-! ## Blocks -/

/-- A bank of readiness counters (R153). -/
structure Bank where
  valid : Bool
  step : Nat
  att : Nat
  ctr : Sparse Nat
  deriving DecidableEq, Repr

/-- The life of an item in the running step. -/
inductive IState where
  | waiting | ready | running | done
  deriving DecidableEq, Repr

/-- What a drain or store adds to a record: largest finite |x|, non-finite elements, status bits [3:0], and the first output block that
holds a non-finite element (R48). -/
structure RecAdd where
  amax : Nat
  cnt : Nat
  kind : Nat
  at? : Option (Nat × Nat)
  deriving DecidableEq, Repr

/-- What a chain does at the moment its last write has completed (R114): its record updates (record, output format, what is added), whether
the block's non-finite bit is set, its count word. -/
structure Owed where
  recs : List (Nat × Fmt × RecAdd)
  nonfin : Bool
  cnt : Option (Nat × Nat)
  deriving DecidableEq, Repr

/-- One item of the running step: state, the order of the event at which it became ready, promotion, the slots it has added
into (R166) and whether it has updated a record or added (R364); what its chain owes at its end; the event counters that its run
raises when it ends, as (key, number) (R93); whether it is issued again with the work of its first start standing (R25, R364). -/
structure ItemSt where
  st : IState
  readyAt : Nat
  promoted : Bool
  slots : List Nat
  touched : Bool
  owed : Option Owed
  evts : List (Nat × Nat)
  redo : Bool
  deriving DecidableEq, Repr

/-- A layer pass that the Cutter runs (R224): item index, whether the layer falls back, the clip factor c_t, the slots consumed so far, what
it waits for (0 nothing, 1 staging, 2 MIG, 3 HOLD, 4 daily stream, 5 an uncorrectable read has stopped it). -/
structure Pass where
  idx : Nat
  falls : Bool
  ct : Word
  taken : List Nat
  wait : Nat
  deriving DecidableEq, Repr

/-- An entry of the commit list (R236). -/
structure Commit where
  layer : Nat
  page0 : Nat
  npage : Nat
  deriving DecidableEq, Repr

/-- A slate (R350, Table 12-3): header, the heads of the 18 lists; for each physical position the ITEM_IDs running on its arrays and on its
engine, ARR_TILE_STS and VEC_OP_STS; of the Cutter the ITEM_ID, the layer, the slots taken, the length of the commit list and whether
it has walked; the ITEM_IDs in progress in the block unit; the (counter, value) pairs of the candidates' waits. -/
structure Slate where
  hdr : Nat
  heads : List Nat
  cells : List (List Nat)
  cutter : List Nat
  unit : List Nat
  pairs : List (Nat × Nat)
  deriving DecidableEq, Repr

/-- A stationary register set of an array (Table 3-1, R70): the element format, whether the load path folds the block scales into the
exponents, and by physical row the codes of that row's PEs, 32, or 64 in FP4 × FP4, each with the scale code that covers it. -/
structure StatSet where
  fmt : Fmt
  fold : Bool
  rows : List (List (Nat × Nat))
  deriving DecidableEq, Repr

/-- One array of a cell (R68, R71, R74, R87, R88): the row-remap table (the physical row of each logical row), the skew table (d_k), the
cycles H for which the elastic links of its column feet hold a value, the two stationary sets and which is active, the two
accumulator banks (by output block: row block × 2 + half) and which was used last. -/
structure ArrHw where
  remap : List Nat
  skew : List Nat
  elastic : Nat
  set0 : StatSet
  set1 : StatSet
  active : Bool
  bank0 : Sparse (List Word)
  bank1 : Sparse (List Word)
  last : Bool
  deriving DecidableEq, Repr

/-- The retirement of a cell under way (R19, R25, R363): the position that the stand-in is to take, the cause of its record, whether the
abandoned runs had performed their work, the tick of the detection. -/
structure Subst where
  pos : Nat
  cause : Nat
  worked : Bool
  tick : Nat
  deriving DecidableEq, Repr

/-- CMD_SEQ_STATE.PHASE (Table 6-11). -/
inductive BPhase where
  | idle | starting | running | reported | awaiting
  deriving DecidableEq, Repr

/-- A block: MGT_BLK_MAP, sequencer state, counter banks, items, non-finite bit and norm partial, the Cutter (running pass, complete slots
in order, commit list, fallen layers), the trace ring, the slate shadow, the live microcode bank, the watchdog, the clock (stopped, waiting
for a ramp turn), cell fault tracking, and the retirement under way; ARR_TILE_STS (by physical position) and VEC_OP_STS (position + 32); the
staging slots in use, as (slot pair, page) (R139); the events in the trace queue (R177); the four arrays of each physical cell; the
row-fault log, by physical position × 4 + array a mask of 33 physical rows (R87); PWR_GATE_IDLE as the running idle period took it, where a
cue has changed it since (R414). -/
structure Blk where
  map : Nat
  phase : BPhase
  dom : Nat
  lset : Nat
  att : Nat
  step : Nat
  bank0 : Bank
  bank1 : Bank
  items : Sparse ItemSt
  nonfin : Bool
  norm : Word
  pass : Option Pass
  ready : List Nat
  commits : List Commit
  falls : List Nat
  curs : Sparse Nat
  trace : Sparse Nat
  traceN : Nat
  slate : Slate
  ubank : Nat
  wdt : Nat
  clkOff : Bool
  ramp : Bool
  tiles : Sparse Nat
  parity : Sparse Nat
  subst : Option Subst
  sts : Sparse Nat
  staged : List (Nat × Nat)
  traceQ : Nat
  cells : Sparse (List ArrHw)
  rowLog : Sparse Nat
  gateOld : Option Nat
  deriving DecidableEq, Repr

/-- A signal in flight (R153, R155). -/
structure Sig where
  blk : Nat
  ctr : Nat
  step : Nat
  att : Nat
  deriving DecidableEq, Repr

/-! ## Memory (R118 to R148) -/

/-- A Shard Directory entry (Table 5-6). -/
structure Dirent where
  valid : Bool
  tier : Bool
  mig : Bool
  frozen : Bool
  reel : Bool
  pend : Bool
  dom : Nat
  owner : Nat
  addr : Nat
  layer : Nat
  gen : Nat
  version : Nat
  deriving DecidableEq, Repr

/-- A binding entry (Table 6-7), with the map of consumed lines (R134). -/
structure Bind where
  spill : Bool
  att : Nat
  pool : Nat
  step : Nat
  exp : Nat
  remain : Nat
  used : Nat
  deriving DecidableEq, Repr

/-- A write or add to a REDUCE slot that is held (R134): the slot's key, whether it waits for a zero fill, the item it belongs to (block ×
2^24 + item key + 1; from 2^40 on: the transfer of a packet), the accesses in order (byte offset in the slot, add, bytes), and the deposit
that they make, as (step, attempt, expected), and whether it is counted with these accesses: of a transfer's packets into a slot only the
last one's (R166). -/
structure Held where
  key : Nat
  zero : Bool
  src : Nat
  ops : List (Nat × Bool × List Byte)
  deposit : Option (Nat × Nat × Nat)
  counts : Bool
  deriving DecidableEq, Repr

/-- A channel operation under way (R143): 1 RETRAIN, 2 RETIRE; the channel; whether a command asked for it; whether MEM_CH_RESULT is
still its own (the entry always reports the last command applied). -/
structure ChOp where
  op : Nat
  ch : Nat
  host : Bool
  report : Bool
  deriving DecidableEq, Repr

/-- Backing memory: granule remap (a granule's device slot), granules being moved with their destinations, suspect granules,
withdrawn packages, the channel operations, the ticks of recent link-ECC corrections per channel, held binding writes, the 64-bit words that the
scrubber has poisoned (R147), by address / 8; the page moves under way, as (page, destination) (R138). -/
structure Backing where
  remap : Sparse Nat
  moves : List (Nat × Nat)
  suspect : List Nat
  gone : Nat
  ops : List ChOp
  ce : Sparse (List Nat)
  held : List Held
  sigq : List (Nat × Sig)
  poison : List Nat
  pmoves : List (Nat × Nat)
  deriving DecidableEq, Repr

/-! ## Graders (R180 to R211) -/

/-- The figures of one block of a result (R204): whether it reached TOL and started cold, iterations, retries, damping, μ, regularised
pivots, saturated elements. -/
structure Fig where
  conv : Bool
  cold : Bool
  iters : Nat
  retries : Nat
  damp : Word
  mu : Word
  pivots : Nat
  ovf : Nat
  deriving DecidableEq, Repr

/-- A publication that waits for the next token (R206), with the figures of every block of the result. -/
structure Pub where
  singular : Bool
  deadline : Bool
  mismatch : Bool
  carried : Bool
  resid : Word
  sig : Nat
  figs : List Fig
  deriving DecidableEq, Repr

/-- A physical slot: domain, logical slot, problem; feeding, and the DRIFT of every upper tile when the feed started; a feed held
during the solve; the queued solve's acceptance (order, tick); the commits since the last acceptance; AGAIN; COLD pending; the pending
publication; the figures of the current result's blocks. -/
structure GSlot where
  dom : Nat
  lslot : Nat
  prob : Problem
  feeding : Bool
  drifts : List Nat
  feedHeld : Bool
  queued : Option (Nat × Nat)
  commits : Nat
  again : Bool
  cold : Bool
  pub : Option Pub
  figs : List Fig
  deriving DecidableEq, Repr

/-- A region's Grader: its slots and the slot whose solve runs, with what was decided at its start: whether it starts cold, whether for
WARM_MISMATCH, its acceptance tick, the result copy then current; GRD_DAMP_GROW and GRD_FAIL_RES as the solve's blocks take them, each pair
with the first block that it applies to, the latest first (R192). -/
structure Grd where
  slots : Sparse GSlot
  run : Option Nat
  runCold : Bool
  runMism : Bool
  runTick : Nat
  runCur : Nat
  runVals : List (Nat × Word × Word)
  deriving DecidableEq, Repr

/-! ## Fabric (R244 to R283) -/

/-- A packet: the 512-bit header, the inline area, the data. -/
structure Packet where
  hdr : Nat
  inl : List Byte
  data : List Byte
  deriving DecidableEq, Repr

/-- A sent frame that is not yet acknowledged: FSEQ, the domain of the packet it carries, the items whose last flits it carries, its slot kinds
and slots, how often it was retransmitted. -/
structure TxFrame where
  fseq : Nat
  dom : Option Nat
  srcs : List Nat
  kinds : List Nat
  slots : List (List Byte)
  tries : Nat
  deriving DecidableEq, Repr

/-- A packet waiting for an output: class, BULK, the source it comes from (the item's key, or none), the packet. -/
structure TxPkt where
  cls : Nat
  bulk : Bool
  src : Nat
  last : Bool
  pkt : Packet
  deriving DecidableEq, Repr

/-- FAB_PORT_STATE (Table 9-7). -/
inductive PState where
  | disabled | training | up4 | up3 | hold | down
  deriving DecidableEq, Repr

/-- A port's link layer: state and the state it returns to after HOLD, the tick at which it entered HOLD or TRAINING, sequence numbers,
retry buffer, credits held and flits freed per class, the three receive buffers, the packet being assembled, the packets waiting for this
output, by class the packets granted since BULK ones began to wait, by class and BULK the last source granted, whether the next frame
carries NAK, a lane change and its frames left, the lane that is out of use (4: none), the credit class reported next, the control of the
last frame sent, the items whose packets were discarded unacknowledged (R255). -/
structure Port where
  st : PState
  back : PState
  since : Nat
  txSeq : Nat
  rxSeq : Nat
  nak : Bool
  retry : List TxFrame
  credit : List Nat
  peerTot : List Nat
  freed : List Nat
  rx : List (List Packet)
  asm : List (List Byte)
  tx : List TxPkt
  bulkWait : List Nat
  lastSrc : List Nat
  lreq : Option (Nat × Bool)
  lcnt : Nat
  lost : Nat
  crd : Nat
  lastCtl : Nat
  gone : List Nat
  deriving DecidableEq, Repr

/-- A combining entry (R267): domain, group, transfer, mode, length, destination (which numbers the chunk); own data; children's data by
port; the item that contributes; whether the chunk is the last of its transfer, or of its slot; the signal. -/
structure Comb where
  dom : Nat
  grp : Nat
  xid : Nat
  root : Bool
  len : Nat
  addr : Nat
  dexp : Nat
  bulk : Bool
  step : Nat
  src : Nat
  last : Bool
  slotLast : Bool
  sig : Nat
  own : Option (List Byte)
  kids : List (Nat × List Byte)
  deriving DecidableEq, Repr

/-- A combining contribution of a norm exchange or of one half of a signature exchange. -/
structure Xc where
  step : Nat
  own : Option (List Byte)
  kids : List (Nat × List Byte)
  sent : Bool
  deriving DecidableEq, Repr

/-- A domain's exchanges: norm, the two halves of the signatures, the last result of each kind with its step (R271), the tick of the last
contribution that still waits for its result, and whether its hang was reported. -/
structure Xch where
  norm : Xc
  sigLo : Xc
  sigHi : Xc
  keptNorm : Option (Nat × List Byte)
  keptLo : Option (Nat × List Byte)
  keptHi : Option (Nat × List Byte)
  contributed : Option Nat
  hung : Bool
  deriving DecidableEq, Repr

/-- A lane command under way (R282): 1 RECAL, 2 RETIRE; the lane. -/
structure LaneOp where
  op : Nat
  lane : Nat
  deriving DecidableEq, Repr

/-- Fabric state of the chip: ports, combining entries in allocation order, the (transfer, chunk) pairs of the last 64
completed, the lane command. -/
structure Fab where
  ports : Sparse Port
  combs : List Comb
  done : List (Nat × Nat × Nat)
  lane : Option LaneOp
  deriving DecidableEq, Repr

/-- An armed import (R281): the context whose command armed it, source coordinate, first page, count, the pages written, the COUNT of
IMPORT_END once it has arrived. -/
structure Imp where
  ctx : Nat
  src : Nat
  page : Nat
  n : Nat
  done : List Nat
  count : Option Nat
  deriving DecidableEq, Repr

/-- A domain's daily and imports (R275 to R281): running, its step, the page states (1 PENDING, 2 STREAMING, 3 STAGED), the
engines that have finished, dailies completed; what the buddy side has received: half, step, the pages stored, the page count of the
last complete half; the armed imports. -/
structure Day where
  running : Bool
  s : Nat
  states : Sparse Nat
  engines : Nat
  completed : Nat
  rxHalf : Nat
  rxStep : Nat
  rxPages : List Nat
  rxCount : Nat
  imps : List Imp
  deriving DecidableEq, Repr

end Sys2Proof.Machine
end

