-- ==== Sys2Proof/Machine/Entries.lean ====
section
/-!
DEFINITION. The entries of the Parameter Dictionary (R311, R340): every entry table of the spec, with type, access,
persistence, reset value, accepted range and cue groups.
-/

namespace Sys2Proof.Machine

/-- One row of an entry table: first and last index, first and last subindex, type code (Table 11-1), access code and
persistence code (R334), reset value, least and greatest accepted value, cue-group mask (Table 11-4). F32 values are
patterns; the lengths of STR and BLOB entries stand for their values. -/
structure Ent where
  i0 : Nat
  i1 : Nat
  s0 : Nat
  s1 : Nat
  ty : Nat
  acc : Nat
  per : Nat
  rst : Nat
  lo : Nat
  hi : Nat
  grp : Nat
  deriving DecidableEq, Repr

/-- Entries outside the regions' index range, part 0: CFG_CRC_EN, CFG_CRC_FIRST, CFG_CRC_REF, CFG_CRC_STS, CFG_CRC_VAL, MGT_CUE,
MGT_CUE_APPLY, MGT_CUE_PEND, MGT_MAC, MGT_PART, MGT_SERIAL, MGT_TAKE_CMD, MGT_TAKE_LIVE, MGT_TAKE_NV, MGT_TAKE_PREV, MGT_TAKE_SRC, PWR_CNT,
PWR_FMAX, PWR_HYST, PWR_IN, PWR_LIMIT, PWR_STEP, PWR_STS, SEC_CA_CERT, SEC_DEVID_CERT, SEC_MEAS, SEC_ROOT_CERT. -/
def chipEnts0 : List Ent := [
  ⟨0x1000, 0x1000, 0, 0, 6, 0, 2, 0xb, 0, 0, 0⟩,
  ⟨0x1000, 0x1000, 1, 1, 6, 0, 2, 0, 0, 0, 0⟩,
  ⟨0x1001, 0x1001, 0, 0, 3, 0, 2, 0, 0, 0, 0⟩,
  ⟨0x1010, 0x1010, 0, 0, 7, 0, 2, 0, 0, 0, 0⟩,
  ⟨0x1010, 0x1010, 1, 1, 7, 0, 2, 0, 0, 0, 0⟩,
  ⟨0x1010, 0x1010, 2, 2, 7, 0, 2, 0, 0, 0, 0⟩,
  ⟨0x1020, 0x1020, 1, 6, 7, 0, 0, 0, 0, 0, 0⟩,
  ⟨0x2000, 0x2000, 0, 0, 2, 0, 0, 0, 0, 0, 0⟩,
  ⟨0x2000, 0x2000, 1, 1, 2, 0, 0, 0, 0, 0, 0⟩,
  ⟨0x2000, 0x2000, 2, 2, 0, 2, 0, 0, 1, 3, 0⟩,
  ⟨0x2000, 0x2000, 3, 3, 0, 0, 0, 0, 0, 0, 0⟩,
  ⟨0x2000, 0x2000, 4, 4, 0, 0, 0, 0, 0, 0, 0⟩,
  ⟨0x2001, 0x2001, 0, 0, 2, 2, 0, 0, 0, 0xfff, 0⟩,
  ⟨0x2001, 0x2001, 1, 1, 2, 0, 0, 0, 0, 0, 0⟩,
  ⟨0x2001, 0x2001, 2, 2, 2, 0, 0, 0, 0, 0, 0⟩,
  ⟨0x2010, 0x2010, 0, 0, 2, 1, 1, 0, 0, 0xffffffff, 0⟩,
  ⟨0x2010, 0x2010, 1, 1, 2, 0, 0, 0, 0, 0, 0⟩,
  ⟨0x2010, 0x2010, 2, 2, 0, 0, 0, 0, 0, 0, 0⟩,
  ⟨0x2010, 0x2010, 3, 3, 2, 0, 0, 0xffffffff, 0, 0, 0⟩,
  ⟨0x2010, 0x2010, 4, 4, 0, 1, 1, 0, 0, 1, 0⟩,
  ⟨0x3000, 0x3000, 0, 0, 1, 1, 1, 0x1c2, 0x12c, 0x1c2, 0x400⟩,
  ⟨0x3000, 0x3000, 1, 1, 0, 1, 1, 0xa, 2, 0x32, 0x400⟩,
  ⟨0x3000, 0x3000, 2, 2, 0, 1, 1, 0x38, 0x1c, 0x38, 0x400⟩,
  ⟨0x3000, 0x3000, 3, 3, 0, 0, 0, 0x38, 0, 0, 0⟩,
  ⟨0x3000, 0x3000, 4, 4, 0, 0, 0, 0x38, 0, 0, 0⟩,
  ⟨0x3000, 0x3000, 5, 5, 0, 0, 0, 0x38, 0, 0, 0⟩,
  ⟨0x3001, 0x3001, 0, 0, 5, 0, 0, 0, 0, 0, 0⟩,
  ⟨0x3001, 0x3001, 1, 1, 5, 0, 0, 0, 0, 0, 0⟩,
  ⟨0x3001, 0x3001, 2, 2, 5, 0, 0, 0, 0, 0, 0⟩,
  ⟨0x3002, 0x3002, 0, 0, 1, 0, 0, 0, 0, 0, 0⟩,
  ⟨0x3003, 0x3003, 0, 0, 3, 0, 0, 0, 0, 0, 0⟩,
  ⟨0x3003, 0x3003, 1, 1, 3, 0, 0, 0, 0, 0, 0⟩,
  ⟨0x3003, 0x3003, 2, 2, 3, 0, 0, 0, 0, 0, 0⟩,
  ⟨0x3003, 0x3003, 3, 3, 3, 0, 0, 0, 0, 0, 0⟩,
  ⟨0x3003, 0x3003, 4, 4, 3, 0, 0, 0, 0, 0, 0⟩,
  ⟨0x3003, 0x3003, 5, 5, 3, 0, 0, 0, 0, 0, 0⟩,
  ⟨0x3003, 0x3003, 6, 6, 3, 0, 0, 0, 0, 0, 0⟩,
  ⟨0x3003, 0x3003, 7, 7, 3, 0, 0, 0, 0, 0, 0⟩,
  ⟨0x3003, 0x3003, 8, 8, 3, 0, 0, 0, 0, 0, 0⟩,
  ⟨0x3003, 0x3003, 9, 9, 3, 0, 0, 0, 0, 0, 0⟩]

/-- Entries outside the regions' index range, part 1: CMD_DEFER_MAX, CMD_DIFF_LATCH, CMD_DIFF_MODE, CMD_PERF, FAB_AUX_ROUTE, FAB_COORD,
FAB_DOM_GRP, FAB_GRP, FAB_LANE_CMD, FAB_LANE_RESULT, FAB_LANE_STATE, FAB_PORT_CNT, FAB_PORT_EN, FAB_PORT_STATE, FAB_RETRY_LIMIT, FAB_TORUS,
PWR_CLK_SPREAD, PWR_GATE_IDLE, PWR_TJ, PWR_TJ_THROTTLE. -/
def chipEnts1 : List Ent := [
  ⟨0x3010, 0x3010, 0, 0, 0, 1, 1, 1, 0, 1, 0x400⟩,
  ⟨0x3010, 0x3010, 1, 1, 2, 1, 1, 0x36b0, 0, 0xd59f80, 0x400⟩,
  ⟨0x3020, 0x3020, 0, 3, 5, 0, 0, 0, 0, 0, 0⟩,
  ⟨0x3020, 0x3020, 4, 4, 5, 0, 0, 0, 0, 0, 0⟩,
  ⟨0x3020, 0x3020, 0x10, 0x10, 0, 1, 1, 0x64, 0x55, 0x68, 0x400⟩,
  ⟨0x4800, 0x4800, 0, 0, 0, 1, 1, 0, 0, 1, 0x100⟩,
  ⟨0x4800, 0x4800, 1, 1, 0, 1, 1, 0, 0, 1, 0x100⟩,
  ⟨0x4800, 0x4800, 2, 2, 2, 1, 1, 0x200000, 0, 0xffffffff, 0x100⟩,
  ⟨0x4800, 0x4800, 3, 3, 0, 0, 0, 0, 0, 0, 0⟩,
  ⟨0x4810, 0x4810, 0, 0, 3, 0, 0, 0, 0, 0, 0⟩,
  ⟨0x4810, 0x4810, 1, 1, 3, 0, 0, 0, 0, 0, 0⟩,
  ⟨0x4810, 0x4810, 2, 2, 3, 0, 0, 0, 0, 0, 0⟩,
  ⟨0x4810, 0x4810, 3, 3, 3, 0, 0, 0, 0, 0, 0⟩,
  ⟨0x4810, 0x4810, 4, 4, 3, 0, 0, 0, 0, 0, 0⟩,
  ⟨0x4810, 0x4810, 5, 5, 3, 0, 0, 0, 0, 0, 0⟩,
  ⟨0x4810, 0x4810, 6, 6, 3, 0, 0, 0, 0, 0, 0⟩,
  ⟨0x4810, 0x4810, 7, 7, 3, 0, 0, 0, 0, 0, 0⟩,
  ⟨0x4810, 0x4810, 8, 8, 3, 0, 0, 0, 0, 0, 0⟩,
  ⟨0x5000, 0x5000, 0, 0, 1, 1, 1, 0, 0, 0xfff, 0x20⟩,
  ⟨0x5000, 0x5000, 1, 1, 1, 1, 1, 0, 0, 0xfff, 0x20⟩,
  ⟨0x5000, 0x5000, 2, 2, 0, 1, 1, 0, 0, 0xff, 0x20⟩,
  ⟨0x5000, 0x5000, 3, 3, 0, 1, 1, 0x10, 1, 0xff, 0x20⟩,
  ⟨0x5001, 0x5001, 0, 1, 1, 1, 1, 0, 0, 0x8fff, 0x20⟩,
  ⟨0x5010, 0x5013, 0, 0, 1, 1, 1, 0, 0, 0xfff, 0x20⟩,
  ⟨0x5010, 0x5013, 1, 1, 1, 1, 1, 0, 0, 0xfff, 0x20⟩,
  ⟨0x5010, 0x5013, 2, 2, 1, 1, 1, 0, 0, 0xfff, 0x20⟩,
  ⟨0x5020, 0x5020, 0, 0xf, 0, 1, 1, 0xff, 0, 0xff, 0x20⟩,
  ⟨0x5030, 0x5030, 0, 7, 0, 0, 0, 0, 0, 0, 0⟩,
  ⟨0x5031, 0x5031, 0, 0x1f, 0, 0, 0, 3, 0, 0, 0⟩,
  ⟨0x5032, 0x5032, 0, 0, 1, 2, 0, 0, 0, 0xffff, 0x20⟩,
  ⟨0x5032, 0x5032, 1, 1, 0, 0, 0, 0, 0, 0, 0⟩,
  ⟨0x5040, 0x5047, 0, 0, 3, 0, 0, 0, 0, 0, 0⟩,
  ⟨0x5040, 0x5047, 1, 1, 3, 0, 0, 0, 0, 0, 0⟩,
  ⟨0x5040, 0x5047, 2, 2, 3, 0, 0, 0, 0, 0, 0⟩,
  ⟨0x5040, 0x5047, 3, 3, 3, 0, 0, 0, 0, 0, 0⟩,
  ⟨0x5040, 0x5047, 4, 4, 3, 0, 0, 0, 0, 0, 0⟩,
  ⟨0x5040, 0x5047, 5, 5, 3, 0, 0, 0, 0, 0, 0⟩,
  ⟨0x5040, 0x5047, 6, 6, 3, 0, 0, 0, 0, 0, 0⟩,
  ⟨0x5040, 0x5047, 7, 7, 3, 0, 0, 0, 0, 0, 0⟩,
  ⟨0x5040, 0x5047, 8, 8, 3, 0, 0, 0, 0, 0, 0⟩]

/-- Entries outside the regions' index range, part 2: FAB_DAILY_CFG, FAB_DAILY_RX, FAB_DAILY_STS, FAB_PORT_CNT, FAB_XCHG, MEM_BINDWAIT,
MEM_BOUND, MEM_CH_CE, MEM_CH_CMD, MEM_CH_RESULT, MEM_CH_STATE, MEM_CH_UE, MEM_GRD_WS, MEM_LAYOUT_LIVE, MEM_QUAR, MEM_RPOOL_SLOTS,
MEM_SCRUB_S, MEM_SPILL, MEM_SRAM_EVT, MEM_STAGEWAIT. -/
def chipEnts2 : List Ent := [
  ⟨0x5040, 0x5047, 9, 9, 3, 0, 0, 0, 0, 0, 0⟩,
  ⟨0x5040, 0x5047, 0xa, 0xa, 3, 0, 0, 0, 0, 0, 0⟩,
  ⟨0x5050, 0x5050, 0, 0, 3, 0, 0, 0, 0, 0, 0⟩,
  ⟨0x5050, 0x5050, 1, 1, 3, 0, 0, 0, 0, 0, 0⟩,
  ⟨0x5050, 0x5050, 2, 2, 3, 0, 0, 0, 0, 0, 0⟩,
  ⟨0x5050, 0x5050, 3, 3, 3, 0, 0, 0, 0, 0, 0⟩,
  ⟨0x5100, 0x510f, 0, 0, 2, 1, 1, 0, 0, 0xffffffff, 0x20⟩,
  ⟨0x5100, 0x510f, 1, 1, 1, 1, 1, 0, 0, 0xfff, 0x20⟩,
  ⟨0x5100, 0x510f, 2, 2, 3, 1, 1, 0, 0, 0xffffffffffffffff, 0x20⟩,
  ⟨0x5100, 0x510f, 3, 3, 3, 1, 1, 0, 0, 0xffffffffffffffff, 0x20⟩,
  ⟨0x5100, 0x510f, 4, 4, 2, 0, 0, 0, 0, 0, 0⟩,
  ⟨0x5100, 0x510f, 5, 5, 3, 0, 0, 0, 0, 0, 0⟩,
  ⟨0x5100, 0x510f, 6, 6, 2, 0, 0, 0, 0, 0, 0⟩,
  ⟨0x5100, 0x510f, 7, 7, 2, 0, 0, 0, 0, 0, 0⟩,
  ⟨0x5120, 0x512f, 0, 0, 3, 0, 0, 0, 0, 0, 0⟩,
  ⟨0x6000, 0x6000, 0, 0, 3, 0, 0, 0, 0, 0, 0⟩,
  ⟨0x6000, 0x6000, 1, 1, 3, 0, 0, 0, 0, 0, 0⟩,
  ⟨0x6000, 0x6000, 2, 2, 3, 0, 0, 0, 0, 0, 0⟩,
  ⟨0x6000, 0x6000, 3, 3, 3, 0, 0, 0, 0, 0, 0⟩,
  ⟨0x6000, 0x6000, 4, 4, 3, 0, 0, 0, 0, 0, 0⟩,
  ⟨0x6000, 0x6000, 5, 5, 3, 0, 0, 0, 0, 0, 0⟩,
  ⟨0x6000, 0x6000, 6, 6, 3, 0, 0, 0, 0, 0, 0⟩,
  ⟨0x6001, 0x6001, 0, 0, 0, 1, 1, 0x20, 0x10, 0x40, 0x1e⟩,
  ⟨0x6002, 0x6002, 0, 0, 0, 1, 1, 2, 1, 4, 2⟩,
  ⟨0x6002, 0x6002, 1, 1, 0, 1, 1, 2, 1, 4, 4⟩,
  ⟨0x6002, 0x6002, 2, 2, 0, 1, 1, 2, 1, 4, 8⟩,
  ⟨0x6002, 0x6002, 3, 3, 0, 1, 1, 2, 1, 4, 0x10⟩,
  ⟨0x6002, 0x6002, 0x10, 0x13, 1, 0, 0, 0x2002, 0, 0, 0⟩,
  ⟨0x6003, 0x6003, 0, 0, 2, 1, 1, 0x3c, 0xa, 0x15180, 0x200⟩,
  ⟨0x6010, 0x6010, 0, 0, 3, 0, 0, 0, 0, 0, 0⟩,
  ⟨0x6010, 0x6010, 1, 1, 3, 0, 0, 0, 0, 0, 0⟩,
  ⟨0x6010, 0x6010, 2, 2, 3, 0, 0, 0, 0, 0, 0⟩,
  ⟨0x6010, 0x6010, 3, 3, 3, 0, 0, 0, 0, 0, 0⟩,
  ⟨0x6010, 0x6010, 4, 4, 3, 0, 0, 0, 0, 0, 0⟩,
  ⟨0x6010, 0x6010, 5, 5, 3, 0, 0, 0, 0, 0, 0⟩,
  ⟨0x6020, 0x6020, 0, 0x3f, 0, 0, 0, 0, 0, 0, 0⟩,
  ⟨0x6021, 0x6021, 0, 0x3f, 3, 0, 0, 0, 0, 0, 0⟩,
  ⟨0x6022, 0x6022, 0, 0x3f, 2, 0, 0, 0, 0, 0, 0⟩,
  ⟨0x6023, 0x6023, 0, 0, 1, 2, 0, 0, 0, 0xffff, 0x1e⟩,
  ⟨0x6023, 0x6023, 1, 1, 0, 0, 0, 0, 0, 0, 0⟩]

/-- Entries outside the regions' index range, part 3: CUT_CLIP_NORM, CUT_DIV_COUNT, CUT_LAST_CLIP, CUT_LAST_NORM, CUT_LEGACY, CUT_LS_CLEAN,
CUT_LS_GROWTH, CUT_LS_INIT, CUT_LS_MAX, CUT_LS_MIN, CUT_LS_ROUNDED, CUT_LS_VALUE, CUT_MODE, CUT_OUTCOME, GRD_CHG_TOL, GRD_DAMP_GROW,
GRD_DL_TICKS, GRD_FAIL_RES, GRD_PERF, GRD_SLOTS_FREE, GRD_STATE, MEM_CE_LIMIT, MEM_FREE, PREC_MAX_AGE. -/
def chipEnts3 : List Ent := [
  ⟨0x6024, 0x6024, 0, 0, 2, 1, 1, 0x3e8, 0, 0xffffffff, 0x1e⟩,
  ⟨0x6030, 0x6030, 0, 0, 2, 0, 0, 0, 0, 0, 0⟩,
  ⟨0x6030, 0x6030, 1, 1, 1, 0, 0, 0x800, 0, 0, 0⟩,
  ⟨0x7001, 0x7001, 0, 0, 5, 1, 1, 0x3c23d70a, 0, 0x7f7fffff, 0x200⟩,
  ⟨0x7002, 0x7002, 0, 0, 2, 1, 1, 0x17d7840, 0, 0xffffffff, 0x80⟩,
  ⟨0x7002, 0x7002, 1, 1, 5, 1, 1, 0x41200000, 0x40000000, 0x447a0000, 0x80⟩,
  ⟨0x7002, 0x7002, 2, 2, 5, 1, 1, 0x3f800000, 1, 0x7f7fffff, 0x80⟩,
  ⟨0x7010, 0x7010, 0, 3, 1, 0, 0, 0x100, 0, 0, 0⟩,
  ⟨0x7011, 0x7011, 0, 3, 0, 0, 0, 0, 0, 0, 0⟩,
  ⟨0x7020, 0x7023, 0, 0, 3, 0, 0, 0, 0, 0, 0⟩,
  ⟨0x7020, 0x7023, 1, 1, 3, 0, 0, 0, 0, 0, 0⟩,
  ⟨0x7020, 0x7023, 2, 2, 3, 0, 0, 0, 0, 0, 0⟩,
  ⟨0x7020, 0x7023, 3, 3, 3, 0, 0, 0, 0, 0, 0⟩,
  ⟨0x7020, 0x7023, 4, 4, 3, 0, 0, 0, 0, 0, 0⟩,
  ⟨0x7020, 0x7023, 5, 5, 3, 0, 0, 0, 0, 0, 0⟩,
  ⟨0x7020, 0x7023, 6, 6, 3, 0, 0, 0, 0, 0, 0⟩,
  ⟨0x7020, 0x7023, 7, 7, 3, 0, 0, 0, 0, 0, 0⟩,
  ⟨0x7020, 0x7023, 8, 8, 3, 0, 0, 0, 0, 0, 0⟩,
  ⟨0x7020, 0x7023, 9, 9, 3, 0, 0, 0, 0, 0, 0⟩,
  ⟨0x7020, 0x7023, 0xa, 0xa, 3, 0, 0, 0, 0, 0, 0⟩,
  ⟨0x7020, 0x7023, 0xb, 0xb, 3, 0, 0, 0, 0, 0, 0⟩,
  ⟨0x7020, 0x7023, 0xc, 0xc, 3, 0, 0, 0, 0, 0, 0⟩,
  ⟨0x7020, 0x7023, 0xd, 0xd, 3, 0, 0, 0, 0, 0, 0⟩,
  ⟨0x7020, 0x7023, 0xe, 0xe, 3, 0, 0, 0, 0, 0, 0⟩,
  ⟨0x7020, 0x7023, 0xf, 0xf, 3, 0, 0, 0, 0, 0, 0⟩,
  ⟨0x7080, 0x7080, 0, 0, 0, 1, 1, 0, 0, 1, 0x40⟩,
  ⟨0x7080, 0x7080, 1, 1, 5, 0, 0, 0x47800000, 0, 0, 0⟩,
  ⟨0x7080, 0x7080, 2, 2, 5, 1, 1, 0x47800000, 1, 0x7f7fffff, 0x40⟩,
  ⟨0x7080, 0x7080, 3, 3, 2, 1, 1, 0x7d0, 1, 0xf4240, 0x40⟩,
  ⟨0x7080, 0x7080, 4, 4, 5, 1, 1, 0x3f800000, 1, 0x7f7fffff, 0x40⟩,
  ⟨0x7080, 0x7080, 5, 5, 5, 1, 1, 0x4b800000, 1, 0x7f7fffff, 0x40⟩,
  ⟨0x7080, 0x7080, 6, 6, 2, 0, 0, 0, 0, 0, 0⟩,
  ⟨0x7080, 0x7080, 7, 7, 3, 0, 0, 0, 0, 0, 0⟩,
  ⟨0x7081, 0x7081, 0, 0, 0, 1, 1, 0, 0, 1, 0x40⟩,
  ⟨0x7081, 0x7081, 1, 1, 5, 1, 1, 0x3f800000, 0, 0x7f7fffff, 0x40⟩,
  ⟨0x7081, 0x7081, 2, 2, 1, 1, 1, 0x10, 0, 0xfffe, 0x40⟩,
  ⟨0x7081, 0x7081, 3, 3, 5, 0, 0, 0, 0, 0, 0⟩,
  ⟨0x7081, 0x7081, 4, 4, 5, 0, 0, 0x3f800000, 0, 0, 0⟩,
  ⟨0x7081, 0x7081, 5, 5, 2, 0, 0, 0, 0, 0, 0⟩,
  ⟨0x7090, 0x7090, 0, 0, 2, 0, 0, 0, 0, 0, 0⟩]

/-- Entries outside the regions' index range, part 4: CMD_TRACE_CTL, CMD_TRACE_RING, CUT_B1, CUT_B2, CUT_BC1, CUT_BC2, CUT_CLIP_T,
CUT_DIV_FIRST, CUT_DIV_TOTAL, CUT_EPS, CUT_LR, CUT_ORTHO_K, CUT_SIG, CUT_WD, MGT_ALERT_EN, MGT_DICT_CNT, MGT_DOM_ACTIVE, MGT_STATUS,
MGT_T1S_CNT, MGT_T1S_NODE, MGT_T1S_PLCA, MGT_T1S_TO, MGT_UDP_PORT. -/
def chipEnts4 : List Ent := [
  ⟨0x7090, 0x7090, 1, 1, 1, 0, 0, 0xffff, 0, 0, 0⟩,
  ⟨0x7090, 0x7090, 2, 2, 3, 0, 0, 0, 0, 0, 0⟩,
  ⟨0x7091, 0x7094, 0, 0xff, 3, 0, 0, 0, 0, 0, 0⟩,
  ⟨0x7100, 0x713f, 0, 0, 5, 1, 1, 0, 0, 0x7f7fffff, 0x40⟩,
  ⟨0x7100, 0x713f, 1, 1, 5, 1, 1, 0x3f666666, 0, 0x3f7fffff, 0x40⟩,
  ⟨0x7100, 0x713f, 2, 2, 5, 1, 1, 0x3f7fbe77, 0, 0x3f7fffff, 0x40⟩,
  ⟨0x7100, 0x713f, 3, 3, 5, 1, 1, 0x322bcc77, 1, 0x7f7fffff, 0x40⟩,
  ⟨0x7100, 0x713f, 4, 4, 5, 1, 1, 0, 0, 0x7f7fffff, 0x40⟩,
  ⟨0x7100, 0x713f, 5, 5, 5, 1, 1, 0x3f800000, 1, 0x7f7fffff, 0x40⟩,
  ⟨0x7100, 0x713f, 6, 6, 5, 1, 1, 0x3f800000, 1, 0x7f7fffff, 0x40⟩,
  ⟨0x7100, 0x713f, 7, 7, 5, 1, 1, 0x3f800000, 1, 0x7f7fffff, 0x40⟩,
  ⟨0x7100, 0x713f, 8, 8, 5, 1, 1, 0x3f800000, 0, 0x7f7fffff, 0x40⟩,
  ⟨0x8000, 0x8000, 0, 0, 2, 0, 0, 0, 0, 0, 0⟩,
  ⟨0x8000, 0x8000, 1, 1, 2, 1, 1, 0xc6, 0, 0xffffffff, 1⟩,
  ⟨0x8000, 0x8000, 2, 2, 8, 0, 0, 0, 0, 0, 0⟩,
  ⟨0x8010, 0x8010, 0, 0, 3, 0, 0, 0, 0, 0, 0⟩,
  ⟨0x8010, 0x8010, 1, 1, 3, 0, 0, 0, 0, 0, 0⟩,
  ⟨0x8010, 0x8010, 2, 2, 3, 0, 0, 0, 0, 0, 0⟩,
  ⟨0x8010, 0x8010, 3, 3, 3, 0, 0, 0, 0, 0, 0⟩,
  ⟨0x8010, 0x8010, 4, 4, 3, 0, 0, 0, 0, 0, 0⟩,
  ⟨0x8010, 0x8010, 5, 5, 3, 0, 0, 0, 0, 0, 0⟩,
  ⟨0x8010, 0x8010, 6, 6, 3, 0, 0, 0, 0, 0, 0⟩,
  ⟨0x8010, 0x8010, 7, 7, 3, 0, 0, 0, 0, 0, 0⟩,
  ⟨0x8010, 0x8010, 8, 8, 3, 0, 0, 0, 0, 0, 0⟩,
  ⟨0x8010, 0x8010, 9, 9, 3, 0, 0, 0, 0, 0, 0⟩,
  ⟨0x8010, 0x8010, 0xa, 0xa, 3, 0, 0, 0, 0, 0, 0⟩,
  ⟨0x8010, 0x8010, 0xb, 0xb, 3, 0, 0, 0, 0, 0, 0⟩,
  ⟨0x8010, 0x8010, 0xc, 0xc, 3, 0, 0, 0, 0, 0, 0⟩,
  ⟨0x8100, 0x8100, 0, 0, 0, 0, 0, 0, 0, 0, 0⟩,
  ⟨0x8100, 0x8100, 1, 1, 0, 1, 1, 1, 0, 1, 1⟩,
  ⟨0x8100, 0x8100, 2, 2, 0, 1, 1, 0x20, 0x10, 0xff, 1⟩,
  ⟨0x8100, 0x8100, 3, 3, 1, 1, 1, 0x7472, 0x400, 0xffff, 1⟩,
  ⟨0x8110, 0x8110, 0, 0, 3, 0, 0, 0, 0, 0, 0⟩,
  ⟨0x8110, 0x8110, 1, 1, 3, 0, 0, 0, 0, 0, 0⟩,
  ⟨0x8110, 0x8110, 2, 2, 3, 0, 0, 0, 0, 0, 0⟩,
  ⟨0x8110, 0x8110, 3, 3, 3, 0, 0, 0, 0, 0, 0⟩,
  ⟨0x8110, 0x8110, 4, 4, 3, 0, 0, 0, 0, 0, 0⟩,
  ⟨0x8200, 0x8200, 0, 0, 2, 1, 1, 0, 0, 0x9fffffff, 0x100⟩,
  ⟨0x8210, 0x8227, 0, 0, 7, 0, 0, 0, 0, 0, 0⟩,
  ⟨0x8210, 0x8227, 1, 1, 3, 0, 0, 0, 0, 0, 0⟩]

/-- Entries outside the regions' index range, part 5: CMD_TRACE_RING, FLT_CHIP_CNT, FLT_CLAP_CMD, FLT_CLAP_SEQ, FLT_CLAP_SRC, FLT_DUMP,
FLT_DUMP_REL, FLT_DUMP_STS, FLT_LOG_ACK, FLT_LOG_DATA, FLT_LOG_HEAD, FLT_REGION_CMD, FLT_TRY_MAX, FLT_UCODE, FLT_UCODE_CMD, FLT_UCODE_STS,
FLT_UCODE_VER, FLT_WDT_TICKS, SEC_BOOT_LOCK, SEC_BOOT_STS, SEC_FLOOR, SEC_FW_ACTIVE, SEC_FW_CMD, SEC_FW_IMAGE, SEC_FW_SLOT, SEC_FW_STS,
SEC_IDE_CTL, SEC_IDE_KEY, SEC_POLICY_NEXT, SEC_PRIV_SRC, SEC_ROOT_KEY, SEC_T1S_WR. -/
def chipEnts5 : List Ent := [
  ⟨0x8210, 0x8227, 2, 2, 3, 0, 0, 0, 0, 0, 0⟩,
  ⟨0x9000, 0x9000, 0, 0, 2, 1, 1, 0x1388, 0x4e2, 0x17d7840, 0x800⟩,
  ⟨0x9000, 0x9000, 1, 1, 0, 1, 1, 3, 1, 7, 0x800⟩,
  ⟨0x9000, 0x9000, 2, 2, 1, 1, 1, 0x1ff, 0xf, 0x1ff, 0x800⟩,
  ⟨0x9000, 0x9000, 3, 3, 0, 2, 0, 0, 1, 1, 0⟩,
  ⟨0x9000, 0x9000, 4, 4, 2, 0, 0, 0, 0, 0, 0⟩,
  ⟨0x9010, 0x9010, 0, 0, 2, 0, 0, 0, 0, 0, 0⟩,
  ⟨0x9010, 0x9010, 1, 1, 2, 2, 0, 0, 0, 0xffffffff, 0⟩,
  ⟨0x9011, 0x9011, 0, 0, 7, 0, 0, 0, 0, 0, 0⟩,
  ⟨0x9020, 0x9020, 0, 0, 3, 0, 0, 0, 0, 0, 0⟩,
  ⟨0x9020, 0x9020, 1, 1, 3, 0, 0, 0, 0, 0, 0⟩,
  ⟨0x9020, 0x9020, 2, 2, 3, 0, 0, 0, 0, 0, 0⟩,
  ⟨0x9020, 0x9020, 3, 3, 3, 0, 0, 0, 0, 0, 0⟩,
  ⟨0x9020, 0x9020, 4, 4, 3, 0, 0, 0, 0, 0, 0⟩,
  ⟨0x9020, 0x9020, 5, 5, 3, 0, 0, 0, 0, 0, 0⟩,
  ⟨0x9020, 0x9020, 6, 6, 3, 0, 0, 0, 0, 0, 0⟩,
  ⟨0x9020, 0x9020, 7, 7, 3, 0, 0, 0, 0, 0, 0⟩,
  ⟨0x9020, 0x9020, 8, 8, 3, 0, 0, 0, 0, 0, 0⟩,
  ⟨0x9030, 0x9030, 0, 3, 0, 2, 0, 0, 1, 4, 0x800⟩,
  ⟨0x9100, 0x9103, 0, 0, 7, 0, 0, 0, 0, 0, 0⟩,
  ⟨0x9100, 0x9103, 1, 1, 3, 0, 0, 0, 0, 0, 0⟩,
  ⟨0x9100, 0x9103, 2, 2, 0, 2, 0, 0, 1, 1, 0⟩,
  ⟨0x9200, 0x9200, 0, 0, 7, 2, 0, 0, 0, 0x100000, 0⟩,
  ⟨0x9200, 0x9200, 1, 1, 0, 2, 0, 0, 1, 3, 0⟩,
  ⟨0x9200, 0x9200, 2, 2, 0, 0, 0, 0, 0, 0, 0⟩,
  ⟨0x9201, 0x9201, 0, 0x17, 2, 0, 0, 0, 0, 0, 0⟩,
  ⟨0xa000, 0xa000, 0, 0, 0, 3, 0, 0, 0, 3, 0⟩,
  ⟨0xa000, 0xa000, 1, 1, 0, 3, 0, 0, 0, 1, 0⟩,
  ⟨0xa000, 0xa000, 2, 2, 0, 3, 0, 0, 0, 1, 0⟩,
  ⟨0xa010, 0xa010, 0, 3, 7, 4, 2, 0, 0, 0, 0⟩,
  ⟨0xa020, 0xa020, 0, 0, 1, 4, 0, 0, 0, 0, 0⟩,
  ⟨0xa030, 0xa030, 0, 0, 2, 4, 0, 0, 0, 0, 0⟩,
  ⟨0xa040, 0xa040, 0, 0, 7, 3, 0, 0, 0, 0x400000, 0⟩,
  ⟨0xa040, 0xa040, 1, 1, 0, 3, 0, 0, 1, 3, 0⟩,
  ⟨0xa040, 0xa040, 2, 2, 1, 4, 0, 0, 0, 0, 0⟩,
  ⟨0xa041, 0xa041, 0, 1, 3, 4, 0, 0, 0, 0, 0⟩,
  ⟨0xa041, 0xa041, 2, 2, 0, 4, 0, 0, 0, 0, 0⟩,
  ⟨0xa050, 0xa050, 0, 5, 7, 3, 0, 0, 0x2c, 0x2c, 0⟩,
  ⟨0xa051, 0xa051, 0, 0, 0, 3, 0, 0, 0, 1, 0⟩,
  ⟨0xa060, 0xa060, 0, 0, 1, 3, 0, 0, 0, 0x103, 0⟩]

/-- Entries outside the regions' index range. -/
def chipEnts : List Ent := chipEnts0 ++ chipEnts1 ++ chipEnts2 ++ chipEnts3 ++ chipEnts4 ++ chipEnts5

/-- Entries of a block, at offsets from its first index (R16), part 0: ARR_NUM_EVT, ARR_PERF, ARR_ROW_REPAIR, CMD_SEQ_PERF, CMD_SEQ_STATE,
CUT_PERF, FLT_BLK_CNT, MGT_BLK_MAP, VEC_PERF. -/
def blkEnts0 : List Ent := [
  ⟨0, 0, 0, 0, 2, 0, 0, 0x803fffff, 0, 0, 0⟩,
  ⟨1, 1, 0, 7, 2, 0, 0, 0, 0, 0, 0⟩,
  ⟨2, 2, 0, 0x10, 2, 0, 0, 0, 0, 0, 0⟩,
  ⟨3, 3, 0, 0, 3, 0, 0, 0, 0, 0, 0⟩,
  ⟨3, 3, 1, 1, 3, 0, 0, 0, 0, 0, 0⟩,
  ⟨3, 3, 2, 2, 3, 0, 0, 0, 0, 0, 0⟩,
  ⟨3, 3, 3, 3, 3, 0, 0, 0, 0, 0, 0⟩,
  ⟨3, 3, 4, 4, 3, 0, 0, 0, 0, 0, 0⟩,
  ⟨3, 3, 5, 5, 3, 0, 0, 0, 0, 0, 0⟩,
  ⟨3, 3, 6, 6, 3, 0, 0, 0, 0, 0, 0⟩,
  ⟨3, 3, 7, 7, 3, 0, 0, 0, 0, 0, 0⟩,
  ⟨4, 4, 0, 0, 3, 0, 0, 0, 0, 0, 0⟩,
  ⟨4, 4, 1, 1, 3, 0, 0, 0, 0, 0, 0⟩,
  ⟨4, 4, 2, 2, 3, 0, 0, 0, 0, 0, 0⟩,
  ⟨4, 4, 3, 3, 3, 0, 0, 0, 0, 0, 0⟩,
  ⟨4, 4, 4, 4, 3, 0, 0, 0, 0, 0, 0⟩,
  ⟨4, 4, 5, 5, 3, 0, 0, 0, 0, 0, 0⟩,
  ⟨4, 4, 6, 6, 3, 0, 0, 0, 0, 0, 0⟩,
  ⟨4, 4, 7, 7, 3, 0, 0, 0, 0, 0, 0⟩,
  ⟨5, 5, 0, 0, 3, 0, 0, 0, 0, 0, 0⟩,
  ⟨5, 5, 1, 1, 3, 0, 0, 0, 0, 0, 0⟩,
  ⟨5, 5, 2, 2, 3, 0, 0, 0, 0, 0, 0⟩,
  ⟨5, 5, 3, 3, 3, 0, 0, 0, 0, 0, 0⟩,
  ⟨5, 5, 4, 4, 3, 0, 0, 0, 0, 0, 0⟩,
  ⟨5, 5, 5, 5, 3, 0, 0, 0, 0, 0, 0⟩,
  ⟨5, 5, 6, 6, 3, 0, 0, 0, 0, 0, 0⟩,
  ⟨5, 5, 7, 7, 3, 0, 0, 0, 0, 0, 0⟩,
  ⟨5, 5, 8, 8, 3, 0, 0, 0, 0, 0, 0⟩,
  ⟨5, 5, 9, 9, 3, 0, 0, 0, 0, 0, 0⟩,
  ⟨5, 5, 0xa, 0xa, 3, 0, 0, 0, 0, 0, 0⟩,
  ⟨6, 6, 0, 0, 2, 0, 0, 0, 0, 0, 0⟩,
  ⟨7, 7, 0, 0, 3, 0, 0, 0, 0, 0, 0⟩,
  ⟨7, 7, 1, 1, 3, 0, 0, 0, 0, 0, 0⟩,
  ⟨7, 7, 2, 2, 3, 0, 0, 0, 0, 0, 0⟩,
  ⟨7, 7, 3, 3, 3, 0, 0, 0, 0, 0, 0⟩,
  ⟨7, 7, 4, 4, 3, 0, 0, 0, 0, 0, 0⟩,
  ⟨7, 7, 5, 5, 3, 0, 0, 0, 0, 0, 0⟩,
  ⟨7, 7, 6, 6, 3, 0, 0, 0, 0, 0, 0⟩,
  ⟨7, 7, 7, 7, 3, 0, 0, 0, 0, 0, 0⟩,
  ⟨8, 8, 0, 0, 3, 0, 0, 0, 0, 0, 0⟩]

/-- Entries of a block, at offsets from its first index (R16), part 1: FLT_BLK_CNT, FLT_BLK_WDT, FLT_SHADOW. -/
def blkEnts1 : List Ent := [
  ⟨8, 8, 1, 1, 3, 0, 0, 0, 0, 0, 0⟩,
  ⟨8, 8, 2, 2, 3, 0, 0, 0, 0, 0, 0⟩,
  ⟨8, 8, 3, 3, 3, 0, 0, 0, 0, 0, 0⟩,
  ⟨8, 8, 4, 4, 3, 0, 0, 0, 0, 0, 0⟩,
  ⟨8, 8, 5, 5, 3, 0, 0, 0, 0, 0, 0⟩,
  ⟨8, 8, 6, 6, 3, 0, 0, 0, 0, 0, 0⟩,
  ⟨9, 9, 0, 0, 2, 0, 0, 0, 0, 0, 0⟩,
  ⟨9, 9, 1, 1, 7, 0, 0, 0, 0, 0, 0⟩]

/-- Entries of a block, at offsets from its first index (R16). -/
def blkEnts : List Ent := blkEnts0 ++ blkEnts1

/-- Entries of a region, at offsets from 0x4000 + 0x100 r, part 0: FLT_REGION_CNT, FLT_REGION_USE, MGT_REGION_STATE. -/
def regEnts0 : List Ent := [
  ⟨0, 0, 0, 0, 0, 0, 0, 1, 0, 0, 0⟩,
  ⟨1, 1, 0, 0, 8, 0, 0, 0, 0, 0, 0⟩,
  ⟨2, 2, 0, 0, 3, 0, 0, 0, 0, 0, 0⟩,
  ⟨2, 2, 1, 1, 3, 0, 0, 0, 0, 0, 0⟩,
  ⟨2, 2, 2, 2, 3, 0, 0, 0, 0, 0, 0⟩,
  ⟨2, 2, 3, 3, 3, 0, 0, 0, 0, 0, 0⟩,
  ⟨2, 2, 4, 4, 3, 0, 0, 0, 0, 0, 0⟩]

/-- Entries of a region, at offsets from 0x4000 + 0x100 r. -/
def regEnts : List Ent := regEnts0

/-- A row answers for an index and a subindex. -/
def entHit (i s : Nat) (e : Ent) : Bool := e.i0 ≤ i && i ≤ e.i1 && e.s0 ≤ s && s ≤ e.s1

/-- First dictionary index of a global block (R16). -/
def blkIndex (b : Nat) : Nat := 0x4000 + 0x100 * (b / 6) + 0x10 * (b % 6 + 1)

/-- The key of an address: index and subindex as one number. -/
def addrKey (i s : Nat) : Nat := i * 256 + s

/-- Key of an entry of block b at an offset from its first index. -/
def blkKey (b off s : Nat) : Nat := addrKey (blkIndex b + off) s

/-- Key of an entry of region r. -/
def regKey (r off s : Nat) : Nat := addrKey (0x4000 + 0x100 * r + off) s

/-- The entry at an address, if one exists (R311, R340). -/
def entryAt (i s : Nat) : Option Ent :=
  if 0x4000 ≤ i ∧ i < 0x4400 then
    let o := i % 0x100
    if o < 0x10 then regEnts.find? (entHit o s)
    else if o < 0x70 then blkEnts.find? (entHit (o % 0x10) s)
    else none
  else chipEnts.find? (entHit i s)

/-- The reset value of the entry with key `k` (0 where none exists). -/
def entReset (k : Nat) : Nat :=
  match entryAt (k / 256) (k % 256) with
  | some e => e.rst
  | none => 0

/-- Width in bytes of a fixed-width type (Table 11-1); 0 for STR and BLOB. -/
def tyWidth : Nat → Nat
  | 0 => 1 | 1 => 2 | 2 => 4 | 3 => 8 | 4 => 4 | 5 => 4 | 8 => 2 | _ => 0

/-- The saturating maximum of a counter entry's type. -/
def tyMax (t : Nat) : Nat := 2 ^ (8 * tyWidth t) - 1

/-- One key put into a rising list. -/
def insertKey (k : Nat) : List Nat → List Nat
  | [] => [k]
  | a :: l => if k ≤ a then k :: a :: l else a :: insertKey k l

/-- The keys of an entry row whose first index stands at `base`. -/
def entKeys (base : Nat) (e : Ent) : List Nat :=
  (List.range (e.i1 + 1 - e.i0)).flatMap (fun i =>
    (List.range (e.s1 + 1 - e.s0)).map (fun s => addrKey (base + e.i0 + i) (e.s0 + s)))

/-- All keys of TAKE entries in ascending index and subindex (R330): every one lies outside the regions' range. -/
def takeKeys : List Nat := ((chipEnts.filter (fun e => e.per == 1)).flatMap (entKeys 0)).foldr insertKey []

/-- Whether a write to an entry is applied at once (R323): VOL entries of the always-on domain, MGT_CUE and
MGT_TAKE_CMD. Every other RW or WO entry has a shadow and belongs to cue groups. -/
def appliedAtOnce (e : Ent) : Bool := (e.acc == 1 || e.acc == 2 || e.acc == 3) && e.per == 0 && e.grp == 0

end Sys2Proof.Machine
end

