-- ==== Sys2Proof/Machine/Parts.lean ====
section
/-!
DEFINITION. The parts that State is made of outside the data plane: power, security, the management controller, the
fault handler, the command unit, and what leaves the module.
-/

namespace Sys2Proof.Machine

/-! ## What leaves the module -/

/-- One thing that leaves the module, in the order in which it left: a DMA write to host memory, an MSI-X message of a
vector of function `fn`, a dictionary response, a dictionary response as a datagram from the module's UDP port `port`, an SPDM response, an
ICMPv6 answer, the Neighbor Solicitation of duplicate address detection, a packet handed to a port. -/
inductive Output where
  | dma (addr : Nat) (bytes : List Byte)
  | msix (fn vec addr data : Nat)
  | dict (dst : Source) (bytes : List Byte)
  | udp (port : Nat) (dst : Source) (bytes : List Byte)
  | spdm (code : Nat) (bytes : List Byte)
  | icmp (echo : Bool) (peer : Nat) (payload : List Byte)
  | solicit (target : Nat)
  | flit (port : Nat) (frame : List Byte)
  deriving DecidableEq, Repr

/-! ## Power (R391 to R414) -/

/-- The 40 V input as the module sees it: no input, the bulk capacitance charging, always-on rails up. -/
inductive Supply where
  | off | charging | on
  deriving DecidableEq, Repr

/-- The data-plane rails: off, ramping in the order of Table 14-3, all in regulation. -/
inductive Rails where
  | off | starting | up
  deriving DecidableEq, Repr

/-- Supply, rails, governor and thermal control. -/
structure Pwr where
  supply : Supply
  rails : Rails
  trained : Bool
  coldWait : Bool
  nGov : Nat
  nTherm : Nat
  lowCount : Nat
  pIn : Word
  uIn : Word
  iIn : Word
  tj : List Word
  tripped : Bool
  ov : Bool
  inputLow : Bool
  tjLimit : Bool
  refclk : Bool
  deriving DecidableEq, Repr

/-! ## Security (R372 to R390) -/

/-- SEC_BOOT_STS.PHASE (Table 13-5). -/
inductive Phase where
  | rom | secure | locked | recovery | halted
  deriving DecidableEq, Repr

/-- A nonvolatile image area: a firmware slot or a microcode area, its bytes and its VALID bit. -/
structure Area where
  image : List Byte
  valid : Bool
  deriving DecidableEq, Repr

/-- The floors of the monotonic record (R373): SVN_FLOOR and KEY_FLOOR. -/
structure Floors where
  svn : Nat
  key : Nat
  deriving DecidableEq, Repr

/-- One copy of the monotonic record as the store holds it: the floors and their CRC-32C (R373). -/
structure MonoCopy where
  floors : Floors
  crc : Nat
  deriving DecidableEq, Repr

/-- The CRC-32C over a record copy's bytes. -/
def Floors.crc (f : Floors) : Nat := crc32c (leBytes 1 f.svn ++ leBytes 1 f.key)

/-- A record copy written whole. -/
def Floors.copy (f : Floors) : MonoCopy := { floors := f, crc := f.crc }

/-- Whether a record copy passes its CRC-32C. -/
def MonoCopy.valid (m : MonoCopy) : Bool := m.crc == m.floors.crc

/-- The management firmware's run state: not running, restarted and not yet heard, running. -/
inductive FwRun where
  | none | restarting | running
  deriving DecidableEq, Repr

/-- The security unit: boot status, protection set-up, nonvolatile store, firmware update, IDE keys, SPDM; `fwInto` lists the slots that
the update under way writes (R381, R384); the manufacturing fuses of the arrays'
rows: by (block × 17 + physical position) × 4 + array a mask of the 33 physical rows found bad (R87). -/
structure Sec where
  phase : Phase
  slotBoot : Nat
  fallback : Bool
  recovPin : Bool
  floorRaised : Bool
  fail0 : Nat
  fail1 : Nat
  kat : Bool
  lock : Bool
  privSrc : Nat
  t1sWr : Nat
  strap : Nat
  slot0 : Area
  slot1 : Area
  preferred : Nat
  trial : Option Nat
  uarea0 : Area
  uarea1 : Area
  ubank : Nat
  policy : Option Nat
  mono0 : MonoCopy
  mono1 : MonoCopy
  staging : List Byte
  fwCmd : Nat
  fwSts : Nat
  fwInto : List Nat
  fwFail : Nat
  active : Nat
  fwRun : FwRun
  onTrial : Bool
  ideKeys : Sparse (List Byte)
  ideFresh : List Nat
  ideOn : Bool
  identity : Bool
  algos : Bool
  fuses : Sparse Nat
  deriving DecidableEq, Repr

/-! ## Management controller (R311 to R341) -/

/-- One take image of the take store (R329): its number, the values that differ from reset, the CRC-32C that the store holds for it. -/
structure TakeImg where
  num : Nat
  vals : Sparse Nat
  crc : Nat
  deriving DecidableEq, Repr

/-- The CRC-32C over a take image's number, addresses and values (layout: DESIGN CHOICE, log entry 126). -/
def takeCrc (num : Nat) (vals : Sparse Nat) : Nat := crc32c (leBytes 4 num ++ vals.flatMap (fun e => leBytes 3 e.1 ++ leBytes 8 e.2))

/-- Whether a take image passes its CRC-32C. -/
def TakeImg.ok (x : TakeImg) : Bool := x.crc == takeCrc x.num x.vals

/-- A take image written whole. -/
def sealTake (num : Nat) (vals : Sparse Nat) : TakeImg := { num := num, vals := vals, crc := takeCrc num vals }

/-- A take image caught in its write: its CRC-32C fails (R329). -/
def TakeImg.torn (x : TakeImg) : TakeImg := { x with crc := takeCrc x.num x.vals ^^^ 1 }

/-- MGT_MB_STS.STATE. -/
inductive MbState where
  | idle | busy | done
  deriving DecidableEq, Repr

/-- The dictionary mailbox (Table 11-8): both buffers, the control word, the status. `len`: the LEN written with the last GO. `drop`: the
response of the running request is discarded (R339). -/
structure Mailbox where
  req : List Byte
  resp : List Byte
  ctl : Nat
  len : Nat
  st : MbState
  rlen : Nat
  seq : Nat
  drop : Bool
  deriving DecidableEq, Repr

/-- The last response sent to one source address (R337). -/
structure Cached where
  addr : Nat
  seq : Nat
  bytes : List Byte
  deriving DecidableEq, Repr

/-- A request of the segment that waits in the receive queue (R337): its source, the port it was sent to, its bytes. -/
structure Datagram where
  src : Source
  port : Nat
  bytes : List Byte
  deriving DecidableEq, Repr

/-- Entry values live and in shadow, the applied copies of the units, takes and their store, the sweep, the links. `applied` is keyed by
unit × 2^24 + address (units: seqUnit, cellUnit, r < 4 for the other units of region r, 4 for the chip-level units). `nvWrite` is the image
being written to the take store, `nvNext` whether another is due after it. `rxq` is the receive queue (R337). `apply` lists the (group,
unit) pairs that have not yet applied their group's last cue. `cmdPend` lists the region and channel and lane commands that a cue has
captured and no row has carried out yet, as (address key, value). -/
structure Mgt where
  live : Sparse Nat
  shadow : Sparse Nat
  prev : Sparse Nat
  liveNum : Nat
  prevNum : Nat
  highNum : Nat
  takeSrc : Nat
  nvState : Nat
  nvWrite : Option TakeImg
  nvNext : Bool
  nv0 : TakeImg
  nv1 : TakeImg
  applied : Sparse Nat
  apply : List (Nat × Nat)
  cmdFresh : List Nat
  cmdPend : List (Nat × Nat)
  sweep : Bool
  mb : Mailbox
  rxq : List Datagram
  cache : List Cached
  phyOn : Bool
  noBeacon : Bool
  addrDup : Bool
  deriving DecidableEq, Repr

/-! ## Fault handler (R342 to R371) -/

/-- MGT_REGION_STATE (Table 1-4). -/
inductive RState where
  | offline | online | draining | resetting | failed
  deriving DecidableEq, Repr

/-- Where a kill-and-reset of a region stands (Table 12-8): none, waiting for the dump to start, dumping, resetting. -/
inductive RStage where
  | none | killed | dumping | reset
  deriving DecidableEq, Repr

/-- One region as the fault handler holds it: state, stage, the fault record that started the reset, the dump slot, the
affected domains, the domains whose clip pass the reset cut, whether the region is on its way back from OFFLINE, and whether it was OFFLINE
when a chip warm reset took it (R132). -/
structure Reg where
  st : RState
  stage : RStage
  recNo : Nat
  slot : Nat
  affected : Nat
  cut : Nat
  onlining : Bool
  wasOff : Bool
  deriving DecidableEq, Repr

/-- A dump slot (R353): VALID, HELD, region, INCOMPLETE, record number, tick count at the strike, the order in which the
slot was taken, its bytes. `gaps`: the sections without an answer so far, shown as INCOMPLETE when the dump is complete. -/
structure Dump where
  valid : Bool
  held : Bool
  region : Nat
  incomplete : Nat
  gaps : Nat
  recNo : Nat
  ticks : Nat
  order : Nat
  bytes : List Byte
  deriving DecidableEq, Repr

/-- A chip warm reset under way: the region whose fault caused it (4: none), the record that started it, the affected
domains, whether it has overrun. -/
structure ChipRst where
  region : Nat
  recNo : Nat
  affected : Nat
  cut : Nat
  overrun : Bool
  deriving DecidableEq, Repr

/-- Fault log, dumps, clapper, regions, chip warm reset, microcode update. `log` is keyed by record number modulo 256. -/
structure Flt where
  log : Sparse Nat
  head : Nat
  ack : Nat
  dumps : Sparse Dump
  dumpOrder : Nat
  clapSeq : Nat
  strike : Option Nat
  clapOut : Nat
  regs : Sparse Reg
  chip : Option ChipRst
  ustage : List Byte
  usts : Nat
  usel : Nat
  uswap : Bool
  ubank0 : Bool
  ubank1 : Bool
  deriving DecidableEq, Repr

/-! ## Command unit (R284 to R310) -/

/-- Why a context is KILLED: by a region or chip reset, whose replay restarts it, or by PERST_L or an FLR (R357). -/
inductive Kill where
  | no | reset | host
  deriving DecidableEq, Repr

/-- How a command stands: running, or ended with a STATUS and a REASON (Table 10-12). -/
inductive Fin where
  | running
  | ended (status reason : Nat)
  deriving DecidableEq, Repr

/-- An admitted command, from its fetch to its completion record: descriptor, domain, local queue, cost, end, the flags and
the DETAIL of its record, the payload that it read by DMA, and its place in the order in which its domain's commands were fetched (R298). -/
structure Cmd where
  desc : Nat
  dom : Nat
  q : Nat
  cost : Nat
  fin : Fin
  deferred : Bool
  spl : Bool
  fbp : Bool
  detail : Nat
  stepNo : Nat
  attempt : Nat
  rst : Bool
  dv : Bool
  data : Option (List Byte)
  admitted : Bool
  muted : Bool
  order : Nat
  deriving DecidableEq, Repr

/-- A deferred command (R302): its cause (false QUOTA, true UNIT), the order in which it was deferred; `note`: its notice waits for
room in the completion ring. -/
structure Defer where
  unitCause : Bool
  cost : Nat
  order : Nat
  cmd : Cmd
  note : Bool
  deriving DecidableEq, Repr

/-- A queue context (Tables 10-5 to 10-7). Key 4096 is the admin queue. `made`: not FREE. -/
structure Ctx where
  made : Bool
  sqBase : Nat
  cqBase : Nat
  enable : Bool
  stepq : Bool
  dnote : Bool
  sqLog : Nat
  cqLog : Nat
  home : Nat
  vec : Nat
  coalN : Nat
  coalT : Nat
  kill : Kill
  errc : Nat
  tail : Nat
  head : Nat
  cqHead : Nat
  cqTail : Nat
  cqPhase : Bool
  refusedCnt : Nat
  doneCnt : Nat
  unsig : Nat
  unsigTick : Nat
  cmd : Option Cmd
  defer : Option Defer
  deriving DecidableEq, Repr

/-- Domain record STATE (Table 10-3). -/
inductive DState where
  | free | active | tearing
  deriving DecidableEq, Repr

/-- A domain record (Table 10-3). `tearCtx`: the admin DOM_TEARDOWN that waits for it. -/
structure Dom where
  st : DState
  gen : Nat
  lastGen : Nat
  qbase : Nat
  qcount : Nat
  quota : Nat
  inflight : Nat
  memlim : Nat
  nextStep : Nat
  stepqEn : Bool
  tearCtx : Bool
  deferOrder : Nat
  deriving DecidableEq, Repr

/-- A result object (Table 10-13): generation, the last publication's header fields and payload, and the number of
admitted commands that name it (READY is 1 while that is 0). -/
structure Res where
  gen : Nat
  cid : Nat
  kind : Nat
  status : Nat
  payload : List Byte
  named : Nat
  deriving DecidableEq, Repr

/-- An MSI-X table entry: address, data, masked; and its pending bit. -/
structure Msix where
  addr : Nat
  data : Nat
  masked : Bool
  pend : Bool
  deriving DecidableEq, Repr

/-- The command unit and the PCIe core. `doms`, `ctxs`, `ress` (domain × 256 + object) and `msix` (function × 256 + vector)
are keyed lists; `heldBar` the BAR writes held during a chip warm reset (R365). -/
structure Cp where
  pcieRef : Bool
  perst : Bool
  link : Bool
  doms : Sparse Dom
  ctxs : Sparse Ctx
  ress : Sparse Res
  msix : Sparse Msix
  heldBar : List Instr
  deriving DecidableEq, Repr

end Sys2Proof.Machine
end

