-- ==== Sys2Proof/Machine/State.lean ====
section
/-!
DEFINITION. The state of the block, the reasons a command can stop, and the state after reset.
-/

namespace Sys2Proof.Machine

/-- Everything the spec gives the module. `pending` is the queue of waiting commands, first in, first out. `ticks` is the tick count (R404);
`evt` counts the events at which something became ready or was accepted, and stands for the cycle of each (DESIGN CHOICE, log entry 12);
`free` is the model's own counter behind its free values; `out` is what has left the module. `ro` holds every RO value and counter that has
no field of its own, by entry address. `segs` is keyed domain × 4096 + segment, `dirs` by page, `binds` by ((cell × 16 + domain) × 4096 +
segment) × 4096 + slot, `mem` by physical byte address. -/
structure State where
  pending : List Instr
  ticks : Nat
  evt : Nat
  free : Nat
  out : List Output
  pwr : Pwr
  sec : Sec
  mgt : Mgt
  ro : Sparse Nat
  flt : Flt
  cp : Cp
  progs : Sparse Prog
  steps : Sparse StepSt
  segs : Sparse Seg
  blks : Sparse Blk
  sigs : List Sig
  mem : List Host.Cell
  dirs : Sparse Dirent
  binds : Sparse Bind
  back : Backing
  grds : Sparse Grd
  fab : Fab
  xchs : Sparse Xch
  days : Sparse Day
  deriving DecidableEq, Repr

/-- Why the machine stops with a fault. -/
inductive Fault where
  /-- Raised by OVERVOLTAGE with an input above the absolute maximum of 44.0 V (Table 14-2): damage may occur, and the spec
  gives no behaviour. Safe: the model stops where the hardware may go on. -/
  | inputAboveAbsoluteMaximum
  deriving DecidableEq, Repr

/-- Why a command has no meaning. -/
inductive Refusal where
  /-- A command not modelled yet, by its mnemonic. Raised by the dispatcher alone. Safe: the model stops. -/
  | notModelled (mnemonic : String)
  deriving DecidableEq, Repr

/-- Supply and clocks with no input applied: every step register at its reset value (Tables 14-8, 14-9). -/
def pwrReset : Pwr :=
  { supply := .off, rails := .off, trained := false, coldWait := false, nGov := 56, nTherm := 56, lowCount := 0
    pIn := 0, uIn := 0, iIn := 0, tj := [0, 0, 0, 0, 0], tripped := false, ov := false
    inputLow := false, tjLimit := false, refclk := true }

/-- A nonvolatile area that holds no image. -/
def areaEmpty : Area := { image := [], valid := false }

/-- The security unit before its first power-up: the protection set-up at its reset values (Table 11-2), SEC_BOOT_STS 0, an
empty store (DESIGN CHOICE, log entry 6). -/
def secReset : Sec :=
  { phase := .rom, slotBoot := 0, fallback := false, recovPin := false, floorRaised := false, fail0 := 0, fail1 := 0
    kat := false, lock := false, privSrc := 0, t1sWr := 0, strap := 0, slot0 := areaEmpty, slot1 := areaEmpty
    preferred := 0, trial := none, uarea0 := areaEmpty, uarea1 := areaEmpty, ubank := 0, policy := none
    mono0 := Floors.copy ⟨0, 0⟩, mono1 := Floors.copy ⟨0, 0⟩, staging := [], fwCmd := 0, fwSts := 0, fwInto := [], fwFail := 0, active := 0, fwRun := .none
    onTrial := false, ideKeys := [], ideFresh := [], ideOn := false, identity := false, algos := false, fuses := [] }

/-- A take image that has never been written: its CRC-32C fails. -/
def takeEmpty : TakeImg := (sealTake 0 []).torn

/-- The mailbox at reset (Table 11-8). -/
def mbReset : Mailbox := { req := [], resp := [], ctl := 0, len := 0, st := .idle, rlen := 0, seq := 0, drop := false }

/-- The management controller at reset: every entry at its reset value, no take stored. -/
def mgtReset : Mgt :=
  { live := [], shadow := [], prev := [], liveNum := 0, prevNum := 0, highNum := 0, takeSrc := 2, nvState := 0
    nvWrite := none, nvNext := false, nv0 := takeEmpty, nv1 := takeEmpty, applied := [], apply := [], cmdFresh := [], cmdPend := [], sweep := false
    mb := mbReset, rxq := [], cache := [], phyOn := false, noBeacon := false, addrDup := false }

/-- The fault handler at reset: empty log, free dump slots, every region ONLINE. -/
def fltReset : Flt :=
  { log := [], head := 0, ack := 0, dumps := [], dumpOrder := 0, clapSeq := 0, strike := none, clapOut := 0, regs := []
    chip := none, ustage := [], usts := 0, usel := 0, uswap := false, ubank0 := false, ubank1 := false }

/-- The control plane at reset: PERST_L low by its pull-down (Table 14-1), every domain FREE and every context FREE. -/
def cpReset : Cp :=
  { pcieRef := true, perst := true, link := false, doms := [], ctxs := [], ress := [], msix := [], heldBar := [] }

/-- Backing memory at cold boot: the identity remap of R141, nothing moving. -/
def backReset : Backing :=
  { remap := [], moves := [], suspect := [], gone := 0, ops := [], ce := [], held := []
    sigq := [], poison := [], pmoves := [] }

/-- The fabric at reset: every port DISABLED. -/
def fabReset : Fab := { ports := [], combs := [], done := [], lane := none }

/-- The module right after reset, before input power is applied: every register at its reset value, every memory and queue
empty (DESIGN CHOICE, log entries 1, 2 and 6). -/
def State.reset : State :=
  { pending := [], ticks := 0, evt := 0, free := 0, out := [], pwr := pwrReset, sec := secReset, mgt := mgtReset, ro := []
    flt := fltReset, cp := cpReset, progs := [], steps := [], segs := [], blks := [], sigs := [], mem := [], dirs := []
    binds := [], back := backReset, grds := [], fab := fabReset, xchs := [], days := [] }

end Sys2Proof.Machine
end

