-- ==== Sys2Proof/Machine/Ops.lean ====
section
/-!
DEFINITION. The named operations over State: reading and writing one domain, context, block, region or entry; counters;
bytes of memory; what leaves the module. Every meaning goes through these.
-/

namespace Sys2Proof.Machine

/-! ## What an unlisted key reads as -/

def zeroNat (_ : Nat) : Nat := 0
def zeroByte (_ : Nat) : Byte := 0

/-- A region after reset: ONLINE. -/
def regDflt (_ : Nat) : Reg :=
  { st := .online, stage := .none, recNo := 0, slot := 4, affected := 0, cut := 0, onlining := false, wasOff := false }

def dumpDflt (_ : Nat) : Dump :=
  { valid := false, held := false, region := 0, incomplete := 0, gaps := 0, recNo := 0, ticks := 0, order := 0, bytes := [] }

/-- A domain record at its reset values (Table 10-3). -/
def domDflt (_ : Nat) : Dom :=
  { st := .free, gen := 0, lastGen := 0xFFF, qbase := 0, qcount := 0, quota := 0, inflight := 0, memlim := 0, nextStep := 0
    stepqEn := false, tearCtx := false, deferOrder := 0 }

/-- The key of the admin queue's context. -/
def adminKey : Nat := 4096

/-- A context block at its reset values (Tables 10-5 to 10-7): FREE; the admin queue always exists (R290). -/
def ctxDflt (k : Nat) : Ctx :=
  { made := k == adminKey, sqBase := 0, cqBase := 0, enable := false, stepq := false, dnote := false, sqLog := 4
    cqLog := 4, home := 0, vec := 0, coalN := 0, coalT := 0, kill := .no, errc := 0, tail := 0, head := 0, cqHead := 0
    cqTail := 0, cqPhase := true, refusedCnt := 0, doneCnt := 0, unsig := 0, unsigTick := 0, cmd := none, defer := none }

def resDflt (_ : Nat) : Res := { gen := 0, cid := 0, kind := 0, status := 0, payload := [], named := 0 }

/-- An MSI-X entry after reset: masked, as the PCIe specification gives. -/
def msixDflt (_ : Nat) : Msix := { addr := 0, data := 0, masked := true, pend := false }

def progDflt (_ : Nat) : Prog :=
  { loaded := false, lists := [], pages := [], problems := [], hdrs := [], blocks := 0, lsets := 0, lastSet := 0 }

def stepDflt (_ : Nat) : StepSt :=
  { order := .none, stopped := false, no := 0, att := 0, lset := 0, ctx := 0, xfer := false, marked := false, latch := [], ls := 0x3F800000
    modes := 0, prevModes := 0, outcome := 0, f := false, n := 0, c := 0x3F800000, reported := 0, walked := 0
    clipped := 0, clipOn := 0, rst := false, fell := [], dv := false }

def hdrDflt (_ : Nat) : WcHdr := { vcur := 0, vprev := 0, hold0 := 0, hold1 := 0, seg0 := 0, seg1 := 0, epend := false }

def segDflt (_ : Nat) : Seg := segNone

def bankEmpty : Bank := { valid := false, step := 0, att := 0, ctr := [] }

def itemDflt (_ : Nat) : ItemSt :=
  { st := .waiting, readyAt := 0, promoted := false, slots := [], touched := false, owed := none, evts := [], redo := false }

def slateEmpty : Slate := { hdr := 0, heads := [], cells := [], cutter := [], unit := [], pairs := [] }

/-- A stationary set that holds nothing: every PE holds 0. -/
def setEmpty : StatSet := { fmt := .e4m3, fold := false, rows := [] }

/-- An array without a repair (R78, R87, R88): logical row k in physical row k, d_k = k, H = 1. -/
def arrDflt : ArrHw :=
  { remap := List.range 32, skew := List.range 32, elastic := 1, set0 := setEmpty, set1 := setEmpty, active := false
    bank0 := [], bank1 := [], last := true }

/-- The four arrays of a cell. -/
def cellDflt (_ : Nat) : List ArrHw := List.replicate 4 arrDflt

/-- A block at cold reset: MGT_BLK_MAP of Table 1-3, sequencer IDLE, empty counter banks. -/
def blkDflt (_ : Nat) : Blk :=
  { map := 0x803FFFFF, phase := .idle, dom := 0, lset := 0, att := 0, step := 0, bank0 := bankEmpty
    bank1 := bankEmpty, items := [], nonfin := false, norm := 0, pass := none, ready := [], commits := [], falls := []
    curs := [], trace := [], traceN := 0, slate := slateEmpty, ubank := 0, wdt := 0, clkOff := false
    ramp := false, tiles := [], parity := [], subst := none, sts := [], staged := [], traceQ := 0
    cells := [], rowLog := [], gateOld := none }

def dirDflt (_ : Nat) : Dirent :=
  { valid := false, tier := false, mig := false, frozen := false, reel := false, pend := false, dom := 0, owner := 0
    addr := 0, layer := 0, gen := 0, version := 0 }

def problemNone : Problem := { hdr := 0, blks := [] }

def grdDflt (_ : Nat) : Grd := { slots := [], run := none, runCold := false, runMism := false, runTick := 0, runCur := 0, runVals := [] }

/-- A frame control at reset (Table 9-2): FSEQ 0, ACK 0xFFF. -/
def ctlReset : Nat := 0xFFF * 2 ^ 56

/-- A port at reset: DISABLED, sequence numbers restarted, full credits (R253). -/
def portDflt (_ : Nat) : Port :=
  { st := .disabled, back := .disabled, since := 0, txSeq := 0xFFF, rxSeq := 0xFFF, nak := false, retry := []
    credit := [1024, 1024, 512], peerTot := [0, 0, 0], freed := [0, 0, 0], rx := [[], [], []], asm := [], tx := []
    bulkWait := [0, 0, 0], lastSrc := [0, 0, 0, 0, 0, 0], lreq := none, lcnt := 0, lost := 4, crd := 0
    lastCtl := ctlReset, gone := [] }

def xcEmpty : Xc := { step := 0, own := none, kids := [], sent := false }

def xchDflt (_ : Nat) : Xch :=
  { norm := xcEmpty, sigLo := xcEmpty, sigHi := xcEmpty, keptNorm := none, keptLo := none, keptHi := none, contributed := none, hung := false }

def dayDflt (_ : Nat) : Day :=
  { running := false, s := 0, states := [], engines := 0, completed := 0, rxHalf := 0, rxStep := 0, rxPages := []
    rxCount := 0, imps := [] }

/-! ## Keyed parts of the state -/

/-- A listed value, with no default. -/
def spFind {α : Type} : Sparse α → Nat → Option α
  | [], _ => none
  | (i, v) :: l, k => if i = k then some v else spFind l k

def State.reg (s : State) (r : Nat) : Reg := spGet regDflt s.flt.regs r
def State.setReg (s : State) (r : Nat) (x : Reg) : State :=
  { s with flt := { s.flt with regs := spSet regDflt s.flt.regs r x } }

def State.dump (s : State) (n : Nat) : Dump := spGet dumpDflt s.flt.dumps n
def State.setDump (s : State) (n : Nat) (x : Dump) : State :=
  { s with flt := { s.flt with dumps := spSet dumpDflt s.flt.dumps n x } }

def State.dom (s : State) (d : Nat) : Dom := spGet domDflt s.cp.doms d
def State.setDom (s : State) (d : Nat) (x : Dom) : State :=
  { s with cp := { s.cp with doms := spSet domDflt s.cp.doms d x } }

def State.ctx (s : State) (k : Nat) : Ctx := spGet ctxDflt s.cp.ctxs k
def State.setCtx (s : State) (k : Nat) (x : Ctx) : State :=
  { s with cp := { s.cp with ctxs := spSet ctxDflt s.cp.ctxs k x } }

/-- Result object o of domain d. -/
def State.res (s : State) (d o : Nat) : Res := spGet resDflt s.cp.ress (d * 256 + o)
def State.setRes (s : State) (d o : Nat) (x : Res) : State :=
  { s with cp := { s.cp with ress := spSet resDflt s.cp.ress (d * 256 + o) x } }

def State.msix (s : State) (fn v : Nat) : Msix := spGet msixDflt s.cp.msix (fn * 256 + v)
def State.setMsix (s : State) (fn v : Nat) (x : Msix) : State :=
  { s with cp := { s.cp with msix := spSet msixDflt s.cp.msix (fn * 256 + v) x } }

def State.prog (s : State) (d : Nat) : Prog := spGet progDflt s.progs d
def State.setProg (s : State) (d : Nat) (x : Prog) : State := { s with progs := spSet progDflt s.progs d x }

def State.stp (s : State) (d : Nat) : StepSt := spGet stepDflt s.steps d
def State.setStp (s : State) (d : Nat) (x : StepSt) : State := { s with steps := spSet stepDflt s.steps d x }

def State.seg (s : State) (d k : Nat) : Seg := spGet segDflt s.segs (d * 4096 + k)
def State.setSeg (s : State) (d k : Nat) (x : Seg) : State := { s with segs := spSet segDflt s.segs (d * 4096 + k) x }

def State.blk (s : State) (b : Nat) : Blk := spGet blkDflt s.blks b
def State.setBlk (s : State) (b : Nat) (x : Blk) : State := { s with blks := spSet blkDflt s.blks b x }

def State.dir (s : State) (p : Nat) : Dirent := spGet dirDflt s.dirs p
def State.setDir (s : State) (p : Nat) (x : Dirent) : State := { s with dirs := spSet dirDflt s.dirs p x }

def State.grd (s : State) (r : Nat) : Grd := spGet grdDflt s.grds r
def State.setGrd (s : State) (r : Nat) (x : Grd) : State := { s with grds := spSet grdDflt s.grds r x }

def State.port (s : State) (p : Nat) : Port := spGet portDflt s.fab.ports p
def State.setPort (s : State) (p : Nat) (x : Port) : State :=
  { s with fab := { s.fab with ports := spSet portDflt s.fab.ports p x } }

def State.xch (s : State) (d : Nat) : Xch := spGet xchDflt s.xchs d
def State.setXch (s : State) (d : Nat) (x : Xch) : State := { s with xchs := spSet xchDflt s.xchs d x }

def State.day (s : State) (d : Nat) : Day := spGet dayDflt s.days d
def State.setDay (s : State) (d : Nat) (x : Day) : State := { s with days := spSet dayDflt s.days d x }

def State.hdr (s : State) (d h : Nat) : WcHdr := spGet hdrDflt (s.prog d).hdrs h
def State.setHdr (s : State) (d h : Nat) (x : WcHdr) : State :=
  s.setProg d { s.prog d with hdrs := spSet hdrDflt (s.prog d).hdrs h x }

def State.bind (s : State) (k : Nat) : Option Bind := spFind s.binds k
def State.setBind (s : State) (k : Nat) (x : Bind) : State := { s with binds := spPut s.binds k x }
def State.delBind (s : State) (k : Nat) : State := { s with binds := spDel s.binds k }

/-- Something leaves the module. -/
def State.emit (s : State) (o : Output) : State := { s with out := s.out ++ [o] }

/-! ## Entries and counters -/

/-- A stored RO value. -/
def State.ro? (s : State) (k : Nat) : Nat := spGet entReset s.ro k
def State.setRo (s : State) (k v : Nat) : State := { s with ro := spSet entReset s.ro k v }

/-- The saturation bound of the entry with key `k`. -/
def entMax (k : Nat) : Nat :=
  match entryAt (k / 256) (k % 256) with
  | some e => tyMax e.ty
  | none => 0

/-- A counter entry raised by `n`, saturating at its type's largest value (R321, R341). -/
def State.count (s : State) (k n : Nat) : State := s.setRo k (min (s.ro? k + n) (entMax k))

/-- A counter raised by one if a condition holds. -/
def State.countIf (s : State) (b : Bool) (k : Nat) : State := if b then s.count k 1 else s

/-- The reset value of an applied copy: that of its entry. -/
def appDflt (k : Nat) : Nat := entReset (k % 0x1000000)

/-- The key of a unit's applied copy: units 0 to 3 are the regions' units, unit 4 the chip's, 8 + b the sequencer of block b,
32 + 17b + c physical cell c of block b. -/
def appKey (u k : Nat) : Nat := u * 0x1000000 + k

/-- The sequencer of a block, and a physical cell of it, as units. -/
def seqUnit (b : Nat) : Nat := 8 + b
def cellUnit (b c : Nat) : Nat := 32 + 17 * b + c

/-- The region of a unit; 4 for the chip-level ones. -/
def unitReg (u : Nat) : Nat := if u < 8 then u else if u < 32 then (u - 8) / 6 else (u - 32) / 102

/-- The value of an entry in force in a unit: the copy that the unit applied last (R326). -/
def State.app (s : State) (u k : Nat) : Nat := spGet appDflt s.mgt.applied (appKey u k)

/-- The live value of an entry. -/
def State.live (s : State) (k : Nat) : Nat := spGet entReset s.mgt.live k

/-- The shadow value of an entry. -/
def State.shadow (s : State) (k : Nat) : Nat := spGet entReset s.mgt.shadow k

/-! ## Bytes of memory (R121) -/

/-- What a byte of memory holds; a byte never written holds 0 (DESIGN CHOICE, log entry 2). -/
def State.rd (s : State) (a : Nat) : Byte := spGet zeroByte s.mem a

/-- A byte of memory written. -/
def State.wr (s : State) (a : Nat) (b : Byte) : State := { s with mem := spSet zeroByte s.mem a b }

/-- What a read delivers of a byte `b` at an address: of a word that the scrubber has poisoned, a free value (R147; DESIGN CHOICE, log entry 20). -/
def State.rdP (s : State) (a : Nat) (b : Byte) : Byte := if s.back.poison.contains (a / 8) then Config.freeByte 0 a else b

/-- `n` bytes of memory from an address. -/
def State.rdBytes (s : State) (a n : Nat) : List Byte :=
  let bs := spGetList zeroByte s.mem a n
  if s.back.poison.isEmpty then bs else ((List.range n).zip bs).map (fun p => s.rdP (a + p.1) p.2)

/-- A write takes the poison off the words it writes. -/
def cleanWords (s : State) (a n : Nat) : Backing :=
  { s.back with poison := s.back.poison.filter (fun w => w < a / 8 || (a + n + 7) / 8 ≤ w) }

/-- Bytes written from an address. -/
def State.wrBytes (s : State) (a : Nat) (bs : List Byte) : State :=
  { s with mem := spSetList zeroByte s.mem a bs, back := cleanWords s a bs.length }

/-- A little-endian number of `n` bytes. -/
def State.rdNat (s : State) (a n : Nat) : Nat := leNat (s.rdBytes a n)

/-- A little-endian number written in `n` bytes. -/
def State.wrNat (s : State) (a n v : Nat) : State := s.wrBytes a (leBytes n v)

/-- A fresh free value: the number of free values taken so far, and the state after taking it. -/
def State.fresh (s : State) : Nat × State := (s.free, { s with free := s.free + 1 })

/-! ## Names of counters -/

/-- Key of an entry written as index and subindex. -/
def key (i sub : Nat) : Nat := addrKey i sub

def kDict (n : Nat) : Nat := key 0x8010 n
def kPwrCnt (n : Nat) : Nat := key 0x3003 n
def kCmdPerf (n : Nat) : Nat := key 0x4810 n
def kChipCnt (n : Nat) : Nat := key 0x9020 n
def kRegCnt (r n : Nat) : Nat := regKey r 2 n
def kBlkCnt (b n : Nat) : Nat := blkKey b 8 n
def kSeqPerf (b n : Nat) : Nat := blkKey b 5 n
def kCutPerf (b n : Nat) : Nat := blkKey b 7 n
def kArrPerf (b n : Nat) : Nat := blkKey b 3 n
def kVecPerf (b n : Nat) : Nat := blkKey b 4 n
def kGrdPerf (r n : Nat) : Nat := key (0x7020 + r) n
def kPort (p n : Nat) : Nat := key (0x5040 + p) n
def kXchg (n : Nat) : Nat := key 0x5050 n
def kMem (n : Nat) : Nat := key 0x6000 n
def kSram (n : Nat) : Nat := key 0x6010 n

/-- The region of a global block, and of a logical cell (R14). -/
def regOfBlk (b : Nat) : Nat := b / 6
def blkOfCell (c : Nat) : Nat := c / 16

/-- The region of a fabric port (Table 9-1). -/
def regOfPort (p : Nat) : Nat := p / 2

/-- Bit d of a mask. -/
def mbit (m d : Nat) : Bool := Nat.testBit m d

/-- A mask with bit d set. -/
def mset (m d : Nat) : Nat := if Nat.testBit m d then m else m + 2 ^ d

/-- A mask with bit d clear. -/
def mclr (m d : Nat) : Nat := if Nat.testBit m d then m - 2 ^ d else m

/-- The numbers below `n` whose bit is set in a mask. -/
def mlist (m n : Nat) : List Nat := (List.range n).filter (mbit m)

/-- A state changed once for each element of a list. -/
def State.each {α : Type} (s : State) (l : List α) (f : State → α → State) : State := l.foldl f s

end Sys2Proof.Machine
end

