-- ==== Sys2Proof/Machine/Topology.lean ====
section
/-!
DEFINITION. Where a module stands in its torus, and its place in the combining groups (R257, R264, R265).
-/

namespace Sys2Proof.Machine

/-! ## Coordinates (R257) -/

/-- Component of a coordinate: dimension 0 is x, 1 is y, 2 is z. -/
def coord (c i : Nat) : Nat := bits c (11 - 4 * i) (8 - 4 * i)

/-- A coordinate with one component changed. -/
def setCoord (c i v : Nat) : Nat := setBits c (11 - 4 * i) (8 - 4 * i) v

/-- Size of a dimension of a torus. -/
def dimOf (t i : Nat) : Nat := coord t i + 1

/-- This module's coordinate at chip level (DEDUCED, log entry 22). -/
def selfCoord (s : State) : Nat := s.live (key 0x5000 0)

/-! ## Combining groups (R264, R265) -/

/-- Group of a domain; none for FAB_DOM_GRP = 0xFF (R264, R272). -/
def grpOfDom (s : State) (d : Nat) : Option Nat :=
  let g := s.live (key 0x5020 d)
  if g < 4 then some g else none

/-- A group's box in dimension i: its origin and its size. -/
def originOf (s : State) (g i : Nat) : Nat := coord (s.live (key (0x5010 + g) 0)) i
def boxOf (s : State) (g i : Nat) : Nat := coord (s.live (key (0x5010 + g) 1)) i + 1

/-- Whether a coordinate lies in a group's box: a box of coordinates, which does not go on over a wrap link (R265; DEDUCED, log entry 90). -/
def inGroup (s : State) (g c : Nat) : Bool :=
  (List.range 3).all (fun i => originOf s g i ≤ coord c i && coord c i < originOf s g i + boxOf s g i)

/-- The root's coordinate. -/
def rootOf (s : State) (g : Nat) : Nat := s.live (key (0x5010 + g) 2)

/-- The neighbour of a coordinate by a port. -/
def neighbour (s : State) (c p : Nat) : Nat :=
  let i := p / 2
  let n := dimOf (s.live (key 0x5000 1)) i
  setCoord c i ((coord c i + (if p % 2 = 0 then 1 else n - 1)) % n)

/-- The port toward a member's parent: a step toward the root's coordinate; none at the root (R265). -/
def parentPort (s : State) (g c : Nat) : Option Nat :=
  match (List.range 3).find? (fun i => coord c i != coord (rootOf s g) i) with
  | none => none
  | some i => some (if coord c i < coord (rootOf s g) i then 2 * i else 2 * i + 1)

/-- The ports by which this module's children arrive, ascending: the neighbours whose parent it is. -/
def childPorts (s : State) (g : Nat) : List Nat :=
  let me := selfCoord s
  (List.range 6).filter (fun p =>
    let c := neighbour s me p
    c != me && inGroup s g c && (match parentPort s g c with
      | some q => neighbour s c q == me && (q / 2 == p / 2) && q % 2 != p % 2
      | none => false))

/-- The reduction ALU that combines for a group: of the port toward the parent, at the root of the lowest port with a child. -/
def aluPort (s : State) (g : Nat) : Nat := (parentPort s g (selfCoord s)).getD ((childPorts s g).headD 0)

end Sys2Proof.Machine
end

