-- ==== Sys2Proof/Machine/Faults.lean ====
section
/-!
DEFINITION. The fault handler (R342 to R371): the fault log, the clapper and its slates, regions killed and reset, chip warm
resets, attempts aborted. Detection rows and replay stand in Recovery.lean.
-/

namespace Sys2Proof.Machine

/-! ## Region states -/

/-- MGT_REGION_STATE as a number (Table 1-4). -/
def rstateNat : RState → Nat
  | .offline => 0 | .online => 1 | .draining => 2 | .resetting => 3 | .failed => 4

/-- Whether a region is ONLINE. -/
def online (s : State) (r : Nat) : Bool := (s.reg r).st == .online

/-- Whether a region's blocks can be reached by a signal or a packet. -/
def alive (s : State) (r : Nat) : Bool := (s.reg r).st == .online || (s.reg r).st == .draining

/-- Whether the reset of a resetting region has started: its dump is complete, or it takes none (Table 12-8). -/
def resetStarted (s : State) (r : Nat) : Bool := (s.reg r).st == .resetting && (s.reg r).stage == .reset

/-- Whether a region's link layers run: also while it resets, until its dump is complete (R356). -/
def linkRuns (s : State) (r : Nat) : Bool := alive s r || ((s.reg r).st == .resetting && !resetStarted s r)

/-- Whether a chip warm reset is under way (R365). -/
def inChipReset (s : State) : Bool := s.flt.chip.isSome

/-- The state that a port shows (Table 9-7): HOLD from the moment the reset of this end's region starts (Table 12-8). -/
def portShown (s : State) (p : Nat) : PState :=
  let x := (s.port p).st
  if (x == .up4 || x == .up3) && resetStarted s (regOfPort p) then .hold else x

/-- Whether BAR accesses are held: a chip warm reset is under way and has not overrun (R365, R366). -/
def barHeld (s : State) : Bool :=
  match s.flt.chip with
  | some c => !c.overrun
  | none => false

/-- A BAR write held in the PCIe core until the reset ends (R365). -/
def holdBar (s : State) (i : Instr) : State := { s with cp := { s.cp with heldBar := s.cp.heldBar ++ [i] } }

/-- Whether the data plane runs: rails up, LPDDR5X trained, no chip warm reset, not waiting for a cold boot. -/
def dataUp (s : State) : Bool := s.pwr.rails == .up && s.pwr.trained && !s.pwr.coldWait && !inChipReset s

/-! ## The clapper (R348 to R350) -/

/-- FLT_CLAP_SRC in force (R348). -/
def clapSrc (s : State) : Nat := s.app 4 (key 0x9000 2)

/-- CMD_SEQ_STATE (Table 6-11) of a block. -/
def phaseNat : BPhase → Nat
  | .idle => 0 | .starting => 1 | .running => 2 | .reported => 3 | .awaiting => 4

def seqState (k : Blk) : Nat :=
  pack [(29, phaseNat k.phase), (26, k.lset), (22, k.att), (0, k.step % 65536)]

/-- The counter bank of a block for a step number (R153). -/
def Blk.bankOf (k : Blk) (stp : Nat) : Bank := if stp % 2 = 0 then k.bank0 else k.bank1

/-- The key of an item of the running step: list × 65536 + index. -/
def itemKey (l i : Nat) : Nat := l * 65536 + i

/-- The items of a block's list in the running step (R149). -/
def listOf (s : State) (b l : Nat) : List Item :=
  spGet (fun _ => []) (s.prog (s.blk b).dom).lists (((s.blk b).lset * 24 + b) * 18 + l)

/-- State of item i of list l in the running step. -/
def Blk.item (k : Blk) (l i : Nat) : ItemSt := spGet itemDflt k.items (itemKey l i)

/-- The indexes of a list's items that have not started, in list order. -/
def unstarted (s : State) (b l : Nat) : List Nat :=
  (List.range (listOf s b l).length).filter (fun i =>
    ((s.blk b).item l i).st == .waiting || ((s.blk b).item l i).st == .ready)

/-- The head of a list: the first item that has not started, or the list's length. -/
def headOf (s : State) (b l : Nat) : Nat := (unstarted s b l).headD (listOf s b l).length

/-- Counter value in the bank of the running step. -/
def ctrVal (k : Blk) (c : Nat) : Nat := spGet zeroNat (k.bankOf k.step).ctr c

/-- The physical cell at a logical position. -/
def physOf (k : Blk) (pos : Nat) : Nat := if bits k.map 21 17 = pos then 16 else pos

/-- The running items of a list. -/
def runningOf (s : State) (b l : Nat) : List Nat :=
  ((s.blk b).items.filter (fun e => e.1 / 65536 == l && e.2.st == .running)).map (fun e => e.1 % 65536)

/-- Items of a list that run and satisfy a test. -/
def runningItems (s : State) (b l : Nat) (p : Item → Bool) : List Item :=
  (runningOf s b l).filterMap (fun i => ((listOf s b l)[i]?).filter p)

/-- The classes of unit an item needs: arrays, vector engine. -/
def needsArrays (it : Item) : Bool := it.hdr.kind == 0 || it.hdr.kind == 2
def needsEngine (it : Item) : Bool := it.hdr.kind == 1 || it.hdr.kind == 2

/-- ITEM_ID + 1 of the n-th item of a list of items; 0: there is none. -/
def idAt (l : List Item) (n : Nat) : Nat :=
  match l[n]? with
  | some it => it.hdr.itemId + 1
  | none => 0

/-- What a slate holds of a physical position: the items running on its arrays (at most two) and on its engine, ARR_TILE_STS, VEC_OP_STS. -/
def slateCell (s : State) (b c : Nat) : List Nat :=
  let k := s.blk b
  let pos := ((List.range 16).find? (fun p => physOf k p == c)).getD 31
  let arr := runningItems s b pos needsArrays
  [idAt arr 0, idAt arr 1, idAt (runningItems s b pos needsEngine) 0, spGet zeroNat k.sts c, spGet zeroNat k.sts (c + 32)]

/-- What a slate holds of the Cutter: item, layer, slots taken, length of the commit list. -/
def slateCutter (s : State) (b : Nat) : List Nat :=
  let its := runningItems s b 16 (fun _ => true)
  [idAt its 0, ((its.map (·.pass.layer)).headD 0), (match (s.blk b).pass with
    | some q => q.taken.length
    | none => 0), (s.blk b).commits.length]

/-- The counters that the candidates of a block's lists wait for, at most 256, with their values (Table 12-3). -/
def slatePairs (s : State) (b : Nat) : List (Nat × Nat) :=
  let cs := (List.range 18).flatMap (fun l => ((unstarted s b l).take 32).flatMap (fun i =>
    match (listOf s b l)[i]? with
    | some it => it.hdr.waits.map (·.1)
    | none => []))
  (cs.eraseDups.take 256).map (fun c => (c, ctrVal (s.blk b) c))

/-- The slate header (Table 12-4). -/
def slateHdr (s : State) (b seq cause : Nat) : Nat :=
  pack [(448, s.ticks), (416, seq), (408, cause), (400, b), (368, s.mgt.liveNum), (336, seqState (s.blk b)),
    (304, (s.blk b).wdt), (272, (s.blk b).map)]

/-- A block captures its slate (R350). -/
def capture (seq cause : Nat) (s : State) (b : Nat) : State :=
  (s.setBlk b { s.blk b with
    slate := { hdr := slateHdr s b seq cause, heads := (List.range 18).map (headOf s b), cells := (List.range 17).map (slateCell s b)
               cutter := slateCutter s b, unit := (runningItems s b 17 (fun _ => true)).map (·.hdr.itemId), pairs := slatePairs s b } }).count
    (kBlkCnt b 5) 1

/-- The clapper struck by a source, given as its bit of FLT_CLAP_SRC: nothing unless the bit is set; merged within 1,250 ticks, 1,250
included, of the last strike that was not merged; else every block captures its slate and CLAPPER_OUT is driven for 16 ticks (R349). -/
def strike (s : State) (src : Nat) : State :=
  if !mbit (clapSrc s) src then s
  else match s.flt.strike with
    | some t => if s.ticks - t ≤ 1250 then s.count (kChipCnt 4) 1 else doStrike s
    | none => doStrike s
where
  doStrike (s : State) : State :=
    let seq := s.flt.clapSeq + 1
    let s1 := { s with flt := { s.flt with clapSeq := min seq 0xFFFFFFFF, strike := some s.ticks, clapOut := 16 } }
    s1.each (List.range 24) (capture (min seq 0xFFFFFFFF) src)

/-! ## The fault log (R351) -/

/-- What a fault record says of its subject; the defaults are those of Table 12-5. `tick`: the tick count at the detection, where that was
earlier than the record (R351). -/
structure Fact where
  level : Nat
  action : Nat
  cause : Nat
  region : Nat := 0
  blk : Nat := 31
  cell : Nat := 0x1FF
  doms : Nat := 0
  detail : Nat := 0
  tick : Option Nat := none

/-- The 512-bit fault record number n (Table 12-5). -/
def recordOf (s : State) (n : Nat) (f : Fact) : Nat :=
  let d := (mlist f.doms 16).headD 16
  let st := s.stp d
  let on := d < 16 && st.order != .none
  pack [(480, n % 2 ^ 32), (416, f.tick.getD s.ticks % 2 ^ 64), (414, f.level % 4), (410, f.action % 16), (402, f.cause % 256),
    (398, f.region % 16), (393, f.blk % 32), (384, f.cell % 512), (368, f.doms % 65536), (336, if on then st.no % 2 ^ 32 else 0),
    (332, if on then st.att % 16 else 0), (256, f.detail % 2 ^ 64)]

/-- A fault record written as the newest of the ring; overwriting an unacknowledged one is counted (R351). -/
def logFault (s : State) (f : Fact) : State :=
  let n := s.flt.head + 1
  let s1 := s.countIf (n > 256 && n - 256 > s.flt.ack) (kChipCnt 5)
  { s1 with flt := { s1.flt with head := n, log := spSet zeroNat s1.flt.log (n % 256) (recordOf s n f) } }

/-- Fields of record n changed in place. -/
def setRecord (s : State) (n msb lsb v : Nat) : State :=
  if n = 0 ∨ n + 256 ≤ s.flt.head ∨ s.flt.head < n then s
  else { s with flt := { s.flt with
    log := spSet zeroNat s.flt.log (n % 256) (setBits (spGet zeroNat s.flt.log (n % 256)) msb lsb v) } }

/-- Record n of the ring. -/
def recordAt (s : State) (n : Nat) : Nat := spGet zeroNat s.flt.log (n % 256)

/-- The numbers of the records still in the ring. -/
def recordsHeld (s : State) : List Nat := (List.range (min s.flt.head 256)).map (fun i => s.flt.head - i)

/-- Whether an unacknowledged record has ACTION TEARDOWN (R352). -/
def teardownUnacked (s : State) : Bool :=
  (recordsHeld s).any (fun n => n > s.flt.ack && bits (recordAt s n) 413 410 == 5)

/-! ## Affected domains (R354) -/

/-- The regions that a set of blocks touches. -/
def regsOfBlocks (m : Nat) : Nat := (mlist m 24).foldl (fun a b => mset a (b / 6)) 0

/-- The region of a package (R140). -/
def regOfPkg (k : Nat) : Nat := k / 4

/-- The device location of a granule: package × 128 + slot (R141). -/
def devOf (s : State) (g : Nat) : Nat := spGet (fun g => g) s.back.remap g

/-- The region of a physical address (R121, R141). -/
def regOfPa (s : State) (a : Nat) : Nat :=
  if a < 0x8000000000 then regOfPkg (devOf s (a / 2 ^ 28) / 128) else (a - 0x8000000000) / 2 ^ 24 / 96

/-- The granules that a range of physical addresses below the SRAM lies in. -/
def granulesOf (a n : Nat) : List Nat :=
  if n = 0 then [] else (List.range ((a + n - 1) / 2 ^ 28 + 1 - a / 2 ^ 28)).map (fun i => a / 2 ^ 28 + i)

/-- The element format of a segment. -/
def segFmt (g : Seg) : Fmt := (fmtOf g.fmt).getD .fp32

/-- The ranges of LPDDR5X that a segment occupies (R126, R133, R415): its data and scales where it lies there, the spill area of
a REDUCE segment. -/
def segDram (g : Seg) : List (Nat × Nat) :=
  if !g.valid then []
  else if g.kind = 2 then [(g.sbase, g.size * 64)]
  else if g.tier then (g.base, g.size * 64) :: (if isNarrow (segFmt g) then
      [(g.sbase, g.size * 64 / blockBytes (segFmt g) * 32)] else [])
  else []

/-- The cells that a segment names. -/
def segCells (g : Seg) : List Nat := (List.range (if g.kind = 0 then 1 else g.ncell)).map (fun i => g.cell0 + i)

/-- The mask of regions where a domain has segments (R354). -/
def segRegs (s : State) (d : Nat) : Nat :=
  (s.segs.filter (fun e => e.1 / 4096 == d && e.2.valid)).foldl (fun m e =>
    let m1 := (segDram e.2).foldl (fun m r => (granulesOf r.1 r.2).foldl (fun m g => mset m (regOfPkg (devOf s g / 128))) m) m
    if e.2.tier then m1 else (segCells e.2).foldl (fun m c => mset m (c / 96)) m1) 0

/-- The mask of regions where a domain has record pages. -/
def pageRegs (s : State) (d : Nat) : Nat :=
  (s.dirs.filter (fun e => e.2.valid && e.2.dom == d)).foldl (fun m e => mset m (regOfPa s (e.2.addr * 2 ^ 18))) 0

/-- The mask of regions whose Grader holds slots of a domain. -/
def grdRegs (s : State) (d : Nat) : Nat :=
  (List.range 4).foldl (fun m r => if (s.grd r).slots.any (fun e => e.2.dom == d) then mset m r else m) 0

/-- The mask of home regions of a domain's contexts. -/
def ctxRegs (s : State) (d : Nat) : Nat :=
  let x := s.dom d
  (s.cp.ctxs.filter (fun e => e.2.made && x.st != .free && x.qbase ≤ e.1 && e.1 < x.qbase + x.qcount)).foldl
    (fun m e => mset m e.2.home) 0

/-- The mask of regions on whose ports transfers of a domain stand: its packets wait, or are not acknowledged, or a combining entry of a port's
ALU holds a chunk of it (R266, R354). -/
def xferRegs (s : State) (d : Nat) : Nat :=
  let sent := s.fab.ports.foldl (fun m e =>
    if e.2.tx.any (fun t => bits t.pkt.hdr 491 488 == d) || e.2.rx.any (fun q => q.any (fun k => bits k.hdr 491 488 == d))
      || e.2.retry.any (fun f => f.dom == some d)
    then mset m (regOfPort e.1) else m) 0
  (s.fab.combs.filter (fun c => c.dom == d)).foldl (fun m c => mset m (regOfPort (aluPort s c.grp))) sent

/-- FLT_REGION_USE of region r: the affected domains (R354). -/
def regionUse (s : State) (r : Nat) : Nat :=
  (List.range 16).foldl (fun m d =>
    let u := regsOfBlocks (s.prog d).blocks ||| segRegs s d ||| pageRegs s d ||| grdRegs s d ||| ctxRegs s d ||| xferRegs s d
    let through := if r = 0 ∨ r = 3 then mbit u 1 && mbit u 2 else mbit u 0 && mbit u 3
    if (s.dom d).st != .free && (mbit u r || through) then mset m d else m) 0

/-! ## Aborted attempts (R357) -/

/-- The trace record of an item event (Table 6-12), written where CMD_TRACE_CTL asks for it (R177). -/
def traceCtl (s : State) (b : Nat) : Nat := s.app (seqUnit b) (key 0x8200 0)

/-- An event of an item, in the burst of the command that runs: recorded, or, where the queue of 32 events is full, counted. -/
def traceBurst (s : State) (b l i ev : Nat) : State :=
  let ctl := traceCtl s b
  let k := s.blk b
  match (listOf s b l)[i]? with
  | none => s
  | some it =>
    if bit ctl 31 && mbit (bits ctl 23 0) b && mbit (bits ctl 28 24) (ev - 1) then
      let cls := if (k.item l i).promoted then 1 else it.hdr.cls
      let r := pack [(64, s.ticks), (48, k.step % 65536), (32, it.hdr.itemId), (29, ev), (25, it.hdr.kind), (23, cls),
        (19, k.att), (16, k.lset), (10, it.hdr.mb), (5, l), (1, k.dom)]
      if k.traceQ ≥ 32 then s.count (key (0x8210 + b) 2) 1
      else s.setBlk b { k with
        trace := spSet zeroNat k.trace (k.traceN % 256) r, traceN := min (k.traceN + 1) (2 ^ 64 - 1), traceQ := k.traceQ + 1 }
    else s

/-- The trace queue of a block has been written out: it is by the time another command runs (DESIGN CHOICE, log entry 110). -/
def drainTrace (s : State) (b : Nat) : State := s.setBlk b { s.blk b with traceQ := 0 }

/-- The event of an item with which a command begins. -/
def traceItem (s : State) (b l i ev : Nat) : State := traceBurst (drainTrace s b) b l i ev

/-- The event counters that an item's run has raised are counted: its run has ended (R93). -/
def countRunEvts (s : State) (b ki : Nat) : State :=
  let k := s.blk b
  let x := spGet itemDflt k.items ki
  (s.setBlk b { k with items := spSet itemDflt k.items ki { x with evts := [] } }).each x.evts (fun s e => s.count e.1 e.2)

/-- A running item of a block is stopped: it never completes and sends no signal (R357). -/
def stopItem (b : Nat) (s : State) (ki : Nat) : State :=
  let l := ki / 65536
  let i := ki % 65536
  let k := s.blk b
  if (spGet itemDflt k.items ki).st == .running then
    let s1 := countRunEvts (traceBurst s b l i 4) b ki
    let k1 := s1.blk b
    (s1.setBlk b { k1 with items := spSet itemDflt k1.items ki { spGet itemDflt k1.items ki with st := .waiting } }).count
      (kBlkCnt b 6) 1
  else s

/-- Whether a source number is an item of block b. -/
def srcIn (b src : Nat) : Bool := src != 0 && (src - 1) / 2 ^ 24 == b

/-- The transfers of a block's stopped items: their packets that have not been sent are not sent (R357). -/
def dropItemTx (b : Nat) (s : State) (p : Nat) : State :=
  let x := s.port p
  s.setPort p { x with
    tx := x.tx.filter (fun t => !srcIn b t.src)
    retry := x.retry.map (fun f => { f with srcs := f.srcs.filter (fun n => !srcIn b n) })
    gone := x.gone.filter (fun n => !srcIn b n) }

/-- A block stops every running item; its Cutter forgets the complete slots it has not taken, and keeps its commit list and the
PEND bits it has set (R357). -/
def stopBlock (s0 : State) (b : Nat) : State :=
  let s := drainTrace (s0.each (List.range 8) (dropItemTx b)) b
  let s1 := s.each ((s.blk b).items.map (·.1)) (stopItem b)
  s1.setBlk b { s1.blk b with pass := none, ready := [], items := [] }

/-- The blocks that hold lists of a domain's program. -/
def progBlocks (s : State) (d : Nat) : List Nat := mlist (s.prog d).blocks 24

/-- Whether a domain's step has not yet entered its flag and norm (Table 8-6, order 2). -/
def preNorm (st : StepSt) : Bool := st.order == .starting || st.order == .running

/-- A domain's attempt is aborted: its blocks stop their items of that step, and nothing of it starts until the replay (R357). -/
def abortAttempt (s0 : State) (d : Nat) : State :=
  if preNorm (s0.stp d) then
    let s := s0.setStp d { s0.stp d with stopped := true }
    let s1 := s.each ((progBlocks s d).filter (fun b => (s.blk b).dom == d && (s.blk b).phase != .idle)) stopBlock
    { s1 with fab := { s1.fab with combs := s1.fab.combs.filter (fun c => c.dom != d) } }
  else s0

/-! ## Kill-and-reset of a region (R356) -/

/-- Every context homed in the region that is not FREE becomes KILLED (R27). -/
def killHomed (r : Nat) (s : State) : State :=
  { s with cp := { s.cp with ctxs := s.cp.ctxs.map (fun e =>
      if e.2.made && e.1 != adminKey && e.2.home == r && e.2.kill == .no then (e.1, { e.2 with kill := .reset }) else e) } }

/-- The ports of a region. -/
def portsOf (r : Nat) : List Nat := [2 * r, 2 * r + 1]

/-- The domains whose clip pass, not yet over, a Cutter of the region has started (R358). -/
def clipCut (s : State) (r : Nat) : Nat :=
  (List.range 16).foldl (fun m d =>
    if (s.stp d).order == .clip && ((progBlocks s d).any (fun b => b / 6 == r && mbit (s.stp d).clipOn b)) then mset m d else m) 0

/-- A running daily abandoned by a region reset (R279). -/
def dailyAbandon (s : State) (d : Nat) : State :=
  if (s.day d).running then
    (s.setDay d { s.day d with running := false, states := [], engines := 0 }).count (key (0x5100 + d) 6) 1
  else s

/-- What a slot loses when its Grader is emptied. -/
def slotLoss (run : Bool) (x : GSlot) : Nat :=
  b2n run + b2n x.queued.isSome + b2n x.feeding + b2n x.feedHeld + b2n x.again + b2n x.cold + b2n x.pub.isSome

/-- A region's Grader emptied, as its region resets; the slot table stays as the descriptors give it (R208). -/
def emptyGrader (s : State) (r : Nat) : State :=
  let g := s.grd r
  let lost := (g.slots.map (fun e => slotLoss (g.run == some e.1) e.2)).sum
  let slots : Sparse GSlot := g.slots.map (fun (e : Nat × GSlot) => (e.1, { e.2 with
    feeding := false, drifts := [], feedHeld := false, queued := none, commits := 0, again := false, cold := false, pub := none }))
  (s.setGrd r { grdDflt 0 with slots := slots }).count (kGrdPerf r 0xD) lost

/-- The ports of a region show HOLD from the moment its reset starts (R343, Tables 9-7 and 12-8). -/
def holdPorts (s : State) (r : Nat) : State :=
  s.each (portsOf r) (fun s p => if (s.port p).st == .up4 || (s.port p).st == .up3 then s.setPort p { s.port p with since := s.ticks } else s)

/-- A region that enters RESETTING: state, affected domains aborted, contexts killed; the dump engine waits for the shadows. -/
def killRegion (s : State) (r n aff : Nat) : State :=
  let s1 := s.setReg r { s.reg r with st := .resetting, stage := .killed, recNo := n, slot := 4, affected := aff, cut := clipCut s r }
  ((emptyGrader (killHomed r s1) r).each (List.range 16) dailyAbandon).each (mlist aff 16) abortAttempt

/-- A region fault (R29): contained where a reset is already under way (R416); else the fault record, the clapper, the
kill-and-reset. `src` is the bit of FLT_CLAP_SRC. -/
def regionFault (s : State) (r src : Nat) (f : Fact) : State :=
  if inChipReset s then s.count (kChipCnt 8) 1
  else if (s.reg r).st == .resetting then s.count (kRegCnt r 4) 1
  else if (s.reg r).st == .online || (s.reg r).st == .draining then
    let aff := regionUse s r
    let s1 := strike (logFault s { f with action := 3, region := r, doms := aff }) src
    (killRegion s1 r s1.flt.head aff).count (kRegCnt r 0) 1
  else s

/-- A fault that needs a chip warm reset (R32, R365): every region resets, every context is KILLED, every domain with a step
running is treated as affected. `dumpOf` is the region whose fault caused it (4: none). `src` is the bit of FLT_CLAP_SRC of the fault
that starts it; the reset itself strikes through CHIP (R348). -/
def chipFault (s : State) (src dumpOf : Nat) (f : Fact) : State :=
  if inChipReset s then s.count (kChipCnt 8) 1
  else
    let aff := (List.range 16).foldl (fun m d =>
      if (s.stp d).order != .none || mbit ((List.range 4).foldl (fun m r => m ||| (s.reg r).affected) 0) d then mset m d else m) 0
    let s0 := logFault s { f with level := 3, action := 4, doms := aff }
    let s1 := strike (if src = 2 then s0 else strike s0 src) 2
    let n := s1.flt.head
    let cuts := (List.range 4).foldl (fun m r => m ||| clipCut s1 r ||| (s1.reg r).cut) 0
    let s2 := s1.each (List.range 4) (fun s r =>
      killHomed r ((if r = dumpOf then s else holdPorts s r).setReg r { s.reg r with
        st := .resetting, stage := if r = dumpOf then .killed else .reset, recNo := n, slot := 4, affected := aff, onlining := false, wasOff :=
            (s.reg r).st == .offline }))
    let s3 := ((s2.each (List.range 4) emptyGrader).each (List.range 16) dailyAbandon).each (mlist aff 16) abortAttempt
    let s4 := s3.count (kChipCnt 0) 1
    { s4 with flt := { s4.flt with
        chip := some { region := dumpOf, recNo := n, affected := aff, cut := cuts, overrun := false } } }

end Sys2Proof.Machine
end

