-- ==== Sys2Proof/Machine/Clock.lean ====
section
/-!
DEFINITION. The slow clock: what one tick of the always-on domain does when no command is waiting (DESIGN CHOICE, log entry 3).
-/

namespace Sys2Proof.Machine

/-- FLT_WDT_TICKS in force (R344): the watchdogs are units of cue group 11. -/
def wdtWindow (s : State) : Nat := s.app 4 (key 0x9000 0)

/-- Whether a port holds the block watchdogs' counts: in HOLD or TRAINING for at most 25,000 ticks (R343). -/
def portHolds (s : State) (p : Nat) : Bool :=
  (portShown s p == .hold || portShown s p == .training) && s.ticks - (s.port p).since < 25000

/-- Whether any port holds the counts. -/
def wdtHeld (s : State) : Bool := (List.range 8).any (portHolds s)

/-- Whether a block's watchdog counts: its PHASE is STARTING or RUNNING (R343), and the reset of its region has not started. -/
def wdtCounts (s : State) (b : Nat) : Bool :=
  ((s.blk b).phase == .starting || (s.blk b).phase == .running) && !resetStarted s (regOfBlk b)

/-- Whether a cell's arrays or vector engine, or the Cutter, works on an item of a block: K-blocks, groups of strips and lines are progress
events (R343). -/
def unitsWork (k : Blk) : Bool := k.items.any (fun e => e.2.st == .running && e.1 / 65536 < 17)

/-- The count of a block without and with a progress event in the tick. -/
def wdtNext (s : State) (b : Nat) (event : Bool) : State :=
  s.setBlk b { s.blk b with wdt := if event then 0 else min ((s.blk b).wdt + 1) (wdtWindow s) }

/-- One tick of a block's watchdog. Whether a working unit finished a K-block, a group of strips or a line in the tick is timing: a free
value (DESIGN CHOICE, log entry 115). -/
def wdtTick (held : Bool) (s : State) (b : Nat) : State :=
  if !wdtCounts s b || held then s
  else if unitsWork (s.blk b) then
    let x := s.fresh
    wdtNext x.2 b (bit (Config.freeWord x.1).toNat 0)
  else wdtNext s b false

/-- One tick of the slow clock: the tick count advances, CLAPPER_OUT runs out, the block watchdogs count. Nothing happens
while the always-on domain is without power (R404). -/
def idleTick (s : State) : State :=
  if s.pwr.supply == .on then
    let s1 := { s with ticks := s.ticks + 1, flt := { s.flt with clapOut := s.flt.clapOut - 1 } }
    s1.each (List.range 24) (wdtTick (wdtHeld s))
  else s

end Sys2Proof.Machine
end

