-- ==== Sys2Proof/Machine/Approx.lean ====
section
/-!
DEFINITION. The approximated functions of Table 4-3 (R102). Inside the stated range the bits are open within the
bound: the model takes the value of `Config.approx` if it holds the bound and else a reference value, which is
computed here in fixed point with 160 fraction bits. Outside the range and for special inputs the table is exact.
-/

namespace Sys2Proof.Machine

/-- Fraction bits of the fixed-point reference values. -/
def fxBits : Nat := 160

/-- 1.0 in fixed point. -/
def fxOne : Int := 2 ^ 160

/-- Product of two fixed-point numbers. -/
def fxMul (a b : Int) : Int := (a * b) / fxOne

/-- Quotient of two fixed-point numbers. -/
def fxDiv (a b : Int) : Int := if b = 0 then 0 else (a * fxOne) / b

/-- A finite number in fixed point. -/
def fxOf (neg : Bool) (m : Nat) (e : Int) : Int :=
  let s := e + 160
  let v : Nat := if 0 ≤ s then m * 2 ^ s.toNat else m / 2 ^ (-s).toNat
  if neg then -(v : Int) else v

/-- Σ of a power series whose next term is `term * x * num k / den k`: `fuel` terms from index k on. -/
def fxSeries (step : Nat → Int → Int) : Nat → Nat → Int → Int → Int
  | 0, _, _, acc => acc
  | fuel + 1, k, term, acc => fxSeries step fuel (k + 1) (step k term) (acc + term)

/-- e^x for 0 ≤ x < 1, by its Taylor series. -/
def fxExpSmall (x : Int) : Int :=
  fxSeries (fun k t => fxMul t x / ((k : Int) + 1)) 60 0 fxOne 0

/-- Σ z^(2k+1) / (2k+1): the inverse hyperbolic tangent of |z| ≤ 1/3. -/
def fxAtanh (z : Int) : Int :=
  let z2 := fxMul z z
  ((List.range 60).foldl (fun (a : Int × Int) (k : Nat) => (a.1 + a.2 / (2 * (k : Int) + 1), fxMul a.2 z2)) (0, z)).1

/-- ln 2 = 2 atanh(1/3). -/
def fxLn2 : Int := 2 * fxAtanh (fxOne / 3)

/-- e^x as a factor in [1, e) and a power of two. -/
def fxExp (x : Int) : Int × Int :=
  let n := x / fxLn2
  (fxExpSmall (x - n * fxLn2), n)

/-- ln of m × 2^e, m > 0. -/
def fxLn (m : Nat) (e : Int) : Int :=
  let l := Nat.log2 m
  let y : Int := fxOf false m (-(l : Int))
  2 * fxAtanh (fxDiv (y - fxOne) (y + fxOne)) + (e + l) * fxLn2

/-- π in fixed point, by Machin's formula 16 atan(1/5) − 4 atan(1/239). -/
def fxPi : Int :=
  let at' (d : Int) : Int :=
    ((List.range 80).foldl (fun (a : Int × Int) (k : Nat) =>
      (if k % 2 = 0 then a.1 + a.2 / (2 * (k : Int) + 1) else a.1 - a.2 / (2 * (k : Int) + 1), a.2 / (d * d)))
      (0, fxOne / d)).1
  16 * at' 5 - 4 * at' 239

/-- sin x for |x| ≤ 4. -/
def fxSinSmall (x : Int) : Int :=
  let x2 := fxMul x x
  fxSeries (fun k t => -(fxMul t x2) / ((2 * (k : Int) + 2) * (2 * (k : Int) + 3))) 60 0 x 0

/-- sin x, after reduction by 2π. -/
def fxSin (x : Int) : Int :=
  let p2 := 2 * fxPi
  let n := (x + fxPi) / p2
  fxSinSmall (x - n * p2)

/-- erf x for |x| < 4: (2/√π) Σ (−1)^k x^(2k+1) / (k! (2k+1)). -/
def fxErf (x : Int) : Int :=
  let x2 := fxMul x x
  let s := ((List.range 160).foldl (fun (a : Int × Int) (k : Nat) =>
    (a.1 + a.2 / (2 * (k : Int) + 1), -(fxMul a.2 x2) / ((k : Int) + 1))) (0, x)).1
  -- 2/√π with √π from an integer square root
  let sp : Int := (isqrt (fxPi.toNat * 2 ^ 160) : Nat)
  fxDiv (2 * s) sp

/-- A signed value `f × 2^k` with `f` in fixed point as an FP32 pattern (for the reference value). -/
def fxTo32 (f k : Int) : Word := (wrQ32 (decide (f < 0)) f.natAbs 1 (k - 160)).1

/-- |cand − f × 2^k| ≤ bound, as an exact comparison, with bound = b × 2^bk. -/
def within (cand : Word) (f k : Int) (b : Nat) (bk : Int) : Bool :=
  match val32 cand with
  | .fin s m e =>
    let q := min (min e (k - 160)) bk
    let d := onGrid s m e q - onGrid (decide (f < 0)) f.natAbs (k - 160) q
    decide (d.natAbs ≤ b * 2 ^ (bk - q).toNat)
  | _ => false

/-- The exponent of one ulp of the exact result f × 2^k in FP32. -/
def ulpExp (f k : Int) : Int := ilog2Q f.natAbs 1 + (k - 160) - 23

/-- The value of function `op` at `w` where the exact result is f × 2^k: the open bits where they hold the bound
(n ulp if `abs` is none, 2^abs else), the reference otherwise. -/
def boundedApprox (op : Nat) (w : Word) (f k : Int) (n : Nat) (abs : Option Int) : Word :=
  let c := Config.approx op w
  let bk := match abs with | some a => a | none => ulpExp f k
  if within c f k n bk && !isNaN32 c then c else fxTo32 f k

/-- ± a value. -/
def sgn32 (neg : Bool) (w : Word) : Word := if neg then w ^^^ 0x80000000 else w

/-- One approximated function of Table 4-3 on an FP32 operand. -/
def approxFn (op : Nat) (w : Word) : Word × Sts :=
  let st := rdSts32 w
  match val32 w with
  | .nan => (nan32, st)
  | .inf s =>
    match op with
    | 0x40 | 0x41 => (if s then 0 else inf32 false, st)
    | 0x42 => if s then (nan32, st ||| stINV) else (inf32 false, st)
    | 0x43 => (zero32 s, st)
    | 0x44 => if s then (nan32, st ||| stINV) else (0, st)
    | 0x45 | 0x47 => (sgn32 s 0x3F800000, st)
    | 0x46 => (if s then 0 else 0x3F800000, st)
    | _ => (nan32, st ||| stINV)
  | .fin s m e =>
    let x := fxOf s m e
    match op with
    | 0x40 =>
      if 128 * fxOne ≤ x then (inf32 false, st ||| stOVF)
      else if x < -126 * fxOne then (0, st ||| stFTZOUT)
      else
        let n := x / fxOne
        (boundedApprox op w (fxExpSmall (fxMul (x - n * fxOne) fxLn2)) n 2 none, st)
    | 0x41 =>
      if 8872 * fxOne < 100 * x then (inf32 false, st ||| stOVF)
      else if 100 * x < -8733 * fxOne then (0, st ||| stFTZOUT)
      else let p := fxExp x
           (boundedApprox op w p.1 p.2 3 none, st)
    | 0x42 =>
      if m = 0 then (inf32 true, st ||| stINF)
      else if s then (nan32, st ||| stINV)
      else
        let f := fxDiv (fxLn m e) fxLn2
        let near := fxOne ≤ 2 * x && x ≤ 2 * fxOne
        if f = 0 then (boundedApprox op w 0 0 1 (some (-21)), st)
        else (boundedApprox op w f 0 (if near then 1 else 2) (if near then some (-21) else none), st)
    | 0x43 =>
      if m = 0 then (inf32 s, st ||| stINF)
      else if 126 < ilog2Q m 1 + e || (ilog2Q m 1 + e == 126 && m != 2 ^ (Nat.log2 m)) then (zero32 s, st ||| stFTZOUT)
      else
        let f : Int := ((2 ^ 320 / m : Nat) : Int)
        (boundedApprox op w (if s then -f else f) (-e - 160) 1 none, st)
    | 0x44 =>
      if m = 0 then (inf32 s, st ||| stINF)
      else if s then (nan32, st ||| stINV)
      else
        -- 1/√(m 2^e) = 2^(e'/2) / √(m 2^j), with e - j even
        let j := e % 2
        let r : Nat := isqrt (2 ^ 480 / (m * 2 ^ j.toNat))
        (boundedApprox op w (r : Int) (-80 - (e - j) / 2) 1 none, st)
    | 0x45 =>
      if 9 * fxOne ≤ x || x ≤ -9 * fxOne then (sgn32 s 0x3F800000, st)
      else
        let a : Int := x.natAbs
        let p := fxExp (2 * a)                       -- e^(2a) = p.1 × 2^p.2
        let ex := p.1 * 2 ^ p.2.toNat
        let t := fxDiv (ex - fxOne) (ex + fxOne)
        (boundedApprox op w (if s then -t else t) 0 1 (some (-22)), st)
    | 0x46 =>
      if 17 * fxOne ≤ x then (0x3F800000, st)
      else if 100 * x ≤ -8733 * fxOne then (0, st)
      else
        let a : Int := x.natAbs
        let p := fxExp a
        let ex := p.1 * 2 ^ p.2.toNat
        let f := if s then fxDiv fxOne (fxOne + ex) else fxDiv ex (fxOne + ex)
        (boundedApprox op w f 0 1 (some (-23)), st)
    | 0x47 =>
      if 4 * fxOne ≤ x || x ≤ -4 * fxOne then (sgn32 s 0x3F800000, st)
      else (boundedApprox op w (fxErf x) 0 1 (some (-22)), st)
    | 0x48 =>
      if 65536 * fxOne < x || x < -65536 * fxOne then (nan32, st ||| stINV)
      else (boundedApprox op w (fxSin x) 0 1 (some (-21)), st)
    | _ =>
      if 65536 * fxOne < x || x < -65536 * fxOne then (nan32, st ||| stINV)
      else (boundedApprox op w (fxSin (x + fxPi / 2)) 0 1 (some (-21)), st)

end Sys2Proof.Machine
end

