-- ==== Sys2Proof/Machine/Lanes.lean ====
section
/-!
DEFINITION. What a chain's lanes compute (04_vector_engine.md): the stage operations of Table 4-2, the lane operations
of R112, the strips and segments of R95, and the reductions of R108. Everything here is a function of the chain
descriptor and of the elements its streams deliver.
-/

namespace Sys2Proof.Machine

/-- The integer a pattern stands for under a stage's TYPE (1 I32, 2 U32). -/
def intOf (ty : Nat) (w : Word) : Int := if ty = 1 then signed 32 w.toNat else (w.toNat : Int)

/-- The range of a stage's integer TYPE (R100). -/
def intRange (ty : Nat) : Int × Int := if ty = 1 then (-(2 ^ 31), 2 ^ 31 - 1) else (0, 2 ^ 32 - 1)

/-- An integer narrowed to TYPE with saturation (SAT) (R100). -/
def satInt (ty : Nat) (v : Int) : Word × Sts :=
  let r := intRange ty
  (BitVec.ofInt 32 (clampI r.1 r.2 v), stIf (v < r.1 || r.2 < v) stSAT)

/-- The truth pattern of R98. -/
def truth (b : Bool) : Word := if b then 0xFFFFFFFF else 0

/-- CMP (R101): a NaN operand makes every FP32 comparison false, but for NE and UNORD. -/
def cmpLane (ty mod : Nat) (a b : Word) : Word × Sts :=
  if ty = 0 then
    let un := isNaN32 a || isNaN32 b
    let lt := lt32 a b
    let gt := lt32 b a
    let eq := !lt && !gt
    let r := match mod with
      | 0 => !un && eq
      | 1 => un || !eq
      | 2 => !un && lt
      | 3 => !un && (lt || eq)
      | 4 => !un && gt
      | 5 => !un && (gt || eq)
      | _ => un
    (truth r, rdSts32 a ||| rdSts32 b)
  else
    let x := intOf ty a
    let y := intOf ty b
    let r := match mod with
      | 0 => x == y
      | 1 => x != y
      | 2 => decide (x < y)
      | 3 => decide (x ≤ y)
      | 4 => decide (y < x)
      | 5 => decide (y ≤ x)
      | _ => false
    (truth r, 0)

/-- MIN (false) and MAX (true) under the three TYPEs. -/
def minMaxLane (isMax : Bool) (ty : Nat) (a b : Word) : Word × Sts :=
  if ty = 0 then (if isMax then max32 a b else min32 a b)
  else if isMax then (if intOf ty a < intOf ty b then b else a, 0)
  else (if intOf ty b < intOf ty a then b else a, 0)

/-- CVTFI (R64, R101): round to nearest even, saturate (SAT); NaN gives 0 and sets INV and NAN_IN. -/
def cvtfi (ty : Nat) (a : Word) : Word × Sts :=
  let r := intRange ty
  match val32 a with
  | .nan => (0, stINV ||| stNANIN)
  | .inf s => (BitVec.ofInt 32 (if s then r.1 else r.2), stSAT)
  | .fin s m e =>
    let p := satInt ty (rneInt s m e)
    (p.1, p.2 ||| rdSts32 a)

/-- The operations of Table 4-2 that act on one lane alone. -/
def laneOp (op ty mod : Nat) (a b c : Word) : Word × Sts :=
  match op with
  | 0x00 => (a, 0)
  | 0x01 => (a &&& b, 0)
  | 0x02 => (a ||| b, 0)
  | 0x03 => (a ^^^ b, 0)
  | 0x04 => (a &&& ~~~b, 0)
  | 0x05 => (~~~a, 0)
  | 0x08 => (if 32 ≤ b.toNat then 0 else a <<< b.toNat, 0)
  | 0x09 => (if 32 ≤ b.toNat then 0 else a >>> b.toNat, 0)
  | 0x0A => if ty = 1 then (BitVec.sshiftRight a (min b.toNat 32), 0)
            else (if 32 ≤ b.toNat then 0 else a >>> b.toNat, 0)
  | 0x10 => satInt ty (intOf ty a + intOf ty b)
  | 0x11 => satInt ty (intOf ty a - intOf ty b)
  | 0x12 => satInt ty (intOf ty a * intOf ty b)
  | 0x20 => add32 a b
  | 0x21 => sub32 a b
  | 0x22 => mul32 a b
  | 0x23 => fma32 a b c
  | 0x24 => fnma32 a b c
  | 0x25 => (abs32 a, rdSts32 a)
  | 0x26 => (neg32 a, rdSts32 a)
  | 0x27 => div32 a b
  | 0x28 => sqrt32 a
  | 0x2C => cvtfi ty a
  | 0x2D => (ofInt32 (intOf ty a), 0)
  | 0x30 => cmpLane ty mod a b
  | 0x31 => (if a ≠ 0 then b else c, 0)
  | 0x32 => minMaxLane false ty a b
  | 0x33 => minMaxLane true ty a b
  | _ => if 0x40 ≤ op ∧ op ≤ 0x49 then approxFn op a else (a, 0)

/-- One addition of PSCAN and of the SUM reduction. -/
def sumStep (ty : Nat) (a b : Word) : Word × Sts :=
  if ty = 0 then add32 a b else satInt ty (intOf ty a + intOf ty b)

/-- PSCAN over the lanes of one segment, in lane order (R112). -/
def pscanAux (ty : Nat) : Word → List Word → List (Word × Sts)
  | _, [] => []
  | acc, a :: as =>
    let r := sumStep ty acc a
    r :: pscanAux ty r.1 as

/-- PSCAN of a segment: lane g receives its own operand. -/
def pscan (ty : Nat) : List Word → List (Word × Sts)
  | [] => []
  | a :: as =>
    let h : Word := if ty = 0 then flush32 a else a
    (h, if ty = 0 then rdSts32 a else 0) :: pscanAux ty h as

/-- The lane operations of R112 on the VL active lanes of one segment: operand a, operand b, immediate K. -/
def segOp (op ty : Nat) (k : Nat) (as bs : List Word) : List (Word × Sts) :=
  let vl := as.length
  match op with
  | 0x50 => bs.map (fun b => if vl ≤ b.toNat then (0, stVRANGE) else (as.getD b.toNat 0, 0))
  | 0x51 => as.map (fun _ => if vl ≤ k then (0, stVRANGE) else (as.getD k 0, 0))
  | 0x52 => (List.range vl).map (fun i => (as.getD ((i + k) % vl) 0, 0))
  | 0x53 => as.reverse.map (fun a => (a, 0))
  | _ => pscan ty as

/-- One stage over the active lanes of a strip. -/
def stageStrip (vlen : Nat) (st : Stage) (as bs cs : List Word) : List (Word × Sts) :=
  if 0x50 ≤ st.op then
    (((chunks vlen as).zip (chunks vlen bs)).map (fun p => segOp st.op st.ty st.imm.toNat p.1 p.2)).flatten
  else
    (as.zip (bs.zip cs)).map (fun p => laneOp st.op st.ty st.mod p.1 p.2.1 p.2.2)

/-- ROW and COL of a position (R103, R130). -/
def rowCol (rowLen p : Nat) : Nat × Nat :=
  if rowLen = 0 then (0, p)
  else
    let cb := rowLen / 32
    let b := p / 1024
    let e := p % 1024
    (b / cb * 32 + e / 32, b % cb * 32 + e % 32)

/-- Operand selector of R103 over the positions `ps` of a strip, with input streams `ins` and earlier results `ts`. -/
def operand (rowLen : Nat) (ps : List Nat) (ins ts : List (List Word)) (imm : Word) (sel : Nat) : List Word :=
  if sel < 3 then ins.getD sel []
  else if 8 ≤ sel then ts.getD (sel - 8) []
  else ps.map (fun p => match sel with
    | 3 => imm
    | 4 => BitVec.ofNat 32 p
    | 5 => BitVec.ofNat 32 (rowCol rowLen p).1
    | 6 => BitVec.ofNat 32 (rowCol rowLen p).2
    | _ => 0)

/-- The stages of a strip in order: their results and the status they raise. -/
def stagesStrip (d : ChainDesc) (ps : List Nat) (ins : List (List Word)) :
    List Stage → List (List Word) → Sts → List (List Word) × Sts
  | [], ts, st => (ts, st)
  | s :: ss, ts, st =>
    let o := operand d.rowLen ps ins ts s.imm
    let r := stageStrip d.vlen s (o s.sa) (o s.sb) (o s.sc)
    stagesStrip d ps ins ss (ts ++ [r.map (·.1)]) (r.foldl (fun a x => a ||| x.2) st)

/-- The predicate MSRC of a strip's positions: an input stream or a stage result (R98, R110). -/
def predOf (d : ChainDesc) (ins ts : List (List Word)) : List Bool :=
  ((if d.msrc < 3 then ins.getD d.msrc [] else if 8 ≤ d.msrc then ts.getD (d.msrc - 8) [] else [])).map (· ≠ 0)

/-- Stream index read by each position of a strip: the position, its logical row (ROWCAST), or the next element of
the stream where the predicate holds (EXPAND). -/
def expandIdx : Nat → List Bool → List (Option Nat)
  | _, [] => []
  | c, true :: ps => some c :: expandIdx (c + 1) ps
  | c, false :: ps => none :: expandIdx c ps

/-- What a chain leaves: results of every stage over all positions, the predicate, the status and the stream cursor of
EXPAND inputs. -/
structure ChainOut where
  res : List (List Word)
  pred : List Bool
  sts : Sts
  cursor : Nat
  deriving DecidableEq, Repr

/-- The input streams of one strip. `fetch i k` is element k of stream i as it enters a lane (R97). -/
def stripIns (d : ChainDesc) (fetch : Nat → Nat → Word × Sts) (ps : List Nat) (ex : Option (List (Option Nat))) :
    List (List (Word × Sts)) :=
  [0, 1, 2].map (fun i =>
    if !bit d.inEn i then ps.map (fun _ => ((0 : Word), (0 : Sts)))
    else match d.inMode.getD i 0 with
      | 2 => ps.map (fun p => fetch i (rowCol d.rowLen p).1)
      | 1 => match ex with
        | none => ps.map (fun _ => (0, 0))
        | some ix => ix.map (fun o => match o with | some k => fetch i k | none => (0, 0))
      | _ => ps.map (fun p => fetch i p))

/-- One strip: the predicate is formed first (it does not depend on an expanded input, R110), then the stages run. -/
def chainStrip (d : ChainDesc) (fetch : Nat → Nat → Word × Sts) (o : ChainOut) (ps : List Nat) : ChainOut :=
  let pre := stripIns d fetch ps none
  let pv := pre.map (·.map (·.1))
  let pr := predOf d pv (stagesStrip d ps pv d.stages [] 0).1
  let ins := stripIns d fetch ps (some (expandIdx o.cursor pr))
  let iv := ins.map (·.map (·.1))
  let st := ins.foldl (fun a l => l.foldl (fun b x => b ||| x.2) a) o.sts
  let r := stagesStrip d ps iv d.stages [] st
  { res := if o.res = [] then r.1 else (o.res.zip r.1).map (fun p => p.1 ++ p.2)
    pred := o.pred ++ predOf d iv r.1
    sts := r.2
    cursor := o.cursor + (pr.filter id).length }

/-- A chain over N positions, strip by strip (R95); what a strip reads may depend on what the strips before have written. -/
def chainEval (d : ChainDesc) (n : Nat) (fetch : ChainOut → Nat → Nat → Word × Sts) : ChainOut :=
  (chunks 64 (List.range n)).foldl (fun o ps => chainStrip d (fetch o) o ps) { res := [], pred := [], sts := 0, cursor := 0 }

/-- comb of R108 for one RED_OP and TYPE; AMAX and SUMSQ have replaced the values before. -/
def comb (redOp ty : Nat) (a b : Word) : Word × Sts :=
  match redOp with
  | 0 | 1 => sumStep ty a b
  | 3 => if ty = 0 && (isNaN32 a || isNaN32 b) then (nan32, rdSts32 a ||| rdSts32 b) else minMaxLane false ty a b
  | _ => if ty = 0 && (isNaN32 a || isNaN32 b) then (nan32, rdSts32 a ||| rdSts32 b) else minMaxLane true ty a b

/-- The value a reduction takes from a position: squared for SUMSQ, absolute for AMAX (R108). -/
def redVal (redOp ty : Nat) (x : Word) : Word × Sts :=
  match redOp with
  | 1 => mul32 x x
  | 4 => if ty = 0 then (abs32 x, rdSts32 x)
         else if ty = 1 then satInt 1 (((intOf 1 x).natAbs : Nat) : Int)
         else (x, 0)
  | _ => (x, 0)

/-- comb where one operand may be absent: the other passes. -/
def combOpt (redOp ty : Nat) (a b : Option Word × Sts) : Option Word × Sts :=
  match a.1, b.1 with
  | some x, some y => let r := comb redOp ty x y; (some r.1, a.2 ||| b.2 ||| r.2)
  | some x, none => (some x, a.2 ||| b.2)
  | none, y => (y, a.2 ||| b.2)

/-- One halving of the piece tree: element i takes element i + w. -/
def treeLevel (redOp ty w : Nat) (v : List (Option Word × Sts)) : List (Option Word × Sts) :=
  (List.range w).map (fun i => combOpt redOp ty (v.getD i (none, 0)) (v.getD (i + w) (none, 0)))

/-- The fixed tree over a 32-position piece (R108). -/
def piece (redOp ty : Nat) (xs : List Word) : Option Word × Sts :=
  let v := xs.map (fun x => let r := redVal redOp ty x; ((some r.1 : Option Word), r.2))
  ([16, 8, 4, 2, 1].foldl (fun l w => treeLevel redOp ty w l) v).getD 0 (none, 0)

/-- The result of a WHOLE reduction over no positions (R108). -/
def redEmpty (redOp ty : Nat) : Word :=
  match redOp with
  | 2 => if ty = 0 then inf32 true else if ty = 1 then 0x80000000 else 0
  | 3 => if ty = 0 then inf32 false else if ty = 1 then 0x7FFFFFFF else 0xFFFFFFFF
  | _ => 0

/-- Pieces combined one after another. -/
def combFold (redOp ty : Nat) (ps : List (Option Word × Sts)) : Option Word × Sts :=
  ps.foldl (combOpt redOp ty) (none, 0)

/-- The reduction of a chain: its results in the order they are written, and the status (R108). A result that has passed the tree alone is
written flushed and canonical (DESIGN CHOICE, log entry 129). -/
def reduce (d : ChainDesc) (xs : List Word) : List Word × Sts :=
  let ty := (d.stages.getD d.redSrc (stageOf 0)).ty
  let ps := (chunks 32 xs).map (piece d.redOp ty)
  let out (rs : List (Option Word × Sts)) : List Word × Sts :=
    (rs.map (fun r => match r.1 with
      | some w => if ty = 0 then flush32 w else w
      | none => redEmpty d.redOp ty), rs.foldl (fun a r => a ||| r.2) 0)
  match d.redMode with
  | 1 => out [combFold d.redOp ty ps]
  | 2 =>
    let cb := d.rowLen / 32
    out ((List.range (if d.rowLen = 0 then 0 else xs.length / d.rowLen)).map (fun r =>
      combFold d.redOp ty ((List.range cb).map (fun c => ps.getD ((r / 32 * cb + c) * 32 + r % 32) (none, 0)))))
  | 3 => out ps
  | _ => ([], 0)

/-- Issue cycles of one strip of a stage (Table 4-2). -/
def opCost (op : Nat) : Nat :=
  if op = 0x27 ∨ op = 0x28 then 8
  else if 0x40 ≤ op ∧ op ≤ 0x44 then 4
  else if 0x45 ≤ op ∧ op ≤ 0x49 then 8
  else if op = 0x54 then 2
  else 1

end Sys2Proof.Machine
end

