-- ==== Sys2Proof/Machine/Rules.lean ====
section
/-!
DEFINITION. The Cutter's arithmetic on one record (R218 to R222, R233): the update rules of Table 0-3 and the clip of a
record's change.
-/

namespace Sys2Proof.Machine

/-- The update rules (Table 0-3, R10). -/
inductive Rule where
  | sgdm | adapt2 | kpre | knat | ortho | sign
  deriving DecidableEq, Repr

/-- The rule of a CUT_RULE code; none for the reserved codes (R11). -/
def ruleOf : Nat → Option Rule
  | 0 => some .sgdm | 1 => some .adapt2 | 2 => some .kpre | 3 => some .knat | 4 => some .ortho | 5 => some .sign
  | _ => none

/-- Rules that split the update into PASS and FINISH (R220). -/
def isMatrixRule : Rule → Bool
  | .kpre | .knat | .ortho => true
  | .sgdm | .adapt2 | .sign => false

/-- One hyperparameter set as latched (Table 8-4). -/
structure Hyper where
  lr : Word
  b1 : Word
  b2 : Word
  eps : Word
  wd : Word
  bc1 : Word
  bc2 : Word
  clipT : Word
  orthoK : Word
  deriving DecidableEq, Repr

/-- A record taken apart: master value, moments widened to FP32 (Table 8-1). -/
structure Rec where
  w : Word
  m : Word
  v : Word
  deriving DecidableEq, Repr

/-- The record of a 64-bit pattern. -/
def recOf (x : Nat) : Rec :=
  { w := BitVec.ofNat 32 (bits x 63 32), m := BitVec.ofNat 32 (bits x 31 16 * 65536), v := BitVec.ofNat 32 (bits x 15 0 * 65536) }

/-- The 64-bit pattern of a record; the moments are rounded to BF16 when stored (R218). -/
def recBits (r : Rec) : Nat := r.w.toNat * 2 ^ 32 + (toBf16 r.m).1 * 2 ^ 16 + (toBf16 r.v).1

/-- Whether any field of a record pattern is non-finite. -/
def recNonfinite (x : Nat) : Bool := bits x 62 55 == 255 || bits x 30 23 == 255 || bits x 14 7 == 255

/-- rne32(1 − β). -/
def oneMinus (b : Word) : Word := (sub32 0x3F800000 b).1

/-- adapt_dir of R219. -/
def adaptDir (h : Hyper) (m1 v1 : Word) : Word :=
  (div32 (mul32 m1 h.bc1).1 (add32 (sqrt32 (mul32 v1 h.bc2).1).1 h.eps).1).1

/-- sign of R219: ±1.0, +0 for a zero, canonical NaN for a NaN. -/
def signDir (c : Word) : Word :=
  if isNaN32 c then nan32
  else if lt32 0 c then 0x3F800000
  else if lt32 c 0 then 0xBF800000
  else 0

/-- w − lr × (d + wd × w) by two fused operations. -/
def applyDir (h : Hyper) (w d : Word) : Word := (fma32 (neg32 h.lr) (fma32 h.wd w d).1 w).1

/-- m1 of ADAPT2, KPRE and SIGN's interpolation: fma32(b, m, rne32((1 − b) g)). -/
def ema32 (b m g : Word) : Word := (fma32 b m (mul32 (oneMinus b) g).1).1

/-- v1 of ADAPT2 and KPRE. -/
def ema2_32 (b v g : Word) : Word := (fma32 b v (mul32 (oneMinus b) (mul32 g g).1).1).1

/-- The element-wise rules (R219). A matrix rule that falls back runs ADAPT2. -/
def elemRule (rule : Rule) (h : Hyper) (g : Word) (r : Rec) : Rec :=
  match rule with
  | .sgdm =>
    let m1 := (fma32 h.b1 r.m g).1
    { w := applyDir h r.w m1, m := m1, v := 0 }
  | .sign =>
    let d := signDir (ema32 h.b1 r.m g)
    { w := applyDir h r.w d, m := ema32 h.b2 r.m g, v := 0 }
  | _ =>
    let m1 := ema32 h.b1 r.m g
    let v1 := ema2_32 h.b2 r.v g
    { w := applyDir h r.w (adaptDir h m1 v1), m := m1, v := v1 }

/-- pass_matrix of R220: the record of the other reel; DIN takes its m. -/
def passMatrix (rule : Rule) (h : Hyper) (g : Word) (r : Rec) : Rec :=
  match rule with
  | .kpre => { w := r.w, m := ema32 h.b1 r.m g, v := ema2_32 h.b2 r.v g }
  | _ => { w := r.w, m := (fma32 h.b1 r.m g).1, v := 0 }

/-- finish of R220 with the direction d already formed. -/
def finishRec (h : Hyper) (r : Rec) (d : Word) : Rec := { r with w := applyDir h r.w d }

/-- The clip factor min(1.0, rne32(K / rne32(sqrt N))) (R231, R233). -/
def clipFactor (k n : Word) : Word := (min32 0x3F800000 (div32 k (sqrt32 n).1).1).1

/-- clip_record of R233. -/
def clipRec (old prov : Rec) (c : Word) : Rec :=
  let c2 := (mul32 c c).1
  { w := (fma32 c (sub32 prov.w old.w).1 old.w).1
    m := (fma32 c (sub32 prov.m old.m).1 old.m).1
    v := (fma32 c2 (sub32 prov.v old.v).1 old.v).1 }

/-- Σ x² over values, in 32-element pieces by the tree of R108 with the pieces in ascending order, added to a start. -/
def sumSq (start : Word) (xs : List Word) : Word :=
  (chunks 32 xs).foldl (fun a p => match (piece 1 0 p).1 with
    | some w => (add32 a w).1
    | none => a) start

end Sys2Proof.Machine
end

