-- ==== Sys2Proof/Machine/Products.lean ====
section
/-!
DEFINITION. The arithmetic of the arrays: groups of 32 products, alignment with 3 guard bits and accumulation
(R55 to R57, R65, R69, R70), and the per-element steps of a drain (R56, R83).
-/

namespace Sys2Proof.Machine

/-- A stored 32 × 32 block: element codes in storage order, and its 32 E8M0 scale codes (127 where none apply). -/
structure Tblk where
  fmt : Fmt
  codes : List Nat
  scales : List Nat
  deriving DecidableEq, Repr

/-- Element (row, col) of a stored block, and the number it stands for without its scale. -/
def blkElem (b : Tblk) (r c : Nat) : Nat := b.codes.getD (32 * r + c) 0

/-- The number of vector (or column) `v` at K index `k`: `trans` says that the vectors are the stored block columns;
`fold` adds the scale of K index `k` into the exponent (R70). Any element under a scale of 0xFF is NaN (R45). -/
def kElem (b : Tblk) (trans fold : Bool) (v k : Nat) : Num :=
  let c := if trans then blkElem b k v else blkElem b v k
  let sc := if isNarrow b.fmt then b.scales.getD (if fold then k else v) 127 else 127
  let x := scaledElem b.fmt sc c
  if fold then scaleNum ((sc : Int) - 127) x else x

/-- The factor exponent of vector `v` for its group: its scale code along K, or 127 when folded or unscaled. -/
def kScale (b : Tblk) (fold : Bool) (v : Nat) : Int :=
  if fold || !isNarrow b.fmt then 0 else (b.scales.getD v 127 : Int) - 127

/-- The status that reading element (v, k) of an operand raises: FTZ_IN for a BF16 subnormal (R63). A NaN is seen by the group. -/
def kSts (b : Tblk) (trans : Bool) (v k : Nat) : Sts :=
  if b.fmt = .bf16 then elemSts .bf16 (if trans then blkElem b k v else blkElem b v k) &&& stFTZIN else 0

/-- The result of one group: its exact value and its status; `zero` marks an exactly zero group sum, which leaves the
accumulator unchanged (R56). -/
structure Group where
  val : Num
  sts : Sts
  zero : Bool
  deriving DecidableEq, Repr

/-- The exact product of two finite elements, as sign, magnitude and exponent. -/
def prodFin : Num × Num → Option (Bool × Nat × Int)
  | (.fin s m e, .fin t n f) => some (s != t, m * n, e + f)
  | _ => none

/-- The product is zero × infinity. -/
def prodInv : Num × Num → Bool
  | (.inf _, .fin _ m _) => m == 0
  | (.fin _ m _, .inf _) => m == 0
  | _ => false

/-- The sign of an infinite product, if it is one. -/
def prodInf : Num × Num → Option Bool
  | (.inf s, .inf t) => some (s != t)
  | (.inf s, .fin t m _) => if m = 0 then none else some (s != t)
  | (.fin s m _, .inf t) => if m = 0 then none else some (s != t)
  | _ => none

/-- One group of R55 with the block scale exponents already summed in `sc` (e_A − 127 + e_B − 127). Exponents are
those of the significands, so the mantissa widths F cancel: the grid's least significant bit weighs 2^(T − 3), with T
the largest exponent over the products in which both elements are non-zero. -/
def groupSum (ps : List (Num × Num)) (sc : Int) : Group :=
  if ps.any (fun p => p.1 == .nan || p.2 == .nan) then { val := .nan, sts := stNANIN, zero := false }
  else
    let infs := ps.filterMap prodInf
    if ps.any prodInv || (infs.any id && infs.any (fun s => !s)) then { val := .nan, sts := stINV, zero := false }
    else match infs with
      | s :: _ => { val := .inf s, sts := 0, zero := false }
      | [] =>
        let fs := (ps.filterMap prodFin).filter (fun f => f.2.1 != 0)
        match fs with
        | [] => { val := .fin false 0 0, sts := 0, zero := true }
        | f0 :: _ =>
          let t := fs.foldl (fun a f => max a f.2.2) f0.2.2
          let aligned := fs.map (fun f => (f.1, f.2.1 * 8 / 2 ^ (t - f.2.2).toNat))
          let g := aligned.foldl (fun (a : Int) f => if f.1 then a - f.2 else a + f.2) 0
          { val := .fin (decide (g < 0)) g.natAbs (t - 3 + sc)
            sts := stIf (aligned.any (fun f => f.2 == 0)) stDROPALL
            zero := g == 0 }

/-- acc = ftz(rne32(acc + group value)); a zero group leaves it unchanged (R56). A group value that is a NaN, however it arose, is a NaN
operand of the addition (R64). -/
def accAdd (acc : Word × Sts) (g : Group) : Word × Sts :=
  if g.zero then (acc.1, acc.2 ||| g.sts)
  else
    let s := addNum (val32 acc.1) g.val
    let r := wr32 s.1
    (r.1, acc.2 ||| g.sts ||| r.2 ||| s.2 ||| rdSts32 acc.1 ||| stIf (g.val == .nan) stNANIN)

/-- An INT8 group sum added into an INT32 accumulator with saturation (R57). -/
def accAddInt (acc : Word × Sts) (ps : List (Num × Num)) : Word × Sts :=
  let g := (ps.filterMap prodFin).foldl (fun (a : Int) f => if f.1 then a - f.2.1 else a + f.2.1) 0
  let v := signed 32 acc.1.toNat + g
  (BitVec.ofInt 32 (clampI (-(2 ^ 31)) (2 ^ 31 - 1) v), acc.2 ||| stIf (v < -(2 ^ 31) || 2 ^ 31 - 1 < v) stSAT)

/-- The 32 operand pairs of vector `v` of the stream block and column `n` of the stationary block. TRANS_T = 0 stores
the stationary tile as (K, column), so its columns are the stored block columns. -/
def pairsOf (s t : Tblk) (transS transT foldS foldT : Bool) (v n : Nat) : List (Num × Num) :=
  (List.range 32).map (fun k => (kElem s transS foldS v k, kElem t (!transT) foldT n k))

/-- The status that reading the operands of one group raises (R63). -/
def pairsSts (s t : Tblk) (transS transT : Bool) (v n : Nat) : Sts :=
  (List.range 32).foldl (fun a k => a ||| kSts s transS v k ||| kSts t (!transT) n k) 0

/-- One vector against one column for one K-block, added into the accumulator. -/
def macStep (s t : Tblk) (transS transT foldS foldT : Bool) (v n : Nat) (acc : Word × Sts) : Word × Sts :=
  let ps := pairsOf s t transS transT foldS foldT v n
  if s.fmt = .int8 then accAddInt acc ps
  else
    let r := accAdd acc (groupSum ps (kScale s foldS v + kScale t foldT n))
    (r.1, r.2 ||| pairsSts s t transS transT v n)

/-- A start value as it is loaded into an accumulator bank: INT32 as it is; FP32 with a subnormal read as zero (R63) and no NaN payload
(R43). -/
def startVal (isInt : Bool) (w : Word) : Word × Sts := if isInt then (w, 0) else (flush32 w, rdSts32 w)

/-- One output element over its K-blocks in ascending order (R56), from a start value. -/
def accElem (kb : List (Tblk × Tblk)) (transS transT foldS foldT : Bool) (start : Word × Sts) (v n : Nat) : Word × Sts :=
  kb.foldl (fun a b => macStep b.1 b.2 transS transT foldS foldT v n a) start

/-- The accumulators of a 32 × 32 output block, in (row, column) order. -/
def accBlock (kb : List (Tblk × Tblk)) (transS transT foldS foldT : Bool) (start : List (Word × Sts)) : List (Word × Sts) :=
  (List.range 1024).map (fun e => accElem kb transS transT foldS foldT (start.getD e (0, 0)) (e / 32) (e % 32))

/-- The operand pairs that the arrays accept (R54). -/
def pairOk (a b : Fmt) : Bool :=
  (isNarrow a && isNarrow b) || (a == .bf16 && b == .bf16) || (a == .int8 && b == .int8)

/-- The drained value of an accumulator: an INT32 one is converted first (R57), then × C_A × C_B (R56). -/
def drainVal (isInt : Bool) (cab acc : Word) : Word × Sts :=
  mul32 (if isInt then ofInt32 (signed 32 acc.toNat) else acc) cab

/-- EMA-on-drain of one element (R83): t = α v, new = β old + t with one rounding. -/
def emaVal (alpha beta old v : Word) : Word × Sts :=
  let t := mul32 alpha v
  let r := fma32 beta old t.1
  (r.1, r.2 ||| t.2)

end Sys2Proof.Machine
end

