-- ==== Sys2Proof/Machine/Arrays.lean ====
section
/-!
DEFINITION. What the four arrays of a cell hold (R68, R71, R73, R74, R87 to R89): row repair at boot, the stationary register sets with
their parity and exponent shadows, the accumulator banks. Row queues, skew lines and elastic links are empty between commands
(log entry 23).
-/

namespace Sys2Proof.Machine

/-- The arrays of the physical cell c of a block. -/
def arrsOf (k : Blk) (c : Nat) : List ArrHw := spGet cellDflt k.cells c

/-! ## Row repair (R87 to R89) -/

/-- The bad rows among physical rows 0 to 31 of a mask of 33. -/
def badRows (m : Nat) : List Nat := mlist m 32

/-- Whether row repair makes an array usable: no bad row, or one with a good spare row. -/
def arrUsable (m : Nat) : Bool := (badRows m).isEmpty || ((badRows m).length == 1 && !mbit m 32)

/-- The row-remap table with bad row b: logical row k lies in physical row k below b, in k + 1 from b on; the skew table has the same
numbers. -/
def repairRows (b : Nat) : List Nat := (List.range 32).map (fun k => if k < b then k else k + 1)

/-- An array as boot firmware leaves it: remapped, skewed and with H = 0 where a row is repaired. -/
def repairArr (m : Nat) : ArrHw :=
  match badRows m with
  | [b] => { arrDflt with remap := repairRows b, skew := repairRows b, elastic := 0 }
  | _ => arrDflt

/-- The byte of ARR_ROW_REPAIR for an array (Table 3-7). -/
def repairByte (m : Nat) : Nat :=
  match badRows m with
  | [b] => 0x80 + b
  | _ => 0

/-- ARR_ROW_REPAIR from the masks of the four arrays: reserved bits read 0. -/
def repairWord (ms : List Nat) : Nat := pack ((List.range 4).map (fun a => (8 * a, if arrUsable (ms.getD a 0) then repairByte (ms.getD a 0) else 0)))

/-! ## Stationary sets (R68, R73, R74) -/

/-- The parity bit of a stationary element. -/
def parityOf (f : Fmt) (code : Nat) : Bool := (List.range (fmtBits f)).foldl (fun p i => p != mbit code i) false

/-- The parity of every PE's element, by physical row. -/
def StatSet.parity (x : StatSet) : List (List Bool) := x.rows.map (fun r => r.map (fun e => parityOf x.fmt e.1))

/-- What the look-ahead unit's shadow keeps of an element and its scale code: whether it is zero, and its exponent with the folded scale's
(R70); none of an element that is not finite, as under a scale of 0xFF (R45). -/
def shadowOf (f : Fmt) (fold : Bool) (e : Nat × Nat) : Bool × Option Int :=
  match scaledElem f e.2 e.1 with
  | .fin _ m x => (m == 0, some (if fold then x + e.2 - 127 else x))
  | _ => (false, none)

/-- The exponent shadow of a set. -/
def StatSet.shadow (x : StatSet) : List (List (Bool × Option Int)) := x.rows.map (fun r => r.map (shadowOf x.fmt x.fold))

/-- Row k of a stationary tile, halves side by side: the elements of K index k, each with its scale code, which is that of the K index where
scales are folded, and else that of the column. -/
def tileRow (hs : List Tblk) (transT fold : Bool) (k : Nat) : List (Nat × Nat) :=
  hs.flatMap (fun t => (List.range 32).map (fun n =>
    (if transT then blkElem t n k else blkElem t k n, if isNarrow t.fmt then t.scales.getD (if fold then k else n) 127 else 127)))

/-- A stationary tile as an array holds it: logical row k in its physical row; a row that no logical row maps to holds nothing. -/
def placeTile (remap : List Nat) (f : Fmt) (hs : List Tblk) (transT fold : Bool) : StatSet :=
  { fmt := f, fold := fold
    rows := (List.range 33).map (fun p => match (List.range 32).find? (fun k => remap.getD k 0 == p) with
      | some k => tileRow hs transT fold k
      | none => []) }

/-- A tile loaded into the free set of an array, and the switch to it by the first vector of its K-block (R73, R74). -/
def loadTile (f : Fmt) (transT fold : Bool) (a : ArrHw) (hs : List Tblk) : ArrHw :=
  let x := placeTile a.remap f hs transT fold
  if a.active then { a with set0 := x, active := false } else { a with set1 := x, active := true }

/-! ## Accumulator banks (R71) -/

/-- An operation accumulates into the bank that was not used last (DESIGN CHOICE, log entry 111): its blocks, by row block × 2 + half. -/
def fillBank (a : ArrHw) (xs : Sparse (List Word)) : ArrHw :=
  if a.last then { a with bank0 := xs, last := false } else { a with bank1 := xs, last := true }

/-- The four arrays of a cell after an operation: every array has loaded its stationary tiles; each enabled one holds its accumulators. -/
def runArrays (as : List ArrHw) (f : Fmt) (transT fold : Bool) (tiles : List (List Tblk)) (arrEn : Nat)
    (bank : Nat → Sparse (List Word)) : List ArrHw :=
  ((List.range as.length).zip as).map (fun e =>
    let x := tiles.foldl (loadTile f transT fold) e.2
    if mbit arrEn e.1 then fillBank x (bank e.1) else x)

end Sys2Proof.Machine
end

