-- ==== Sys2Proof/Machine/Takes.lean ====
section
/-!
DEFINITION. Live values, unit copies and takes: which units apply which entries, loading a unit from the live take, striking
a cue (R323 to R329).
-/

namespace Sys2Proof.Machine

/-- The units that a cue of a group reaches (Table 11-4). Unit r < 4 stands for the region's memory controllers, hub, fabric units, Cutters and
Grader, unit 4 for the chip-level units; the sequencers and the cells are units of their own. A cue of a memory group
reaches the four regions: its entries belong to all four groups, but for MEM_GRD_WS (R324). -/
def unitsOf (g : Nat) : List Nat :=
  if g = 0 ∨ g = 10 ∨ g = 11 then [4]
  else if 1 ≤ g ∧ g ≤ 7 then [0, 1, 2, 3]
  else if g = 8 then 4 :: (List.range 24).map seqUnit
  else if g = 9 then (List.range 24).flatMap (fun b => (List.range 17).map (cellUnit b))
  else []

/-- The groups of a cue-group mask. -/
def groupsOf (m : Nat) : List Nat := mlist m 12

/-- The cue-group mask of the entry with key `k`. -/
def grpOf (k : Nat) : Nat :=
  match entryAt (k / 256) (k % 256) with
  | some e => e.grp
  | none => 0

/-- Whether an entry is a command that its cue hands over once, not a value that units copy (R143, R282, R368). -/
def isCmdKey (k : Nat) : Bool :=
  k == key 0x6023 0 || k == key 0x5032 0 || (key 0x9030 0 ≤ k && k ≤ key 0x9030 3)

/-- CUT_LEGACY and CUT_LS_INIT: the cue that applies a write of one resets the loss scale (R52). -/
def isLsKey (k : Nat) : Bool := k == key 0x7080 0 || k == key 0x7080 2

/-- Whether unit `u` is one of group g's own units. -/
def ownUnit (g u : Nat) : Bool := if 1 ≤ g ∧ g ≤ 4 then u + 1 == g else (unitsOf g).contains u

/-- Whether unit `u` holds a copy of the entry with key `k`. -/
def holdsCopy (u k : Nat) : Bool := !isCmdKey k && (groupsOf (grpOf k)).any (fun g => ownUnit g u)

/-- Whether a unit can apply values: chip-level units always, others while their region is in service (R325). -/
def unitAlive (s : State) (u : Nat) : Bool := u == 4 || alive s (unitReg u)

/-- The units of a region: those of unit r, its sequencers, its cells. -/
def unitsIn (r : Nat) : List Nat :=
  r :: (List.range 6).flatMap (fun i => seqUnit (6 * r + i) :: (List.range 17).map (cellUnit (6 * r + i)))

/-- Whether the entry is applied only when its region passes through OFFLINE (R132, R326). -/
def isLayoutKey (k : Nat) : Bool := k / 256 == 0x6001 || (k / 256 == 0x6002 && k % 256 < 4)

/-- A unit takes the live values of the entries that satisfy `p` (R326). -/
def loadCopies (s : State) (u : Nat) (p : Nat → Bool) : State :=
  let old := (s.mgt.applied.filter (fun e => e.1 / 0x1000000 == u && p (e.1 % 0x1000000))).map (fun e => e.1 % 0x1000000)
  let new := (s.mgt.live.filter (fun e => p e.1 && holdsCopy u e.1)).map (·.1)
  s.each (old ++ new) (fun s k =>
    { s with mgt := { s.mgt with applied := spSet appDflt s.mgt.applied (appKey u k) (s.live k) } })

/-- A unit loads the whole live take (R36, R325): when its region leaves reset or OFFLINE, and at boot. -/
def loadUnit (s : State) (u : Nat) : State := loadCopies s u (fun _ => true)

/-- Every unit of the module. -/
def allUnits : List Nat := 4 :: (List.range 4).flatMap unitsIn

/-- A unit applies the latest live values of one group (R326); layout entries wait for OFFLINE. -/
def loadGroup (s : State) (g u : Nat) : State := loadCopies s u (fun k => mbit (grpOf k) g && !isLayoutKey k)

/-- Whether an entry is held in the take (R313). -/
def isTake (k : Nat) : Bool :=
  match entryAt (k / 256) (k % 256) with
  | some e => e.per == 1
  | none => false

/-- The TAKE values of a value list. -/
def takeVals (l : Sparse Nat) : Sparse Nat := l.filter (fun e => isTake e.1)

/-- CFG_CRC_REF and CFG_CRC_EN, which every cue captures (R325). -/
def isCrcKey (k : Nat) : Bool := k == key 0x2010 0 || k == key 0x2010 4

/-- The entries that a cue of a group mask captures. -/
def captured (mask k : Nat) : Bool := (grpOf k &&& mask) != 0 || isCrcKey k

/-- Live values after a cue: captured entries take their shadow values. -/
def cueLive (s : State) (mask : Nat) : Sparse Nat :=
  let ks := ((s.mgt.shadow ++ s.mgt.live).filter (fun e => captured mask e.1)).map (·.1)
  ks.foldl (fun l k => spSet entReset l k (s.shadow k)) s.mgt.live

/-- The command writes that a cue of a mask hands over: a channel command only by the group of its channel's region (R143). -/
def cueCmds (s : State) (mask : Nat) : List Nat :=
  (s.mgt.cmdFresh.filter isCmdKey).filter (fun k =>
    if k = key 0x6023 0 then mbit mask (1 + (s.shadow k % 256) / 16) else (grpOf k &&& mask) != 0)

/-- Whether a unit applies a cue at once, into the copy that the next latch reads: the Cutters and the chip's step latch (R326). -/
def appliesAtOnce (g u : Nat) : Bool := g == 6 || (g == 8 && u == 4)

/-- The (group, unit) pairs that a cue sends values to: units of a region that is resetting or OFFLINE are not waited for (R325). The spec
does not name the units of every group (DEDUCED, log entry 118). -/
def cueSends (s : State) (mask : Nat) : List (Nat × Nat) :=
  (groupsOf mask).flatMap (fun g => ((unitsOf g).filter (unitAlive s)).map (fun u => (g, u)))

/-- The pairs that a cue waits for. -/
def cueWaits (s : State) (mask : Nat) : List (Nat × Nat) := (cueSends s mask).filter (fun p => !appliesAtOnce p.1 p.2)

/-- The image of the live take (R329). -/
def liveImage (m : Mgt) : TakeImg := sealTake m.liveNum (takeVals m.live)

/-- The live take is to be stored: its write starts, or follows the one under way (R329). -/
def storeTake (s : State) : State :=
  { s with mgt := { s.mgt with
      nvState := 1
      nvWrite := if s.mgt.nvWrite.isSome then s.mgt.nvWrite else some (liveImage s.mgt)
      nvNext := s.mgt.nvWrite.isSome } }

/-- A new take is made: the previous take becomes the old live values, the live take the next number (R327). -/
def makeTake (s : State) (live : Sparse Nat) : State :=
  { s with mgt := { s.mgt with
      live := live, prev := takeVals s.mgt.live, prevNum := s.mgt.liveNum, highNum := s.mgt.highNum + 1
      liveNum := s.mgt.highNum + 1 } } |> storeTake |>.count (kDict 7) 1

/-- A block whose clocks are stopped starts its wake ramp (R406), or waits for its turn. -/
def wakeBlk (s : State) (b : Nat) : State :=
  if (s.blk b).clkOff && !(s.blk b).ramp then s.setBlk b { s.blk b with ramp := true } else s

/-- The blocks whose clocks a cue of a mask restarts: those in regions whose sequencer, cell or Cutter units it reaches (R406). -/
def cueBlocks (s : State) (mask : Nat) : List Nat :=
  if mbit mask 6 || mbit mask 8 || mbit mask 9 then (List.range 24).filter (fun b => alive s (b / 6)) else []

/-- Whether a block's cells allow it to be in service: none of positions 0 to 15 lost, or the one lost filled by a usable
stand-in (R19, R21). -/
def blkFit (m : Nat) : Bool :=
  let lost := (List.range 16).filter (fun p => !mbit m p)
  lost == [] || (lost == [bits m 21 17] && mbit m 16)

/-- Whether the selected microcode bank holds an image that passed its check (R383). -/
def bankGood (f : Flt) : Bool := if f.usel = 0 then f.ubank0 else f.ubank1

/-- A sequencer takes the selected microcode bank (R369); a block that was out of service for want of microcode returns where the bank holds
checked microcode (R383). -/
def takeBank (s : State) (b : Nat) : State :=
  let k := s.blk b
  s.setBlk b { k with ubank := s.flt.usel, map := if blkFit k.map && bankGood s.flt then mset k.map 31 else k.map }

/-- A cue of group 8 after ARM or REVERT selects the other bank; a sequencer in IDLE switches at once (R369, R383). -/
def cueBank (s : State) (mask : Nat) : State :=
  if mbit mask 8 && s.flt.uswap then
    let sel := 1 - s.flt.usel
    let s1 := { s with flt := { s.flt with usel := sel, uswap := false }, sec := { s.sec with ubank := sel } }
    s1.each ((List.range 24).filter (fun b => alive s (b / 6) && (s.blk b).phase == .idle)) takeBank
  else s

/-- A cue that applies a write of CUT_LEGACY or CUT_LS_INIT, or changes one of them, resets L to CUT_LS_INIT and the counter of clean steps
to 0 (R52). -/
def cueLs (s t : State) (mask : Nat) : State :=
  let fresh := s.mgt.cmdFresh.any (fun k => isLsKey k && (grpOf k &&& mask) != 0)
  if fresh || [key 0x7080 0, key 0x7080 2].any (fun k => s.live k != t.live k) then
    (t.setRo (key 0x7080 1) (t.live (key 0x7080 2))).setRo (key 0x7080 6) 0
  else t

/-- A cue is processed for the groups of a mask (R325): captured shadows become live, a take is made if a TAKE value changed, the
units are sent the values, which the Cutters and the step latch apply at once (R216, R326), the running sweep is abandoned (R330). -/
def strikeCue (s : State) (mask : Nat) : State :=
  let live := cueLive s mask
  let changed := takeVals live != takeVals s.mgt.live
  let s1 := if changed then makeTake s live else { s with mgt := { s.mgt with live := live } }
  let cmds := cueCmds s mask
  let waits := cueWaits s mask
  let s2 := { s1 with mgt := { s1.mgt with
      apply := s1.mgt.apply.filter (fun p => !waits.contains p) ++ waits, sweep := false,
      cmdFresh := s1.mgt.cmdFresh.filter (fun k => !cmds.contains k && !(isLsKey k && (grpOf k &&& mask) != 0)),
      cmdPend := s1.mgt.cmdPend ++ cmds.map (fun k => (k, s.shadow k)) } }
  let s3 := s2.each ((cueSends s mask).filter (fun p => appliesAtOnce p.1 p.2)) (fun s p => loadGroup s p.1 p.2)
  let s4 := cueLs s ((cueBank s3 mask).count (kDict 6) 1) mask
  s4.each (cueBlocks s4 mask) wakeBlk

/-- The take that a cold boot loads (R329): the live take's image, else the previous take's, else the reset values. -/
def loadTake (m : Mgt) : Mgt :=
  if m.nv0.ok then
    { m with live := m.nv0.vals, shadow := m.nv0.vals, liveNum := m.nv0.num, takeSrc := 0
             prev := if m.nv1.ok then m.nv1.vals else [], prevNum := if m.nv1.ok then m.nv1.num else 0 }
  else if m.nv1.ok then
    { m with live := m.nv1.vals, shadow := m.nv1.vals, liveNum := m.nv1.num, takeSrc := 1, prev := [], prevNum := 0 }
  else { m with live := [], shadow := [], liveNum := 0, takeSrc := 2, prev := [], prevNum := 0 }

/-- A command handed over by a cue and not yet carried out. -/
def cmdPending (s : State) (k v : Nat) : Bool := s.mgt.cmdPend.contains (k, v)

end Sys2Proof.Machine
end

