-- ==== Sys2Proof/Machine/Power.lean ====
section
/-!
DEFINITION. Power, clocks and cooling (R391 to R414): the 40 V input, the rails, the governor, the thermal control, the
reference clocks, block clocks.
-/

namespace Sys2Proof.Machine

/-! ## Entries in force -/

def pwrLimit (s : State) : Nat := s.app 4 (key 0x3000 0)
def pwrHyst (s : State) : Nat := s.app 4 (key 0x3000 1)
def pwrFmax (s : State) : Nat := s.app 4 (key 0x3000 2)
def pwrGateIdle (s : State) : Nat := s.app 4 (key 0x3010 1)
def pwrThrottle (s : State) : Nat := s.app 4 (key 0x3020 0x10)

/-- The step in force, n = min(n_gov, n_therm, PWR_FMAX) (R401). -/
def stepInForce (s : State) : Nat := min s.pwr.nGov (min s.pwr.nTherm (pwrFmax s))

/-- PWR_STS (Table 14-9). -/
def pwrSts (s : State) : Nat :=
  pack [(6, b2n s.pwr.tripped), (5, b2n s.pwr.ov), (4, b2n s.pwr.inputLow), (3, b2n s.pwr.tjLimit),
    (2, b2n (s.pwr.nTherm < 56)), (1, b2n (s.pwr.nGov < 56)), (0, b2n (pwrFmax s < 56))]

/-- A whole number as an FP32 pattern. -/
def f32 (n : Nat) : Word := ofInt32 n

/-- The larger of two temperatures. -/
def hotter (a b : Word) : Word := if lt32 a b then b else a

/-- The hottest of four readings. -/
def hottest (t0 t1 t2 t3 : Word) : Word := hotter (hotter t0 t1) (hotter t2 t3)

/-- 105.0 as FP32 (R412). -/
def tjMax : Word := f32 105

/-! ## Losing power (R395, R398) -/

/-- The data plane and the control plane without their rails: memories, programs, blocks, Graders, ports and contexts are lost, and
the PCIe link is down (R389). -/
def dataLost (s : State) : State :=
  { s with pwr := { s.pwr with rails := .off, trained := false }
           sec := { s.sec with ideFresh := [], ideOn := false }
           cp := { cpReset with pcieRef := s.cp.pcieRef, perst := s.cp.perst }
           progs := [], steps := [], segs := [], blks := [], sigs := [], mem := [], dirs := [], binds := [], back := backReset
           grds := [], fab := fabReset, xchs := [], days := [] }

/-- The second copy of the monotonic record at a loss of power: one that the ROM of this boot was to write may be caught half written, and
then fails its CRC; whether it is, is the free value n (R373; DESIGN CHOICE, log entry 119). -/
def monoKept (n : Nat) (c : Sec) : MonoCopy :=
  if c.floorRaised && c.phase == .secure && bit (Config.freeWord n).toNat 0 then { c.mono1 with crc := c.mono1.floors.crc + 1 } else c.mono1

/-- The nonvolatile store of the security unit as it survives a loss of power: a slot being written stays not VALID (R381). -/
def storeKept (n : Nat) (c : Sec) : Sec :=
  { secReset with
    slot0 := c.slot0, slot1 := c.slot1
    preferred := c.preferred, trial := c.trial, uarea0 := c.uarea0, uarea1 := c.uarea1, ubank := c.ubank
    policy := c.policy, mono0 := c.mono0, mono1 := monoKept n c, fuses := c.fuses }

/-- The take store once image `x` stands in it, whole or torn: it has overwritten the older image, never that of the take it replaces, which
stands as the previous one (R329). -/
def putTake (m : Mgt) (x : TakeImg) : Mgt := { m with nv0 := x, nv1 := if m.nv0.ok then m.nv0 else m.nv1 }

/-- The take store as it survives a loss of power: an image being written is torn, that of the take it replaces is not (R329). -/
def takesKept (m : Mgt) : Mgt :=
  let k := match m.nvWrite with
    | some x => putTake m x.torn
    | none => m
  { mgtReset with nv0 := k.nv0, nv1 := k.nv1, highNum := k.highNum }

/-- Every rail off, the always-on rails included: only the stores, the pins and what has left the module remain (R395). REFCLK100 is taken
as supplied at the next power-up (R403; DESIGN CHOICE, log entry 120). -/
def coldOff (s : State) : State :=
  { State.reset with
    pending := s.pending, evt := s.evt, free := s.free + 1, out := s.out, sec := storeKept s.free s.sec, mgt := takesKept s.mgt
    cp := { cpReset with pcieRef := s.cp.pcieRef, perst := s.cp.perst }, pwr := pwrReset }

/-! ## The input -/

/-- POWER_UP (R396, R397): the bulk capacitance charges and the always-on rails start. -/
def execPowerUp (s : State) : Host.Outcome State Fault Refusal :=
  .next (if s.pwr.supply == .off then { s with pwr := { s.pwr with supply := .charging } } else s)

/-- OVERVOLTAGE (R394, R398): above 43 V every rail but the always-on rails is turned off, OV is set, and the module waits for a cold
boot; above the absolute maximum of 44 V the spec gives no behaviour. -/
def execOvervoltage (mv : Nat) (s : State) : Host.Outcome State Fault Refusal :=
  if mv > 44000 then .fault .inputAboveAbsoluteMaximum
  else if mv > 43000 && s.pwr.supply == .on then
    let s1 := dataLost s
    .next { s1 with pwr := { s1.pwr with ov := true, coldWait := true } }
  else .next s

/-- UNDERVOLTAGE (R395): every rail is turned off. -/
def execUndervoltage (s : State) : Host.Outcome State Fault Refusal := .next (coldOff s)

/-- CURRENT_TRIP (R396): treated as undervoltage. -/
def execCurrentTrip (s : State) : Host.Outcome State Fault Refusal := .next (coldOff s)

/-- INPUT_INTERRUPTION (R395): ridden through up to 100 µs, and counted. -/
def execInputInterruption (us : Nat) (s : State) : Host.Outcome State Fault Refusal :=
  .next (if us ≤ 100 && s.pwr.supply == .on then s.count (kPwrCnt 7) 1 else s)

/-- INPUT_LOW (R394): the input enters or leaves the band below 38.0 V. -/
def execInputLow (enter : Bool) (s : State) : Host.Outcome State Fault Refusal :=
  .next (if s.pwr.supply != .on then s
    else ({ s with pwr := { s.pwr with inputLow := enter } }).countIf (enter && !s.pwr.inputLow) (kPwrCnt 6))

/-! ## Governor and thermal control -/

/-- The governor's decision on P (R402): the new n_gov and low count. -/
def governor (limit hyst n low : Nat) (p : Word) : Nat × Nat :=
  if lt32 (f32 limit) p then (max (n - 1) 28, 0)
  else if lt32 p (f32 (limit - hyst)) then
    if low + 1 = 10 then (min (n + 1) 56, 0) else (n, low + 1)
  else (n, 0)

/-- GOVERNOR_EVALUATION (R402). -/
def execGovernorEvaluation (p u i : Word) (s : State) : Host.Outcome State Fault Refusal :=
  .next (if s.pwr.rails != .up then s
    else
      let g := governor (pwrLimit s) (pwrHyst s) s.pwr.nGov s.pwr.lowCount p
      let s1 := { s with pwr := { s.pwr with nGov := g.1, lowCount := g.2, pIn := p, uIn := u, iIn := i } }
      ((s1.countIf (g.1 < s.pwr.nGov) (kPwrCnt 0)).countIf (s.pwr.nGov < g.1) (kPwrCnt 1)).countIf
        (stepInForce s1 < 56) (kPwrCnt 3))

/-- GOVERNOR_FAST_PATH (R402). -/
def execGovernorFastPath (s : State) : Host.Outcome State Fault Refusal :=
  .next (if s.pwr.rails != .up then s
    else ({ s with pwr := { s.pwr with nGov := max (s.pwr.nGov - 8) 28, lowCount := 0 } }).count (kPwrCnt 2) 1)

/-- The thermal control's decision on T (R412). -/
def thermal (throttle n : Nat) (t : Word) : Nat :=
  if !lt32 t tjMax && !isNaN32 t then 28
  else if lt32 (f32 throttle) t then max (n - 2) 28
  else if lt32 t (f32 (throttle - 3)) then min (n + 1) 56
  else n

/-- The four region readings and the chip's hottest sensor stored (R411), with TJ_LIMIT. -/
def setTj (s : State) (t0 t1 t2 t3 : Word) : State :=
  let t := hottest t0 t1 t2 t3
  { s with pwr := { s.pwr with tj := [t0, t1, t2, t3, t], tjLimit := !lt32 t tjMax && !isNaN32 t } }

/-- THERMAL_EVALUATION (R412). -/
def execThermalEvaluation (t0 t1 t2 t3 : Word) (s : State) : Host.Outcome State Fault Refusal :=
  .next (if s.pwr.rails != .up then s
    else
      let s1 := setTj s t0 t1 t2 t3
      let n := thermal (pwrThrottle s) s.pwr.nTherm (hottest t0 t1 t2 t3)
      let s2 := { s1 with pwr := { s1.pwr with nTherm := n } }
      (s2.countIf (n < s.pwr.nTherm && !s1.pwr.tjLimit) (kPwrCnt 4)).countIf (n < s.pwr.nTherm && s1.pwr.tjLimit) (kPwrCnt 5))

/-- JUNCTION_LIMIT (R412): a reading at or above 105 °C forces n_therm to 28. -/
def execJunctionLimit (t0 t1 t2 t3 : Word) (s : State) : Host.Outcome State Fault Refusal :=
  .next (if s.pwr.rails != .up then s
    else
      let s1 := setTj s t0 t1 t2 t3
      if s1.pwr.tjLimit then
        ({ s1 with pwr := { s1.pwr with nTherm := 28 } }).countIf (28 < s.pwr.nTherm) (kPwrCnt 5)
      else s1)

/-- THERMAL_TRIP (R413): every rail but the always-on rails off until always-on power is lost. -/
def execThermalTrip (s : State) : Host.Outcome State Fault Refusal :=
  .next (if s.pwr.supply != .on then s
    else
      let s1 := dataLost s
      { s1 with pwr := { s1.pwr with tripped := true, coldWait := true } })

/-! ## Clocks -/

/-- REFCLK100_LOSS (R407): a fault of a chip-level unit. -/
def execRefclk100Loss (s : State) : Host.Outcome State Fault Refusal :=
  .next (if s.pwr.supply != .on || !s.pwr.refclk then s
    else
      let s1 := { s with pwr := { s.pwr with refclk := false } }
      chipFault s1 2 4 { level := 3, action := 4, cause := 0x0C })

/-- The PCIe link is down: the IDE stream is Insecure until its keys are written again (R389). -/
def linkDown (s : State) : State :=
  { s with cp := { s.cp with link := false }, sec := { s.sec with ideFresh := [], ideOn := false } }

/-- PCIE_REFCLK_LOSS (R407): the link goes down and the command unit's clock stops. -/
def execPcieRefclkLoss (s : State) : Host.Outcome State Fault Refusal :=
  .next (if s.cp.pcieRef then linkDown { s with cp := { s.cp with pcieRef := false } } else s)

/-- The link trains; a training below x4 at 64 GT/s is counted (R284). -/
def linkTrains (s : State) (fullRate : Bool) : State :=
  ({ s with cp := { s.cp with link := true } }).countIf (!fullRate) (kCmdPerf 7)

/-- PCIE_REFCLK_RETURN (R407): the link trains, under the conditions of PERST_L_RELEASE (R377). -/
def execPcieRefclkReturn (fullRate : Bool) (s : State) : Host.Outcome State Fault Refusal :=
  .next (if s.cp.pcieRef then s
    else
      let s1 := { s with cp := { s.cp with pcieRef := true } }
      if !s.cp.perst && s.sec.lock && s.pwr.rails == .up then linkTrains s1 fullRate else s1)

/-- PCIE_LINK_DOWN (R389). -/
def execPcieLinkDown (s : State) : Host.Outcome State Fault Refusal := .next (linkDown s)

/-- BLOCK_CLOCK_STOP (R406, R414): an IDLE block stops its fast clocks, by the PWR_GATE_IDLE that its idle period started with. -/
def execBlockClockStop (b : Nat) (s : State) : Host.Outcome State Fault Refusal :=
  .next (if b < 24 && (s.blk b).phase == .idle && (s.blk b).gateOld.getD (pwrGateIdle s) != 0 && !(s.blk b).clkOff then
      s.setBlk b { s.blk b with clkOff := true }
    else s)

/-- RAMP_TURN (R406): the lowest-numbered waiting block begins its ramp; its wait is counted in ticks. -/
def execRampTurn (b ticks : Nat) (s : State) : Host.Outcome State Fault Refusal :=
  .next (if b < 24 && (s.blk b).clkOff && (s.blk b).ramp && (List.range b).all (fun c => !(s.blk c).ramp) then
      ((s.setBlk b { s.blk b with clkOff := false, ramp := false }).count (kPwrCnt 8) 1).count (kPwrCnt 9) ticks
    else s)

end Sys2Proof.Machine
end

