-- ==== Sys2Proof/Machine/Boot.lean ====
section
/-!
DEFINITION. Image checks and boot (R372 to R384): the ROM, the firmware slots, the boot lock, the microcode areas.
-/

namespace Sys2Proof.Machine

/-! ## Images (R374 to R376) -/

/-- `n` bytes of an image from an offset. -/
def imgBytes (img : List Byte) (off n : Nat) : List Byte := (img.drop off).take n

/-- A little-endian header field. -/
def imgNat (img : List Byte) (off n : Nat) : Nat := leNat (imgBytes img off n)

def imgKey (img : List Byte) : Nat := imgNat img 7 1
def imgFlags (img : List Byte) : Nat := imgNat img 8 4
def imgSvn (img : List Byte) : Nat := imgNat img 0xC 1
def imgVersion (img : List Byte) : Nat := imgNat img 0x10 4
def imgLen (img : List Byte) : Nat := imgNat img 0x14 4
def imgDigest (img : List Byte) : List Byte := imgBytes img 0x20 64

/-- Largest payload of a type (Table 13-1). -/
def imgMax (ty : Nat) : Nat := if ty = 1 then 4190208 else 1044480

/-- Whether every byte of a range is zero. -/
def imgZero (img : List Byte) (off n : Nat) : Bool := (imgBytes img off n).all (· == 0)

/-- The FORMAT check of Table 13-2, for the type that the image names. -/
def imgFormat (img : List Byte) : Bool :=
  imgNat img 0 4 == 0x55444B46 && imgNat img 4 2 == 1 && imgFlags img < 2 && imgZero img 0xD 3 && imgZero img 0x18 8
    && imgZero img 0x761 31 && imgZero img 0xC80 896
    && 1 ≤ imgLen img && imgLen img ≤ imgMax (imgNat img 6 1) && imgLen img + 4096 == img.length

/-- The image checks in the order of Table 13-2: the code of the first that fails, 0 where every one passes. A KEY_IDX above 3 names no root
key digest, so that KEY fails. -/
def imageCheck (img : List Byte) (valid : Bool) (ty : Nat) (f : Floors) : Nat :=
  if img.length < 4097 || !valid then 1
  else if !imgFormat img then 2
  else if imgNat img 6 1 != ty then 3
  else if 3 < imgKey img || Config.shake256 (imgBytes img 0x60 1793) 64 != (Config.rootKeyDigest (imgKey img)).toList then 4
  else if imgKey img < f.key then 5
  else if ty == 1 && imgSvn img < f.svn then 6
  else if !Config.falconVerify (imgBytes img 0x60 1793) (imgBytes img 0 0x780) (imgBytes img 0x780 1280) then 7
  else if Config.shake256 (img.drop 4096) 64 != imgDigest img then 8
  else 0

/-- The monotonic record in force (R373): the valid copy with the higher SVN_FLOOR. Without a valid copy the ROM halts (R377). -/
def floors (c : Sec) : Floors :=
  if c.mono0.valid && (!c.mono1.valid || c.mono1.floors.svn ≤ c.mono0.floors.svn) then c.mono0.floors
  else if c.mono1.valid then c.mono1.floors
  else ⟨0, 0⟩

/-- A slot or area by number. -/
def Sec.slot (c : Sec) (n : Nat) : Area := if n = 0 then c.slot0 else c.slot1
def Sec.uarea (c : Sec) (n : Nat) : Area := if n = 0 then c.uarea0 else c.uarea1

def Sec.setSlot (c : Sec) (n : Nat) (a : Area) : Sec := if n = 0 then { c with slot0 := a } else { c with slot1 := a }
def Sec.setUarea (c : Sec) (n : Nat) (a : Area) : Sec := if n = 0 then { c with uarea0 := a } else { c with uarea1 := a }

/-- The check of a firmware slot (R375). -/
def slotCheck (c : Sec) (n : Nat) : Nat := imageCheck (c.slot n).image (c.slot n).valid 1 (floors c)

/-- A boot failure code recorded for its slot (Table 13-5). -/
def Sec.setFail (c : Sec) (n code : Nat) : Sec := if n = 0 then { c with fail0 := code } else { c with fail1 := code }

/-- The floors raised before the preferred slot starts (R378): both copies of the record are written, one after the other. -/
def raiseFloors (c : Sec) (n : Nat) : Sec :=
  let img := (c.slot n).image
  let f := floors c
  if imgFlags img % 2 == 1 && (imgSvn img > f.svn || imgKey img > f.key) then
    let g : Floors := ⟨imgSvn img, imgKey img⟩
    { c with mono0 := g.copy, mono1 := g.copy, floorRaised := true }
  else c

/-- The policy record's values for the protection set-up (R380). -/
def policyOf (c : Sec) : Nat := c.policy.getD 0x0101

/-- The ROM starts the firmware of a slot in secure mode, which applies the policy record (R377, R379, R380). -/
def startSecure (c : Sec) (n : Nat) : Sec :=
  { c with phase := .secure, slotBoot := n, active := n, fwRun := .running, onTrial := false
           privSrc := policyOf c % 256, t1sWr := policyOf c / 256 % 256 }

/-- The slot checks of R377: the preferred slot, else the other one, else recovery. TRIAL is ignored and cleared (R382). -/
def bootSlots (c : Sec) : Sec :=
  let p := c.preferred
  let c0 := { c with trial := none }
  let e := slotCheck c0 p
  if e = 0 then startSecure (raiseFloors c0 p) p
  else
    let c1 := { c0.setFail p e with fallback := true }
    let e2 := slotCheck c1 (1 - p)
    if e2 = 0 then startSecure c1 (1 - p)
    else { c1.setFail (1 - p) e2 with phase := .recovery }

/-- The ROM from its first step (R377): known-answer tests, OTP, the monotonic record, FW_RECOVERY_L, the slots. -/
def bootRom (c : Sec) (t : BootTests) (recoveryLow : Bool) : Sec :=
  if !t.kat then { c with phase := .halted, kat := true }
  else if !t.otp || (!c.mono0.valid && !c.mono1.valid) then { c with phase := .halted }
  else if recoveryLow then { c with phase := .recovery, recovPin := true }
  else bootSlots c

/-! ## Cells found at boot (R22, R87 to R89) -/

/-- MGT_BLK_MAP fields. -/
def cellOk (m p : Nat) : Bool := mbit m p
def subPos (m : Nat) : Nat := bits m 21 17
def blkOk (m : Nat) : Bool := bit m 31

/-- MGT_BLK_MAP after the cell at physical position p has been lost: the stand-in takes its place, or the block leaves service
(R19, R21). -/
def loseCell (m p : Nat) : Nat :=
  let m1 := mclr m p
  if p = 16 then
    if subPos m = 31 then m1 else mclr m1 31
  else if subPos m = 31 && cellOk m 16 then setBits m1 21 17 p
  else mclr m1 31

/-- The bad rows of array a of a physical cell that the fuses, the row-fault log and the self-test give together (R87). -/
def rowsOf (s : State) (c : CellBoot) (a : Nat) : Nat :=
  spGet zeroNat s.sec.fuses ((c.blk * 17 + c.pos) * 4 + a) ||| spGet zeroNat (s.blk c.blk).rowLog (c.pos * 4 + a)
    ||| c.rows.getD a 0 % 2 ^ 33

/-- Rows that the self-test found bad entered in the row-fault log (DESIGN CHOICE, log entry 112). -/
def logRows (k : Blk) (c : CellBoot) : Sparse Nat :=
  (List.range 4).foldl (fun l a => spSet zeroNat l (c.pos * 4 + a) (spGet zeroNat l (c.pos * 4 + a) ||| c.rows.getD a 0 % 2 ^ 33)) k.rowLog

/-- One physical cell at boot (R22, R87 to R89): its repairs, ARR_ROW_REPAIR, and CELL_OK where it is unusable. -/
def bootCell (s : State) (c : CellBoot) : State :=
  if c.blk < 24 ∧ c.pos ≤ 16 then
    let ms := (List.range 4).map (rowsOf s c)
    let k := s.blk c.blk
    let lost := (c.faulty || !ms.all arrUsable) && cellOk k.map c.pos
    (s.setBlk c.blk { k with
      rowLog := logRows k c
      cells := spSet cellDflt k.cells c.pos (ms.map (fun m => if arrUsable m then repairArr m else arrDflt))
      map := if lost then loseCell k.map c.pos else k.map }).setRo (blkKey c.blk 2 c.pos) (repairWord ms)
  else s

/-- The physical cells that boot firmware finds something in: those of the self-test, of the fuses and of the row-fault log. -/
def bootList (s : State) (cells : List CellBoot) : List CellBoot :=
  let old := (s.sec.fuses.map (fun e => e.1 / 4)) ++ s.blks.flatMap (fun e => e.2.rowLog.map (fun r => e.1 * 17 + r.1 / 4))
  cells ++ ((old.eraseDups.map (fun n => ({ blk := n / 17, pos := n % 17, faulty := false, rows := [] } : CellBoot))).filter (fun c =>
    !cells.any (fun x => x.blk == c.blk && x.pos == c.pos)))

/-- Boot firmware goes over every cell (R87 to R89): every array starts unrepaired, then each cell in which something is found. -/
def bootCells (s : State) (cells : List CellBoot) : State :=
  let s1 := s.each (List.range 24) (fun s b => (List.range 17).foldl (fun s c => s.setRo (blkKey b 2 c) 0)
    (if (s.blk b).cells.isEmpty then s else s.setBlk b { s.blk b with cells := [] }))
  s1.each (bootList s1 cells) bootCell

/-! ## The boot rows -/

/-- Whether the firmware starts at this boot. -/
def booted (c : Sec) : Bool := c.phase == .secure

/-- What follows the ROM (R377): where it starts the firmware, the take is loaded into every unit (R329), L takes CUT_LS_INIT (Table 2-3), and
the 10BASE-T1S PHY waits for the lock (R379); in recovery the ROM brings up the PHY (R384). -/
def bootFrom (s : State) (c : Sec) : State :=
  let s1 := { s with sec := c }
  if booted c then
    let s2 := { s1 with mgt := { loadTake s1.mgt with phyOn := false } }
    (s2.each allUnits loadUnit).setRo (key 0x7080 1) (s2.live (key 0x7080 2))
  else { s1 with mgt := { s1.mgt with phyOn := c.phase == .recovery } }

/-- ALWAYS_ON_POWER_GOOD (R377, R392, R404): the strap is sampled, the tick count starts at 0, the ROM runs, and boots.
Layout entries of the take take effect when a region passes through OFFLINE (DESIGN CHOICE, log entry 105). -/
def execAlwaysOnPowerGood (strap : Nat) (tests : BootTests) (recoveryLow : Bool) (cells : List CellBoot) (s : State) :
    Host.Outcome State Fault Refusal :=
  .next (if s.pwr.supply != .charging then s
    else
      bootFrom (bootCells { s with ticks := 0, pwr := { s.pwr with supply := .on } } cells)
        (bootRom { s.sec with strap := strap % 8 } tests recoveryLow))

/-- SEC_BOOT_LOCK becomes 1 (R377, R379): secure mode ends, the 10BASE-T1S PHY and the PCIe core come up, the rails start; after a
trip or an overvoltage they stay off until the next cold boot (R394, R413). -/
def setLock (s : State) : State :=
  { s with sec := { s.sec with lock := true, phase := .locked }
           mgt := { s.mgt with phyOn := true, noBeacon := false, addrDup := false }
           pwr := { s.pwr with rails := if s.pwr.rails == .off && !s.pwr.coldWait then .starting else s.pwr.rails } }

/-- BOOT_LOCK_TIMEOUT (R379): the security unit sets the lock 10 ms after the firmware's start. -/
def execBootLockTimeout (s : State) : Host.Outcome State Fault Refusal :=
  .next (if s.sec.phase == .secure then setLock s else s)

/-- The check of a microcode area (R383). -/
def uareaCheck (c : Sec) (n : Nat) : Nat := imageCheck (c.uarea n).image (c.uarea n).valid 2 (floors c)

/-- Every block without microcode is out of service (R383). -/
def blocksOut (s : State) (b : Nat) : State := s.setBlk b { s.blk b with map := mclr (s.blk b).map 31 }

/-- Every block starts on a bank. -/
def blocksOnBank (n : Nat) (s : State) (b : Nat) : State := s.setBlk b { s.blk b with ubank := n }

/-- The PCIe core follows PERST_L from the lock on (R377): with the rails up, the link trains where PERST_L is already high. At which rate and
width is not stated, so whether CMD_PERF.07 counts it is free (R284; DESIGN CHOICE, log entry 128). -/
def linkAtRails (s : State) : State :=
  if s.cp.perst || !s.cp.pcieRef || s.cp.link then s
  else
    let x := s.fresh
    linkTrains x.2 (bit (Config.freeWord x.1).toNat 0)

/-- RAILS_IN_REGULATION (R383, R397): the link trains where PERST_L is high, both microcode areas are checked and copied; every block starts
on the recorded live bank, or on the other one with a fault record of cause 0x0C, or is out of service. -/
def execRailsInRegulation (s : State) : Host.Outcome State Fault Refusal :=
  .next (if s.pwr.rails != .starting then s
    else
      let c := s.sec
      let ok0 := uareaCheck c 0 == 0
      let ok1 := uareaCheck c 1 == 0
      let okLive := if c.ubank = 0 then ok0 else ok1
      let okOther := if c.ubank = 0 then ok1 else ok0
      let s0 := linkAtRails { s with pwr := { s.pwr with rails := .up } }
      let s1 := { s0 with flt := { s0.flt with ubank0 := ok0, ubank1 := ok1, usel := c.ubank } }
      if okLive then s1.each (List.range 24) (blocksOnBank c.ubank)
      else if okOther then
        let n := 1 - c.ubank
        let s2 := { s1 with sec := { c with ubank := n }, flt := { s1.flt with usel := n } }
        logFault (s2.each (List.range 24) (blocksOnBank n)) { level := 3, action := 0, cause := 0x0C }
      else s1.each (List.range 24) blocksOut)

/-- IDENTITY_KEY_READY (R385). -/
def execIdentityKeyReady (s : State) : Host.Outcome State Fault Refusal :=
  .next (if s.pwr.supply == .on && s.sec.phase != .halted then { s with sec := { s.sec with identity := true } } else s)

/-- The lanes of a port that is not enabled are DISABLED; a RETIRED one stays so (Table 9-6; DESIGN CHOICE, log entry 57). -/
def lanesOff (s : State) (p : Nat) : State :=
  s.each (List.range 4) (fun s l => if s.ro? (key 0x5031 (4 * p + l)) = 2 then s else s.setRo (key 0x5031 (4 * p + l)) 3)

/-- A port enabled in FAB_PORT_EN trains; another is DISABLED, with its lanes (R283). -/
def startPort (s : State) (p : Nat) : State :=
  if mbit (s.app (regOfPort p) (key 0x5000 2)) p then
    s.setPort p { s.port p with st := .training, since := s.ticks }
  else lanesOff (s.setPort p { s.port p with st := .disabled }) p

/-- MEMORY_TRAINING_DONE (R377): the data plane accepts work, and the enabled ports train. -/
def execMemoryTrainingDone (s : State) : Host.Outcome State Fault Refusal :=
  .next (if s.pwr.rails == .up && !s.pwr.trained then
      let s1 := { s with pwr := { s.pwr with trained := true } }
      s1.each (List.range 8) startPort
    else s)

end Sys2Proof.Machine
end

