-- ==== Sys2Proof/Machine/Security.lean ====
section
/-!
DEFINITION. Firmware update and restart (R347, R381, R382), attestation (R385 to R388), Link IDE (R389), and the effects of the
writes to the security entries (R390). Each write effect answers a status of Table 11-7 and the state.
-/

namespace Sys2Proof.Machine

/-- Status codes of Table 11-7 that a write effect can end with. -/
def stOk : Nat := 0
def stRange : Nat := 4

/-! ## Management firmware (R347, R381, R382) -/

/-- The firmware is restarted from slot `n`; shadows, takes, logs and the lock are held in hardware (R347). -/
def restartFw (s : State) (n : Nat) : State :=
  let s1 := ({ s with sec := { s.sec with active := n, fwRun := .restarting } }).count (kChipCnt 6) 1
  ({ s1 with mgt := { s1.mgt with rxq := [] } }).count (kDict 4) s.mgt.rxq.length

/-- A trial ends without confirmation: the previous slot starts, TRIAL is cleared, a record of cause 0x10 is written (R382). -/
def endTrial (s : State) : State :=
  let s1 := restartFw { s with sec := { s.sec with trial := none, onTrial := false } } (1 - s.sec.active)
  logFault s1 { level := 3, action := 0, cause := 0x10 }

/-- FIRMWARE_HANG (R345, R347): no heartbeat for 100 ms. -/
def execFirmwareHang (s : State) : Host.Outcome State Fault Refusal :=
  .next (if s.sec.fwRun != .running || !s.sec.lock then s
    else if s.sec.onTrial then endTrial s
    else logFault (restartFw s s.sec.active) { level := 3, action := 0, cause := 0x10 })

/-- FIRMWARE_FALLBACK (R347, R382): the restarted slot has sent no heartbeat within 200 ms, and the other slot starts. -/
def execFirmwareFallback (s : State) : Host.Outcome State Fault Refusal :=
  .next (if s.sec.fwRun != .restarting then s
    else if s.sec.onTrial then endTrial s
    else restartFw s (1 - s.sec.active))

/-- FIRMWARE_HEARTBEAT (R347): the first heartbeat ends the restart. Only an image that passes every check is started (R375). -/
def execFirmwareHeartbeat (s : State) : Host.Outcome State Fault Refusal :=
  .next (if s.sec.fwRun == .restarting && slotCheck s.sec s.sec.active == 0 then
      { s with sec := { s.sec with fwRun := .running, fwSts := if s.sec.fwSts = 5 then 0 else s.sec.fwSts } }
    else s)

/-- TRIAL_CONFIRM (R382): a TRIAL slot that has run 10 s becomes preferred. -/
def execTrialConfirm (s : State) : Host.Outcome State Fault Refusal :=
  .next (if s.sec.onTrial && s.sec.fwRun == .running then
      { s with sec := { s.sec with preferred := s.sec.active, trial := none, onTrial := false } }
    else s)

/-- Whether a firmware update operation is under way: VERIFYING, WRITING or SWITCHING (R381). -/
def fwBusy (c : Sec) : Bool := c.fwSts == 1 || c.fwSts == 2 || c.fwSts == 5

/-- SEC_FW_CMD 0x01 VERIFY (R381): the check of the staged image begins, state VERIFYING. -/
def fwVerify (s : State) : Nat × State :=
  if fwBusy s.sec then (stRange, s) else (stOk, { s with sec := { s.sec with fwSts := 1 } })

/-- The slots that an update writes: the one that is not running, both in recovery (R381, R384). -/
def fwTargets (c : Sec) : List Nat := if c.phase == .recovery then [0, 1] else [1 - c.active]

/-- The check ends (R381): a failure sets FAILED and the code and leaves the slots alone; a pass begins the write, state WRITING, with the
written slots not VALID. -/
def fwChecked (c : Sec) : Sec :=
  let code := imageCheck c.staging true 1 (floors c)
  if code = 0 then
    { (fwTargets c).foldl (fun c n => c.setSlot n { c.slot n with valid := false }) c with fwSts := 2, fwInto := fwTargets c }
  else { c with fwSts := 4, fwFail := code }

/-- The write ends (R381): the slots that it began on hold the image, VALID last, state WRITTEN. -/
def fwWritten (c : Sec) : Sec :=
  { c.fwInto.foldl (fun c n => c.setSlot n { image := c.staging, valid := true }) c with fwSts := 3, fwInto := [] }

/-- SEC_FW_VERIFY_DONE (R381, R384): what is under way ends, the check or the write that follows it (DEDUCED, log entry 17). -/
def execSecFwVerifyDone (s : State) : Host.Outcome State Fault Refusal :=
  .next (if s.sec.fwSts = 1 then { s with sec := fwChecked s.sec }
    else if s.sec.fwSts = 2 then { s with sec := fwWritten s.sec }
    else s)

/-- The restart of the ROM out of recovery: slot 0 is preferred, FW_RECOVERY_L is ignored, and the module boots (R384). -/
def recoverySwitch (s : State) : State :=
  bootFrom s (bootRom { s.sec with preferred := 0, recovPin := false, fail0 := 0, fail1 := 0, fallback := false, fwSts := 0 }
    { kat := true, otp := true } false)

/-- SEC_FW_CMD 0x02 SWITCH (R381, R384). -/
def fwSwitch (s : State) : Nat × State :=
  if fwBusy s.sec then (stRange, s)
  else if s.sec.phase == .recovery then (stOk, recoverySwitch s)
  else
    let o := 1 - s.sec.active
    if !(s.sec.slot o).valid || s.sec.trial.isSome then (stRange, s)
    else (stOk, restartFw { s with sec := { s.sec with trial := some o, onTrial := true, fwSts := 5 } } o)

/-- SEC_FW_CMD 0x03 CLEAR (R381). -/
def fwClear (s : State) : Nat × State :=
  if fwBusy s.sec then (stRange, s) else (stOk, { s with sec := { s.sec with staging := [] } })

/-- What a write of SEC_FW_CMD does (R381). -/
def fwOperation (s : State) (v : Nat) : Nat × State :=
  if v = 1 then fwVerify s else if v = 2 then fwSwitch s else if v = 3 then fwClear s else (stRange, s)

/-- A write of SEC_FW_CMD (R381): one that is carried out is what the entry reads as from then on (R312, R323). -/
def fwCommand (s : State) (v : Nat) : Nat × State :=
  let r := fwOperation s v
  if r.1 = stOk then (stOk, { r.2 with sec := { r.2.sec with fwCmd := v } }) else r

/-- A write of SEC_BOOT_LOCK while the lock is 0 (R316): 1 sets it, 0 has no effect. -/
def bootLockWrite (s : State) (v : Nat) : Nat × State :=
  if v = 1 then (stOk, setLock s) else if v = 0 then (stOk, s) else (stRange, s)

/-- A write of SEC_POLICY_NEXT (R380): stored at once, within the ranges of Table 11-2. -/
def policyNext (s : State) (v : Nat) : Nat × State :=
  if v % 256 < 4 && v / 256 < 2 then (stOk, { s with sec := { s.sec with policy := some v } }) else (stRange, s)

/-- A write of SEC_IDE_CTL (R389, R390): enabling needs every key written since the last link down. -/
def ideControl (s : State) (v : Nat) : Nat × State :=
  if v > 1 then (stRange, s)
  else if v = 1 && !((List.range 6).all (fun k => s.sec.ideFresh.contains k)) then (stRange, s)
  else (stOk, { s with sec := { s.sec with ideOn := v == 1 } })

/-! ## Status words -/

def phaseCode : Phase → Nat
  | .rom => 0 | .secure => 1 | .locked => 2 | .recovery => 3 | .halted => 4

/-- SEC_BOOT_STS (Table 13-5). -/
def bootSts (c : Sec) : Nat :=
  pack [(28, phaseCode c.phase), (27, c.slotBoot), (26, b2n c.fallback), (25, b2n c.recovPin), (24, b2n c.floorRaised),
    (12, c.fail0), (8, c.fail1), (7, b2n c.kat)]

/-- SEC_FLOOR (Table 13-4). -/
def secFloor (c : Sec) : Nat := pack [(8, (floors c).key), (0, (floors c).svn)]

/-- SEC_FW_SLOT of a slot (Table 13-4). -/
def fwSlotWord (c : Sec) (n : Nat) : Nat :=
  let i := (c.slot n).image
  pack [(63, b2n (c.slot n).valid), (62, b2n (c.preferred == n)), (61, b2n (c.trial == some n)), (40, imgKey i),
    (32, imgSvn i), (0, imgVersion i)]

/-! ## Attestation (R387, R388) -/

/-- A byte string of exactly `n` bytes, filled up with zeros. -/
def fitTo (n : Nat) (bs : List Byte) : List Byte := bs.take n ++ fill (n - bs.length) 0

/-- A measurement block (Table 13-3). -/
def measBlock (s : State) (i : Nat) : List Byte :=
  let digest (a : Area) : List Byte := if a.valid then fitTo 64 (imgDigest a.image) else fill 64 0
  if i = 1 then Config.romDigest.toList
  else if i = 2 then fitTo 64 (imgDigest (s.sec.slot s.sec.active).image)
  else if i = 3 then digest (s.sec.uarea s.flt.usel)
  else if i = 4 then
    leBytes 2 (secFloor s.sec) ++ leBytes 4 (bootSts s.sec) ++ leBytes 1 (b2n s.sec.lock) ++ leBytes 1 s.sec.privSrc
      ++ leBytes 1 s.sec.t1sWr ++ fill 7 0
  else if i = 5 then
    leBytes 4 s.mgt.liveNum ++ leBytes 4 (s.ro? (key 0x2010 1)) ++ leBytes 1 (s.ro? (key 0x2010 2)) ++ fill 7 0
  else digest (s.sec.slot (1 - s.sec.active))

/-- The certificate chain of slot 0 (R386). -/
def certChain : List Byte := Config.certificate 0 ++ Config.certificate 1 ++ Config.certificate 2

/-- Whether the responder is reached: the lock is set and the link is up (R379, R387). -/
def doeUp (s : State) : Bool := s.sec.lock && s.cp.link && s.pwr.supply == .on

/-- An SPDM response leaves through the DOE mailbox; response codes are SPDM's own (PRESUMED, log entry 16). -/
def spdmReply (s : State) (code : Nat) (bs : List Byte) : State := if doeUp s then s.emit (.spdm code bs) else s

/-- ERROR responses: InvalidRequest and ResponseNotReady. -/
def spdmInvalid (s : State) : State := spdmReply s 0x7F [0x01]
def spdmNotReady (s : State) : State := spdmReply s 0x7F [0x42]

/-- GET_VERSION (R387): version 1.2. -/
def execGetVersion (s : State) : Host.Outcome State Fault Refusal := .next (spdmReply s 0x04 [0x00, 0x12])

/-- GET_CAPABILITIES (R387): CERT_CAP, CHAL_CAP, MEAS_CAP with signatures. -/
def execGetCapabilities (s : State) : Host.Outcome State Fault Refusal :=
  .next (spdmReply s 0x61 (leBytes 4 (pack [(1, 1), (2, 1), (3, 2)])))

/-- One extended algorithm of an ALGORITHMS response: the PCI-SIG registry, Knalia's vendor ID, the algorithm's identifier (R387). The registry's
number and the fields' order are SPDM's (PRESUMED, log entry 16). -/
def extAlgorithm (alg : Nat) : List Byte := leBytes 1 3 ++ leBytes 2 Config.vendorId.toNat ++ leBytes 2 alg

/-- An ALGORITHMS response (R387): no base asymmetric and no base hash algorithm, then the extended asymmetric and the extended hash algorithms
selected, each list after its count. -/
def algorithms (asym hash : List Nat) : List Byte :=
  leBytes 4 0 ++ leBytes 4 0 ++ leBytes 1 asym.length ++ leBytes 1 hash.length ++ asym.flatMap extAlgorithm ++ hash.flatMap extAlgorithm

/-- NEGOTIATE_ALGORITHMS (R387): Falcon-1024 (0x0001) and SHAKE256 (0x0002) where the requester selects both, else nothing. -/
def execNegotiateAlgorithms (asym hash : Bool) (s : State) : Host.Outcome State Fault Refusal :=
  .next (if !doeUp s then s
    else if asym && hash then
      spdmReply { s with sec := { s.sec with algos := true } } 0x63 (algorithms [0x0001] [0x0002])
    else spdmReply { s with sec := { s.sec with algos := false } } 0x63 (algorithms [] []))

/-- GET_DIGESTS (R387): the digest of the chain in certificate slot 0. -/
def execGetDigests (s : State) : Host.Outcome State Fault Refusal :=
  .next (if s.sec.algos then spdmReply s 0x01 (Config.shake256 certChain 64) else spdmInvalid s)

/-- GET_CERTIFICATE (R387): a portion of the chain of slot 0. -/
def execGetCertificate (slot off len : Nat) (s : State) : Host.Outcome State Fault Refusal :=
  .next (if s.sec.algos && slot == 0 && off ≤ certChain.length then spdmReply s 0x02 ((certChain.drop off).take len)
    else spdmInvalid s)

/-- CHALLENGE (R387): signed with the identity key, or ResponseNotReady until the key is ready. -/
def execChallenge (slot : Nat) (nonce : List Byte) (s : State) : Host.Outcome State Fault Refusal :=
  .next (if !s.sec.algos || slot != 0 then spdmInvalid s
    else if !s.sec.identity then spdmNotReady s
    else
      let body := Config.shake256 certChain 64 ++ nonce
      spdmReply s 0x03 (body ++ Config.falconSign body))

/-- A measurement block in DMTF measurement format (R388): its index, the DMTF specification, the size, the value's type with bit 7 for the
raw kind of Table 13-3, the value's size, the value (PRESUMED, log entry 16). -/
def dmtfBlock (s : State) (i : Nat) : List Byte :=
  let v := measBlock s i
  let raw := i == 4 || i == 5
  leBytes 1 i ++ leBytes 1 1 ++ leBytes 2 (v.length + 3) ++ leBytes 1 (pack [(7, b2n raw), (0, (Config.measType i).toNat)])
    ++ leBytes 2 v.length ++ v

/-- The measurement record of some blocks (R388): their count, the record's length, the blocks. -/
def measRecord (s : State) (is : List Nat) : List Byte :=
  let r := is.flatMap (dmtfBlock s)
  leBytes 1 is.length ++ leBytes 3 r.length ++ r

/-- GET_MEASUREMENTS (R387, R388): the block asked for (0: their number, 0xFF: all six), from one instant, signed if asked. -/
def execGetMeasurements (index : Nat) (sgn : Bool) (nonce : List Byte) (s : State) : Host.Outcome State Fault Refusal :=
  let body : List Byte :=
    if index = 0 then [6] else measRecord s (if index = 0xFF then [1, 2, 3, 4, 5, 6] else [index])
  .next (if !s.sec.algos || (index > 6 && index != 0xFF) then spdmInvalid s
    else if sgn && !s.sec.identity then spdmNotReady s
    else if sgn then spdmReply s 0x60 (body ++ nonce ++ Config.falconSign (body ++ nonce))
    else spdmReply s 0x60 body)

end Sys2Proof.Machine
end

