-- ==== Sys2Proof/Machine/Space.lean ====
section
/-!
DEFINITION. What is free in bonded SRAM and in backing memory (R118, R121, R126, R131, R133, R415): the reserved ranges, the ranges that
segments and record pages hold, first-fit search.
-/

namespace Sys2Proof.Machine

/-- A range in units: first unit and length. -/
abbrev Span := Nat × Nat

/-- Physical address of a logical cell's slice (R121). -/
def sliceBase (c : Nat) : Nat := 0x8000000000 + c * 0x1000000

/-- MEM_LAYOUT_LIVE of a region (R132): pool slots and workspace blocks in force. -/
def layoutLive (s : State) (r : Nat) : Nat := s.ro? (key 0x6002 (0x10 + r))
def poolSlots (s : State) (r : Nat) : Nat := if r < 4 then layoutLive s r / 256 else 0
def wsBlocks (s : State) (r : Nat) : Nat := layoutLive s r % 256

/-- The reserved ranges of cell c in 64 KiB units under a layout of `p` pool slots and `w` workspace blocks (Table 5-4). -/
def reservedOf (c p w : Nat) : List Span :=
  let i := c % 96
  (128 - p, p) :: ((if i = 0 then [(128 - p - 32, 32), (128, 128)] else [])
    ++ (if i = 16 then [(128, 128)] else []) ++ (if i / 16 + w ≥ 6 then [(128, 128)] else []))

/-- Bytes of its own data that a segment holds in each of its cells. -/
def segCellBytes (g : Seg) : Nat := if g.kind = 0 then g.size * 64 else g.span * 65536

/-- Numbers of 64 KiB units, rounded up. -/
def units (n : Nat) : Nat := (n + 65535) / 65536

/-- Bytes of scales beside `n` data bytes of a segment (R126, R129); none but in FP8, FP6 and FP4. -/
def scaleBytes (g : Seg) (n : Nat) : Nat := if isNarrow (segFmt g) then n / blockBytes (segFmt g) * 32 else 0

/-- The ranges that a segment in bonded SRAM holds in each of its cells. A REDUCE segment holds none: it binds pool slots (R134;
DEDUCED, log entry 18). -/
def segSpans (g : Seg) : List Span :=
  if !g.valid || g.tier || g.kind == 2 then []
  else (g.base / 65536, units (segCellBytes g)) ::
    (if isNarrow (segFmt g) then [(g.sbase / 65536, units (scaleBytes g (segCellBytes g)))] else [])

/-- Whether a segment names a cell. -/
def segHas (g : Seg) (c : Nat) : Bool := g.cell0 ≤ c && c < g.cell0 + (if g.kind = 0 then 1 else g.ncell)

/-- The page moves under way (R138). -/
def pageMoves (s : State) : List (Nat × Nat) := s.back.pmoves.filter (fun m => (s.dir m.1).valid && (s.dir m.1).mig)

/-- The occupied ranges of a cell in units: reserved ranges, segments, record pages, the destinations of page moves. -/
def cellUsed (s : State) (c : Nat) : List Span :=
  reservedOf c (poolSlots s (c / 96)) (wsBlocks s (c / 96))
    ++ (s.segs.filter (fun e => segHas e.2 c)).flatMap (fun e => segSpans e.2)
    ++ (s.dirs.filter (fun e => e.2.valid && !e.2.tier && (e.2.addr * 2 ^ 18 - 0x8000000000) / 0x1000000 == c)).map (fun e =>
        ((e.2.addr * 2 ^ 18 - 0x8000000000) % 0x1000000 / 65536, 4))
    ++ ((pageMoves s).filter (fun m => 0x8000000000 ≤ m.2 && (m.2 - 0x8000000000) / 0x1000000 == c)).map (fun m =>
        ((m.2 - 0x8000000000) % 0x1000000 / 65536, 4))

/-- Whether two ranges share a unit. -/
def overlaps (a b : Span) : Bool := a.1 < b.1 + b.2 && b.1 < a.1 + a.2

/-- Whether a range is free among occupied ones. -/
def freeIn (used : List Span) (a : Span) : Bool := used.all (fun b => !overlaps a b)

/-- The lowest multiple of `step` from which `n` units are free among the occupied ranges, below `limit`: the candidates are the
start and the ends of the occupied ranges, rounded up. -/
def firstFit (used : List Span) (step n limit : Nat) : Option Nat :=
  let cands := 0 :: used.map (fun b => (b.1 + b.2 + step - 1) / step * step)
  (cands.filter (fun a => a + n ≤ limit && freeIn used (a, n))).foldl
    (fun m a => match m with
      | none => some a
      | some b => some (min a b)) none

/-- Free bonded SRAM in 64 KiB units (MEM_FREE.00). -/
def freeSram (s : State) : Nat :=
  (List.range 384).foldl (fun a c => a + (256 - (cellUsed s c).foldl (fun t b => t + b.2) 0)) 0

/-- The ranges of backing memory in use, in 256 KiB units (R415). -/
def dramUsed (s : State) : List Span :=
  let rnd (r : Nat × Nat) : Span := (r.1 / 2 ^ 18, (r.2 + 2 ^ 18 - 1) / 2 ^ 18)
  (s.segs.flatMap (fun e => (segDram e.2).map rnd))
    ++ (s.dirs.filter (fun e => e.2.valid && e.2.tier)).map (fun e => (e.2.addr, 1))
    ++ ((pageMoves s).filter (fun m => m.2 < 0x8000000000)).map (fun m => (m.2 / 2 ^ 18, 1))

/-- Whether a granule holds any part of a placement (R415). -/
def granuleUsed (s : State) (g : Nat) : Bool := !freeIn (dramUsed s) (g * 1024, 1024)

/-- Whether a granule's device location lies in a package that takes no allocation: withdrawn, or being emptied (R143, R145). -/
def granuleGone (s : State) (g : Nat) : Bool := mbit s.back.gone (devOf s g / 128)

/-- Whether a package has been withdrawn: its channels are RETIRED or FAILED (Table 5-7). -/
def pkgLost (s : State) (p : Nat) : Bool := s.ro? (key 0x6020 (4 * p)) == 4 || s.ro? (key 0x6020 (4 * p)) == 5

/-- Free granules (MEM_FREE.01): those that hold no placement and are not withdrawn. -/
def freeGranules (s : State) : Nat :=
  ((List.range 2048).filter (fun g => !pkgLost s (devOf s g / 128) && !granuleUsed s g)).length

/-- The occupied ranges for a new placement, in 256 KiB units: placements, withdrawn granules, granules promised to a move (R143), and, with
a preferred region, the granules of other regions. -/
def dramBlocked (s : State) (pref : Option Nat) : List Span :=
  dramUsed s ++ ((List.range 2048).filter (fun g =>
    granuleGone s g || s.back.moves.any (fun m => m.2 == g) || (match pref with
      | some r => regOfPkg (devOf s g / 128) != r
      | none => false))).map (fun g => (g * 1024, 1024))

/-- A placement in LPDDR5X of `n` bytes for a preferred region (R415): its physical address. -/
def dramPlace (s : State) (r n : Nat) : Option Nat :=
  let u := (n + 2 ^ 18 - 1) / 2 ^ 18
  match firstFit (dramBlocked s (some r)) 1 u (2048 * 1024) with
  | some a => some (a * 2 ^ 18)
  | none => (firstFit (dramBlocked s none) 1 u (2048 * 1024)).map (· * 2 ^ 18)

end Sys2Proof.Machine
end

