-- ==== Sys2Proof/Machine/Mgmt.lean ====
section
/-!
DEFINITION. The Parameter Dictionary (R311 to R334): what every entry reads as, the checks of an operation in their order, the effect
of every write, DESCRIBE.
-/

namespace Sys2Proof.Machine

/-! ## What entries read as -/

/-- Domains in state ACTIVE (MGT_DOM_ACTIVE). -/
def activeDoms (s : State) : Nat :=
  (List.range 16).foldl (fun m d => if (s.dom d).st == .active then mset m d else m) 0

/-- CFG_CRC_FAULT (R330). -/
def crcFault (s : State) : Bool := s.ro? (key 0x2010 2) != 0

/-- MGT_STATUS (Table 11-3). -/
def mgtStatus (s : State) : Nat :=
  let chan := (List.range 64).map (fun c => s.ro? (key 0x6020 c))
  pack [(7, b2n (s.mgt.nvState == 2)), (6, b2n (crcFault s)), (5, b2n s.mgt.noBeacon), (4, b2n s.mgt.addrDup),
    (3, b2n ((List.range 4).any (fun r => !online s r))), (2, b2n ((List.range 24).any (fun b => !blkOk (s.blk b).map))),
    (1, b2n (chan.any (fun c => c == 4 || c == 5 || c == 6))), (0, b2n (s.flt.head > s.flt.ack))]

/-- MGT_CUE_PEND: a shadow of the group differs from its live value. -/
def cuePend (s : State) : Nat :=
  let ks := ((s.mgt.shadow ++ s.mgt.live).map (·.1)).filter (fun k => s.shadow k != s.live k)
  (List.range 12).foldl (fun m g => if ks.any (fun k => mbit (grpOf k) g) then mset m g else m) 0

/-- MGT_CUE_APPLY: the group's last cue is not yet applied by every unit that it reaches, units of a region that resets or is OFFLINE left
out (R325). -/
def cueApplyMask (s : State) : Nat := (s.mgt.apply.filter (fun p => unitAlive s p.2)).foldl (fun m p => mset m p.1) 0

/-- MEM_FREE.01 counts while memory is placed. GRD_SLOTS_FREE of a region. -/
def grdFree (s : State) (r : Nat) : Nat := 256 - (s.grd r).slots.length

/-- GRD_STATE of a region (Table 7-7). -/
def grdState (s : State) (r : Nat) : Nat :=
  let feeding := (s.grd r).slots.any (fun e => e.2.feeding)
  (if feeding then 1 else 0) + (if (s.grd r).run.isSome then 2 else 0)

/-- FAB_PORT_STATE (Table 9-7). -/
def portStateNat : PState → Nat
  | .disabled => 0 | .training => 1 | .up4 => 2 | .up3 => 3 | .hold => 4 | .down => 5

/-- FLT_DUMP_STS of a slot (Table 12-13). -/
def dumpSts (d : Dump) : Nat :=
  pack [(63, b2n d.valid), (62, b2n d.held), (60, d.region), (53, d.incomplete), (0, d.recNo)]

/-- Values that the dictionary forms from state held elsewhere, by index and subindex. -/
def derived (s : State) (i sub : Nat) : Option Nat :=
  if 0x4000 ≤ i ∧ i < 0x4400 then
    let r := (i - 0x4000) / 0x100
    let o := i % 0x100
    if o = 0 then some (rstateNat (s.reg r).st)
    else if o = 1 then some (regionUse s r)
    else if 0x10 ≤ o ∧ o < 0x70 then
      let b := 6 * r + o / 0x10 - 1
      let f := o % 0x10
      if f = 0 then some (s.blk b).map
      else if f = 6 then some (seqState (s.blk b))
      else if f = 9 ∧ sub = 0 then some (s.blk b).wdt
      else none
    else none
  else if i = 0x1001 then some Config.mac.toNat
  else if i = 0x2000 then
    if sub = 0 then some s.mgt.liveNum else if sub = 1 then some s.mgt.prevNum else if sub = 3 then some s.mgt.takeSrc
    else if sub = 4 then some s.mgt.nvState else none
  else if i = 0x2001 then if sub = 1 then some (cuePend s) else if sub = 2 then some (cueApplyMask s) else none
  else if i = 0x3000 then
    if sub = 3 then some (stepInForce s) else if sub = 4 then some s.pwr.nGov else if sub = 5 then some s.pwr.nTherm else none
  else if i = 0x3001 then
    some (if sub = 0 then s.pwr.pIn.toNat else if sub = 1 then s.pwr.uIn.toNat else s.pwr.iIn.toNat)
  else if i = 0x3002 then some (pwrSts s)
  else if i = 0x3020 ∧ sub < 5 then some ((s.pwr.tj[sub]?).getD 0).toNat
  else if i = 0x5030 then some (portStateNat (portShown s sub))
  else if i = 0x6030 then some (if sub = 0 then freeSram s else freeGranules s)
  else if i = 0x7010 then some (grdFree s sub)
  else if i = 0x7011 then some (grdState s sub)
  else if i = 0x8000 then if sub = 0 then some (mgtStatus s) else if sub = 2 then some (activeDoms s) else none
  else if i = 0x8100 ∧ sub = 0 then some (s.sec.strap + 1)
  else if 0x8210 ≤ i ∧ i < 0x8228 ∧ sub = 1 then some (s.blk (i - 0x8210)).traceN
  else if i = 0x9000 ∧ sub = 4 then some s.flt.clapSeq
  else if i = 0x9010 ∧ sub = 0 then some s.flt.head
  else if 0x9100 ≤ i ∧ i < 0x9104 ∧ sub = 1 then some (dumpSts (s.dump (i - 0x9100)))
  else if i = 0x9200 ∧ sub = 2 then some s.flt.usts
  else if i = 0x9201 then some (imgVersion (s.sec.uarea (s.blk sub).ubank).image)
  else if i = 0xA000 then
    some (if sub = 0 then s.sec.privSrc else if sub = 1 then s.sec.t1sWr else b2n s.sec.lock)
  else if i = 0xA020 then some (secFloor s.sec)
  else if i = 0xA030 then some (bootSts s.sec)
  else if i = 0xA040 ∧ sub = 1 then some s.sec.fwCmd
  else if i = 0xA040 ∧ sub = 2 then some (pack [(8, s.sec.fwFail), (0, s.sec.fwSts)])
  else if i = 0xA041 then some (if sub < 2 then fwSlotWord s.sec sub else s.sec.active)
  else if i = 0xA051 then some (b2n s.sec.ideOn)
  else if i = 0xA060 then some (policyOf s.sec)
  else none

/-- A byte image of fixed-size numbers. -/
def numBytes (w : Nat) (ns : List Nat) : List Byte := ns.flatMap (leBytes w)

/-- FLT_LOG_DATA (R351): record n lies at offset 64 × (n mod 256). -/
def logBytes (s : State) : List Byte := numBytes 64 ((List.range 256).map (spGet zeroNat s.flt.log))

/-- CMD_TRACE_RING (R177). -/
def traceBytes (s : State) (b : Nat) : List Byte := numBytes 16 ((List.range 256).map (spGet zeroNat (s.blk b).trace))

/-- A part of a slate whose layout within its range the spec does not give: free bytes (DESIGN CHOICE, log entry 19). -/
def freeBytes (use seed n : Nat) : List Byte := (List.range n).map (fun i => Config.freeByte use (seed + i))

/-- `n` bytes of a part of a slate that holds the numbers `held`. -/
def slatePart (part : Nat) (held : List Nat) (n : Nat) : List Byte := (List.range n).map (Config.slateByte part held)

/-- The 4 KiB image of a slate (Table 12-3): 17 parts of 64 bytes for the physical positions, the Cutter, 16 parts of 32 bytes for the block
unit, the router. Table 12-3 names what each part holds but not where in the part (DESIGN CHOICE, log entry 19). -/
def slateBytes (b : Nat) (k : Slate) : List Byte :=
  let part := fun (n : Nat) => (bits k.hdr 447 416 * 24 + b) * 64 + n
  leBytes 64 k.hdr ++ fitTo 128 (numBytes 4 k.heads)
    ++ (List.range 17).flatMap (fun c => slatePart (part c) (k.cells.getD c []) 64)
    ++ slatePart (part 17) k.cutter 256
    ++ (List.range 16).flatMap (fun i => slatePart (part (18 + i)) (k.unit[i]?).toList 32)
    ++ fitTo 1024 (k.pairs.flatMap (fun p => leBytes 2 p.1 ++ leBytes 2 p.2))
    ++ slatePart (part 34) [] 768 ++ fill 256 0

/-- STR and BLOB entries (Table 11-1) as byte strings. Keys read as zero bytes (R390). -/
def blobOf (s : State) (i sub : Nat) : List Byte :=
  if i = 0x1000 then if sub = 0 then ("UDK-4506-LC".toList.map (fun c => BitVec.ofNat 8 c.toNat)) else Config.serial
  else if i = 0x1010 then Config.certificate sub
  else if i = 0x1020 then measBlock s sub
  else if 0x4000 ≤ i ∧ i < 0x4400 then
    let b := 6 * ((i - 0x4000) / 0x100) + i % 0x100 / 0x10 - 1
    slateBytes b (s.blk b).slate
  else if 0x8210 ≤ i ∧ i < 0x8228 then traceBytes s (i - 0x8210)
  else if i = 0x9011 then logBytes s
  else if 0x9100 ≤ i ∧ i < 0x9104 then (s.dump (i - 0x9100)).bytes
  else if i = 0xA010 then (Config.rootKeyDigest sub).toList
  else if i = 0xA040 then s.sec.staging
  else if i = 0xA050 then fill (spGet (fun _ => []) s.sec.ideKeys sub).length 0
  else []

/-- The live value of a fixed-width entry: a derived one, a stored RO value, or the live value of a cue-applied entry. -/
def liveValue (s : State) (e : Ent) (i sub : Nat) : Nat :=
  if e.acc = 2 then 0
  else match derived s i sub with
    | some v => v
    | none => if e.acc == 1 then s.live (key i sub) else s.ro? (key i sub)

/-- A value in its type's width, as bytes. -/
def typeBytes (ty v : Nat) : List Byte := leBytes (tyWidth ty) v

/-! ## Privilege (R314 to R317) -/

/-- The class of a master. -/
inductive Master where
  | secure | privileged | ordinary
  deriving DecidableEq, Repr

/-- The class of a request's master (R314). -/
def masterOf (s : State) : Source → Master
  | .secure => if s.sec.phase == .rom || s.sec.phase == .secure then .secure else .ordinary
  | .mailbox => if mbit s.sec.privSrc 0 then .privileged else .ordinary
  | .t1s _ _ multicast => if mbit s.sec.privSrc 1 && !multicast then .privileged else .ordinary

/-- Whether an address is protected (R315). -/
def isProtected (s : State) (i sub : Nat) : Bool :=
  (0xA000 ≤ i && i < 0xB000) || (s.sec.lock && 0xF000 ≤ i)
    || (match entryAt i sub with
        | some e => e.acc == 3 || e.acc == 4
        | none => false)

/-- The master class an operation counts with: every master is ORDINARY in the vendor test range after the lock (R317). -/
def classAt (s : State) (src : Source) (i : Nat) : Master :=
  if s.sec.lock && 0xF000 ≤ i then .ordinary else masterOf s src

/-- An entry of the protection set-up (Table 11-2). -/
def isSetup (i sub : Nat) : Bool := i == 0xA000 && sub < 3

/-- Whether a request arrived over the 10BASE-T1S segment. -/
def isT1s : Source → Bool
  | .t1s _ _ _ => true
  | _ => false

/-! ## Ranges (R323) -/

/-- Whether a coordinate lies in a box given by its origin and extent minus one (DEDUCED, log entry 90). -/
def inBox1 (o e c sh : Nat) : Bool :=
  let f := fun (x : Nat) => bits x (sh + 3) sh
  f o ≤ f c && f c ≤ f o + f e

/-- Whether coordinate c lies in the box of origin o and extent e (R264). -/
def inBox (o e c : Nat) : Bool := inBox1 o e c 0 && inBox1 o e c 4 && inBox1 o e c 8

/-- The greatest power of two not above a positive FP32 pattern (R53). -/
def roundLs (v : Nat) : Nat := (floorPow2 (BitVec.ofNat 32 v)).toNat

/-- Rules between entries and rules that the range alone does not express: reserved bits, boxes, region states, scale bounds. -/
def rulesHold (s : State) (i sub v : Nat) : Bool :=
  if i = 0x3010 ∧ sub = 1 then v = 0 || v ≥ 1400
  else if i = 0x5001 then v < 2 ^ 16 && bits v 14 12 == 0
  else if 0x5010 ≤ i ∧ i < 0x5014 then
    let o := if sub = 0 then v else s.shadow (key i 0)
    let e := if sub = 1 then v else s.shadow (key i 1)
    let t := if sub = 2 then v else s.shadow (key i 2)
    sub != 2 || inBox o e t
  else if i = 0x5020 then v ≤ 3 || v = 0xFF
  else if i = 0x5032 then (v / 256 = 1 || v / 256 = 2) && v % 256 < 32
  else if i = 0x6023 then (v / 256 = 1 || v / 256 = 2) && v % 256 < 64
  else if i = 0x8200 then bits v 30 29 == 0
  else if i = 0x9000 ∧ sub = 2 then v % 16 == 15 && v < 512
  else if i = 0x9030 then
    let st := (s.reg sub).st
    if v = 1 then st == .online
    else if v = 2 then st == .offline
    else if v = 3 || v = 4 then st == .online || st == .draining
    else false
  else true

/-! ## Effects of writes -/

/-- FLT_LOG_ACK (R351). -/
def logAck (s : State) (v : Nat) : Nat × State :=
  if v > s.flt.head then (stRange, s) else (stOk, { s with flt := { s.flt with ack := max s.flt.ack v } })

/-- FLT_DUMP_REL (R353): a slot being written is not released. -/
def dumpRelease (s : State) (n v : Nat) : Nat × State :=
  let d := s.dump n
  if v != 1 || (d.held && !d.valid) then (stRange, s) else (stOk, s.setDump n { d with held := false })

/-- FLT_CLAP_CMD (R349). -/
def clapCommand (s : State) (v : Nat) : Nat × State := if v = 1 then (stOk, strike s 8) else (stRange, s)

/-- Whether a microcode operation is under way. -/
def ucodeBusy (s : State) : Bool := s.flt.usts == 1 || s.flt.usts == 3

/-- FLT_UCODE_CMD 0x01 VERIFY (R369). -/
def ucodeVerify (s : State) : Nat × State :=
  if ucodeBusy s then (stRange, s) else (stOk, { s with flt := { s.flt with usts := 1 } })

/-- FLT_UCODE_CMD 0x02 ARM: after VERIFIED (R369). -/
def ucodeArm (s : State) : Nat × State :=
  if s.flt.usts != 2 then (stRange, s) else (stOk, { s with flt := { s.flt with usts := 3 } })

/-- FLT_UCODE_CMD 0x03 REVERT: the other bank at the next cue of group 8 (R369); it needs a bank that passed its check. -/
def ucodeRevert (s : State) : Nat × State :=
  let ok := if s.flt.usel = 0 then s.flt.ubank1 else s.flt.ubank0
  if ucodeBusy s || !ok then (stRange, s) else (stOk, { s with flt := { s.flt with uswap := true } })

/-- A write of FLT_UCODE_CMD. -/
def ucodeCommand (s : State) (v : Nat) : Nat × State :=
  if v = 1 then ucodeVerify s else if v = 2 then ucodeArm s else if v = 3 then ucodeRevert s else (stRange, s)

/-- The greatest cue mask: groups 0 to 11 (R325). -/
def cueMask : Nat := 0xFFF

/-- A write of MGT_CUE (R325). -/
def cueWrite (s : State) (v : Nat) : Nat × State :=
  if v > cueMask then (stRange, s) else if v = 0 then (stOk, s) else (stOk, strikeCue s v)

/-- The TAKE keys in which two value lists differ. -/
def takeDiff (a b : Sparse Nat) : List Nat :=
  ((a ++ b).map (·.1)).filter (fun k => spGet entReset a k != spGet entReset b k)

/-- The take values `v` made live, beside the VOL values of `l`. -/
def overlay (l v : Sparse Nat) : Sparse Nat :=
  ((l.filter (fun e => isTake e.1)).map (·.1) ++ v.map (·.1)).foldl (fun a k => spSet entReset a k (spGet entReset v k)) l

/-- MGT_TAKE_CMD 0x01 REVERT (R328): live and previous take change places, every TAKE shadow takes the new live value, shadow writes that no cue
has captured are discarded, a cue is struck for the groups that differ and for group 0. -/
def takeRevert (s : State) : Nat × State :=
  if s.mgt.prevNum = 0 then (stRange, s)
  else
    let m := s.mgt
    let old := takeVals m.live
    let diff := takeDiff old m.prev
    let mask := (diff.foldl (fun a k => a ||| grpOf k) 1) &&& cueMask
    let live := overlay m.live m.prev
    let s1 := { s with mgt := { m with
        live := live, shadow := live, prev := old, liveNum := m.prevNum, prevNum := m.liveNum, cmdFresh := diff.filter isLsKey } }
    (stOk, (strikeCue (storeTake s1) mask).count (kDict 8) 1)

/-- MGT_TAKE_CMD 0x02 DISCARD (R328). -/
def takeDiscard (s : State) : Nat × State :=
  (stOk, { s with mgt := { s.mgt with shadow := s.mgt.live, cmdFresh := [] } })

/-- MGT_TAKE_CMD 0x03 DEFAULTS (R328). -/
def takeDefaults (s : State) : Nat × State :=
  (stOk, { s with mgt := { s.mgt with shadow := s.mgt.shadow.filter (fun e => !isTake e.1) } })

/-- A write of MGT_TAKE_CMD (R328). -/
def takeCommand (s : State) (v : Nat) : Nat × State :=
  if v = 1 then takeRevert s else if v = 2 then takeDiscard s else if v = 3 then takeDefaults s else (stRange, s)

/-- A write into a shadow (R323); one of a command, of CUT_LEGACY or of CUT_LS_INIT is remembered until a cue captures it. -/
def shadowWrite (s : State) (k v : Nat) : State :=
  { s with mgt := { s.mgt with
      shadow := spSet entReset s.mgt.shadow k v
      cmdFresh := if (isCmdKey k || isLsKey k) && !s.mgt.cmdFresh.contains k then s.mgt.cmdFresh ++ [k] else s.mgt.cmdFresh } }

/-- CUT_LS_INIT, MIN and MAX (R53): rounded down to a power of two, CUT_LS_MIN ≤ CUT_LS_MAX among the shadow values. -/
def lsWrite (s : State) (i sub v : Nat) : Nat × State :=
  let w := roundLs v
  let lo := if sub = 4 then w else s.shadow (key i 4)
  let hi := if sub = 5 then w else s.shadow (key i 5)
  if hi < lo then (stRange, s)
  else (stOk, (shadowWrite s (key i sub) w).countIf (w != v) (key 0x7080 7))

/-- Whether a value lies within the entry's range. Ranges are compared as bit patterns, so that -0.0 lies outside 0 or more (DESIGN CHOICE,
log entry 135). -/
def inRange (e : Ent) (v : Nat) : Bool := e.lo ≤ v && v ≤ e.hi

/-- Whether the address is one of CUT_LS_INIT, CUT_LS_MIN, CUT_LS_MAX. -/
def isLsEntry (i sub : Nat) : Bool := i == 0x7080 && (sub == 2 || sub == 4 || sub == 5)

/-- The effect of a write of a fixed-width value that passed the checks before RANGE. -/
def writeFixed (s : State) (e : Ent) (i sub v : Nat) : Nat × State :=
  if i = 0x2001 then cueWrite s v
  else if i = 0x2000 then takeCommand s v
  else if i = 0x9000 ∧ sub = 3 then clapCommand s v
  else if i = 0x9010 ∧ sub = 1 then logAck s v
  else if 0x9100 ≤ i ∧ i < 0x9104 then dumpRelease s (i - 0x9100) v
  else if i = 0x9200 then ucodeCommand s v
  else if i = 0xA000 then
    if sub = 2 then bootLockWrite s v
    else if sub = 0 then if v < 4 then (stOk, { s with sec := { s.sec with privSrc := v } }) else (stRange, s)
    else if v < 2 then (stOk, { s with sec := { s.sec with t1sWr := v } }) else (stRange, s)
  else if i = 0xA040 then fwCommand s v
  else if i = 0xA051 then ideControl s v
  else if i = 0xA060 then policyNext s v
  else if !inRange e v || !rulesHold s i sub v then (stRange, s)
  else if isLsEntry i sub then lsWrite s i sub v
  else (stOk, shadowWrite s (key i sub) v)

/-- Greatest length of a writable BLOB. -/
def blobMax (i : Nat) : Nat := if i = 0xA040 then 4194304 else if i = 0x9200 then 1048576 else 44

/-- The current contents of a writable BLOB. -/
def blobNow (s : State) (i sub : Nat) : List Byte :=
  if i = 0xA040 then s.sec.staging else if i = 0x9200 then s.flt.ustage else spGet (fun _ => []) s.sec.ideKeys sub

/-- A writable BLOB's new contents stored. A key written whole is fresh since the last link down (R389); microcode that has passed its check and
is written anew needs another VERIFY (R376; DEDUCED, log entry 127). -/
def blobStore (s : State) (i sub : Nat) (bs : List Byte) : State :=
  if i = 0xA040 then { s with sec := { s.sec with staging := bs } }
  else if i = 0x9200 then { s with flt := { s.flt with ustage := bs, usts := if s.flt.usts = 2 then 0 else s.flt.usts } }
  else { s with sec := { s.sec with
      ideKeys := spSet (fun _ => []) s.sec.ideKeys sub bs
      ideFresh := if bs.length = 44 then (sub :: s.sec.ideFresh.filter (· != sub)) else s.sec.ideFresh.filter (· != sub) } }

/-- A write of a BLOB piece of up to 1,024 bytes (R333, Table 11-1): LENGTH (5) for a wrong offset or length; RANGE while an image is being
handled (R381). -/
def writeBlob (s : State) (i sub off : Nat) (v : List Byte) : Nat × State :=
  let now := blobNow s i sub
  let new := if off = 0 then v else now ++ v
  if v.length > 1024 || (off != 0 && off != now.length) || new.length > blobMax i then (5, s)
  else if (i = 0xA040 && fwBusy s.sec) || (i = 0x9200 && ucodeBusy s) then (stRange, s)
  else (stOk, blobStore s i sub new)

/-! ## Operations (R318 to R334) -/

/-- The entries that the ROM answers in recovery: identity entries and those of R384. -/
def recoveryEntry (i sub : Nat) : Bool :=
  (0x1000 ≤ i && i < 0x2000 && (entryAt i sub).isSome) || i == 0xA030 || i == 0xA020 || (i == 0xA040 && sub < 2)
    || (i == 0xA041 && sub < 2)

/-- The value a READ returns, live or shadow (R312, R323). -/
def readValue (s : State) (e : Ent) (i sub : Nat) (shadow : Bool) : List Byte :=
  if e.ty = 6 ∨ e.ty = 7 then if e.acc = 2 then [] else blobOf s i sub
  else if shadow && e.acc == 1 && !appliedAtOnce e then typeBytes e.ty (s.shadow (key i sub))
  else typeBytes e.ty (liveValue s e i sub)

/-- A READ of an existing entry by a master that may see it: status and value. -/
def readOp (s : State) (e : Ent) (op : DictOp) : Nat × List Byte :=
  if op.ty != e.ty then (2, [])
  else if e.ty = 6 ∨ e.ty = 7 then
    let bs := readValue s e op.index op.sub op.shadow
    if !op.value.isEmpty || op.offset > bs.length then (5, [])
    else if e.ty = 6 then if op.offset = 0 then (0, bs) else if op.offset = bs.length then (0, []) else (5, [])
    else (0, (bs.drop op.offset).take 1024)
  else if !op.value.isEmpty || op.offset != 0 then (5, [])
  else (0, readValue s e op.index op.sub op.shadow)

/-- A WRITE of an existing entry, in the order of Table 11-7 after MULTICAST. -/
def writeOp (s : State) (m : Master) (src : Source) (e : Ent) (op : DictOp) (recov : Bool) : Nat × State :=
  if op.ty != e.ty then (2, s)
  else if e.acc == 0 || e.acc == 4 || (isT1s src && s.sec.t1sWr == 0 && !recov) then (3, s)
  else if isSetup op.index op.sub && (s.sec.lock || m != .secure) then (6, s)
  else if e.ty = 7 ∨ e.ty = 6 then writeBlob s op.index op.sub op.offset op.value
  else if op.value.length != tyWidth e.ty || op.offset != 0 then (5, s)
  else writeFixed s e op.index op.sub (leNat op.value)

/-- DESCRIBE's 32 bytes (R334). -/
def describeBytes (e : Ent) : List Byte :=
  let ro := e.acc == 0 || e.acc == 4
  [BitVec.ofNat 8 e.ty, BitVec.ofNat 8 e.acc, BitVec.ofNat 8 e.per, 0] ++ leBytes 4 e.grp ++ leBytes 8 e.rst
    ++ leBytes 8 (if ro then 0 else e.lo) ++ leBytes 8 (if ro then 0 else e.hi)

/-- An operation's code: READ, WRITE, DESCRIBE (Table 11-6). -/
inductive OpCode where
  | read | write | describe
  deriving DecidableEq, Repr

/-- One operation performed: its status, the value it returns, and the state (R312 to R334). A multicast WRITE ends with MULTICAST. -/
def dictOp (s : State) (src : Source) (code : OpCode) (op : DictOp) : Nat × List Byte × State :=
  let recov := s.sec.phase == .recovery
  let m := classAt s src op.index
  let mc := match src with
    | .t1s _ _ b => b
    | _ => false
  if op.shadow && code != .read then (7, [], s)
  else if recov && !recoveryEntry op.index op.sub then (1, [], s)
  else if !recov && isProtected s op.index op.sub && m == .ordinary then
    let s1 := s.count (kDict 3) 1
    match code with
    | .read => (0, fill (tyWidth op.ty) 0, s1)
    | .write => (0, [], s1)
    | .describe => (0, fill 32 0, s1)
  else match entryAt op.index op.sub with
    | none => (1, [], s)
    | some e =>
      match code with
      | .read => let r := readOp s e op; (r.1, r.2, s)
      | .describe => if op.value.isEmpty && op.offset = 0 then (0, describeBytes e, s) else (5, [], s)
      | .write =>
        if mc then (8, [], s)
        else if recov && !(op.index == 0xA040 && op.sub < 2) then (3, [], s)
        else let r := writeOp s m src e op recov; (r.1, [], r.2)

/-- An operation with its counters: operations ended OK, writes ended otherwise (Table 11-10). -/
def dictOpCounted (s : State) (src : Source) (code : OpCode) (op : DictOp) : Nat × List Byte × State :=
  let r := dictOp s src code op
  (r.1, r.2.1, (r.2.2.countIf (r.1 == 0) (kDict 1)).countIf (r.1 != 0 && code == .write) (kDict 2))

end Sys2Proof.Machine
end

