-- ==== Sys2Proof/Machine/Dictionary.lean ====
section
/-!
DEFINITION. Dictionary messages and their transports (R318, R331 to R339), the rows that are single writes, cues applied, takes stored,
the configuration check (R326 to R330), the 10BASE-T1S rows.
-/

namespace Sys2Proof.Machine

/-! ## MSI-X (R309) -/

/-- A vector of a function signalled: its message leaves, or its pending bit is set while it is masked. -/
def signalMsix (s : State) (fn v : Nat) : State :=
  let x := s.msix fn v
  if x.masked then s.setMsix fn v { x with pend := true } else s.emit (.msix fn v x.addr x.data)

/-! ## Messages (R331, R332) -/

/-- One operation of a request as it stands in the message: raw OP, whether STATUS or a reserved bit is set, the fields. -/
structure RawOp where
  op : Nat
  bad : Bool
  fields : DictOp
  vlen : Nat

/-- Bytes of padding after `n` value bytes. -/
def padOf (n : Nat) : Nat := (4 - n % 4) % 4

/-- The operation at the head of a byte list, and the rest. -/
def rawOp (bs : List Byte) : Option (RawOp × List Byte) :=
  let h := leNat (bs.take 12)
  let n := bits h 63 48
  if bs.length < 12 + n + padOf n then none
  else some ({ op := bits h 7 0, bad := bits h 15 8 != 0 || bits h 47 45 != 0, vlen := n
               fields := { index := bits h 31 16, sub := bits h 39 32, ty := bits h 43 40, shadow := bit h 44
                           offset := bits h 95 64, value := (bs.drop 12).take n } }, bs.drop (12 + n + padOf n))

/-- `n` operations that end exactly at the end of the bytes. -/
def rawOps : Nat → List Byte → Option (List RawOp)
  | 0, bs => if bs.isEmpty then some [] else none
  | n + 1, bs =>
    match rawOp bs with
    | none => none
    | some (o, rest) => (rawOps n rest).map (o :: ·)

/-- The code of an operation. -/
def opCode (n : Nat) : Option OpCode := if n = 1 then some .read else if n = 2 then some .write else if n = 3 then some .describe else none

/-- The response of one operation: the head echoed with its STATUS, and the value (R332). -/
def opReply (op status : Nat) (f : DictOp) (v : List Byte) : List Byte :=
  leBytes 12 (pack [(64, f.offset), (48, v.length), (44, b2n f.shadow), (40, f.ty), (32, f.sub), (16, f.index), (8, status), (0, op)])
    ++ v ++ fill (padOf v.length) 0

/-- One raw operation performed: BAD_OP first (Table 11-7). -/
def runRaw (s : State) (src : Source) (o : RawOp) : List Byte × State :=
  match if o.bad then none else opCode o.op with
  | none => (opReply o.op 7 o.fields [], s.countIf (o.op == 2) (kDict 2))
  | some c =>
    let r := dictOpCounted s src c o.fields
    (opReply o.op r.1 o.fields (if r.1 = 0 && c != .write then r.2.1 else []), r.2.2)

/-- The operations of a message performed in order, with their responses (R318). -/
def runOps (src : Source) : List RawOp → State → List Byte × State
  | [], s => ([], s)
  | o :: l, s =>
    let r := runRaw s src o
    let q := runOps src l r.2
    (r.1 ++ q.1, q.2)

/-- A message header (Table 11-5). -/
def msgHdr (msts count len seq : Nat) : List Byte :=
  leBytes 16 (pack [(88, msts), (80, count), (64, len), (32, seq), (24, 2), (16, 1), (0, 0x4B44)])

/-- The largest response of a transport (R336, R338). -/
def transportMax : Source → Nat
  | .t1s _ _ _ => 1452
  | _ => 4096

/-- A request of the bytes received: its response and the state (R318, R331). -/
def runMessage (s : State) (src : Source) (bs : List Byte) : List Byte × State :=
  let h := leNat (bs.take 16)
  let seq := bits h 63 32
  let n := bits h 87 80
  let ok := bs.length ≥ 16 && bits h 15 0 == 0x4B44 && bits h 23 16 == 1 && bits h 31 24 == 1 && bits h 79 64 == bs.length
    && 1 ≤ n && n ≤ 64
  match if ok then rawOps n (bs.drop 16) else none with
  | none => (msgHdr 1 0 16 seq, s)
  | some ops =>
    let r := runOps src ops s
    if r.1.length + 16 > transportMax src then (msgHdr 2 0 16 seq, s)
    else (msgHdr 0 n (16 + r.1.length) seq ++ r.1, r.2)

/-- Whether the management controller answers: powered, not HALTED, its firmware not restarting (R347, R377). -/
def ctlUp (s : State) : Bool :=
  s.pwr.supply == .on && s.sec.phase != .halted && s.sec.fwRun != .restarting

/-- Whether a request from a source reaches the dictionary (R379, R384). -/
def reaches (s : State) : Source → Bool
  | .secure => s.pwr.supply == .on && (s.sec.phase == .rom || s.sec.phase == .secure)
  | .mailbox => ctlUp s && s.sec.lock && s.cp.link
  | .t1s _ _ _ => ctlUp s && s.mgt.phyOn && (s.sec.lock || s.sec.phase == .recovery)

def kT1s (n : Nat) : Nat := key 0x8110 n

/-- The last response sent to an address, if its SEQ is repeated (R337). -/
def cachedFor (m : Mgt) (a seq : Nat) : Option (List Byte) :=
  (m.cache.find? (fun c => c.addr == a && c.seq == seq)).map (·.bytes)

/-- A response kept as the last one of its address, among the 16 most recent addresses (R337). -/
def keepResponse (m : Mgt) (a seq : Nat) (bs : List Byte) : Mgt :=
  { m with cache := ({ addr := a, seq := seq, bytes := bs } :: m.cache.filter (fun c => c.addr != a)).take 16 }

/-- The IPv6 address of a source. -/
def sourceAddr : Source → Nat
  | .t1s a _ _ => a
  | _ => 0

/-- A request of the segment at the head of the receive queue (R337): answered from the cache where it repeats its address's SEQ, else
performed. The response leaves from the port that the request was sent to (R341). -/
def answerDatagram (s : State) (d : Datagram) : State :=
  let a := sourceAddr d.src
  let seq := bits (leNat (d.bytes.take 16)) 63 32
  let r : List Byte × State := match cachedFor s.mgt a seq with
    | some r => (r, s.count (kDict 5) 1)
    | none => let r := runMessage s d.src d.bytes; (r.1, r.2.count (kDict 0) 1)
  let s1 := r.2.count (kT1s 1) 1
  { s1 with mgt := keepResponse s1.mgt a seq r.1 }.emit (.udp d.port d.src r.1)

/-- The messages that the receive queue holds (R337). -/
def rxDepth : Nat := 8

/-- A frame of the segment with a datagram for the module (R318, R336, R337): dropped and counted where it cannot be answered or the queue is
full, answered at once where no earlier message waits, else queued behind it. -/
def t1sMessage (s : State) (d : Datagram) : State :=
  let s0 := s.count (kT1s 0) 1
  if !reaches s d.src || d.bytes.length > 1452 || d.port != s.live (key 0x8100 3) then s0.count (kDict 4) 1
  else if s.mgt.mb.st != .busy && s.mgt.rxq.isEmpty then answerDatagram s0 d
  else if s.mgt.rxq.length < rxDepth then { s0 with mgt := { s0.mgt with rxq := s0.mgt.rxq ++ [d] } }
  else s0.count (kDict 4) 1

/-- The messages that waited behind a mailbox request are performed in the order of their arrival (R318). -/
def answerQueue (s : State) : State :=
  if ctlUp s && s.mgt.mb.st != .busy then s.mgt.rxq.foldl answerDatagram { s with mgt := { s.mgt with rxq := [] } } else s

/-- The mailbox request that is BUSY (R339): performed, its response stored and signalled, or discarded after a reset. A LEN out of
range leaves too few bytes for a message: BAD_FORMAT, with the SEQ of the buffer. -/
def mailboxMessage (s : State) : State :=
  let m := s.mgt.mb
  if m.st != .busy || !ctlUp s then s
  else
    let bs := fitTo (if 16 ≤ m.len && m.len ≤ 4096 then m.len else 8) m.req
    let r := runMessage s .mailbox bs
    let s1 := r.2.count (kDict 0) 1
    if m.drop then { s1 with mgt := { s1.mgt with mb := { s1.mgt.mb with st := .idle, drop := false } } }
    else
      let s2 := { s1 with mgt := { s1.mgt with mb := { s1.mgt.mb with
        st := .done, resp := r.1, rlen := r.1.length, seq := bits (leNat (r.1.take 16)) 63 32 } } }
      if bit m.ctl 62 then signalMsix s2 0 (bits m.ctl 54 48) else s2

/-- DICT_MESSAGE (R318). A frame of the segment with an FCS error is counted only. -/
def execDictMessage (src : Source) (port : Nat) (x : Payload) (s : State) : Host.Outcome State Fault Refusal :=
  .next (match src with
    | .mailbox => answerQueue (mailboxMessage s)
    | .t1s _ _ _ =>
      if s.pwr.supply != .on || !s.mgt.phyOn then s
      else if x.fcsOk then t1sMessage s { src := src, port := port, bytes := x.bytes } else s.count (kT1s 2) 1
    | .secure =>
      if reaches s .secure then
        let r := runMessage s .secure x.bytes
        (r.2.count (kDict 0) 1).emit (.dict .secure r.1)
      else s)

/-! ## Single operations -/

/-- One operation performed as a message of its own kind carries it; its response leaves to its source. -/
def opRow (s : State) (src : Source) (n : Nat) (c : OpCode) (op : DictOp) : State :=
  if reaches s src then
    let r := dictOpCounted s src c op
    r.2.2.emit (.dict src (opReply n r.1 op (if r.1 = 0 && c != .write then r.2.1 else [])))
  else s

/-- READ (R312, R323, R333). -/
def execRead (src : Source) (op : DictOp) (s : State) : Host.Outcome State Fault Refusal := .next (opRow s src 1 .read op)

/-- WRITE (R323, R333). -/
def execWrite (src : Source) (op : DictOp) (s : State) : Host.Outcome State Fault Refusal := .next (opRow s src 2 .write op)

/-- DESCRIBE (R334). -/
def execDescribe (src : Source) (op : DictOp) (s : State) : Host.Outcome State Fault Refusal :=
  .next (opRow s src 3 .describe op)

/-- A WRITE operation of a fixed-width value. -/
def fixedOp (i sub ty v : Nat) : DictOp :=
  { index := i, sub := sub, ty := ty, shadow := false, offset := 0, value := leBytes (tyWidth ty) v }

/-- A write of a fixed-width entry as a row of its own. -/
def writeRow (s : State) (src : Source) (i sub ty v : Nat) : State := opRow s src 2 .write (fixedOp i sub ty v)

/-- MGT_CUE (R325). -/
def execMgtCue (src : Source) (v : Nat) (s : State) : Host.Outcome State Fault Refusal := .next (writeRow s src 0x2001 0 2 v)

/-- TAKE_REVERT (R328). -/
def execTakeRevert (src : Source) (s : State) : Host.Outcome State Fault Refusal := .next (writeRow s src 0x2000 2 0 1)

/-- TAKE_DISCARD (R328). -/
def execTakeDiscard (src : Source) (s : State) : Host.Outcome State Fault Refusal := .next (writeRow s src 0x2000 2 0 2)

/-- TAKE_DEFAULTS (R328). -/
def execTakeDefaults (src : Source) (s : State) : Host.Outcome State Fault Refusal := .next (writeRow s src 0x2000 2 0 3)

/-- CUT_LS_WRITE (R53): a write of CUT_LS_INIT, CUT_LS_MIN or CUT_LS_MAX, by subindex. -/
def execCutLsWrite (src : Source) (sub : Nat) (v : Word) (s : State) : Host.Outcome State Fault Refusal :=
  .next (if isLsEntry 0x7080 sub then writeRow s src 0x7080 sub 5 v.toNat else s)

/-- FLT_CLAP_CMD (R349). -/
def execFltClapCmd (src : Source) (v : Nat) (s : State) : Host.Outcome State Fault Refusal := .next (writeRow s src 0x9000 3 0 v)

/-- FLT_LOG_ACK (R351). -/
def execFltLogAck (src : Source) (v : Nat) (s : State) : Host.Outcome State Fault Refusal := .next (writeRow s src 0x9010 1 2 v)

/-- FLT_DUMP_REL (R353). -/
def execFltDumpRel (src : Source) (slot v : Nat) (s : State) : Host.Outcome State Fault Refusal :=
  .next (if slot < 4 then writeRow s src (0x9100 + slot) 2 0 v else s)

/-- UCODE_VERIFY (R369). -/
def execUcodeVerify (src : Source) (s : State) : Host.Outcome State Fault Refusal := .next (writeRow s src 0x9200 1 0 1)

/-- UCODE_ARM (R369). -/
def execUcodeArm (src : Source) (s : State) : Host.Outcome State Fault Refusal := .next (writeRow s src 0x9200 1 0 2)

/-- UCODE_REVERT (R369). -/
def execUcodeRevert (src : Source) (s : State) : Host.Outcome State Fault Refusal := .next (writeRow s src 0x9200 1 0 3)

/-- UCODE_VERIFY_DONE (R369, R383): VERIFIED, or FAILED under the checks of R375 with TYPE 0x02. -/
def execUcodeVerifyDone (s : State) : Host.Outcome State Fault Refusal :=
  .next (if s.flt.usts = 1 then
      { s with flt := { s.flt with usts := if imageCheck s.flt.ustage true 2 (floors s.sec) = 0 then 2 else 5 } }
    else s)

/-- UCODE_ARM_DONE (R369, R383): the image is in the spare bank of every program store and in the matching area. -/
def execUcodeArmDone (s : State) : Host.Outcome State Fault Refusal :=
  .next (if s.flt.usts = 3 then
      let n := 1 - s.flt.usel
      { s with
        flt := { s.flt with usts := 4, uswap := true, ubank0 := s.flt.ubank0 || n == 0, ubank1 := s.flt.ubank1 || n == 1 }
        sec := s.sec.setUarea n { image := s.flt.ustage, valid := true } }
    else s)

/-- SEC_BOOT_LOCK (R316, R379). -/
def execSecBootLock (src : Source) (v : Nat) (s : State) : Host.Outcome State Fault Refusal := .next (writeRow s src 0xA000 2 0 v)

/-- SEC_POLICY_NEXT (R380). -/
def execSecPolicyNext (src : Source) (v : Nat) (s : State) : Host.Outcome State Fault Refusal := .next (writeRow s src 0xA060 0 1 v)

/-- SEC_IDE_CTL (R389). -/
def execSecIdeCtl (src : Source) (v : Nat) (s : State) : Host.Outcome State Fault Refusal := .next (writeRow s src 0xA051 0 0 v)

/-- SEC_FW_VERIFY (R381). -/
def execSecFwVerify (src : Source) (s : State) : Host.Outcome State Fault Refusal := .next (writeRow s src 0xA040 1 0 1)

/-- SEC_FW_SWITCH (R381). -/
def execSecFwSwitch (src : Source) (s : State) : Host.Outcome State Fault Refusal := .next (writeRow s src 0xA040 1 0 2)

/-- SEC_FW_CLEAR (R381). -/
def execSecFwClear (src : Source) (s : State) : Host.Outcome State Fault Refusal := .next (writeRow s src 0xA040 1 0 3)

/-! ## The mailbox registers (R338, R339) -/

/-- The bits of MGT_MB_CTL that are not reserved. -/
def mbCtlMask : Nat := 2 ^ 63 + 2 ^ 62 + 0x7F * 2 ^ 48 + 0x1FFF

/-- Whether BAR2 accesses complete (R379). -/
def bar2Up (s : State) : Bool := s.pwr.supply == .on && s.sec.lock && s.cp.link

/-- A write of MGT_MB_CTL (R338, R339): reserved bits drop the write; GO starts the request, or is dropped while BUSY or while the firmware
restarts. -/
def mbCtl (v : Nat) (s : State) : State :=
  if !bar2Up s then s
  else if (v &&& mbCtlMask) != v then s.count (kDict 0xB) 1
  else if bit v 63 && (s.mgt.mb.st == .busy || !ctlUp s) then s.count (kDict 0xB) 1
  else
    let m := { s.mgt.mb with ctl := v % 2 ^ 63 }
    { s with mgt := { s.mgt with mb := if bit v 63 then { m with len := v % 8192, st := .busy, drop := false } else m } }

/-- MGT_MB_CTL (R338, R339, R365). -/
def execMgtMbCtl (v : Nat) (s : State) : Host.Outcome State Fault Refusal :=
  .next (if !bar2Up s then s else if barHeld s then holdBar s (.mgtMbCtl v) else mbCtl v s)

/-- MGT_MB_STS (Table 11-8): STATE, RLEN and SEQ of the response. -/
def mbSts (s : State) : Nat :=
  let st := match s.mgt.mb.st with
    | .idle => 0
    | .busy => 1
    | .done => 2
  pack [(62, st), (32, s.mgt.mb.rlen), (0, s.mgt.mb.seq)]

/-- MGT_MB_STATUS (Table 11-8): MGT_STATUS. -/
def mbStatus (s : State) : Nat := mgtStatus s

/-- MGT_MB_TAKE (Table 11-8): MGT_TAKE_LIVE and MGT_CUE_APPLY. -/
def mbTake (s : State) : Nat := pack [(32, s.mgt.liveNum), (0, cueApplyMask s)]

/-- What BAR2 reads as (Table 11-8): both buffers and the mailbox registers as bytes, zero beyond them. -/
def bar2Bytes (s : State) : List Byte :=
  fitTo 4096 s.mgt.mb.req ++ fitTo 4096 s.mgt.mb.resp ++ leBytes 8 s.mgt.mb.ctl ++ leBytes 8 (mbSts s) ++ leBytes 8 (mbStatus s)
    ++ leBytes 8 (mbTake s)

/-- Bytes written into the request buffer. -/
def putBytes (l : List Byte) (off : Nat) (bs : List Byte) : List Byte :=
  (l.take off ++ fill (off - l.length) 0) ++ bs ++ l.drop (off + bs.length)

/-! ## The take store (R329) -/

/-- The write of a take ends: another take made meanwhile is written next. -/
def nextTakeWrite (s : State) (st : Nat) : State :=
  if s.mgt.nvNext then storeTake { s with mgt := { s.mgt with nvWrite := none } }
  else { s with mgt := { s.mgt with nvState := st, nvWrite := none } }

/-- TAKE_STORE_WRITE_DONE (R329): the written image stands beside that of the take it replaces, torn where the write failed; of takes made
during the write the last one is written next. -/
def execTakeStoreWriteDone (ok : Bool) (s : State) : Host.Outcome State Fault Refusal :=
  .next (match s.mgt.nvWrite with
    | none => s
    | some x =>
      if ok then nextTakeWrite { s with mgt := putTake s.mgt x } 0
      else nextTakeWrite (({ s with mgt := putTake s.mgt x.torn }).count (kDict 0xC) 1) 2)

/-! ## The configuration check (R330) -/

/-- The swept string: index, subindex and value of every TAKE entry but CFG_CRC_REF and CFG_CRC_EN, in ascending address. -/
def sweepBytes (s : State) : List Byte :=
  (takeKeys.filter (fun k => !isCrcKey k)).flatMap (fun k =>
    match entryAt (k / 256) (k % 256) with
    | some e => leBytes 2 (k / 256) ++ leBytes 1 (k % 256) ++ leBytes (tyWidth e.ty) (s.live k)
    | none => [])

/-- The addresses where an applied copy of a unit differs from the live value, units of regions not ONLINE left out. -/
def copyDiffs (s : State) : List Nat :=
  (([0, 1, 2, 3].filter (online s)).flatMap unitsIn ++ [4]).flatMap (fun u =>
    let mine : List Nat := (s.mgt.applied.filter (fun (e : Nat × Nat) => e.1 / 0x1000000 == u)).map (fun (e : Nat × Nat) => e.1 % 0x1000000)
    let lives : List Nat := s.mgt.live.map (fun (e : Nat × Nat) => e.1)
    (mine ++ lives).filter (fun k => holdsCopy u k && s.app u k != s.live k))

/-- CONFIG_SWEEP_START (R330). -/
def execConfigSweepStart (s : State) : Host.Outcome State Fault Refusal :=
  .next (if cueApplyMask s == 0 && !s.mgt.sweep && s.pwr.supply == .on then { s with mgt := { s.mgt with sweep := true } } else s)

/-- CONFIG_SWEEP_COMPLETE (R330): CFG_CRC_VAL, CFG_CRC_STS, CFG_CRC_FIRST, and the counts. -/
def execConfigSweepComplete (s : State) : Host.Outcome State Fault Refusal :=
  .next (if !s.mgt.sweep then s
    else
      let crc := crc32c (sweepBytes s)
      let diffs := copyDiffs s
      let bad := s.live (key 0x2010 4) == 1 && crc != s.live (key 0x2010 0)
      let first := diffs.foldl min 0xFFFFFFFF
      let s1 := { s with mgt := { s.mgt with sweep := false } }
      let s2 := ((s1.setRo (key 0x2010 1) crc).setRo (key 0x2010 2) (b2n bad + 2 * b2n (!diffs.isEmpty))).setRo (key 0x2010 3) first
      (s2.count (kDict 9) 1).countIf (bad || !diffs.isEmpty) (kDict 0xA))

/-! ## The segment (R335, R336) -/

/-- PLCA_BEACON (R335). -/
def execPlcaBeacon (s : State) : Host.Outcome State Fault Refusal :=
  .next (if s.mgt.phyOn then { s with mgt := { s.mgt with noBeacon := false } } else s)

/-- BEACON_TIMEOUT (R335): 100 ms without a beacon while PLCA is enabled. -/
def execBeaconTimeout (s : State) : Host.Outcome State Fault Refusal :=
  .next (if s.mgt.phyOn && s.live (key 0x8100 1) == 1 then
      ({ s with mgt := { s.mgt with noBeacon := true } }).countIf (!s.mgt.noBeacon) (kT1s 3)
    else s)

/-- The module's IPv6 address (R336): fe80::/64 with the modified EUI-64 interface identifier of MGT_MAC. -/
def linkLocal : Nat :=
  let m := Config.mac.toNat
  pack [(112, 0xFE80), (40, (m / 2 ^ 24) ^^^ 0x020000), (24, 0xFFFE), (0, m % 2 ^ 24)]

/-- DUPLICATE_ADDRESS_DETECTION (R336): a solicitation of the module's own address leaves; `answered`: another node answers for it. -/
def execDuplicateAddressDetection (answered : Bool) (s : State) : Host.Outcome State Fault Refusal :=
  .next (if s.mgt.phyOn then
      ((({ s with mgt := { s.mgt with addrDup := answered } }).count (kT1s 4) 1).count (kT1s 1) 1).emit (.solicit linkLocal)
    else s)

/-- ICMPV6_REQUEST (R336): a Neighbor Solicitation of the module's address is answered with the address and MGT_MAC, an Echo Request with its
payload; a solicitation of another address is no request to the module. -/
def execIcmpv6Request (kind : Icmp) (peer : Nat) (payload : List Byte) (s : State) : Host.Outcome State Fault Refusal :=
  .next (if s.mgt.phyOn && ctlUp s then
      let s1 := (s.count (kT1s 0) 1).count (kT1s 1) 1
      match kind with
      | .echo => s1.emit (.icmp true peer payload)
      | .solicit target =>
        if target = linkLocal then s1.emit (.icmp false peer (beBytes 16 linkLocal ++ beBytes 6 Config.mac.toNat)) else s
    else s)

/-! ## Alerts (R322, R352) -/

/-- Whether ALERT_L is asserted. -/
def alertAsserted (s : State) : Bool :=
  s.pwr.supply == .on &&
    ((mgtStatus s &&& s.live (key 0x8000 1)) != 0 || s.sec.phase == .halted || s.sec.phase == .recovery || s.pwr.tripped || s.pwr.ov
      || teardownUnacked s || (match s.flt.chip with
        | some c => c.overrun
        | none => false))

/-- Whether THERM_TRIP_L is asserted (R413). -/
def thermTripAsserted (s : State) : Bool := s.pwr.tripped

end Sys2Proof.Machine
end

