-- ==== Sys2Proof/Machine/Control.lean ====
section
/-!
DEFINITION. The command unit (R284 to R310): contexts, doorbells and BAR registers, admission, deferral and completion of commands,
domains and their teardown, PERST_L and function level resets.
-/

namespace Sys2Proof.Machine

/-! ## Descriptors (R298) -/

/-- 64-bit word k of a descriptor. -/
def dw (desc k : Nat) : Nat := bits desc (64 * k + 63) (64 * k)

def dOpc (desc : Nat) : Nat := bits (dw desc 0) 63 56
def dFence (desc : Nat) : Bool := bit (dw desc 0) 55
def dCid (desc : Nat) : Nat := bits (dw desc 0) 47 32
def dRes (desc : Nat) : Nat := bits (dw desc 0) 31 16

/-- The bits of words 0 to 7 that a command uses (Tables 10-4, 10-8, 10-9), by opcode: a mask per word from word 1. -/
def usedBits (opc : Nat) : List Nat :=
  let lo (n : Nat) : Nat := 2 ^ n - 1
  if opc = 0x80 then [0xF + 0xFFF * 2 ^ 16 + 0xFFF * 2 ^ 32 + 0x1FFF * 2 ^ 44, 0xFFFF, lo 32]
  else if opc = 0x81 then [0xF]
  else if opc = 0x82 then [0xF, 0xFFFF, lo 32]
  else if opc = 0x83 ∨ opc = 0x84 ∨ opc = 0x85 then [0xF + 0xFFF * 2 ^ 16 + 3 * 2 ^ 32 + 2 ^ 34]
  else if opc = 0x01 then [lo 64, lo 64, lo 32]
  else if opc = 0x10 then [7, 2 ^ 63 + lo 32, lo 40, lo 12]
  else if opc = 0x20 ∨ opc = 0x21 ∨ opc = 0x22 then [lo 64, lo 64, lo 64]
  else if opc = 0x30 then [2 ^ 63 + 0x1FFFFF * 2 ^ 32 + 0xFFFF, 0xFFF + 0x1FFFFF * 2 ^ 32]
  else if opc = 0x31 then [0x1FFFFF * 2 ^ 32 + 0xFFFF]
  else if opc = 0x32 then [2 ^ 63 + 0x1FFFFF * 2 ^ 32 + 0xFFFF]
  else if opc = 0x40 then [0xFFFF * 2 ^ 48]
  else []

/-- Whether a descriptor's reserved bits are zero and its RES is a result object or none. -/
def descClean (desc : Nat) : Bool :=
  let w0 := dw desc 0
  bits w0 54 48 == 0 && bits w0 15 0 == 0 && (dRes desc < 256 || dRes desc == 0xFFFF)
    && (List.range 7).all (fun k => (dw desc (k + 1)) &&& ((usedBits (dOpc desc))[k]?.getD 0) == dw desc (k + 1))

/-- The opcodes of Tables 10-4 and 10-9 that a queue accepts. -/
def knownOpc (admin : Bool) (opc : Nat) : Bool :=
  if admin then 0x80 ≤ opc && opc ≤ 0x85
  else [0x01, 0x02, 0x10, 0x20, 0x21, 0x22, 0x30, 0x31, 0x32, 0x40, 0x50].contains opc

/-! ## Contexts (R287 to R296) -/

/-- The context of a queue: the admin queue, or local queue q of domain d inside CMD_DOM_QCOUNT (R287). -/
def ctxOf (s : State) : QRef → Option Nat
  | .admin => some adminKey
  | .dom d q => if d < 16 && q < (s.dom d).qcount then some ((s.dom d).qbase + q) else none

/-- The domain whose range holds a context. -/
def domOfCtx (s : State) (k : Nat) : Option Nat :=
  (List.range 16).find? (fun d => (s.dom d).st != .free && (s.dom d).qbase ≤ k && k < (s.dom d).qbase + (s.dom d).qcount)

/-- The completion ring is full: the slot after CMD_CQ_TAIL is the completion head (R295). -/
def cqFull (c : Ctx) : Bool := (c.cqTail + 1) % 2 ^ c.cqLog == c.cqHead % 2 ^ c.cqLog

/-- A record waits for room: of a completed command, or a notice (R295). -/
def holdsRecord (c : Ctx) : Bool :=
  (match c.cmd with
    | some x => x.fin != .running
    | none => false) || (match c.defer with
    | some f => f.note
    | none => false)

/-- Whether DMA and BAR accesses reach the host: link up, reference present, PERST_L released. -/
def hostUp (s : State) : Bool := s.cp.link && s.cp.pcieRef && !s.cp.perst && s.pwr.supply == .on

/-- CMD_Q_STS.STATE, the first that applies in the order of R296. -/
def ctxState (s : State) (k : Nat) : Nat :=
  let c := s.ctx k
  if !c.made then 0
  else if c.kill != .no then 5
  else if c.errc != 0 then 6
  else if k != adminKey && !online s c.home then 4
  else if cqFull c && holdsRecord c then 7
  else if c.defer.isSome then 3
  else if c.enable then 2
  else 1

/-- Whether a context fetches its next descriptor (R38, R290, R295, R299). A full completion ring stops it through the record that it
holds: the next descriptor waits for the previous command's completion. -/
def canFetch (s : State) (k : Nat) : Bool :=
  let c := s.ctx k
  hostUp s && dataUp s && c.made && c.enable && c.kill == .no && c.errc == 0 && (k == adminKey || online s c.home)
    && c.cmd.isNone && c.defer.isNone && c.head % 2 ^ c.sqLog != c.tail % 2 ^ c.sqLog
    && (k == adminKey || (match domOfCtx s k with
      | some d => (s.dom d).st == .active
      | none => false))

/-- A context enters ERROR: counted, and the clapper is struck through CMDU (R348). -/
def ctxError (s : State) (k e : Nat) : State :=
  if (s.ctx k).errc = 0 then strike ((s.setCtx k { s.ctx k with errc := e }).count (kCmdPerf 6) 1) 5 else s

/-- A dropped BAR0 write, counted (R286, R287, R293, R294, R306). -/
def barDrop (s : State) : State := s.count (kCmdPerf 4) 1

/-- A queue's register written: dropped and counted where the queue lies outside its domain's range or its context is FREE. -/
def onQueue (s : State) (q : QRef) (f : State → Nat → State) : State :=
  match ctxOf s q with
  | some k => f s k
  | none => barDrop s

/-- A BAR0 write that reaches the module: performed, or held in the PCIe core during a chip warm reset (R365). -/
def atBar (s : State) (i : Instr) (f : State → State) : State :=
  if !hostUp s then s else if barHeld s then holdBar s i else f s

/-- A write of CMD_SQ_DB (R38, R295): the tail is always stored; a tail beyond the ring sets ERROR with cause TAIL. -/
def sqDb (q : QRef) (v : Nat) (s : State) : State :=
  onQueue s q (fun s k =>
    let s1 := s.setCtx k { s.ctx k with tail := v % 2 ^ 16 }
    if v ≥ 2 ^ (s.ctx k).sqLog then ctxError s1 k 1 else s1)

/-- CMD_SQ_DB (R38, R295). -/
def execCmdSqDb (q : QRef) (v : Nat) (s : State) : Host.Outcome State Fault Refusal := .next (atBar s (.cmdSqDb q v) (sqDb q v))

/-- A write of CMD_SQ_BASE or CMD_CQ_BASE (R37, R294): bits [63:12] stored, or the write dropped and counted while ENABLE = 1. -/
def sqBaseWrite (q : QRef) (completion : Bool) (v : Nat) (s : State) : State :=
  onQueue s q (fun s k =>
    let c := s.ctx k
    let a := v % 2 ^ 64 / 4096 * 4096
    if c.enable then barDrop s
    else s.setCtx k (if completion then { c with cqBase := a } else { c with sqBase := a }))

/-- CMD_SQ_BASE and CMD_CQ_BASE (R37, R294). -/
def execCmdSqBase (q : QRef) (completion : Bool) (v : Nat) (s : State) : Host.Outcome State Fault Refusal :=
  .next (atBar s (.cmdSqBase q completion v) (sqBaseWrite q completion v))

/-- Vectors of a function (R284). -/
def vecsOf (fn : Nat) : Nat := if fn = 0 then 128 else 120

/-- The function whose vectors a context uses (R294). -/
def fnOfCtx (s : State) (k : Nat) : Nat :=
  if k = adminKey then 0 else match domOfCtx s k with
    | some d => d + 1
    | none => 0

/-- A completion record (Table 10-11). -/
def recordBits (s : State) (k : Nat) (c : Cmd) (status reason rgen : Nat) : Nat :=
  pack [(240, dCid c.desc), (232, status), (224, reason), (223, b2n c.deferred), (222, b2n c.spl), (221, b2n c.fbp),
    (220, b2n c.dv), (219, b2n c.rst), (216, b2n (s.ctx k).cqPhase), (200, (s.ctx k).head), (188, c.q % 4096), (128, rgen % 2 ^ 32),
    (96, c.detail), (64, c.stepNo), (60, c.attempt % 16)]

/-- A record written at CMD_CQ_TAIL; the phase inverts when the ring wraps (R304). -/
def putRecord (s : State) (k w : Nat) : State :=
  let c := s.ctx k
  let t := (c.cqTail + 1) % 2 ^ c.cqLog
  let s1 := s.emit (.dma (c.cqBase + 32 * c.cqTail) (leBytes 32 w))
  s1.setCtx k { c with cqTail := t, cqPhase := if t = 0 then !c.cqPhase else c.cqPhase }

/-- After a record: the vector is signalled when COAL_N records are unsignalled (R309). -/
def coalesce (s : State) (k : Nat) : State :=
  let c := s.ctx k
  let n := c.unsig + 1
  if n ≥ max c.coalN 1 then signalMsix (s.setCtx k { c with unsig := 0 }) (fnOfCtx s k) c.vec
  else s.setCtx k { c with unsig := n, unsigTick := if c.unsig = 0 then s.ticks else c.unsigTick }

/-- The notice of a deferred command, written once there is room (R302). Whether its write into the ring returns UR or CA is the host's
answer: a free value (DESIGN CHOICE, log entry 123); the notice is then discarded, and the context is in ERROR (R296). -/
def writeNotice (s : State) (k : Nat) : State :=
  match (s.ctx k).defer with
  | some f =>
    if f.note && !cqFull (s.ctx k) then
      let x := s.fresh
      let s1 := x.2.setCtx k { x.2.ctx k with defer := some { f with note := false } }
      if bit (Config.freeWord x.1).toNat 0 then ctxError (s1.count (kCmdPerf 5) 1) k 2
      else coalesce (putRecord s1 k (recordBits s1 k f.cmd 0x02 0 0)) k
    else s
  | none => s

/-- A write of CMD_CQ_DB (R295): the host's completion head; a notice that waits for room is written. -/
def cqDb (q : QRef) (v : Nat) (s : State) : State :=
  onQueue s q (fun s k => writeNotice (s.setCtx k { s.ctx k with cqHead := v % 2 ^ (s.ctx k).cqLog }) k)

/-- CMD_CQ_DB (R295). -/
def execCmdCqDb (q : QRef) (v : Nat) (s : State) : Host.Outcome State Fault Refusal := .next (atBar s (.cmdCqDb q v) (cqDb q v))

/-- A write of CMD_Q_CTL (R294, Table 10-6): out-of-range sizes or vector, or a change of them while ENABLE = 1, drop the write; ENABLE with
a ring base of 0 sets ERROR with cause BASE. STEPQ and HOME are read-only. -/
def qCtl (q : QRef) (v : Nat) (s : State) : State :=
  onQueue s q (fun s k =>
    let c := s.ctx k
    let sq := bits v 60 56
    let cq := bits v 55 51
    let vec := bits v 48 42
    let bad := sq < 4 || sq > 16 || cq < 4 || cq > 16 || vec ≥ vecsOf (fnOfCtx s k)
    let moved := sq != c.sqLog || cq != c.cqLog || vec != c.vec || (k != adminKey && bits v 50 49 != c.home)
    if bad || (c.enable && moved) then barDrop s
    else
      let s1 := s.setCtx k { c with
        enable := bit v 63, dnote := bit v 61 && k != adminKey, sqLog := sq, cqLog := cq, vec := vec, coalN := bits v 41 34
        coalT := bits v 33 18 }
      if bit v 63 && (c.sqBase = 0 || c.cqBase = 0) then ctxError s1 k 3 else s1)

/-- CMD_Q_CTL (R294). -/
def execCmdQCtl (q : QRef) (v : Nat) (s : State) : Host.Outcome State Fault Refusal := .next (atBar s (.cmdQCtl q v) (qCtl q v))

/-! ## BAR accesses without a row of their own (R286, R338) -/

/-- A write into an MSI-X table of a function: 16-byte entries of address, data and mask. -/
def msixWrite (s : State) (fn off size v : Nat) : State :=
  let e := off / 16
  let x := s.msix fn e
  let w := pack [(0, x.addr), (64, x.data), (96, b2n x.masked)]
  let w1 := setBits w (8 * (off % 16) + 8 * size - 1) (8 * (off % 16)) v
  let y : Msix := { addr := bits w1 63 0, data := bits w1 95 64, masked := bit w1 96, pend := x.pend }
  if !y.masked && y.pend then (s.setMsix fn e { y with pend := false }).emit (.msix fn e y.addr y.data) else s.setMsix fn e y

/-- A write into BAR2 (Table 11-8): the request buffer, unless a request is BUSY, and MGT_MB_CTL. -/
def bar2Write (s : State) (off size v : Nat) : State :=
  if !bar2Up s then s
  else if off + size ≤ 0x1000 && s.mgt.mb.st != .busy then
    { s with mgt := { s.mgt with mb := { s.mgt.mb with req := putBytes s.mgt.mb.req off (leBytes size v) } } }
  else if off = 0x2000 ∧ size = 8 then mbCtl v s
  else s.count (kDict 0xB) 1

/-- A write into a context's register block (Table 10-5): whole registers only. -/
def blockWrite (q : QRef) (off size v : Nat) (s : State) : State :=
  if size = 8 ∧ off = 0 then sqBaseWrite q false v s
  else if size = 8 ∧ off = 8 then sqBaseWrite q true v s
  else if size = 8 ∧ off = 0x10 then qCtl q v s
  else barDrop s

/-- A write into a doorbell block (R295). -/
def bellWrite (q : QRef) (off size v : Nat) (s : State) : State :=
  if size = 4 ∧ off = 0 then sqDb q v s
  else if size = 4 ∧ off = 4 then cqDb q v s
  else barDrop s

/-- A write into a domain window (Table 10-2): context registers and doorbells; the result objects are read-only (R306). -/
def windowWrite (d off size v : Nat) (s : State) : State :=
  if 0x100000 ≤ off ∧ off < 0x180000 then blockWrite (.dom d ((off - 0x100000) / 128)) (off % 128) size v s
  else if 0x180000 ≤ off ∧ off < 0x1C0000 then bellWrite (.dom d ((off - 0x180000) / 64)) (off % 64) size v s
  else barDrop s

/-- A BAR write by its address (Tables 10-1, 10-2, 11-8): MSI-X tables, BAR2, and the registers that have rows of their own; everything
else of BAR0 is read-only or reserved, and dropped and counted (R286, R293, R306). Offsets from 0x400_0000 stand for BAR2 of the PF. -/
def barWrite (s : State) (fn off size v : Nat) : State :=
  if fn = 0 ∧ off ≥ 0x4000000 then bar2Write s (off - 0x4000000) size v
  else if fn = 0 ∧ 0x2020000 ≤ off ∧ off + size ≤ 0x2020800 then msixWrite s 0 (off - 0x2020000) size v
  else if 1 ≤ fn ∧ 0x1C0000 ≤ off ∧ off + size ≤ 0x1C0000 + 120 * 16 then msixWrite s fn (off - 0x1C0000) size v
  else if fn = 0 ∧ off < 0x2000000 then windowWrite (off / 0x200000) (off % 0x200000) size v s
  else if 1 ≤ fn ∧ off < 0x1C0000 then windowWrite (fn - 1) off size v s
  else if fn = 0 ∧ 0x2000000 ≤ off ∧ off < 0x2000080 then blockWrite .admin (off - 0x2000000) size v s
  else if fn = 0 ∧ 0x2000080 ≤ off ∧ off < 0x2000088 then bellWrite .admin (off - 0x2000080) size v s
  else barDrop s

/-- BAR_WRITE (R286, R365): writes during a chip warm reset are held. -/
def execBarWrite (fn off size v : Nat) (s : State) : Host.Outcome State Fault Refusal :=
  .next (if fn > 16 then s else atBar s (.barWrite fn off size v) (fun s => barWrite s fn off size v))

/-! ## Fetch, admission, deferral (R299 to R303) -/

/-- Whether the ring read of a descriptor returned UR or CA: the operand then lies above 512 bits (R296; DESIGN CHOICE, log entry 4). -/
def fetchFails (desc : Nat) : Bool := desc ≥ 2 ^ 512

/-- A command as it is fetched; `order`: the fetches of its domain before it. -/
def cmdOf (d q desc cost order : Nat) : Cmd :=
  { desc := desc, dom := d, q := q, cost := cost, fin := .running, deferred := false, spl := false, fbp := false, detail := 0
    stepNo := 0, attempt := 0, rst := false, dv := false, data := none, admitted := false, muted := false, order := order }

/-- The descriptor at the head has been taken. -/
def advance (c : Ctx) : Ctx := { c with head := (c.head + 1) % 2 ^ c.sqLog }

/-- A command refused with a reason: it waits for its record (R301). -/
def refuse (s : State) (k : Nat) (c : Cmd) (reason : Nat) : State :=
  s.setCtx k { advance (s.ctx k) with cmd := some { c with fin := .ended 0x10 reason }, defer := none }

/-- Commands admitted on the module (R301). -/
def admittedCount (s : State) : Nat :=
  (s.cp.ctxs.filter (fun e => match e.2.cmd with
    | some c => c.admitted
    | none => false)).length

/-- Whether the credits suffice for a command (R301). -/
def creditsFit (s : State) (d cost : Nat) : Bool :=
  (s.dom d).inflight + cost ≤ (s.dom d).quota && admittedCount s < 2048

/-- A command admitted: its cost is added to INFLIGHT and the object it names shows READY = 0 (R301, R307). -/
def grant (s : State) (k : Nat) (c : Cmd) : State :=
  let c1 := { c with admitted := true }
  let s1 := s.setCtx k { advance (s.ctx k) with cmd := some c1, defer := none }
  let s2 := s1.setDom c.dom { s1.dom c.dom with inflight := (s1.dom c.dom).inflight + c.cost, deferOrder := (s1.dom c.dom).deferOrder + 1 }
  let s3 := if dRes c.desc < 256 then
      s2.setRes c.dom (dRes c.desc) { s2.res c.dom (dRes c.desc) with named := (s2.res c.dom (dRes c.desc)).named + 1 }
    else s2
  s3.count (kCmdPerf 0) 1

/-- A command deferred (R302): it stays at the head of its queue; with DNOTE = 1 a notice record is written. -/
def deferCmd (s : State) (k : Nat) (c : Cmd) (unitCause : Bool) : State :=
  let o := (s.dom c.dom).deferOrder
  let c1 := { c with deferred := true }
  let s1 := s.setCtx k { s.ctx k with defer := some { unitCause := unitCause, cost := c.cost, order := o, cmd := c1, note := (s.ctx k).dnote } }
  let s2 := (s1.setDom c.dom { s1.dom c.dom with deferOrder := o + 1 }).count (kCmdPerf 1) 1
  writeNotice s2 k

/-- Whether a command of another queue of the domain that was fetched before order `o` is still to complete: what FENCE waits for (R298). -/
def othersRun (s : State) (d k o : Nat) : Bool :=
  let x := s.dom d
  s.cp.ctxs.any (fun e => x.qbase ≤ e.1 && e.1 < x.qbase + x.qcount && e.1 != k && ((match e.2.cmd with
    | some c => c.order < o || (!c.admitted && c.order ≤ o)
    | none => false) || (match e.2.defer with
    | some f => f.order < o
    | none => false)))

/-- A command that FENCE still holds: one with the header bit, or the FENCE command (R298; DESIGN CHOICE, log entry 4). -/
def fenced (s : State) (d k o desc : Nat) : Bool := (dFence desc || dOpc desc == 0x50) && othersRun s d k o

/-- Whether a STEP waits for a region of its domain that is DRAINING (R368). -/
def stepDrains (s : State) (d : Nat) : Bool :=
  (List.range 4).any (fun r => (s.reg r).st == .draining && mbit (regionUse s r) d)

/-- Whether a STEP deferred for a region still waits: one of its domain's regions has not come back ONLINE (Table 12-12). -/
def stepKept (s : State) (d : Nat) : Bool := (List.range 4).any (fun r => !online s r && mbit (regionUse s r) d)

/-- What runCommand needs to know of one opcode: its opcode, credits, whether the descriptor's fields lie in their ranges, the payload that
its DMA reads (none: the DMA fails), the reason of a fixed refusal, and what the command does once admitted. -/
structure CmdSpec where
  opc : Nat
  cost : Nat
  inRange : Bool
  pay : Option (List Byte)
  static : State → Nat → Option Nat
  run : State → Nat → State

/-- A domain command at the head of its queue, checked in the order of R301; one that only FENCE holds waits unfetched. -/
def runCommand (s : State) (d q desc : Nat) (x : CmdSpec) : State :=
  match ctxOf s (.dom d q) with
  | none => s
  | some k =>
    let c := { cmdOf d q desc x.cost (s.dom d).deferOrder with data := x.pay }
    if !canFetch s k then s
    else if fetchFails desc then ctxError s k 2
    else if dOpc desc != x.opc then if knownOpc false (dOpc desc) then s else refuse s k c 0x01
    else if !descClean desc || !x.inRange then refuse s k c 0x01
    else if x.cost > (s.dom d).quota then refuse s k c 0x0A
    else match x.static s k with
      | some r => refuse s k c r
      | none =>
        if x.opc = 0x10 && stepDrains s d then deferCmd s k c true
        else if !creditsFit s d x.cost then deferCmd s k c false
        else if fenced s d k (s.dom d).deferOrder desc then s
        else x.run (grant s k c) k

/-- The command of a context changed in place. -/
def modCmd (s : State) (k : Nat) (f : Cmd → Cmd) : State :=
  match (s.ctx k).cmd with
  | none => s
  | some c => s.setCtx k { s.ctx k with cmd := some (f c) }

/-- A result object's publication (R306, R307): next generation, header, payload. -/
def publish (s : State) (c : Cmd) (status : Nat) (payload : List Byte) : State :=
  if dRes c.desc < 256 ∧ c.dom < 16 then
    let r := s.res c.dom (dRes c.desc)
    s.setRes c.dom (dRes c.desc) { gen := (r.gen + 1) % 2 ^ 32, cid := dCid c.desc, kind := dOpc c.desc, status := status
                                   payload := payload.take 3968, named := if c.admitted then r.named - 1 else r.named }
  else s

/-- Credits of a command returned (R301). -/
def returnCredits (s : State) (c : Cmd) : State :=
  if c.admitted then s.setDom c.dom { s.dom c.dom with inflight := (s.dom c.dom).inflight - c.cost } else s

/-- The status and reason with which a command ended; a STEP's payload is passed separately. -/
def finOf (c : Cmd) : Nat × Nat :=
  match c.fin with
  | .running => (0, 0)
  | .ended a b => (a, b)

/-- The payload that a completed command publishes: a STEP's stored payload, nothing for the others (R308). -/
def payloadOf (c : Cmd) : List Byte :=
  let f := finOf c
  if f.1 = 0 ∨ f.1 = 1 then c.data.getD [] else []

/-- A context whose command has ended with a status: CMD_Q_CNT counts it (R293). -/
def doneCtx (x : Ctx) (status : Nat) : Ctx :=
  { x with
    cmd := none, doneCnt := min (x.doneCnt + 1) 0xFFFFFFFF
    refusedCnt := if status = 0x10 then min (x.refusedCnt + 1) 0xFFFFFFFF else x.refusedCnt }

/-- An ended command closed without a record: published, counted as discarded, credits returned (R292, R297). -/
def closeMuted (s : State) (k : Nat) (c : Cmd) : State :=
  let s1 := returnCredits (publish s c (finOf c).1 (payloadOf c)) c
  (((s1.setCtx k (doneCtx (s1.ctx k) (finOf c).1)).count (kCmdPerf 5) 1).countIf ((finOf c).1 == 0x10) (kCmdPerf 2)).countIf
    ((finOf c).1 == 0x20) (kCmdPerf 3)

/-- The payload that a running command read by DMA. -/
def payOf (s : State) (k : Nat) : Option (List Byte) :=
  match (s.ctx k).cmd with
  | some c => c.data
  | none => none

/-- A command ends with a status, a reason and a payload; one whose record is to be discarded is closed at once. -/
def endCmd (s : State) (k status reason : Nat) (payload : List Byte) : State :=
  match (s.ctx k).cmd with
  | none => s
  | some c =>
    let c1 := { c with fin := .ended status reason, data := some payload }
    if c.muted then closeMuted s k c1 else s.setCtx k { s.ctx k with cmd := some c1 }

/-- The end of a command (R301, R304, R305, R307, R309): its result is published, its record written and its credits
returned. A DMA error discards the record and sets ERROR, and the later records of that context are discarded too (R296). -/
def complete (s : State) (k : Nat) (c : Cmd) (dmaOk : Bool) : State :=
  let f := finOf c
  let s1 := if k = adminKey then s else publish s c f.1 (payloadOf c)
  let rgen := if k = adminKey ∨ dRes c.desc ≥ 256 then 0 else (s1.res c.dom (dRes c.desc)).gen
  let s2 := s1.setCtx k (doneCtx (s1.ctx k) f.1)
  let s3 := ((returnCredits s2 c).countIf (f.1 == 0x10) (kCmdPerf 2)).countIf (f.1 == 0x20) (kCmdPerf 3)
  let s4 := if (s.ctx k).errc = 2 then s3.count (kCmdPerf 5) 1
    else if dmaOk then coalesce (putRecord s3 k (recordBits s k c f.1 (if f.1 = 0x10 ∨ f.1 = 0x21 then f.2 else 0) rgen)) k
    else ctxError (s3.count (kCmdPerf 5) 1) k 2
  if f.1 = 0x21 then strike s4 5 else s4

/-- COALESCE_TIMER (R309). -/
def execCoalesceTimer (q : QRef) (s : State) : Host.Outcome State Fault Refusal :=
  .next (match ctxOf s q with
    | none => s
    | some k =>
      let c := s.ctx k
      if c.unsig > 0 && c.coalT > 0 && s.ticks - c.unsigTick ≥ c.coalT && hostUp s then
        signalMsix (s.setCtx k { c with unsig := 0 }) (fnOfCtx s k) c.vec
      else s)

/-! ## Teardown (R274, R292) -/

/-- A command that has not completed ends ABORTED. -/
def abortCtx (c : Ctx) : Ctx :=
  match c.cmd, c.defer with
  | some x, _ => if x.fin == .running then { c with cmd := some { x with fin := .ended 0x20 0, data := none } } else c
  | none, some f => { advance c with cmd := some { f.cmd with fin := .ended 0x20 0 }, defer := none }
  | none, none => c

/-- A domain's contexts changed. -/
def mapCtxs (s : State) (d : Nat) (f : Ctx → Ctx) : State :=
  let x := s.dom d
  s.each ((s.cp.ctxs.map (·.1)).filter (fun k => x.qbase ≤ k && k < x.qbase + x.qcount)) (fun s k => s.setCtx k (f (s.ctx k)))

/-- A block's part of an abandoned step: the runs that it ends count their events (R93), and it is IDLE again; a substitution under way goes on
(R19, R25; DEDUCED, log entry 97). -/
def dropBlock (d : Nat) (s0 : State) (b : Nat) : State :=
  if (s0.blk b).dom = d then
    let s := s0.each (((s0.blk b).items.filter (fun e => e.2.st == .running)).map (·.1)) (fun s ki => countRunEvts s b ki)
    let k := s.blk b
    s.setBlk b { k with phase := .idle, items := [], pass := none, ready := [], nonfin := false, norm := 0, wdt := 0 }
  else s0

/-- A domain's transfers that have not started are discarded, and its combining entries freed (R274). -/
def dropPort (d : Nat) (s : State) (p : Nat) : State :=
  s.setPort p { s.port p with tx := (s.port p).tx.filter (fun t => t.src = 0 || t.src ≥ 2 ^ 60 || bits t.pkt.hdr 491 488 != d) }

/-- A Grader without the slots of a domain (R209); a solve that runs for one of them is dropped. -/
def dropSlots (d : Nat) (g : Grd) : Grd :=
  let mine : Bool := match g.run with
    | some n => (match spFind g.slots n with
      | some x => x.dom == d
      | none => false)
    | none => false
  { g with slots := g.slots.filter (fun x => x.2.dom != d), run := if mine then none else g.run }

/-- Held accesses that will not be performed, with the signals of their transfers, which have not been stored. -/
def dropHeld (s : State) (lost : Held → Bool) : State :=
  let gone := (s.back.held.filter lost).map (·.src)
  { s with back := { s.back with held := s.back.held.filter (fun h => !lost h), sigq := s.back.sigq.filter (fun q => !gone.contains q.1) } }

/-- A domain's held writes go to the quarantine sink: they carry the stale generation (R125). -/
def quarHeld (s : State) (d : Nat) : State :=
  let mine (h : Held) : Bool := h.key / 4096 / 4096 % 16 == d
  let n := ((s.back.held.filter mine).map (fun h => h.ops.length)).sum
  (dropHeld s mine).count (kMem 5) n

/-- A domain's daily stops with its transfers (R274). -/
def dropDaily (s : State) (d : Nat) : State := s.setDay d { s.day d with running := false, states := [], engines := 0 }

/-- The muted commands of a domain that have ended are closed without a record (R297 item 7). -/
def closeMutes (s : State) (d : Nat) : State :=
  let x := s.dom d
  s.each ((s.cp.ctxs.map (·.1)).filter (fun k => x.qbase ≤ k && k < x.qbase + x.qcount)) (fun s k =>
    match (s.ctx k).cmd with
    | some c => if c.muted && c.fin != .running then closeMuted s k c else s
    | none => s)

/-- A domain is torn down: TEARING, its commands ABORTED, the next generation, its step abandoned, its combining entries freed, of exchanges
too (R292 steps 1 to 3, R274). The record of a running STEP carries its number and last attempt (Table 10-11). -/
def teardown (s : State) (d : Nat) : State :=
  if (s.dom d).st != .active then s
  else
    let st := s.stp d
    let s0 := if st.order == .none then s
      else modCmd s st.ctx (fun c => { c with stepNo := st.no, attempt := st.att, rst := st.rst, dv := st.dv })
    let s1 := closeMutes (mapCtxs s0 d abortCtx) d
    let s2 := s1.setDom d { s1.dom d with st := .tearing, gen := ((s1.dom d).gen + 1) % 4096 }
    let s3 := (s2.setStp d { s2.stp d with order := .none }).each (List.range 24) (dropBlock d)
    let s4 := s3.each (List.range 8) (dropPort d)
    let s5 := quarHeld (dropDaily s4 d) d
    { s5 with xchs := spDel s5.xchs d
              fab := { s5.fab with combs := s5.fab.combs.filter (fun c => c.dom != d) }
              grds := s5.grds.map (fun (e : Nat × Grd) => (e.1, dropSlots d e.2)) }

/-- The command of the admin queue that waits for domain d, or none. -/
def adminDone (s : State) (status reason : Nat) : State := endCmd s adminKey status reason []

/-! ## Admin commands (R290 to R292, R296, R302) -/

/-- An admin command at the head of the admin queue: checked, then run at once (R290). `run` answers the reason of a refusal, or the
state after the command and whether it has already ended. -/
def runAdmin (s : State) (opc desc : Nat) (run : State → Nat × State × Bool) : State :=
  let k := adminKey
  let c := cmdOf 16 0 desc 0 0
  if !canFetch s k then s
  else if fetchFails desc then ctxError s k 2
  else if dOpc desc != opc then if knownOpc true (dOpc desc) then s else refuse s k c 0x01
  else if !descClean desc then refuse s k c 0x01
  else
    let r := run s
    if r.1 != 0 then refuse s k c r.1
    else
      let s1 := r.2.1.setCtx k { advance (r.2.1.ctx k) with cmd := some { c with fin := if r.2.2 then .ended 0 0 else .running } }
      s1.count (kCmdPerf 0) 1

/-- Fields of an admin descriptor. -/
def aDom (desc : Nat) : Nat := bits (dw desc 1) 3 0
def aQueue (desc : Nat) : Nat := bits (dw desc 1) 27 16

/-- Whether a context range overlaps another domain's (R289, R291): an empty range overlaps none. -/
def rangeTaken (s : State) (d qb qc : Nat) : Bool :=
  (List.range 16).any (fun e =>
    let x := s.dom e
    e != d && x.st != .free && qc != 0 && x.qcount != 0 && qb < x.qbase + x.qcount && x.qbase < qb + qc)

/-- DOM_CREATE (R289, R291). -/
def execDomCreate (desc : Nat) (s : State) : Host.Outcome State Fault Refusal :=
  .next (runAdmin s 0x80 desc (fun s =>
    let d := aDom desc
    let gen := bits (dw desc 1) 27 16
    let qb := bits (dw desc 1) 43 32
    let qc := bits (dw desc 1) 56 44
    let quota := bits (dw desc 2) 15 0
    if quota = 0 || qb + qc > 4096 then (0x01, s, true)
    else if (s.dom d).st != .free then (0x15, s, true)
    else if gen = (s.dom d).lastGen then (0x16, s, true)
    else if rangeTaken s d qb qc then (0x17, s, true)
    else
      (0, s.setDom d { domDflt 0 with
        st := .active, gen := gen, lastGen := (s.dom d).lastGen, qbase := qb, qcount := qc, quota := quota
        memlim := bits (dw desc 3) 31 0 }, true)))

/-- DOM_TEARDOWN (R292). -/
def execDomTeardown (desc : Nat) (s : State) : Host.Outcome State Fault Refusal :=
  .next (runAdmin s 0x81 desc (fun s =>
    let d := aDom desc
    if (s.dom d).st != .active then (0x15, s, true)
    else
      let s1 := teardown s d
      (0, s1.setDom d { s1.dom d with tearCtx := true }, false)))

/-- DOM_SET (R302). -/
def execDomSet (desc : Nat) (s : State) : Host.Outcome State Fault Refusal :=
  .next (runAdmin s 0x82 desc (fun s =>
    let d := aDom desc
    let quota := bits (dw desc 2) 15 0
    if quota = 0 then (0x01, s, true)
    else if (s.dom d).st != .active then (0x15, s, true)
    else (0, s.setDom d { s.dom d with quota := quota, memlim := bits (dw desc 3) 31 0 }, true)))

/-- Q_CREATE (R37, R290): the context leaves FREE for IDLE with its home region, optionally as the domain's step queue. -/
def execQCreate (desc : Nat) (s : State) : Host.Outcome State Fault Refusal :=
  .next (runAdmin s 0x83 desc (fun s =>
    let d := aDom desc
    let q := aQueue desc
    let k := (s.dom d).qbase + q
    let stepq := bit (dw desc 1) 34
    if (s.dom d).st != .active then (0x15, s, true)
    else if q ≥ (s.dom d).qcount || (s.ctx k).made || (stepq && (s.dom d).stepqEn) then (0x17, s, true)
    else
      let s1 := s.setCtx k { ctxDflt k with made := true, home := bits (dw desc 1) 33 32, stepq := stepq }
      (0, if stepq then s1.setDom d { s1.dom d with stepqEn := true } else s1, true)))

/-- Whether a context has a command admitted and not yet reported: INFLIGHT ≠ 0 (Table 10-7). -/
def inFlight (c : Ctx) : Bool :=
  match c.cmd with
  | some x => x.admitted
  | none => false

/-- Q_DELETE (R296): refused with a command in flight; a refused command's record that still waits is discarded, a deferred command dropped. -/
def execQDelete (desc : Nat) (s : State) : Host.Outcome State Fault Refusal :=
  .next (runAdmin s 0x84 desc (fun s =>
    let d := aDom desc
    let q := aQueue desc
    let k := (s.dom d).qbase + q
    if (s.dom d).st != .active then (0x15, s, true)
    else if q ≥ (s.dom d).qcount then (0x17, s, true)
    else if !(s.ctx k).made || inFlight (s.ctx k) then (0x15, s, true)
    else
      let s0 := match (s.ctx k).cmd with
        | some c => closeMuted s k c
        | none => s
      let s1 := s0.setCtx k (ctxDflt k)
      (0, if (s.ctx k).stepq then s1.setDom d { s1.dom d with stepqEn := false } else s1, true)))

/-- Q_RESET (R290): a KILLED or ERROR context returns to IDLE with HEAD and TAIL 0. -/
def execQReset (desc : Nat) (s : State) : Host.Outcome State Fault Refusal :=
  .next (runAdmin s 0x85 desc (fun s =>
    let d := aDom desc
    let q := aQueue desc
    let k := (s.dom d).qbase + q
    let c := s.ctx k
    if (s.dom d).st != .active then (0x15, s, true)
    else if q ≥ (s.dom d).qcount then (0x17, s, true)
    else if !c.made || (c.kill == .no && c.errc == 0) then (0x15, s, true)
    else (0, s.setCtx k { c with kill := .no, errc := 0, enable := false, head := 0, tail := 0 }, true)))

/-! ## PERST_L and FLR (R292, R297) -/

/-- A context under PERST_L: KILLED, ENABLE = 0, deferred commands discarded; rings, HEAD, TAIL and CMD_CQ_TAIL kept. -/
def perstCtx (c : Ctx) : Ctx := if c.made then { c with kill := .host, enable := false, defer := none } else c

/-- The number by which packets of an EXPORT name the context of their command. -/
def exportSrc (k : Nat) : Nat := 2 ^ 33 + k
def isExport (src : Nat) : Bool := 2 ^ 33 ≤ src && src < 2 ^ 34

/-- An EXPORT stopped after its current page: its other packets are not sent (R297). -/
def stopExport (k : Nat) (s : State) (p : Nat) : State :=
  let x := s.port p
  match x.tx.find? (fun t => t.src == exportSrc k) with
  | none => s
  | some f =>
    let page (t : TxPkt) : Nat := bits t.pkt.hdr 335 315
    s.setPort p { x with tx := x.tx.filter (fun t => t.src != exportSrc k || (page t == page f && !t.last)) }

/-- A context's command under PERST_L: one that has ended is closed without a record; a STEP that has started and a FREEZE that is held
run on without one; any other stops ABORTED. -/
def perstCmd (s : State) (k : Nat) : State :=
  match (s.ctx k).cmd with
  | none => s
  | some c =>
    if k = adminKey then s
    else if c.fin != .running then closeMuted s k c
    else if dOpc c.desc = 0x10 ∨ dOpc c.desc = 0x32 then s.setCtx k { s.ctx k with cmd := some { c with muted := true } }
    else
      let s2 := closeMuted s k { c with fin := .ended 0x20 0 }
      if dOpc c.desc = 0x30 then s2.each (List.range 8) (stopExport k)
      else if dOpc c.desc = 0x31 then s2.setDay c.dom { s2.day c.dom with imps := (s2.day c.dom).imps.filter (fun i => i.ctx != k) } else s2

/-- A mailbox request that is BUSY loses its response (R339). -/
def mbLost (m : Mailbox) : Mailbox := if m.st == .busy then { m with drop := true } else m

/-- PERST_L_ASSERT (R297). The admin queue's registers return to 0. -/
def execPerstLAssert (s : State) : Host.Outcome State Fault Refusal :=
  .next (if s.cp.perst then s
    else
      let s1 := linkDown { s with cp := { s.cp with perst := true, msix := [] }, mgt := { s.mgt with mb := mbLost s.mgt.mb } }
      let s2 := { s1 with cp := { s1.cp with ctxs := s1.cp.ctxs.map (fun (e : Nat × Ctx) => (e.1, if e.1 = adminKey then e.2 else perstCtx e.2)) } }
      let s3 := s2.each (s2.cp.ctxs.map (fun (e : Nat × Ctx) => e.1)) perstCmd
      let s4 := s3.countIf ((s3.ctx adminKey).cmd.isSome) (kCmdPerf 5)
      let s5 := s4.setCtx adminKey { ctxDflt adminKey with sqLog := 0, cqLog := 0 }
      s5.each (List.range 16) (fun s d => s.setDom d { s.dom d with tearCtx := false }))

/-- PERST_L_RELEASE (R284, R297): the link trains again, once the lock has let the PCIe core follow PERST_L (R377). -/
def execPerstLRelease (fullRate : Bool) (s : State) : Host.Outcome State Fault Refusal :=
  .next (if !s.cp.perst then s
    else
      let s1 := { s with cp := { s.cp with perst := false } }
      if s.sec.lock && s.pwr.rails == .up && s.cp.pcieRef then linkTrains s1 fullRate else s1)

/-- The MSI-X table of a function after its reset. -/
def flrMsix (s : State) (fn : Nat) : State :=
  { s with cp := { s.cp with msix := s.cp.msix.filter (fun e => e.1 / 256 != fn) } }

/-- A domain torn down by an FLR, or under teardown already: its contexts are KILLED (R296). -/
def flrDom (s : State) (d : Nat) : State :=
  if (s.dom d).st == .free then s else mapCtxs (teardown s d) d (fun c => if c.made then { c with kill := .host } else c)

/-- FLR (R292): VF n tears down domain n - 1; the PF tears down every domain, and its mailbox request loses its response (R339). -/
def execFlr (fn : Nat) (s : State) : Host.Outcome State Fault Refusal :=
  .next (if fn > 16 || !hostUp s then s
    else if fn = 0 then
      let s1 := (flrMsix s 0).each (List.range 16) flrDom
      let s2 := (s1.setCtx adminKey (ctxDflt adminKey)).each (List.range 16) (fun s d => s.setDom d { s.dom d with tearCtx := false })
      { s2 with mgt := { s2.mgt with mb := mbLost s2.mgt.mb } }
    else flrDom (flrMsix s fn) (fn - 1))

end Sys2Proof.Machine
end

