-- ==== Sys2Proof/Machine/Memory.lean ====
section
/-!
DEFINITION. The data plane's memory (R122 to R125, R133, R134, R166 to R169): translation line by line, plain reads and writes,
reduction slots with their bindings and deposits, consuming reads; tensor scale records (R46 to R49).
-/

namespace Sys2Proof.Machine

/-! ## Translation (R122, R124) -/

/-- Segment and offset of a module address (R122). -/
def maSeg (a : Nat) : Nat := a / 2 ^ 28 % 4096
def maOff (a : Nat) : Nat := a % 2 ^ 28

/-- The key of a slot binding, and its parts. -/
def slotKey (cell d seg slot : Nat) : Nat := ((cell * 16 + d) * 4096 + seg) * 4096 + slot
def keyCell (k : Nat) : Nat := k / 2 ^ 28
def keyDom (k : Nat) : Nat := k / 2 ^ 24 % 16
def keySeg (k : Nat) : Nat := k / 4096 % 4096
def keySlot (k : Nat) : Nat := k % 4096

/-- Where a line lies: not performed, at a physical address, or in a slot at a byte offset. -/
inductive Loc where
  | miss
  | pa (a : Nat)
  | slot (key off : Nat)
  deriving DecidableEq, Repr

/-- The translation of R124 of offset o of a segment. -/
def segLoc (g : Seg) (d seg o : Nat) : Loc :=
  let span := g.span * 65536
  if !g.valid || o ≥ g.size * 64 then .miss
  else if g.kind = 0 then .pa (if g.tier then g.base + o else sliceBase g.cell0 + g.base + o)
  else if span = 0 || o / span ≥ g.ncell then .miss
  else if g.kind = 1 then .pa (if g.tier then g.base + o else sliceBase (g.cell0 + o / span) + g.base + o % span)
  else .slot (slotKey (g.cell0 + o / span) d seg (o / 65536)) (o % 65536)

/-- The translation of a module address in a domain. -/
def maLoc (s : State) (d a : Nat) : Loc := segLoc (s.seg d (maSeg a)) d (maSeg a) (maOff a)

/-- Physical address of pool slot p of a cell (Table 5-4). -/
def poolBase (s : State) (cell p : Nat) : Nat := sliceBase cell + (128 - poolSlots s (cell / 96) + p) * 65536

/-- Where a slot's 64 KiB lie in the spill area of its segment (R133). -/
def spillBase (s : State) (key : Nat) : Nat := (s.seg (keyDom key) (keySeg key)).sbase + keySlot key * 65536

/-- Where a bound slot's 64 KiB lie (R134). -/
def slotBase (s : State) (key : Nat) (b : Bind) : Nat :=
  if b.spill then spillBase s key else poolBase s (keyCell key) b.pool

/-- Whether a slot's first write still waits for the zero fill of its spill area (R134). -/
def fillOwed (s : State) (key : Nat) : Bool := s.back.held.any (fun h => h.key == key && h.zero)

/-- `n` bytes at an offset of a bound slot: +0 until the zero fill of a spilled one is done. -/
def slotRd (s : State) (key : Nat) (b : Bind) (off n : Nat) : List Byte :=
  if b.spill && fillOwed s key then fill n 0 else s.rdBytes (slotBase s key b + off) n

/-- Lines that a range of `n` bytes at `a` touches. -/
def linesOf (a n : Nat) : List Nat :=
  if n = 0 then [] else (List.range ((a + n - 1) / 64 + 1 - a / 64)).map (fun i => (a / 64 + i) * 64)

/-- A plain read of one line (R134): none where it is not performed. -/
def ldLine (s : State) (d la : Nat) : Option (List Byte) :=
  match maLoc s d la with
  | .miss => none
  | .pa a => some (s.rdBytes a 64)
  | .slot key off => some (match s.bind key with
    | some b => slotRd s key b off 64
    | none => fill 64 0)

/-- A plain read of `n` bytes: the bytes, zeros from lines not performed, and the number of those lines. -/
def ldBytes (s : State) (d a n : Nat) : List Byte × Nat :=
  let ls := (linesOf a n).map (ldLine s d)
  (((ls.flatMap (fun l => l.getD (fill 64 0))).drop (a % 64)).take n, (ls.filter Option.isNone).length)

/-- A little-endian number read. -/
def ldNat (s : State) (d a n : Nat) : Nat × Nat :=
  let r := ldBytes s d a n
  (leNat r.1, r.2)

/-- Lines not performed by a block: counted in MEM_BOUND, and the block's non-finite bit is set (R124). -/
def boundEvt (s : State) (b n : Nat) : State :=
  if n = 0 then s else (s.setBlk b { s.blk b with nonfin := true }).count (kMem 6) n

/-! ## Reduction slots (R133, R134, R166 to R168) -/

/-- The bindings of a cell. -/
def bindsOf (s : State) (cell : Nat) : List (Nat × Bind) := s.binds.filter (fun e => keyCell e.1 == cell)

/-- Pool slots of a cell that bindings may take: all but the four staging slots of logical position 0 (R139). -/
def poolFor (s : State) (cell : Nat) : Nat := poolSlots s (cell / 96) - (if cell % 16 = 0 then 4 else 0)

/-- The lowest free pool slot of a cell. -/
def freePool (s : State) (cell : Nat) : Option Nat :=
  (List.range (poolFor s cell)).find? (fun p => (bindsOf s cell).all (fun e => e.2.spill || e.2.pool != p))

/-- FP32 addition of every word of two byte lists: ftz(rne32(old + x)) (R134). -/
def addWords (old new : List Byte) : List Byte :=
  (((chunks 4 old).zip (chunks 4 new)).flatMap (fun p =>
    leBytes 4 (add32 (BitVec.ofNat 32 (leNat p.1)) (BitVec.ofNat 32 (leNat p.2))).1.toNat)).take new.length

/-- One access to a bound slot: a write, or an addition. -/
def slotOp (s : State) (base : Nat) (op : Nat × Bool × List Byte) : State :=
  s.wrBytes (base + op.1) (if op.2.1 then addWords (s.rdBytes (base + op.1) op.2.2.length) op.2.2 else op.2.2)

/-- Accesses to a slot, in order; none if it is not bound. -/
def slotOps (s : State) (key : Nat) (ops : List (Nat × Bool × List Byte)) : State :=
  match s.bind key with
  | some b => ops.foldl (fun s op => slotOp s (slotBase s key b) op) s
  | none => s

/-- Memory cleared to zeros. -/
def zeroRange (s : State) (a n : Nat) : State :=
  { s with mem := s.mem.filter (fun e => e.1 < a || a + n ≤ e.1), back := cleanWords s a n }

/-- Whether tag (s1, a1) is newer than (s2, a2) (R153). -/
def tagNewer (s1 a1 s2 a2 : Nat) : Bool :=
  let ds := (s1 + 65536 - s2 % 65536) % 65536
  let da := (a1 + 16 - a2 % 16) % 16
  (1 ≤ ds && ds ≤ 32767) || (ds == 0 && 1 ≤ da && da ≤ 7)

/-- A deposit that cannot be right: counted, and the non-finite bit of the slice's block is set (R168). -/
def anomaly (s : State) (key : Nat) : State :=
  let b := blkOfCell (keyCell key)
  (s.setBlk b { s.blk b with nonfin := true }).count (kSeqPerf b 5) 1

/-- A counted deposit lowers REMAIN; at 0 the slot is complete and is reported to its block's Cutter (R167). -/
def depositDone (s : State) (key : Nat) : State :=
  match s.bind key with
  | none => s
  | some b =>
    let k := blkOfCell (keyCell key)
    let s0 := s.setBlk k { s.blk k with wdt := 0 }
    let s1 := s0.setBind key { b with remain := b.remain - 1 }
    if b.remain = 1 then s1.setBlk k { s1.blk k with ready := (s1.blk k).ready ++ [key] } else s1

/-- A slot is no longer complete for the Cutter. -/
def unready (s : State) (key : Nat) : State :=
  let k := blkOfCell (keyCell key)
  s.setBlk k { s.blk k with ready := (s.blk k).ready.filter (· != key) }

/-- The deposit of accesses is counted, where it is counted with them. -/
def countDeposit (s : State) (h : Held) : State := if h.deposit.isSome && h.counts then depositDone s h.key else s

/-- Accesses and a deposit that meet a bound slot (R168). -/
def onBound (s : State) (b : Bind) (h : Held) : State :=
  match h.deposit with
  | none => slotOps s h.key h.ops
  | some (st, att, ex) =>
    if b.step = st ∧ b.att = att then
      if b.remain = 0 then if h.counts then anomaly s h.key else s
      else
        let s1 := slotOps s h.key h.ops
        countDeposit (if b.exp != ex && h.counts then anomaly s1 h.key else s1) h
    else if tagNewer st att b.step b.att then
      let s1 := zeroRange s (slotBase s h.key b) 65536
      let s2 := (unready s1 h.key).setBind h.key { b with step := st, att := att, exp := ex, remain := ex, used := 0 }
      countDeposit (slotOps (s2.count (kSeqPerf (blkOfCell (keyCell h.key)) 6) 1) h.key h.ops) h
    else if h.counts then s.count (kSeqPerf (blkOfCell (keyCell h.key)) 10) 1
    else s

/-- The running STEP of a domain is marked as having spilled or waited for staging (R303). -/
def markSpl (s : State) (d : Nat) : State :=
  if (s.stp d).order == .none then s else modCmd s (s.stp d).ctx (fun c => { c with spl := true })

/-- Accesses to a slot go behind those already held. -/
def holdSlot (s : State) (h : Held) : State := { s with back := { s.back with held := s.back.held ++ [h] } }

/-- Accesses to a slot: behind held ones of the same slot, for the zero fill that those wait for, if any; in place where it is bound; else the
slot is bound, to a free pool slot or spilled, or the accesses are held (R134, R167). An access that makes no deposit binds with no deposits
expected. -/
def slotWrite (s : State) (h : Held) : State :=
  if s.back.held.any (fun x => x.key == h.key) then holdSlot s { h with zero := fillOwed s h.key }
  else match s.bind h.key with
    | some b => onBound s b h
    | none =>
      let cell := keyCell h.key
      let tag := h.deposit.getD (bits (s.stp (keyDom h.key)).no 15 0, (s.stp (keyDom h.key)).att % 16, 0)
      let nb : Bind := { spill := true, att := tag.2.1, pool := 0, step := tag.1, exp := tag.2.2, remain := tag.2.2, used := 0 }
      if (bindsOf s cell).length ≥ 256 then holdSlot s { h with zero := false }
      else match freePool s cell with
        | some p =>
          let b := { nb with spill := false, pool := p }
          let s1 := slotOps (s.setBind h.key b) h.key h.ops
          countDeposit s1 h
        | none => markSpl (holdSlot ((s.setBind h.key nb).count (kMem 2) 1) { h with zero := true }) (keyDom h.key)

/-- The signals of transfers that hold no access any more are posted (R263). -/
def postOwed (s : State) : State :=
  let stays (q : Nat × Sig) : Bool := s.back.held.any (fun h => h.src == q.1)
  { s with
    sigs := s.sigs ++ (s.back.sigq.filter (fun q => !stays q)).map (·.2)
    back := { s.back with sigq := s.back.sigq.filter stays } }

/-- All accesses held for a slot are taken off and performed again in order. -/
def releaseHeld (s : State) (key : Nat) (perform : State → Held → State) : State :=
  let hs := s.back.held.filter (fun h => h.key == key)
  let s1 := { s with back := { s.back with held := s.back.held.filter (fun h => h.key != key) } }
  postOwed (hs.foldl perform s1)

/-- The first accesses of a cell that are held for a binding entry (false) or a zero fill (true). -/
def firstHeld (s : State) (cell : Nat) (zero : Bool) : Option Held :=
  s.back.held.find? (fun h => keyCell h.key == cell && h.zero == zero)

/-- BIND_WAIT_END (R134): an entry of the cell's full table has freed; the held binding write goes on. -/
def execBindWaitEnd (cell cycles : Nat) (s : State) : Host.Outcome State Fault Refusal :=
  .next (match firstHeld s cell false with
    | none => s
    | some h =>
      if (bindsOf s cell).length ≥ 256 then s
      else releaseHeld (s.count (kMem 3) cycles) h.key slotWrite)

/-- SPILL_ZERO_FILL_DONE (R134): the spilled slot's lines are zero, and the held binding write is performed. -/
def execSpillZeroFillDone (cell : Nat) (s : State) : Host.Outcome State Fault Refusal :=
  .next (match firstHeld s cell true with
    | none => s
    | some h =>
      match s.bind h.key with
      | none => releaseHeld s h.key slotWrite
      | some b => releaseHeld (zeroRange s (slotBase s h.key b) 65536) h.key (fun s x =>
          match s.bind x.key with
          | some y => onBound s y x
          | none => slotWrite s x))

/-- A slot's binding is removed (R134). -/
def unbind (s : State) (key : Nat) : State := (unready s key).delBind key

/-- A consuming read of the line at byte offset `off` of a slot (R134): its value, the line zeroed and marked; the binding is removed
when all 1,024 lines have been consumed. -/
def consumeLine (s : State) (key off : Nat) : List Byte × State :=
  match s.bind key with
  | none => (fill 64 0, s)
  | some b =>
    let a := slotBase s key b + off
    let used := mset b.used (off / 64)
    let s1 := zeroRange s a 64
    (slotRd s key b off 64, if used = 2 ^ 1024 - 1 then unbind s1 key else s1.setBind key { b with used := used })

/-- A consuming read of a whole slot. -/
def consumeSlot (s : State) (key : Nat) : List Byte × State :=
  match s.bind key with
  | none => (fill 65536 0, s)
  | some b => (slotRd s key b 0 65536, unbind (zeroRange s (slotBase s key b) 65536) key)

/-- The current value of a slot, by a plain read. -/
def slotBytes (s : State) (key : Nat) : List Byte :=
  match s.bind key with
  | none => fill 65536 0
  | some b => slotRd s key b 0 65536

/-! ## Writes -/

/-- One piece of a plain write that lies in one line, by block `b` and item `src`. -/
def stLine (b d src : Nat) (s : State) (p : Nat × List Byte) : State :=
  match maLoc s d p.1 with
  | .miss => boundEvt s b 1
  | .pa a => s.wrBytes a p.2
  | .slot key off => slotWrite s { key := key, zero := false, src := src, ops := [(off, false, p.2)], deposit := none, counts := false }

/-- A range of bytes cut at line boundaries: address and bytes of each piece. -/
def pieces (a : Nat) (bs : List Byte) : List (Nat × List Byte) :=
  (linesOf a bs.length).map (fun la =>
    let lo := max la a
    (lo, (bs.drop (lo - a)).take (la + 64 - lo)))

/-- A plain write of bytes at a module address. -/
def stBytes (s : State) (b d src a : Nat) (bs : List Byte) : State := (pieces a bs).foldl (stLine b d src) s

/-- An add of FP32 words at a module address: the slots touched and their accesses; lines outside REDUCE segments are not
performed (R263). -/
def addParts (s : State) (d a : Nat) (bs : List Byte) : List (Nat × Nat × Bool × List Byte) × Nat :=
  let ps := (pieces a bs).map (fun p => (maLoc s d p.1, p.2))
  (ps.filterMap (fun p => match p.1 with
    | .slot key off => some (key, off, true, p.2)
    | _ => none), (ps.filter (fun p => match p.1 with
    | .slot _ _ => false
    | _ => true)).length)

/-- Adds gathered by slot in the order of the slots' first touch. -/
def bySlot (l : List (Nat × Nat × Bool × List Byte)) : List (Nat × List (Nat × Bool × List Byte)) :=
  ((l.map (·.1)).eraseDups).map (fun k => (k, (l.filter (fun e => e.1 == k)).map (·.2)))

/-- The adds of one item or packet, one deposit for each slot touched (R166), by block `b`; `counts`: the deposits are counted with them. -/
def depositAdds (s : State) (b src st att ex : Nat) (counts : Bool) (l : List (Nat × Nat × Bool × List Byte)) (misses : Nat) : State :=
  (bySlot l).foldl (fun s e =>
    slotWrite s { key := e.1, zero := false, src := src, ops := e.2, deposit := some (st % 65536, att % 16, ex)
                  counts := counts })
    (boundEvt s b misses)

/-- The adds of an item, its deposits counted. -/
def depositAll (s : State) (b src st att ex : Nat) (l : List (Nat × Nat × Bool × List Byte)) (misses : Nat) : State :=
  depositAdds s b src st att ex true l misses

/-! ## Tensor scale records (R46 to R49) -/

/-- OPEN (R47). -/
def recOpen (w : Nat) : Nat :=
  setBits (setBits (setBits (setBits (setBits w 447 416 0) 415 384 0) 303 300 0) 383 364 0xFFFFF) 363 344 0xFFFFF

/-- History entry i of a record. -/
def histOf (w i : Nat) : Nat := bits w (32 * i + 543) (32 * i + 512)

/-- COARSE of R49 from the largest history entry. -/
def coarseOf (w h : Nat) : Word :=
  if bits w 295 291 = 0 ∨ h = 0 then 0x3F800000
  else match fmtOf (bits w 299 296), val32 (BitVec.ofNat 32 h) with
    | some f, .fin _ m e => clampScale (wrQ32 false m (fmtMax f).1 (e + bits w 286 284 - (fmtMax f).2)).1
    | _, _ => 0x3F800000

/-- CLOSE (R49); `unit`: a GRAD record in legacy scaling mode (R51), whose scale is 1.0. -/
def recClose (w st att : Nat) (unit : Bool) : Nat :=
  let s16 := st % 65536
  let w1 := if s16 != bits w 319 304 then
      setBits (setBits (setBits (setBits w 319 304 s16) 281 278 att) 277 274 (bits w 290 287)) 273 269 (bits w 295 291)
    else if att % 16 != bits w 281 278 then
      setBits (setBits (setBits w 290 287 (bits w 277 274)) 295 291 (bits w 273 269)) 281 278 att
    else w
  let hd := bits w1 290 287
  let w2 := if bits w1 415 384 = 0 then
      setBits (setBits (setBits w1 (32 * hd + 543) (32 * hd + 512) (bits w1 447 416)) 290 287 ((hd + 1) % 16)) 295 291
        (min (bits w1 295 291 + 1) 16)
    else w1
  let h := (List.range (bits w2 295 291)).foldl (fun m i => max m (histOf w2 ((bits w2 290 287 + 15 - i) % 16))) 0
  let c := if unit then (0x3F800000 : Word) else coarseOf w2 h
  let r := if unit then (0x3F800000 : Word) else clampScale (div32 0x3F800000 c).1
  setBits (setBits (setBits w2 511 480 c.toNat) 479 448 r.toNat) 268 0 0

/-- The read-modify-write of R48. -/
def recUpdate (w : Nat) (u : RecAdd) : Nat :=
  let w1 := setBits w 447 416 (max (bits w 447 416) u.amax)
  let w2 := setBits w1 415 384 (min (bits w1 415 384 + u.cnt) 0xFFFFFFFF)
  let w3 := setBits w2 303 300 (bits w2 303 300 ||| u.kind % 16)
  match u.at? with
  | none => w3
  | some (r, c) =>
    let r0 := bits w3 383 364
    let c0 := bits w3 363 344
    if r < r0 ∨ (r = r0 ∧ c < c0) then setBits (setBits w3 383 364 r) 363 344 c else w3

/-- A record at a module address changed by block `b`. -/
def modRec (s : State) (b d a : Nat) (f : Nat → Nat) : State :=
  let r := ldNat s d a 128
  stBytes (boundEvt s b r.2) b d 0 a (leBytes 128 (f r.1))

/-- The block's non-finite bit set (R66). -/
def setNonfin (s : State) (b : Nat) (c : Bool) : State := if c then s.setBlk b { s.blk b with nonfin := true } else s

/-- The update of R48 made by block b: of a scaled output all of it, of another its exception fields alone (R90, R105). -/
def updRecord (s : State) (b d a : Nat) (f : Fmt) (u : RecAdd) : State :=
  modRec s b d a (fun w => recUpdate w (if isScaled f then u else { u with amax := 0 }))

/-- What a chain does once its last write has completed (R114): record updates, the non-finite bit, the count word. -/
def payOwed (s : State) (b d : Nat) (o : Owed) : State :=
  let s1 := setNonfin (o.recs.foldl (fun s r => updRecord s b d r.1 r.2.1 r.2.2) s) b o.nonfin
  match o.cnt with
  | some c => stBytes s1 b d 0 c.1 (leBytes 4 c.2)
  | none => s1

end Sys2Proof.Machine
end

