-- ==== Sys2Proof/Machine/Image.lean ====
section
/-!
DEFINITION. The program image that PROG_LOAD reads (R300): header, sections, and the tables they carry. The layout inside the LISTS section
is the model's choice (DESIGN CHOICE, log entry 9).
-/

namespace Sys2Proof.Machine

/-- A program taken apart. `sets` is the mask of the list sets that it holds; `items` the work items in the order of the section, each with
its list set, block and list. -/
structure Image where
  segs : List Seg
  pages : List PageRow
  records : List Byte
  problems : List Problem
  hdrs : List WcHdr
  items : List (Nat × Nat × Nat × Item)
  sets : Nat

/-- A refusal of a program: reason and DETAIL. -/
abbrev Bad := Nat × Nat

/-- DETAIL of a section type and an item index (Table 10-11). -/
def detailOf (ty i : Nat) : Nat := ty % 16 * 2 ^ 28 + i % 2 ^ 28

/-- PROG_CHECK at an item of a section. -/
def progCheck (ty i : Nat) : Bad := (0x04, detailOf ty i)

/-- A section: type, offset, length. -/
abbrev Sect := Nat × Nat × Nat

/-- The sections of an image: none where the header is wrong, a type unknown, a section outside the image, or two overlap (R300). A section
that reaches into the header or the entries, or a type given twice, counts as an overlap. -/
def sections (im : List Byte) : Option (List Sect) :=
  let n := leNat ((im.drop 6).take 2)
  let ss := ((chunks 16 ((im.drop 64).take (16 * n))).map (fun e =>
    (leNat (e.take 4), leNat ((e.drop 4).take 6), leNat ((e.drop 10).take 6)) : List Byte → Sect))
  let apart (a b : Sect) : Bool := a.2.2 == 0 || b.2.2 == 0 || a.2.1 + a.2.2 ≤ b.2.1 || b.2.1 + b.2.2 ≤ a.2.1
  let each := ss.all (fun x => 1 ≤ x.1 && x.1 ≤ 6 && x.2.1 + x.2.2 ≤ im.length && (x.2.2 == 0 || 64 + 16 * n ≤ x.2.1))
  if im.length < 64 + 16 * n || leNat (im.take 4) != 0x31445055 || leNat ((im.drop 4).take 2) != 1 then none
  else if each && ss.Pairwise (fun a b => a.1 ≠ b.1) && ss.Pairwise (fun a b => apart a b = true) then some ss
  else none

/-- The bytes of a section; none where the image has no such section. -/
def sectBytes (im : List Byte) (ss : List Sect) (ty : Nat) : List Byte :=
  match ss.find? (fun x => x.1 == ty) with
  | some x => (im.drop x.2.1).take x.2.2
  | none => []

/-- A record page's row (Table 10-10). -/
def pageRow (w : Nat) : PageRow :=
  { page := bits w 63 43, owner := bits w 42 34, layer := bits w 33 14, image := bits w 13 12 == 1 }

/-- A row whose INIT is reserved, whose cell does not exist, or with a reserved bit set. -/
def pageRowBad (w : Nat) : Bool := bits w 13 12 > 1 || bits w 11 0 != 0 || bits w 42 34 ≥ 384

/-- A working-copy header (Table 6-8); HOLD0, HOLD1 and EPEND start at 0. -/
def wcHdrOf (w : Nat) : WcHdr :=
  { vcur := bits w 127 96, vprev := bits w 95 64, hold0 := 0, hold1 := 0, seg0 := bits w 31 20, seg1 := bits w 19 8, epend := false }

/-- The problem descriptors of a byte list (R183); `fuel` bounds their number. -/
def problemsOf : Nat → List Byte → List Problem
  | 0, _ => []
  | _ + 1, [] => []
  | fuel + 1, bs =>
    let h := leNat (bs.take 64)
    let n := bits h 505 501 + 1
    { hdr := h, blks := (chunks 32 ((bs.drop 64).take (32 * n))).map leNat } :: problemsOf fuel (bs.drop (64 + 32 * n))

/-- Whether a problem section divides into whole descriptors. -/
def problemsWhole : Nat → List Byte → Bool
  | 0, bs => bs.isEmpty
  | fuel + 1, bs =>
    bs.isEmpty || (let n := bits (leNat (bs.take 64)) 505 501 + 1
      64 + 32 * n ≤ bs.length && problemsWhole fuel (bs.drop (64 + 32 * n)))

/-- One list of the LISTS section: its list set, block and list number, and its items. -/
abbrev WorkList := (Nat × Nat × Nat) × List Item

/-- The lists of the LISTS section: each an 8-byte header (list set, block, list, a zero byte, a 4-byte item count) followed by its items
(DESIGN CHOICE, log entry 9); none where the section is cut short or a header names a list that does not exist. -/
def listsOf : Nat → List Byte → Option (List WorkList)
  | 0, bs => if bs.isEmpty then some [] else none
  | fuel + 1, bs =>
    if bs.isEmpty then some []
    else
      let h := leNat (bs.take 8)
      let n := bits h 63 32
      let bad := bits h 7 0 ≥ 8 || bits h 15 8 ≥ 24 || bits h 23 16 ≥ 18 || bits h 31 24 != 0
      if bad || bs.length < 8 + 256 * n then none
      else
        match listsOf fuel (bs.drop (8 + 256 * n)) with
        | some r => some (((bits h 7 0, bits h 15 8, bits h 23 16), (chunks 256 ((bs.drop 8).take (256 * n))).map (fun b => itemOf (leNat b))) :: r)
        | none => none

/-- The items of the lists in order, with list set, block and list. -/
def itemsOf (ls : List WorkList) : List (Nat × Nat × Nat × Item) :=
  ls.flatMap (fun l => l.2.map (fun i => (l.1.1, l.1.2.1, l.1.2.2, i)))

/-- The lists where none is given twice. -/
def listsOnce (o : Option (List WorkList)) : Option (List WorkList) :=
  match o with
  | some ls => if (ls.map (·.1)).Nodup then some ls else none
  | none => none

/-- An image taken apart, or its refusal. -/
def parseImage (im : List Byte) : Except Bad Image :=
  match sections im with
  | none => .error (progCheck 0 0)
  | some ss =>
    let b := sectBytes im ss
    let pw := (chunks 8 (b 2)).map leNat
    let badPage := (List.range pw.length).find? (fun i => pageRowBad (pw.getD i 0))
    if (b 1).length % 32 != 0 || (b 1).length > 32 * 4096 then .error (progCheck 1 0)
    else if (b 2).length % 8 != 0 then .error (progCheck 2 0)
    else if let some i := badPage then .error (progCheck 2 i)
    else if (b 3).length != 131072 * (pw.filter (fun w => bits w 13 12 == 1)).length then .error (progCheck 3 0)
    else if !problemsWhole 1024 (b 4) then .error (progCheck 4 0)
    else if (b 5).length % 16 != 0 || (b 5).length > 16 * 4096 then .error (progCheck 5 0)
    else match listsOnce (listsOf 3456 (b 6)) with
    | none => .error (progCheck 6 0)
    | some ls => .ok {
      segs := (chunks 32 (b 1)).map (fun e => segOf (leNat e))
      pages := pw.map pageRow
      records := b 3
      problems := problemsOf 1024 (b 4)
      hdrs := (chunks 16 (b 5)).map (fun e => wcHdrOf (leNat e))
      items := itemsOf ls
      sets := ls.foldl (fun a l => mset a l.1.1) 0 }

/-- Segment k of an image. -/
def Image.seg (m : Image) (k : Nat) : Seg := m.segs.getD k segNone

/-- Whether `n` bytes at a module address lie in one valid segment. -/
def Image.inSeg (m : Image) (a n : Nat) : Bool :=
  let g := m.seg (maSeg a)
  g.valid && maOff a + n ≤ g.size * 64

/-- Whether an address lies in a REDUCE segment. -/
def Image.inReduce (m : Image) (a : Nat) : Bool := (m.seg (maSeg a)).valid && (m.seg (maSeg a)).kind == 2

/-- The blocks that hold lists, and that the program names: those with an item in any list set. Segments or pages in a block's cells do
not name it (R21; DESIGN CHOICE, log entry 98). -/
def Image.blocks (m : Image) : Nat := m.items.foldl (fun a i => mset a i.2.1) 0

/-- The items of one list. -/
def Image.list (m : Image) (lset blk l : Nat) : List Item :=
  (m.items.filter (fun i => i.1 == lset && i.2.1 == blk && i.2.2.1 == l)).map (fun i => i.2.2.2)

end Sys2Proof.Machine
end

