-- ==== Sys2Proof/Machine/Admission.lean ====
section
/-!
DEFINITION. The checks on a program before any of it is placed (R8, R11, R84, R91, R116, R127, R130, R149, R156, R175, R210, R242, R260).
Each check answers true where the program is to be refused.
-/

namespace Sys2Proof.Machine

/-- A reserved FMT code (R8). -/
def fmtBad (c : Nat) : Bool := (fmtOf c).isNone

/-- A format code's format; FP32 where the code is reserved. -/
def fmtD (c : Nat) : Fmt := (fmtOf c).getD .fp32

/-! ## Segments (R127, R133) -/

/-- Fields of a segment entry outside the ranges of Table 5-3. -/
def segRange (g : Seg) : Bool :=
  g.size = 0 || g.size > 4194304 || g.cell0 ≥ 384 ||
    (g.kind != 0 && (g.ncell = 0 || g.cell0 + g.ncell > 384 || g.span = 0 || g.span > 256))

/-- R127 and R133 on segment k. A scaled segment is one in FP8, FP6 or FP4 (R126). -/
def segBad (m : Image) (k : Nat) : Bool :=
  let g := m.seg k
  g.reserved || g.kind == 3 || segRange g || (g.kind != 0 && g.span * g.ncell * 65536 < g.size * 64)
    || ((segFmt g == .e3m2 || segFmt g == .e2m3) && g.span % 3 != 0)
    || (isNarrow (segFmt g) && (maSeg g.recA == k || !m.inSeg g.recA 128))
    || (g.kind == 2 && (segFmt g != .fp32 || g.tier))

/-- An output whose REC_ADDR differs from the REC of its scaled segment (R127). -/
def recDiffers (m : Image) (out recA : Nat) : Bool :=
  let g := m.seg (maSeg out)
  g.valid && isNarrow (segFmt g) && g.recA != recA

/-! ## Tile descriptors (R91) -/

/-- The output columns that a pair gives in one operation, in 32s (R72). -/
def colBlocks (s t : Fmt) : Nat := if s == .e2m1 && t == .e2m1 then 2 else 1

/-- R91, and the last line of R127. `vec`: the item is a TILE_VEC. -/
def tileBad (m : Image) (d : TileDesc) (vec : Bool) : Bool :=
  let s := fmtD d.fmtS
  let t := fmtD d.fmtT
  let o := fmtD d.fmtO
  (d.opc != 0x20 && d.opc != 0x21) || d.srcS > 1 || d.portMap > 1 || d.accInit > 1 || d.drain > 2 || d.reserved
    || d.arrEn = 0 || d.kBlks = 0 || d.mtBlks = 0 || d.mtBlks > 8 / colBlocks s t || !pairOk s t || o == .mask
    || (d.drain = 1 && o != (if s == .int8 then .int32 else .fp32))
    || (d.drain = 2 && (d.opc != 0x21 || o != .fp32 || s == .int8)) || (d.chgEn && d.drain != 2)
    || !m.inSeg d.recAddr 128 || (m.inReduce d.oAddr && d.drain != 1) || (d.drain = 2 && m.inReduce d.altAddr) || recDiffers m d.oAddr d.recAddr
    || (d.srcS = 1 && !vec)

/-! ## Chain descriptors (R116, R130) -/

/-- Whether an operation code is one of Table 4-2, and whether a TYPE suits it. -/
def opTypeOk (op ty : Nat) : Bool :=
  if op ≤ 0x05 then ty ≤ 2
  else if (0x08 ≤ op ∧ op ≤ 0x0A) ∨ (0x10 ≤ op ∧ op ≤ 0x12) ∨ op = 0x2C ∨ op = 0x2D then ty = 1 || ty = 2
  else if (0x20 ≤ op ∧ op ≤ 0x28) ∨ (0x40 ≤ op ∧ op ≤ 0x49) then ty = 0
  else if (0x30 ≤ op ∧ op ≤ 0x33) ∨ (0x50 ≤ op ∧ op ≤ 0x54) then ty ≤ 2
  else false

/-- A selector that stage s may not use: reserved, a disabled input, itself or a later stage (R103). -/
def selBad (d : ChainDesc) (s sel : Nat) : Bool :=
  if sel < 3 then !bit d.inEn sel else if sel < 8 then false else sel = 15 || sel - 8 ≥ s

/-- How many operands an operation uses (Table 4-2). -/
def opArity (op : Nat) : Nat :=
  if op = 0x23 ∨ op = 0x24 ∨ op = 0x31 then 3
  else if [0x00, 0x05, 0x25, 0x26, 0x28, 0x2C, 0x2D, 0x51, 0x52, 0x53, 0x54].contains op ∨ (0x40 ≤ op ∧ op ≤ 0x49) then 1
  else 2

/-- An operand that the operation does not use selects something other than 0x7 (R103). -/
def unusedBad (g : Stage) : Bool := (opArity g.op < 2 && g.sb != 7) || (opArity g.op < 3 && g.sc != 7)

/-- A stage that breaks Table 4-2 or R103. -/
def stageBad (d : ChainDesc) (i : Nat) : Bool :=
  let g := d.stages.getD i (stageOf 0)
  g.reserved || !opTypeOk g.op g.ty || selBad d i g.sa || selBad d i g.sb || selBad d i g.sc || unusedBad g
    || (if g.op = 0x30 then g.mod > 6 || (g.ty != 0 && g.mod = 6) else g.mod != 0)

/-- Whether a stage's result depends on an expanded input, through at most `fuel` stages. -/
def onExpanded (d : ChainDesc) : Nat → Nat → Bool
  | 0, _ => false
  | fuel + 1, i =>
    let g := d.stages.getD i (stageOf 0)
    [g.sa, g.sb, g.sc].any (fun sel =>
      if sel < 3 then d.inMode.getD sel 0 == 1 else if sel < 8 then false else onExpanded d fuel (sel - 8))

/-- An MSRC that names a disabled input or a stage beyond NSTG, whether or not it is used (R116). -/
def msrcNone (d : ChainDesc) : Bool := if d.msrc < 3 then !bit d.inEn d.msrc else d.msrc - 8 ≥ d.nstg

/-- An MSRC that breaks R110. -/
def msrcBad (d : ChainDesc) : Bool :=
  if d.msrc < 3 then !bit d.inEn d.msrc || fmtD (d.fmtI.getD d.msrc 0) != .mask || d.inMode.getD d.msrc 0 != 0
  else if d.msrc < 8 then true
  else d.msrc - 8 ≥ d.nstg || onExpanded d 8 (d.msrc - 8)

/-- Inputs and outputs in use. -/
def insOf (d : ChainDesc) : List Nat := mlist d.inEn 3
def outsOf (d : ChainDesc) : List Nat := mlist d.outEn 2

/-- Whether output o goes to memory. -/
def outMem (d : ChainDesc) (o : Nat) : Bool := !(o == 0 && d.destO0)

/-- Bytes of n elements of a format. -/
def elemBytes (f : Fmt) (n : Nat) : Nat := (n * fmtBits f + 7) / 8

/-- The range that input i reads, with N_ELEM positions. -/
def chainIn (d : ChainDesc) (i : Nat) : Nat × Nat :=
  (d.inAddr.getD i 0, elemBytes (fmtD (d.fmtI.getD i 0))
    (if d.inMode.getD i 0 = 2 then d.nElem / max d.rowLen 1 else d.nElem))

/-- The range that output o writes: in COMPRESS mode a narrow output's last block is padded (R111). -/
def chainOut (d : ChainDesc) (o : Nat) : Nat × Nat :=
  let f := fmtD (d.fmtO.getD o 0)
  (d.outAddr.getD o 0, elemBytes f (if isNarrow f && d.outMode.getD o 0 == 1 then (d.nElem + 31) / 32 * 32 else d.nElem))

/-- The ranges of the reduction results and of the count word. -/
def redRange (d : ChainDesc) : List (Nat × Nat) :=
  if d.redMode = 0 then []
  else [(d.redAddr, 4 * (if d.redMode = 1 then 1 else if d.redMode = 2 then d.nElem / max d.rowLen 1 else (d.nElem + 31) / 32))]
def compresses (d : ChainDesc) : Bool := (outsOf d).any (fun o => d.outMode.getD o 0 == 1)
def cntRange (d : ChainDesc) : List (Nat × Nat) := if compresses d || d.cntIn then [(d.cntAddr, 4)] else []

/-- Whether two byte ranges share a byte. -/
def meet (a b : Nat × Nat) : Bool := a.1 < b.1 + b.2 && b.1 < a.1 + a.2

/-- The aliasing that R105 allows: one address and one format, in any input mode (DEDUCED, log entry 108). -/
def aliasOk (d : ChainDesc) (o i : Nat) : Bool :=
  d.outAddr.getD o 0 == d.inAddr.getD i 0 && d.fmtO.getD o 0 == d.fmtI.getD i 0

/-- The overlaps that R116 refuses. -/
def overlapBad (d : ChainDesc) : Bool :=
  let os := (outsOf d).filter (outMem d)
  let w := os.map (chainOut d) ++ redRange d ++ cntRange d
  os.any (fun o => (insOf d).any (fun i => meet (chainOut d o) (chainIn d i) && !aliasOk d o i))
    || (redRange d ++ cntRange d).any (fun a => (insOf d).any (fun i => meet a (chainIn d i)))
    || (List.range w.length).any (fun a => (List.range a).any (fun b => meet (w.getD a (0, 0)) (w.getD b (0, 0))))

/-- Whether output o maintains a record (R105): a floating-point or INT32 one. -/
def outRec (d : ChainDesc) (o : Nat) : Bool := fmtD (d.fmtO.getD o 0) != .mask && fmtD (d.fmtO.getD o 0) != .int8

/-- R116 and R130 on a chain; `t` is the tile operation of a TILE_VEC item. The result of a stage of TYPE I32 or U32 is an integer one, that of
CVTIF included, which Table 4-2 says goes to FP32 (DESIGN CHOICE, log entry 121). -/
def chainBad (m : Image) (d : ChainDesc) (t : Option TileDesc) : Bool :=
  let os := outsOf d
  let is := insOf d
  let rowcast := is.any (fun i => d.inMode.getD i 0 == 2)
  let expand := is.any (fun i => d.inMode.getD i 0 == 1)
  let intStage (s : Nat) : Bool := (d.stages.getD s (stageOf 0)).ty != 0
  d.opc != 0x30 || d.reserved || d.inMode.any (· == 3) || d.outMode.any (· > 1) || d.redOp > 4
    || (3 ≤ d.msrc && d.msrc < 8) || d.nElem = 0 || d.rowLen % 32 != 0
    || (List.range d.nstg).any (stageBad d)
    || d.redSrc ≥ d.nstg || d.osrc.any (fun o => o ≥ d.nstg) || msrcNone d
    || (d.outEn = 0 && d.redMode = 0) || (d.redMode != 0 && d.redOp = 1 && intStage d.redSrc)
    || os.any (fun o => intStage (d.osrc.getD o 0) && fmtD (d.fmtO.getD o 0) != .int32 && fmtD (d.fmtO.getD o 0) != .mask)
    || ((expand || compresses d) && msrcBad d)
    || ((d.redMode = 2 || rowcast) && (d.rowLen = 0 || d.nElem % d.rowLen != 0))
    || (d.rowLen > 0 && d.nElem % (32 * d.rowLen) != 0)
    || (d.cntIn && (d.redMode = 2 || rowcast || d.destO0))
    || (d.destO0 && (match t with
      | none => true
      | some t => !bit d.outEn 0 || t.srcS != 1 || d.outMode.getD 0 0 == 1 || t.axisS || d.fmtO.getD 0 0 != t.fmtS
          || d.nElem != 1024 * t.mtBlks * (mlist t.arrEn 4).length * t.kBlks))
    || (!d.destO0 && (match t with
      | some t => t.srcS == 1
      | none => false))
    || overlapBad d
    || os.any (fun o => outMem d o && fmtD (d.fmtO.getD o 0) != .fp32 && m.inReduce (d.outAddr.getD o 0))
    || (d.redMode != 0 && m.inReduce d.redAddr) || ((compresses d || d.cntIn) && m.inReduce d.cntAddr)
    || os.any (fun o => outRec d o && !m.inSeg (d.recAddr.getD o 0) 128)
    || os.any (fun o => outMem d o && recDiffers m (d.outAddr.getD o 0) (d.recAddr.getD o 0))

/-! ## Items (R175) -/

/-- The chain and the tile of an item, where it has them. -/
def Item.tile? (i : Item) : Option TileDesc := if i.hdr.kind = 0 ∨ i.hdr.kind = 2 then some i.tile else none
def Item.chain? (i : Item) : Option ChainDesc := if i.hdr.kind = 1 ∨ i.hdr.kind = 2 then some i.chain else none

/-- The FP32 outputs of an item's chain that add into REDUCE segments, and whether its tile adds (R166). -/
def addsReduce (m : Image) (i : Item) : Bool :=
  (match i.tile? with
    | some t => t.drain == 1 && m.inReduce t.oAddr
    | none => false) ||
  (match i.chain? with
    | some c => (outsOf c).any (fun o => outMem c o && m.inReduce (c.outAddr.getD o 0))
    | none => false)

/-- Reserved FMT codes in an item's descriptors (R8). -/
def itemFmtBad (i : Item) : Bool :=
  (match i.tile? with
    | some t => fmtBad t.fmtS || fmtBad t.fmtT || fmtBad t.fmtO
    | none => false) ||
  (match i.chain? with
    | some c => c.fmtI.any fmtBad || c.fmtO.any fmtBad
    | none => false)

/-- The list in which an item of a kind may stand (R151). -/
def listOk (kind l : Nat) : Bool := if kind < 3 then l < 16 else if kind = 4 then l = 16 else l = 17

/-- The record operation of a RECORD item: opcode, records (R152). -/
def recsOf (i : Item) : List Nat := (List.range (bits (i.word 0) 55 51)).map (fun k => bits (i.word (k + 1)) 39 0)

/-- R152 and R175 on a RECORD payload. -/
def recordBad (m : Image) (i : Item) : Bool :=
  let w := i.word 0
  let n := bits w 55 51
  (bits w 63 56 != 1 && bits w 63 56 != 2) || n = 0 || n > 16 || bits w 39 0 != 0
    || (List.range 16).any (fun k => bits (i.word (k + 1)) 63 40 != 0)
    || (List.range 11).any (fun k => i.word (k + 17) != 0) || (recsOf i).any (fun a => !m.inSeg a 128)

/-- The XFER payload (Table 9-5) as its 256-bit number. -/
def Item.xfer (i : Item) : Nat := i.payload % 2 ^ 256

/-- R175, R261 on an XFER payload. -/
def xferBad (m : Image) (i : Item) : Bool :=
  let w := i.xfer
  let op := bits w 255 248
  let src := bits w 143 104
  let n := bits w 207 184 * 256
  (op != 1 && op != 2 && op != 3 && op != 0x10) || bits w 244 240 != 0 || bits w 225 224 != 0 || bits w 151 144 != 0
    || bits w 63 0 != 0 || (bits w 207 184 = 0 && op != 3) || (bit w 167 && bits w 166 162 ≥ 24)
    || src % 256 != 0 || bits w 103 64 % 256 != 0
    || (bit w 246 && op != 3 && !(m.inReduce src && m.inSeg src n))

/-- Address of the byte that holds the field named by WC_FIELD: whether the payload has it (R175). -/
def wcFieldOk (i : Item) : Bool := if i.hdr.wcField < 2 then i.tile?.isSome else i.chain?.isSome

/-- Whether a working-copy header and its two segments exist. -/
def hdrOk (m : Image) (h : Nat) : Bool :=
  match m.hdrs[h]? with
  | some x => (m.seg x.seg0).valid && (m.seg x.seg1).valid
  | none => false

/-- R175 on an item that stands in list l of block b. -/
def itemBad (m : Image) (b l : Nat) (i : Item) : Bool :=
  let h := i.hdr
  let blks := m.blocks
  h.kind > 7 || h.var > 4 || h.reserved || !listOk h.kind l
    || h.sigs.any (fun p => p.1 != 31 && (p.1 ≥ 24 || !mbit blks p.1))
    || (h.wcEn && (!wcFieldOk i || !hdrOk m h.wcHdr))
    || (addsReduce m i && (!h.depEn || h.depExp = 0)) || (h.depEn && !addsReduce m i)
    || (match i.tile? with
      | some t => tileBad m t (h.kind == 2)
      | none => false)
    || (match i.chain? with
      | some c => chainBad m c i.tile?
      | none => false)
    || (h.kind = 3 && recordBad m i) || (h.kind = 6 && xferBad m i) || b ≥ 24

/-! ## Orderings through waits (R156) -/

/-- An item with its block, list and place in the section. -/
abbrev Placed := Nat × Nat × Item

/-- How often an item's completion adds to counter c of block b (R150, R152). -/
def signalsTo (p : Placed) (b c : Nat) : Nat :=
  ((p.2.2.hdr.sigs.filter (fun x => (if x.1 = 31 then p.1 else x.1) == b && x.2 == c)).length)
    + (if p.2.2.hdr.kind = 3 ∧ bit (p.2.2.word 0) 50 ∧ bits (p.2.2.word 0) 49 40 = c then 1 else 0)

/-- The records of the scaled tensors that an item writes; CUT items are exempt. -/
def scaledRecs (i : Item) : List Nat :=
  (match i.tile? with
    | some t => if t.drain = 0 ∧ isScaled (fmtD t.fmtO) then [t.recAddr] else []
    | none => []) ++
  (match i.chain? with
    | some c => ((outsOf c).filter (fun o => isScaled (fmtD (c.fmtO.getD o 0)))).map (fun o => c.recAddr.getD o 0)
    | none => [])

/-- The items that add to a counter. -/
def signallers (ps : List Placed) (b c : Nat) : List Placed := ps.filter (fun p => signalsTo p b c != 0)

def isRecordOp (op : Nat) (p : Placed) : Bool := p.2.2.hdr.kind == 3 && bits (p.2.2.word 0) 63 56 == op

/-- First line of R156: every scaled record written has an OPEN whose broadcast counter the writer waits for and nothing else signals. -/
def openBad (ps : List Placed) (p : Placed) : Bool :=
  (scaledRecs p.2.2).any (fun r => !(ps.any (fun o =>
    isRecordOp 1 o && (recsOf o.2.2).contains r && bit (o.2.2.word 0) 50 &&
      (let c := bits (o.2.2.word 0) 49 40
       p.2.2.hdr.waits.any (fun w => w.1 == c) && signallers ps p.1 c == [o]))))

/-- A wait of a CLOSE that only writers of its records signal, with a threshold equal to their number. -/
def closeWaits (ps : List Placed) (p : Placed) : List (List Placed) :=
  (p.2.2.hdr.waits.map (fun w => (w, signallers ps p.1 w.1))).filterMap (fun x =>
    if !x.2.isEmpty && x.2.all (fun q => (scaledRecs q.2.2).any ((recsOf p.2.2).contains ·))
      && x.2.length == x.1.2 then some x.2 else none)

/-- Second line of R156: a CLOSE of a record that items of the list set write has such a wait, and every writer signals one of a CLOSE of
its record. -/
def closeBad (ps : List Placed) (p : Placed) : Bool :=
  isRecordOp 2 p && (recsOf p.2.2).any (fun r =>
    let ws := ps.filter (fun q => (scaledRecs q.2.2).contains r)
    !ws.isEmpty && ((closeWaits ps p).isEmpty
      || ws.any (fun q => !(ps.any (fun k => isRecordOp 2 k && (recsOf k.2.2).contains r && (closeWaits ps k).any (fun l => l.contains q))))))

/-- The count word that an item reads, and whether it writes one at an address. -/
def cntReads (i : Item) : Option Nat :=
  match i.chain? with
  | some c => if c.cntIn then some c.cntAddr else none
  | none => none
def cntWrites (a : Nat) (p : Placed) : Bool :=
  match p.2.2.chain? with
  | some c => compresses c && c.cntAddr == a
  | none => false

/-- Third line of R156: an item that reads a count word waits on a counter that only the chain writing that word signals. -/
def countBad (ps : List Placed) (p : Placed) : Bool :=
  match cntReads p.2.2 with
  | none => false
  | some a => !(p.2.2.hdr.waits.any (fun w =>
      let q := signallers ps p.1 w.1
      !q.isEmpty && q.all (cntWrites a)))

/-! ## Problems and GRD items (R210) -/

/-- Fields of a problem (Tables 7-1, 7-2). -/
def Problem.method (p : Problem) : Nat := bits p.hdr 511 508
def Problem.lslot (p : Problem) : Nat := bits p.hdr 279 272
def Problem.greg (p : Problem) : Nat := bits p.hdr 497 496
def Problem.rhdr (p : Problem) : Nat := bits p.hdr 319 280
def Problem.outFp32 (p : Problem) : Bool := bit p.hdr 499
def Problem.warm (p : Problem) : Bool := bit p.hdr 498
def Problem.csum (p : Problem) : Bool := bit p.hdr 500
def Problem.orthoN (p : Problem) : Nat := bits p.hdr 487 480
def Problem.maxIt (p : Problem) : Nat := bits p.hdr 495 488
def Problem.dlCommits (p : Problem) : Nat := bits p.hdr 479 464
def Problem.tol (p : Problem) : Word := BitVec.ofNat 32 (bits p.hdr 447 416)
def Problem.dampRel (p : Problem) : Word := BitVec.ofNat 32 (bits p.hdr 415 384)
def Problem.dampAbs (p : Problem) : Word := BitVec.ofNat 32 (bits p.hdr 383 352)
def Problem.tau (p : Problem) : Word := BitVec.ofNat 32 (bits p.hdr 351 320)
/-- p of NSROOT: 1, 2 or 4; 1 for the others. -/
def Problem.pexp (p : Problem) : Nat := 2 ^ bits p.hdr 507 506

def entNB (e : Nat) : Nat := bits e 255 248
def entFmap (e : Nat) : Nat := bits e 247 208
def entCopy (e k : Nat) : Nat := if k = 0 then bits e 207 168 else bits e 167 128
def entMirror (e : Nat) : Nat := bits e 127 88
def entRes (e k : Nat) : Nat := if k = 0 then bits e 87 48 else bits e 47 8

/-- Rows and columns of a block's matrix. -/
def blkRows (e : Nat) : Nat := 32 * entNB e
def blkCols (p : Problem) (e : Nat) : Nat := if p.method = 2 then 32 * p.orthoN else 32 * entNB e

/-- Bytes of a factor map of dimension nb (R86). -/
def fmapBytes (nb : Nat) : Nat := 8 + 8 * (nb * (nb + 1) / 2)

/-- Bytes of a block's result (R205). -/
def resBytes (p : Problem) (e : Nat) : Nat :=
  let w := if p.outFp32 then 4 else 2
  if p.method = 3 then (blkRows e) * w + 8 else blkRows e * blkCols p e * w

/-- The ranges of a problem: result header, mirrors, results; factor copies. -/
def problemRanges (p : Problem) : List (Nat × Nat) :=
  (p.rhdr, 64) :: p.blks.flatMap (fun e =>
    [(entMirror e, 4 * blkRows e * blkCols p e), (entRes e 0, resBytes p e), (entRes e 1, resBytes p e)])
def copyRanges (p : Problem) : List (Nat × Nat) :=
  p.blks.flatMap (fun e => (entCopy e 0, 4 * blkRows e * blkCols p e) :: (if p.method = 2 then [] else [(entCopy e 1, 4 * blkRows e * blkRows e)]))
def mirrorRanges (p : Problem) : List (Nat × Nat) := p.blks.map (fun e => (entMirror e, 4 * blkRows e * blkCols p e))

/-- A number that R210 refuses: negative, infinite or NaN. -/
def numBad (w : Word) : Bool := nonfinite32 w || (w.toNat.testBit 31 && bits w.toNat 30 0 != 0)

/-- R210 on one problem, but for what it shares with others. -/
def problemBad (m : Image) (p : Problem) : Bool :=
  p.method > 3 || bits p.hdr 507 506 = 3 || bits p.hdr 463 448 != 0 || bits p.hdr 251 0 != 0
    || p.blks.any (fun e => bits e 7 0 != 0 || entNB e = 0 || entNB e > 128)
    || (bits p.hdr 507 506 != 0 && p.method != 1) || (p.warm && (p.method = 0 || p.method = 2))
    || (p.method = 2 && (bits p.hdr 505 501 != 0 || p.orthoN = 0 || p.orthoN > 128)) || (p.method != 2 && p.orthoN != 0)
    || p.maxIt = 0 || p.dlCommits = 0 || numBad p.tol || numBad p.dampRel || numBad p.dampAbs
    || nonfinite32 p.tau || !lt32 0 p.tau || !lt32 p.tau 0x3F800000
    || (problemRanges p ++ copyRanges p).any (fun r => !m.inSeg r.1 r.2)
    || (p.method != 2 && p.blks.any (fun e => !m.inSeg (entFmap e) (fmapBytes (entNB e))))
    || (mirrorRanges p).any (fun a => (m.problems.flatMap copyRanges).any (meet a))

/-- Two problems that share a result header, a mirror, a result copy or a logical slot (R210). -/
def problemsClash (p q : Problem) : Bool :=
  p.lslot == q.lslot || (problemRanges p).any (fun a => (problemRanges q).any (meet a))

/-- The problem that defines a logical slot. -/
def Image.problem? (m : Image) (l : Nat) : Option Problem := m.problems.find? (fun p => p.lslot == l)

/-- R210 on a GRD item. -/
def grdBad (m : Image) (i : Item) : Bool :=
  i.hdr.kind == 5 && (bits (i.word 0) 63 56 = 0 || bits (i.word 0) 63 56 > 4 || bits (i.word 0) 47 0 != 0
    || i.payload / 2 ^ 64 != 0 || (m.problem? (bits (i.word 0) 55 48)).isNone)

/-- Workspace of a block (Table 7-4). -/
def workspace (p : Problem) (e : Nat) : Nat :=
  let n := blkRows e
  match p.method with
  | 0 => 12 * n * n
  | 1 => 16 * n * n
  | 2 => 4 * (2 * n * blkCols p e + blkCols p e * blkCols p e)
  | _ => 4 * n * n + 16 * n

/-! ## CUT items (R242) -/

/-- Sum of a problem's block dimensions. -/
def problemDim (p : Problem) : Nat := (p.blks.map blkRows).sum

/-- A preconditioner that a rule may not use for a dimension. -/
def precondBad (m : Image) (r : Rule) (l dim : Nat) : Bool :=
  match m.problem? l with
  | none => true
  | some p => p.method != (if r == .kpre then 1 else 0) || p.outFp32 || problemDim p != dim

/-- The cell that holds slot s of a layer's gradient (R124, R213). -/
def slotCell (m : Image) (gseg s : Nat) : Nat :=
  let g := m.seg (gseg + s / 4096)
  g.cell0 + (s % 4096) * 65536 / max (g.span * 65536) 1

/-- The gradient segments of a pass descriptor that R242 refuses. -/
def gradBad (m : Image) (d : PassDesc) : Bool :=
  let k := (d.npage + 4095) / 4096
  d.gseg + k > 4096 || (List.range k).any (fun j =>
    let g := m.seg (d.gseg + j)
    !g.valid || g.kind != 2 || g.size != (if j + 1 = k then (d.npage - 4096 * (k - 1)) * 1024 else 4194304))

/-- R242 on one CUT item. -/
def cutBad (m : Image) (i : Item) : Bool :=
  let d := i.pass
  match ruleOf d.rule with
  | none => false
  | some r =>
    d.opc < 0x40 || d.opc > 0x44 || d.reserved || i.passRest != 0 || d.npage = 0 || d.rows % 32 != 0 || d.cols % 32 != 0
      || d.page0 + d.npage > 2097152 || d.rows * d.cols ≤ (d.npage - 1) * 16384 || d.rows * d.cols > d.npage * 16384
      || gradBad m d
      || (List.range d.npage).any (fun s => match m.pages.find? (fun p => p.page == d.page0 + s) with
        | none => true
        | some p => p.owner / 16 != slotCell m d.gseg s / 16)
      || (isMatrixRule r && (!m.inSeg d.din 1 || !m.inSeg d.dout 1))
      || ((r == .kpre || r == .knat) && (!m.inSeg d.dtmp 1 || precondBad m r d.prbRow d.rows || precondBad m r d.prbCol d.cols))
      || ((d.opc = 0x42 || d.opc = 0x43) && r != .kpre && r != .knat) || (d.opc = 0x44 && !isMatrixRule r)
      || (d.opc = 0x40 && !m.inSeg d.norm 4) || !hdrOk m d.wchdr

/-- The addresses in the buffers of a working copy. -/
def wcOuts (m : Image) (h : Nat) : List Nat :=
  match m.hdrs[h]? with
  | some x => [x.seg0 * 2 ^ 28, x.seg1 * 2 ^ 28]
  | none => []

/-- The addresses outside its layer's pages that a CUT item writes (Table 8-5, R220, R223, R228): SURVEY the norm; PASS of a matrix rule DIN;
PASS of a rule that is element-wise or may fall back, and FINISH, the working copy; DIR1 DTMP; DIR2 DOUT. -/
def cutOuts (m : Image) (i : Item) : List Nat :=
  let d := i.pass
  let r := (ruleOf d.rule).getD .adapt2
  match d.opc with
  | 0x40 => [d.norm]
  | 0x41 => (if isMatrixRule r then [d.din] else []) ++ (if r == .ortho then [] else wcOuts m d.wchdr)
  | 0x42 => [d.dtmp]
  | 0x43 => [d.dout]
  | _ => wcOuts m d.wchdr

/-- A CUT item whose output lies in a REDUCE segment: it adds nothing there, so that DEP_EN is 0 (R175). -/
def cutReduce (m : Image) (i : Item) : Bool := (cutOuts m i).any m.inReduce

/-- Two CUT items of one list set that disagree on a layer; two layers that share a signature slot (R242). -/
def cutClash (a b : PassDesc) : Bool :=
  a.layer == b.layer && (a.rule != b.rule || a.page0 != b.page0 || a.npage != b.npage || a.gseg != b.gseg)
def sigClash (a b : PassDesc) : Bool := a.sigEn && b.sigEn && a.layer != b.layer && a.sigSlot == b.sigSlot

/-! ## The whole program -/

/-- The first index at which a test holds, as a refusal with a reason in a section. -/
def firstBad {α : Type} (reason ty : Nat) (l : List α) (f : α → Bool) : Option Bad :=
  (l.findIdx? f).map (fun i => (reason, detailOf ty i))

/-- Items of a block over all list sets: the work lists of R149. -/
def tooMany (m : Image) : Bool := (List.range 24).any (fun b => (m.items.filter (fun i => i.2.1 == b)).length > 57344)

/-- Headers of late items in a block's list set (R172). -/
def lateHdrs (l : List Item) : List Nat := ((l.filter (fun i => i.hdr.wcEn && i.hdr.vage)).map (fun i => i.hdr.wcHdr)).eraseDups

/-- Factors drained by EMA in one list set, and the block that holds each one's header (R84). -/
def emaMaps (l : List Placed) : List Nat :=
  ((l.filterMap (fun p => match p.2.2.tile? with
    | some t => if t.drain = 2 then some t.fmapAddr else none
    | none => none))).eraseDups
/-- The logical cell that holds an offset under the LOCAL or SPREAD rule (R84, R174). -/
def holderCell (g : Seg) (o : Nat) : Nat := if g.kind = 0 then g.cell0 else g.cell0 + o / max (g.span * 65536) 1

/-- The items of a list set. -/
def setItems (m : Image) (l : Nat) : List Placed := (m.items.filter (fun i => i.1 == l)).map (fun i => (i.2.1, i.2.2.1, i.2.2.2))

/-- The CUT items among the items of a program, each with its list set. -/
def cutsOf (l : List (Nat × Nat × Nat × Item)) : List (Nat × PassDesc) :=
  (l.filter (fun i => i.2.2.2.hdr.kind == 4)).map (fun i => (i.1, i.2.2.2.pass))

/-- The pass of a CUT item beside the earlier ones: R242. -/
def passBad (earlier : List (Nat × PassDesc)) (l : Nat) (i : Item) : Bool :=
  i.hdr.kind == 4 && earlier.any (fun e => (e.1 == l && cutClash e.2 i.pass) || sigClash e.2 i.pass)

/-- The first item that breaks R156, or R242 beside an earlier item, by its number in the LISTS section. -/
def firstPaired (m : Image) : Option Bad :=
  let sets := (List.range 8).map (setItems m)
  ((List.range m.items.length).zip m.items).findSome? (fun e =>
    let i := e.2
    let ps := sets.getD i.1 []
    let p : Placed := (i.2.1, i.2.2.1, i.2.2.2)
    if openBad ps p || closeBad ps p || countBad ps p || passBad (cutsOf (m.items.take e.1)) i.1 i.2.2.2
    then some (progCheck 6 e.1) else none)

/-- Per list set: the limits of R84, R172 and R242. -/
def setBad (m : Image) (l : Nat) : Bool :=
  let ps := setItems m l
  (List.range 24).any (fun b => (lateHdrs ((ps.filter (fun p => p.1 == b)).map (·.2.2))).length > 256
      || (ps.filter (fun p => p.1 == b && p.2.2.hdr.kind == 4 && p.2.2.pass.opc == 0x41)).length > 1024)
    || (List.range 24).any (fun b => ((emaMaps ps).filter (fun a => holderCell (m.seg (maSeg a)) (maOff a) / 16 == b)).length > 512)

/-- The first item with which the limits of R84, R149, R172 and R242 are exceeded (R8: the refusal locates it). -/
def firstOver (m : Image) : Option Bad :=
  let beyond (x : Image) : Bool := tooMany x || (List.range 8).any (setBad x)
  if beyond m then ((List.range m.items.length).find? (fun n => beyond { m with items := m.items.take (n + 1) })).map (progCheck 6) else none

/-- All checks but placement, in the order of the sections. DETAIL is 0 for TORUS and BLOCKS (Table 10-11). Of a segment entry with VALID =
0 nothing is checked, its FMT code included (DESIGN CHOICE, log entry 96). -/
def checkImage (s : State) (m : Image) : Option Bad :=
  let segKs := (List.range m.segs.length)
  let its := m.items
  let torus := s.live (key 0x5000 1)
  let outside (c : Nat) : Bool := bits c 11 8 > bits torus 11 8 || bits c 7 4 > bits torus 7 4 || bits c 3 0 > bits torus 3 0
  [ firstBad 0x02 1 segKs (fun k => (m.seg k).valid && fmtBad (m.seg k).fmt),
    firstBad 0x02 6 its (fun i => itemFmtBad i.2.2.2),
    firstBad 0x03 6 its (fun i => i.2.2.2.hdr.kind == 4 && (ruleOf i.2.2.2.pass.rule).isNone),
    firstBad 0x04 1 segKs (fun k => (m.seg k).valid && segBad m k),
    firstBad 0x04 2 (List.range m.pages.length) (fun k =>
      (m.pages.map (·.page)).idxOf ((m.pages.map (·.page)).getD k 0) != k || (s.dir ((m.pages.map (·.page)).getD k 0)).valid),
    firstBad 0x04 4 (List.range m.problems.length) (fun k =>
      problemBad m (m.problems.getD k problemNone)
        || (List.range k).any (fun j => problemsClash (m.problems.getD j problemNone) (m.problems.getD k problemNone))),
    firstBad 0x04 6 its (fun i => itemBad m i.2.1 i.2.2.1 i.2.2.2 || grdBad m i.2.2.2
      || (i.2.2.2.hdr.kind == 4 && (cutBad m i.2.2.2 || cutReduce m i.2.2.2))),
    firstPaired m,
    firstOver m,
    if its.any (fun i => i.2.2.2.hdr.kind == 6 && (bits i.2.2.2.xfer 255 248 != 0x10) && outside (bits i.2.2.2.xfer 239 228))
    then some (0x12, 0) else none,
    if (mlist m.blocks 24).any (fun b => !bit (s.blk b).map 31) then some (0x05, 0) else none ].findSome? id

end Sys2Proof.Machine
end

