-- ==== Sys2Proof/Machine/Load.lean ====
section
/-!
DEFINITION. Placement of a program (R126, R132, R184, R415) and the commands PROG_LOAD and PROG_UNLOAD (R299).
-/

namespace Sys2Proof.Machine

/-! ## Placement (R126) -/

/-- The size of a program's placement in 64 KiB units, bonded SRAM and LPDDR5X together: pages, data, scale areas, spill areas. -/
def imageUnits (m : Image) : Nat :=
  4 * m.pages.length + ((m.segs.filter (·.valid)).map (fun g =>
    if g.kind = 2 then units (g.size * 64)
    else (if g.kind = 0 then 1 else g.ncell) * (units (segCellBytes g) + units (scaleBytes g (segCellBytes g))))).sum

/-- The first `n` records of 8 bytes written into both reels of a page at a physical address. -/
def writeReels (s : State) (a : Nat) (bs : List Byte) : State :=
  ((zeroRange s a 0x40000).wrBytes a bs).wrBytes (a + 0x20000) bs

/-- One record page placed (R126): in the slice of its owning cell, or in LPDDR5X. -/
def placePage (s : State) (d : Nat) (row : PageRow) : Option State :=
  let e : Dirent := { dirDflt 0 with valid := true, dom := d, owner := row.owner, layer := row.layer, gen := (s.dom d).gen }
  match firstFit (cellUsed s row.owner) 4 4 256 with
  | some u => some (s.setDir row.page { e with addr := (sliceBase row.owner + u * 65536) / 2 ^ 18 })
  | none =>
    match dramPlace s (row.owner / 96) 0x40000 with
    | some a => some ((s.setDir row.page { e with tier := true, addr := a / 2 ^ 18 }).count (kMem 1) 1)
    | none => none

/-- A row put into a list of rows in page order. -/
def insertPage (r : PageRow) : List PageRow → List PageRow
  | [] => [r]
  | a :: l => if r.page ≤ a.page then r :: a :: l else a :: insertPage r l

/-- Pages in page order, with the records of those whose INIT is IMAGE, in PAGES order. -/
def placePages (s : State) (d : Nat) (pages : List PageRow) : Option State :=
  (pages.foldr insertPage []).foldl (fun o r => o.bind (fun s => placePage s d r)) (some s)

/-- A segment placed in bonded SRAM: data, then its scale area, each at the lowest slice offset free in all its cells. -/
def placeSram (s : State) (g : Seg) : Option Seg :=
  let used := (segCells g).flatMap (cellUsed s)
  let n := units (segCellBytes g)
  match firstFit used 1 n 256 with
  | none => none
  | some o =>
    if isNarrow (segFmt g) then
      match firstFit ((o, n) :: used) 1 (units (scaleBytes g (segCellBytes g))) 256 with
      | none => none
      | some p => some { g with base := o * 65536, sbase := p * 65536 }
    else some { g with base := o * 65536, sbase := 0 }

/-- A segment placed in LPDDR5X: data, then its scale area directly after it as a second placement. -/
def placeDram (s : State) (d k : Nat) (g : Seg) : Option Seg :=
  match dramPlace s (g.cell0 / 96) (g.size * 64) with
  | none => none
  | some a =>
    let g1 := { g with tier := true, base := a, sbase := 0 }
    if isNarrow (segFmt g) then
      (dramPlace (s.setSeg d k { g1 with fmt := 0 }) (g.cell0 / 96) (scaleBytes g (g.size * 64))).map (fun b => { g1 with sbase := b })
    else some g1

/-- Segment k placed, or the reason of a refusal; SPILLED says that it spilled. A segment with TIER = 1 goes to LPDDR5X whatever its PIN
(DESIGN CHOICE, log entry 104). -/
def placeSeg (s : State) (d k : Nat) (g0 : Seg) : Except Nat State :=
  let g := { g0 with spilled := false, base := 0, sbase := 0 }
  if !g.valid then .ok s
  else if g.kind = 2 then
    match dramPlace s (g.cell0 / 96) (g.size * 64) with
    | some a => .ok (s.setSeg d k { g with sbase := a })
    | none => .error 0x07
  else if g.tier then
    match placeDram s d k g with
    | some x => .ok (s.setSeg d k x)
    | none => .error 0x07
  else match placeSram s g with
    | some x => .ok (s.setSeg d k x)
    | none =>
      if g.pin then .error 0x06
      else match placeDram s d k g with
        | some x => .ok ((s.setSeg d k { x with spilled := true }).count (kMem 0) 1)
        | none => .error 0x07

/-- Segments in list order. -/
def placeSegs (s : State) (d : Nat) (gs : List Seg) : Except Nat State :=
  ((List.range gs.length).zip gs).foldl (fun r p => match r with
    | .ok s => placeSeg s d p.1 p.2
    | .error e => .error e) (.ok s)

/-- The layout that a region takes when it next passes through OFFLINE (R132). -/
def layoutNext (s : State) (r : Nat) : Nat × Nat := (s.live (key 0x6001 0), s.live (key 0x6002 r))

/-- Whether a placement overlaps a range that a pending layout reserves (R132). -/
def layoutClash (s : State) (d : Nat) : Bool :=
  (List.range 384).any (fun c =>
    let n := layoutNext s (c / 96)
    (n.1 != poolSlots s (c / 96) || n.2 != wsBlocks s (c / 96)) &&
      (let mine : List Span := (s.segs.filter (fun e => e.1 / 4096 == d && segHas e.2 c)).flatMap (fun e => segSpans e.2)
         ++ (s.dirs.filter (fun e => e.2.valid && e.2.dom == d && !e.2.tier && (e.2.addr * 2 ^ 18 - 0x8000000000) / 0x1000000 == c)).map
           (fun e => ((e.2.addr * 2 ^ 18 - 0x8000000000) % 0x1000000 / 65536, 4))
       mine.any (fun a => (reservedOf c n.1 n.2).any (overlaps a))))

/-! ## Graders (R184) -/

/-- Free physical slots of a Grader, lowest first. -/
def freeSlots (s : State) (r : Nat) : List Nat := (List.range 256).filter (fun n => (spFind (s.grd r).slots n).isNone)

/-- Whether the Graders have slots and workspace for the problems. -/
def graderFull (s : State) (m : Image) : Bool :=
  (List.range 4).any (fun r =>
    let ps := m.problems.filter (fun p => p.greg == r)
    ps.length > (freeSlots s r).length || ps.any (fun p => p.blks.any (fun e => workspace p e > wsBlocks s r * 2 ^ 27)))

/-- A slot as bound at load. -/
def slotNew (d : Nat) (p : Problem) : GSlot :=
  { dom := d, lslot := p.lslot, prob := p, feeding := false, feedHeld := false, queued := none, commits := 0
    drifts := [], again := false, cold := false, pub := none, figs := [] }

/-- The slots that an unloaded program of the domain still holds are no longer found under their logical numbers (R184; DEDUCED, log entry
113). -/
def retireSlots (d : Nat) (g : Grd) : Grd :=
  { g with slots := g.slots.map (fun (e : Nat × GSlot) =>
      if e.2.dom == d && e.2.lslot < 256 then (e.1, { e.2 with lslot := 256 + e.2.lslot }) else e) }

/-- Whether a slot serves the program that is loaded. -/
def GSlot.live (x : GSlot) : Bool := x.lslot < 256

/-- The problems of a program bound to free slots. -/
def bindProblems (s : State) (d : Nat) (ps : List Problem) : State :=
  ps.foldl (fun s p =>
    let g := s.grd p.greg
    match (freeSlots s p.greg).head? with
    | some n => s.setGrd p.greg { g with slots := spPut g.slots n (slotNew d p) }
    | none => s) s

/-- The first problem with a block whose factor map holds another NB than the block (R210). ORTHO reads no factor map (DEDUCED, log entry
109). -/
def fmapClash (s : State) (d : Nat) (m : Image) : Option Nat :=
  m.problems.findIdx? (fun p => p.method != 2 && p.blks.any (fun e => bits (ldNat s d (entFmap e) 8).1 47 32 != entNB e))

/-! ## PROG_LOAD and PROG_UNLOAD (R299) -/

/-- The records of pages with INIT = IMAGE, and zeros in the others, written into both reels. -/
def writePages (s : State) (m : Image) : State :=
  let im := m.pages.filter (·.image)
  let s1 := m.pages.foldl (fun s r => zeroRange s ((s.dir r.page).addr * 2 ^ 18) 0x40000) s
  ((List.range im.length).zip im).foldl (fun s p =>
    writeReels s ((s.dir p.2.page).addr * 2 ^ 18) ((m.records.drop (131072 * p.1)).take 131072)) s1

/-- The work lists of an image, keyed as Prog holds them. -/
def imageLists (m : Image) : Sparse (List Item) :=
  m.items.foldl (fun l i =>
    let k := (i.1 * 24 + i.2.1) * 18 + i.2.2.1
    spSet (fun _ => []) l k (spGet (fun _ => []) l k ++ [i.2.2.2])) []

/-- The placement of a whole program, or the reason and DETAIL of its refusal. -/
def placeImage (s : State) (d : Nat) (m : Image) : Except Bad State :=
  if imageUnits m > (s.dom d).memlim then .error (0x0B, 0)
  else if graderFull s m then .error (0x08, 0)
  else match placePages s d m.pages with
    | none => .error (0x07, 0)
    | some s1 => match placeSegs s1 d m.segs with
      | .error r => .error (r, 0)
      | .ok s2 =>
        if layoutClash s2 d then .error (0x09, 0)
        else match fmapClash s2 d m with
          | some i => .error (progCheck 4 i)
          | none => .ok (bindProblems s2 d m.problems)

/-- A program placed: records, lists and headers written, the counters of its blocks cleared (R153), NEXT_STEP set. -/
def installImage (s : State) (d first : Nat) (m : Image) : State :=
  let s1 := writePages s m
  let hdrs := (List.range m.hdrs.length).zip m.hdrs |>.foldl (fun l p => spSet hdrDflt l p.1 p.2) []
  let p : Prog :=
    { loaded := true, lists := imageLists m, pages := m.pages, problems := m.problems, hdrs := hdrs, blocks := m.blocks
      lsets := m.sets, lastSet := 0 }
  let s2 := (s1.setProg d p).setDom d { s1.dom d with nextStep := first }
  s2.each (mlist m.blocks 24) (fun s b => s.setBlk b { s.blk b with bank0 := bankEmpty, bank1 := bankEmpty })

/-- Whether a placement left a segment or a page in LPDDR5X that asked for SRAM. -/
def spilledNow (s t : State) : Bool := s.ro? (kMem 0) != t.ro? (kMem 0) || s.ro? (kMem 1) != t.ro? (kMem 1)

/-- An admitted PROG_LOAD: the image is read, checked whole and placed, or the command ends with a reason. -/
def loadProgram (s : State) (d k first : Nat) : State :=
  match payOf s k with
  | none => endCmd s k 0x21 0x18 []
  | some im =>
    let bad (r : Bad) : State := endCmd (modCmd s k (fun c => { c with detail := r.2 })) k 0x10 r.1 []
    match parseImage im with
    | .error r => bad r
    | .ok m => match checkImage s m with
      | some r => bad r
      | none => match placeImage s d m with
        | .error r => bad r
        | .ok t => endCmd (modCmd (installImage t d first m) k (fun c => { c with spl := spilledNow s t })) k 0 0 []

/-- Whether an image holds a program larger than its domain's MEMLIM (R301 check 2). -/
def overLimit (s : State) (d : Nat) (image : Option (List Byte)) : Bool :=
  match image with
  | some im => (match parseImage im with
    | .ok m => imageUnits m > (s.dom d).memlim
    | .error _ => false)
  | none => false

/-- PROG_LOAD as the command unit runs it. -/
def specProgLoad (d desc : Nat) (image : Option (List Byte)) : CmdSpec :=
  let len := dw desc 2
  { opc := 0x01, cost := 1 + (len + 1048575) / 1048576, inRange := 64 ≤ len && len ≤ 512 * 1048576, pay := image
    static := fun s _ => if (s.prog d).loaded then some 0x0D else if overLimit s d image then some 0x0B else none
    run := fun s k => loadProgram s d k (bits (dw desc 3) 31 0) }

/-- PROG_LOAD (R126, R299, R300). -/
def execProgLoad (d q desc : Nat) (image : Option (List Byte)) (s : State) : Host.Outcome State Fault Refusal :=
  .next (runCommand s d q desc (specProgLoad d desc image))

/-- Whether a step of a domain runs. -/
def stepRuns (s : State) (d : Nat) : Bool := (s.stp d).order != .none

/-- A domain's slot bindings removed; a pool slot is zero whenever it is free (R134). -/
def dropBinds (s : State) (d : Nat) : State :=
  (s.binds.filter (fun e => keyDom e.1 == d)).foldl (fun s e => unbind (zeroRange s (slotBase s e.1 e.2) 65536) e.1) s

/-- A program unloaded: its segments, pages and bindings are released; memory keeps its contents, and the Grader slots are held, retired, until
the domain's teardown (R184; DEDUCED, log entry 113). Writes still held for its slots are not performed (R124). -/
def unloadProgram (s0 : State) (d : Nat) : State :=
  let n := ((s0.back.held.filter (fun h => keyDom h.key == d)).map (fun h => h.ops.length)).sum
  let s := dropHeld ((dropBinds s0 d).count (kMem 6) n) (fun h => keyDom h.key == d)
  { s with
    xchs := spDel s.xchs d
    segs := s.segs.filter (fun e => e.1 / 4096 != d)
    dirs := s.dirs.filter (fun e => e.2.dom != d || !e.2.valid)
    grds := s.grds.map (fun (e : Nat × Grd) => (e.1, retireSlots d e.2))
    progs := spDel s.progs d
    steps := spDel s.steps d }

/-- PROG_UNLOAD as the command unit runs it. -/
def specProgUnload (d : Nat) : CmdSpec :=
  { opc := 0x02, cost := 1, inRange := true, pay := none
    static := fun s _ => if stepRuns s d then some 0x0F else if !(s.prog d).loaded then some 0x0C else none
    run := fun s k => endCmd (unloadProgram s d) k 0 0 [] }

/-- PROG_UNLOAD (R299). -/
def execProgUnload (d q desc : Nat) (s : State) : Host.Outcome State Fault Refusal :=
  .next (runCommand s d q desc (specProgUnload d))

/-! ## The end of a teardown (R292) -/

/-- The record of an ended command of a domain under teardown: written if its ring can still take it, else discarded and counted (R292
step 2); `lost`: the contexts whose write returned UR or CA (R296). -/
def lastRecord (lost : List Nat) (s : State) (k : Nat) : State :=
  match (s.ctx k).cmd with
  | none => s
  | some c => if hostUp s && !inChipReset s && !cqFull (s.ctx k) then complete s k c (!lost.contains k) else closeMuted s k c

/-- TEARDOWN_GEN_ACKED (R123, R209, R292 steps 4 to 7): segments, slots, pages, bindings and contexts are freed, and the domain is FREE.
The stale writes that the quarantine sink has taken meanwhile are counted (R125, R209). -/
def execTeardownGenAcked (a : GenAcks) (s : State) : Host.Outcome State Fault Refusal :=
  let d := a.dom
  .next (if d ≥ 16 || !s.cp.pcieRef || (s.dom d).st != .tearing then s
    else
      let x := s.dom d
      let mine := fun (k : Nat) => decide (x.qbase ≤ k) && decide (k < x.qbase + x.qcount)
      let s0 := ((s.cp.ctxs.map (·.1)).filter mine).foldl (lastRecord a.lost) (s.count (kMem 5) a.quar)
      let u := unloadProgram s0 d
      let s1 := { u with
        cp := { u.cp with ctxs := u.cp.ctxs.filter (fun e => !mine e.1) }
        grds := u.grds.map (fun (e : Nat × Grd) => (e.1, dropSlots d e.2))
        days := spDel u.days d }
      let s2 := s1.setDom d { domDflt 0 with gen := x.gen, lastGen := (x.gen + 4095) % 4096 }
      if x.tearCtx then adminDone s2 0 0 else s2)

end Sys2Proof.Machine
end

