-- ==== Sys2Proof/Machine/MemUnit.lean ====
section
/-!
DEFINITION. Faults of slices and backing memory (R18, R136, R144, R145, R147) and the operations on memory channels (R142, R143).
-/

namespace Sys2Proof.Machine

/-- Whether a fault in region r meets a response already under way (R416). -/
def contained (s : State) (r : Nat) : Bool := inChipReset s || (s.reg r).st == .resetting

/-- A fault contained: counted, and nothing else (R416). -/
def containFault (s : State) (r : Nat) : State :=
  if inChipReset s then s.count (kChipCnt 8) 1 else if (s.reg r).st == .resetting then s.count (kRegCnt r 4) 1 else s

/-! ## Channels (R140 to R144) -/

def chState (s : State) (c : Nat) : Nat := s.ro? (key 0x6020 c)
def setCh (c v : Nat) (s : State) : State := s.setRo (key 0x6020 c) v

/-- The four channels of a package. -/
def chansOf (p : Nat) : List Nat := (List.range 4).map (fun n => 4 * p + n)

/-- The four channels of a package set to one state. -/
def setPkg (s : State) (p v : Nat) : State := s.each (chansOf p) (fun s c => setCh c v s)

/-- MEM_CH_RESULT. -/
def setResult (s : State) (v : Nat) : State := s.setRo (key 0x6023 1) v

/-- The channel operation under way in a package. -/
def opOf (s : State) (p : Nat) : Option ChOp := s.back.ops.find? (fun o => o.ch / 4 == p)

/-- An operation ends: its end is reported if it is the last command applied. -/
def endOp (s : State) (o : ChOp) (v : Nat) : State :=
  let s1 := { s with back := { s.back with ops := s.back.ops.filter (fun x => x.ch / 4 != o.ch / 4) } }
  if o.report then setResult s1 v else s1

/-- Granules in use whose device location lies in a package. -/
def usedIn (s : State) (p : Nat) : List Nat := (List.range 2048).filter (fun g => devOf s g / 128 == p && granuleUsed s g)

/-- Free granules outside a package, lowest first: no placement, not promised to a move, in a package that takes allocations. -/
def freeOutside (s : State) (p : Nat) : List Nat :=
  (List.range 2048).filter (fun g => devOf s g / 128 != p && !granuleGone s g && !granuleUsed s g
    && s.back.moves.all (fun m => m.2 != g))

/-- Granules that a move of another package is bringing into a package. -/
def movingIn (s : State) (p : Nat) : List Nat := (s.back.moves.filter (fun m => devOf s m.2 / 128 == p)).map (·.1)

/-- The moves where a package takes nothing any more: those that had their destination in it, and `more` granules, are given free granules
outside, in rising order (R143; DESIGN CHOICE, log entry 124). -/
def movesOut (s : State) (p : Nat) (more : List Nat) : List (Nat × Nat) :=
  s.back.moves.filter (fun m => devOf s m.2 / 128 != p) ++ (movingIn s p ++ more).zip (freeOutside s p)

/-- A package starts to be emptied (R143): every granule in use, and every granule on its way in, is given a free granule outside, and no new
allocation enters the package. -/
def emptyPkg (s : State) (o : ChOp) : State :=
  let p := o.ch / 4
  let s1 := setPkg s p 1
  { s1 with back := { s1.back with
      gone := mset s1.back.gone p
      moves := movesOut s p (usedIn s p)
      ops := s1.back.ops.filter (fun x => x.ch / 4 != p) ++ [o] } }

/-- Whether the free granules outside a package hold its granules in use and those on their way in (R143). -/
def hasSpace (s : State) (p : Nat) : Bool := (movingIn s p).length + (usedIn s p).length ≤ (freeOutside s p).length

/-- No operation's end is reported any more but that of the command now applied (R143). -/
def unreport (s : State) : State := { s with back := { s.back with ops := s.back.ops.map (fun o => { o with report := false }) } }

/-- A channel command applied (R143). One for the package of an automatic retirement under way takes that operation's place, so that after a
RETRAIN the channel is not RETIRED (DESIGN CHOICE, log entry 81). -/
def applyChannel (s0 : State) (op ch : Nat) : State :=
  let s := unreport s0
  let p := ch / 4
  let o : ChOp := { op := op, ch := ch, host := true, report := true }
  if chState s ch = 4 ∨ chState s ch = 5 ∨ s.back.ops.any (·.host) then setResult s 5
  else match opOf s p with
    | some _ => setResult { s with back := { s.back with ops := s.back.ops.filter (fun x => x.ch / 4 != p) ++ [o] } } 1
    | none => if hasSpace s p then setResult (emptyPkg s o) 1 else setResult s 3

/-- A channel retired by the module itself (R144): DEGRADED where there is no space. -/
def autoRetire (s : State) (ch : Nat) : State :=
  if chState s ch = 4 ∨ chState s ch = 5 ∨ (opOf s (ch / 4)).isSome then s
  else if hasSpace s (ch / 4) then emptyPkg s { op := 2, ch := ch, host := false, report := false }
  else setCh ch 6 s

/-- The first command for a channel of region r with an operation, handed over by a cue. -/
def channelCmd (s : State) (r op : Nat) : Option (Nat × Nat) :=
  s.mgt.cmdPend.find? (fun x => x.1 == key 0x6023 0 && x.2 / 256 == op && x.2 % 256 / 16 == r)

/-- A channel command carried out. -/
def runChannel (op r : Nat) (s : State) : State :=
  if !dataUp s then s
  else match channelCmd s r op with
    | none => s
    | some x => applyChannel { s with mgt := { s.mgt with cmdPend := s.mgt.cmdPend.erase x } } op (x.2 % 256)

/-- MEM_CH_RETRAIN (R143). -/
def execMemChRetrain (region : Nat) (s : State) : Host.Outcome State Fault Refusal := .next (runChannel 1 region s)

/-- MEM_CH_RETIRE (R143). -/
def execMemChRetire (region : Nat) (s : State) : Host.Outcome State Fault Refusal := .next (runChannel 2 region s)

/-- GRANULE_MOVE_COMPLETE (R142): the granule and the free granule exchange their device locations. -/
def execGranuleMoveComplete (g : Nat) (s : State) : Host.Outcome State Fault Refusal :=
  .next (match s.back.moves.find? (fun m => m.1 == g) with
    | none => s
    | some m =>
      if !dataUp s then s
      else { s with back := { s.back with
        moves := s.back.moves.erase m
        remap := spSet (fun k => k) (spSet (fun k => k) s.back.remap m.1 (devOf s m.2)) m.2 (devOf s m.1) } })

/-- PACKAGE_EMPTIED (R143): training of the channel starts, its siblings PARKED, or the package is RETIRED. -/
def execPackageEmptied (p : Nat) (s : State) : Host.Outcome State Fault Refusal :=
  .next (match opOf s p with
    | none => s
    | some o =>
      if !dataUp s || chState s o.ch != 1 || !(usedIn s p).isEmpty || !(movingIn s p).isEmpty then s
      else if o.op = 1 then setCh o.ch 2 (setPkg s p 3)
      else endOp (setPkg s p 4) o 2)

/-- CHANNEL_RETRAIN_DONE (R143): the package returns to service, or is RETIRED where the training failed. -/
def execChannelRetrainDone (ok : Bool) (s : State) : Host.Outcome State Fault Refusal :=
  .next (match s.back.ops.find? (fun o => chState s o.ch == 2) with
    | none => s
    | some o =>
      let p := o.ch / 4
      if !dataUp s then s
      else if ok then
        let s1 := endOp (setPkg s p 0) o 2
        { s1 with back := { s1.back with gone := mclr s1.back.gone p } }
      else endOp (setPkg s p 4) o 4)

/-- DEGRADED_RETRY (R144, Table 5-7): granules have become free, and the move is tried again. -/
def execDegradedRetry (ch : Nat) (s : State) : Host.Outcome State Fault Refusal :=
  .next (if dataUp s && chState s ch == 6 then autoRetire s ch else s)

/-- Ticks in the 3,600 s over which corrections of a channel count (R144). -/
def ceWindow : Nat := 90000000000

/-- A link-ECC correction on a channel (R144): counted; beyond MEM_CE_LIMIT within 3,600 s the channel is retired. -/
def linkCe (s : State) (ch : Nat) : State :=
  if ch ≥ 64 then s
  else
    let recent := s.ticks :: (spGet (fun _ => []) s.back.ce ch).filter (fun t => s.ticks - t < ceWindow)
    let s1 := s.count (key 0x6021 ch) 1
    let s2 := { s1 with back := { s1.back with ce := spSet (fun _ => []) s1.back.ce ch recent } }
    if recent.length > s.app (ch / 16) (key 0x6024 0) ∧ chState s ch = 0 then autoRetire s2 ch else s2

/-! ## Uncorrectable reads (R18, R136, R144, R145) -/

/-- The domains that have anything in a granule, by their numbers. -/
def granuleDoms (s : State) (g : Nat) : Nat :=
  let inG (a n : Nat) : Bool := (granulesOf a n).contains g
  (List.range 16).foldl (fun m d =>
    if s.segs.any (fun e => e.1 / 4096 == d && (segDram e.2).any (fun r => inG r.1 r.2))
      || s.dirs.any (fun e => e.2.valid && e.2.dom == d && e.2.tier && inG (e.2.addr * 2 ^ 18) 0x40000)
    then mset m d else m) 0

/-- A command of a domain whose data was lost ends FAILED with LOST (Table 10-12). -/
def lostCtx (c : Ctx) : Ctx :=
  match c.cmd with
  | some x => if x.fin == .running then { c with cmd := some { x with fin := .ended 0x21 0x19, data := none } } else c
  | none => c

/-- A domain torn down because its data was lost (R145). -/
def tearLost (s : State) (d : Nat) : State := if (s.dom d).st == .active then teardown (closeMutes (mapCtxs s d lostCtx) d) d else s

/-- A package fails (R145): its granules are withdrawn, moves into it go elsewhere, the loss is recorded, the domains that lose data are
torn down. DETAIL of the record is the package's number (DESIGN CHOICE, log entry 85). -/
def failPackage (s : State) (p : Nat) : State :=
  let doms := (usedIn s p).foldl (fun m g => m ||| granuleDoms s g) 0
  let s1 := match opOf s p with
    | some o => endOp s o 4
    | none => s
  let s2 := setPkg { s1 with back := { s1.back with
      gone := mset s1.back.gone p, moves := (movesOut s p []).filter (fun m => devOf s m.1 / 128 != p)
      suspect := s1.back.suspect.filter (fun g => devOf s g / 128 != p) } } p 5
  (logFault s2 { level := 2, action := 5, cause := 0x08, region := p / 4, doms := doms, detail := p }).each (mlist doms 16) tearLost

/-- DRAM_UE (R144, R145): counted; a region fault; the granule is suspect, or its package fails. -/
def execDramUe (pa : Nat) (s : State) : Host.Outcome State Fault Refusal :=
  let g := pa / 2 ^ 28
  let p := devOf s g / 128
  let c := 4 * p + pa / 256 % 4
  let r := regOfPkg p
  .next (if pa ≥ 0x8000000000 || !(dataUp s || inChipReset s) then s
    else
      let s1 := s.count (key 0x6022 c) 1
      if contained s r then containFault s1 r
      else if !alive s r then s1
      else
        let s2 := regionFault s1 r 1 { level := 2, action := 3, cause := 0x07, detail := pa }
        if s.back.suspect.contains g then failPackage s2 p
        else { s2 with back := { s2.back with suspect := s2.back.suspect ++ [g] } })

/-- The granules that are no longer suspect once a domain's step has committed (R145). -/
def clearSuspect (s : State) (d : Nat) : State :=
  if s.back.suspect.isEmpty then s
  else { s with back := { s.back with suspect := s.back.suspect.filter (fun g => !mbit (granuleDoms s g) d) } }

/-- An uncorrectable error of a slice reported by its block (R18, R25): the region is killed and reset. -/
def sliceFault (s : State) (cell detail : Nat) : State :=
  let b := cell / 16
  let r := b / 6
  if contained s r then containFault s r
  else if !alive s r then s
  else regionFault (s.count (kBlkCnt b 4) 1) r 1 { level := 2, action := 3, cause := 0x01, blk := b, cell := cell, detail := detail }

/-- Whether an offset of a cell's slice holds a copy of the Shard Directory, or a replica of the segment table (Table 5-4). -/
def inDirectory (cell off : Nat) : Bool := (cell % 96 == 0 || cell % 96 == 16) && 0x800000 ≤ off
def inSegTable (s : State) (cell off : Nat) : Bool :=
  cell % 96 == 0 && (128 - poolSlots s (cell / 96) - 32) * 65536 ≤ off && off < (128 - poolSlots s (cell / 96)) * 65536

/-- SLICE_UE (R18, R25, R136): a read uncorrectable after two retries. A directory line is served from the mirror unless that copy is
lost too, a segment table line from another replica. -/
def execSliceUe (cell off : Nat) (mirrorLost : Bool) (s : State) : Host.Outcome State Fault Refusal :=
  .next (if !(s.pwr.rails == .up) then s
    else
      let s1 := s.count (kSram 2) 1
      if inDirectory cell off then
        if mirrorLost then sliceFault s1 (cell / 96 * 96) (sliceBase (cell / 96 * 96) + off) else s1.count (kSram 3) 1
      else if inSegTable s cell off then s1
      else sliceFault s1 cell (sliceBase cell + off))

/-- SCRUB_LINE (R147): a line read, corrected and written back; an uncorrectable one is poisoned, so that its words deliver no data until
they are written. -/
def execScrubLine (cell off : Nat) (corrected uncorrectable : Bool) (s : State) : Host.Outcome State Fault Refusal :=
  let a := (sliceBase cell + off) / 64 * 64
  .next (if !(s.pwr.rails == .up) then s
    else if uncorrectable then
      let s1 := s.count (kSram 5) 1
      { s1 with back := { s1.back with poison := ((List.range 8).map (fun i => a / 8 + i)
          ++ s1.back.poison.filter (fun w => w < a / 8 || a / 8 + 8 ≤ w)) } }
    else s.countIf corrected (kSram 0))

/-! ## Reads of poisoned words (R18, R147) -/

/-- Where a line of a domain lies in memory; none where it is not performed or its slot is not bound. -/
def lineAt (s : State) (d la : Nat) : Option Nat :=
  match maLoc s d la with
  | .miss => none
  | .pa a => some a
  | .slot key off => (s.bind key).map (fun b => slotBase s key b + off)

/-- The first poisoned word among `n` bytes at a physical address. -/
def poisonAt (s : State) (a n : Nat) : Option Nat :=
  if n = 0 then none else s.back.poison.find? (fun w => a / 8 ≤ w && w ≤ (a + n - 1) / 8)

/-- The first poisoned word that reads of ranges of module addresses meet. -/
def poisonHit (s : State) (d : Nat) (rs : List (Nat × Nat)) : Option Nat :=
  if s.back.poison.isEmpty then none
  else (rs.flatMap (fun r => (linesOf r.1 r.2).map (fun la =>
    let lo := max la r.1
    (la, lo - la, min (la + 64) (r.1 + r.2) - lo)))).findSome? (fun x =>
      (lineAt s d x.1).bind (fun a => poisonAt s (a + x.2.1) x.2.2))

/-- A read that meets a poisoned word: it stays uncorrectable after its retries, and its block reports it (R18, R25). -/
def poisonFault (s : State) (w : Nat) : State :=
  sliceFault (s.count (kSram 2) 1) ((8 * w - 0x8000000000) / 0x1000000) (8 * w)

/-- An operation that reads ranges of module addresses: its work, unless a read meets a poisoned word, which stops it (log entry 137). -/
def guardReads (s : State) (d : Nat) (rs : List (Nat × Nat)) (t : State) : State :=
  match poisonHit s d rs with
  | some w => poisonFault s w
  | none => t

/-- The first poisoned word that reads at physical addresses meet. -/
def physHit (s : State) (rs : List (Nat × Nat)) : Option Nat :=
  if s.back.poison.isEmpty then none else rs.findSome? (fun r => poisonAt s r.1 r.2)

/-- The same for reads at physical addresses. -/
def guardPhys (s : State) (rs : List (Nat × Nat)) (t : State) : State :=
  match physHit s rs with
  | some w => poisonFault s w
  | none => t

end Sys2Proof.Machine
end

