-- ==== Sys2Proof/Machine/Sequencer.lean ====
section
/-!
DEFINITION. The block sequencer (R149 to R179): step start and release, readiness counters and signals, the choice among ready items,
completion of items, working-copy headers.
-/

namespace Sys2Proof.Machine

/-! ## Latched values (R160, R216) -/

/-- Whether an entry is one of those that a Cutter latches at step start (R216). -/
def latchKey (k : Nat) : Bool :=
  let i := k / 256
  i == 0x7080 || i == 0x7081 || (0x7100 ≤ i && i < 0x7140)

/-- What the Cutters latch: their applied copies; those of a region out of service the live values, which they load when it leaves that state, so
that no step runs on old values in some layers and on new ones in others (R216, R325). -/
def takeLatch (s : State) : Sparse Nat :=
  let own := s.mgt.applied.filter (fun e => latchKey (e.1 % 0x1000000) && e.1 / 0x1000000 < 4 && alive s (e.1 / 0x1000000))
  let live := s.mgt.live.filter (fun e => latchKey e.1)
  ((List.range 4).filter (fun r => !alive s r)).foldl (fun l r =>
    live.foldl (fun l e => spSet appDflt l (appKey r e.1) e.2) l) own

/-- A latched entry in force in region r for the running step of domain d. -/
def State.lat (s : State) (d r k : Nat) : Nat := spGet appDflt (s.stp d).latch (appKey r k)

/-- Whether the running step of a domain is in legacy scaling mode (R417). -/
def legacy (s : State) (d : Nat) : Bool :=
  (s.stp d).order != .none && (mlist (s.prog d).blocks 24).any (fun b => s.lat d (b / 6) (key 0x7080 0) == 1)

/-- 1/L of the running step, exact because L is a power of two (R51, R241). -/
def lossRcp (s : State) (d : Nat) : Word := (div32 0x3F800000 (BitVec.ofNat 32 (s.stp d).ls)).1

/-! ## Progress, readiness (R153, R154, R343) -/

/-- A progress event in a block sets its watchdog's count to 0 (R343). -/
def progress (s : State) (b : Nat) : State := s.setBlk b { s.blk b with wdt := 0 }

/-- Whether all waits of an item are met in the bank of the running step (R154). -/
def waitsMet (k : Blk) (it : Item) : Bool := it.hdr.waits.all (fun w => w.2 ≤ ctrVal k w.1)

/-- An item that waits becomes ready when its waits are met; `evt` stands for the cycle (DESIGN CHOICE, log entry 12). -/
def readyItem (its : List Item) (l evt : Nat) (k : Blk) (i : Nat) : Blk :=
  match its[i]? with
  | some it =>
    let st := k.item l i
    if st.st == .waiting && waitsMet k it then
      { k with items := spSet itemDflt k.items (itemKey l i) { st with st := .ready, readyAt := evt } }
    else k
  | none => k

/-- The items of a running block whose waits are met become ready. -/
def markReady (s : State) (b : Nat) : State :=
  let k := s.blk b
  if k.phase == .running then
    let k1 := (List.range 18).foldl (fun k l =>
      let its := listOf s b l
      (List.range its.length).foldl (readyItem its l s.evt) k) k
    { s.setBlk b k1 with evt := s.evt + 1 }
  else s

/-- A bank after a tag (R153): taken over where it is invalid or the tag is newer; none where the tag is older. -/
def bankTag (x : Bank) (stp att : Nat) : Option Bank :=
  if !x.valid || tagNewer stp att x.step x.att then some { valid := true, step := stp % 65536, att := att % 16, ctr := [] }
  else if x.step = stp % 65536 ∧ x.att = att % 16 then some x
  else none

/-- The bank of a step number changed. -/
def Blk.setBank (k : Blk) (stp : Nat) (x : Bank) : Blk := if stp % 2 = 0 then { k with bank0 := x } else { k with bank1 := x }

/-- One signal at a block's counters (R153): added, saturating, after a newer tag has cleared the bank; or dropped as older and counted. -/
def signalBlock (s : State) (g : Sig) : State :=
  let k := s.blk g.blk
  match bankTag (k.bankOf g.step) g.step g.att with
  | none => (progress s g.blk).count (kSeqPerf g.blk 4) 1
  | some x =>
    let y := { x with ctr := spSet zeroNat x.ctr g.ctr (min (spGet zeroNat x.ctr g.ctr + 1) 65535) }
    markReady (s.setBlk g.blk { k.setBank g.step y with wdt := 0 }) g.blk

/-- Element n of a list taken out. -/
def dropAt {α : Type} : Nat → List α → List α
  | _, [] => []
  | 0, _ :: l => l
  | n + 1, a :: l => a :: dropAt n l

/-- SIGNAL_ARRIVAL (R153, R155): the n-th signal in flight reaches its block; one into a region that is resetting is lost. -/
def execSignalArrival (n : Nat) (s : State) : Host.Outcome State Fault Refusal :=
  .next (match s.sigs[n]? with
    | none => s
    | some g =>
      let s1 := { s with sigs := dropAt n s.sigs }
      if alive s (regOfBlk g.blk) then signalBlock s1 g else s1)

/-! ## Working copies (R170 to R174) -/

/-- The segment of a header's buffer b. -/
def WcHdr.seg (h : WcHdr) (b : Nat) : Nat := if b % 2 = 0 then h.seg0 else h.seg1

/-- HOLD of a buffer changed through a function. -/
def WcHdr.modHold (h : WcHdr) (b : Nat) (f : Nat → Nat) : WcHdr :=
  if b % 2 = 0 then { h with hold0 := f h.hold0 % 65536 } else { h with hold1 := f h.hold1 % 65536 }

def WcHdr.hold (h : WcHdr) (b : Nat) : Nat := if b % 2 = 0 then h.hold0 else h.hold1

/-- The hold decrement of a late item (R172). -/
def holdDec (s : State) (d : Nat) (it : Item) : State :=
  if it.hdr.wcEn && it.hdr.vage then
    let h := s.hdr d it.hdr.wcHdr
    s.setHdr d it.hdr.wcHdr (h.modHold h.vprev (· - 1))
  else s

/-- Bit position of the top bits of the address field that WC_FIELD names, within the payload (R171). -/
def wcFieldAt (it : Item) : Nat :=
  let c := if it.hdr.kind = 2 then 512 else 0
  match it.hdr.wcField with
  | 0 => 336
  | 1 => 416
  | 2 => 392 + c
  | _ => 352 + c

/-- An item with its working-copy address replaced (R171). -/
def resolveItem (s : State) (d : Nat) (it : Item) : Item :=
  if it.hdr.wcEn then
    let h := s.hdr d it.hdr.wcHdr
    let a := wcFieldAt it
    { it with payload := setBits it.payload (a + 11) a (h.seg (if it.hdr.vage then h.vprev else h.vcur)) }
  else it

/-- The record of a working-copy buffer's segment, where it lies in a valid segment. -/
def bufRec (s : State) (d seg : Nat) : Option Nat :=
  let g := s.seg d seg
  let r := s.seg d (maSeg g.recA)
  if g.valid && r.valid && maOff g.recA + 128 ≤ r.size * 64 then some g.recA else none

/-- The block that holds a working-copy header's segment record: the block of the record's cell stands for the holder (R174). -/
def recBlk (s : State) (d a : Nat) : Nat := holderCell (s.seg d (maSeg a)) (maOff a) / 16 % 24

/-- The OPEN of the record of a header's emission buffer (R160, R228), unless its read meets a poisoned word (R18). -/
def openBuf (d : Nat) (s : State) (h : Nat) : State :=
  let x := s.hdr d h
  match bufRec s d (x.seg (x.vcur + 1)) with
  | some a => guardReads s d [(a, 128)] (modRec s (recBlk s d a) d a recOpen)
  | none => s

/-! ## Step start (R160) -/

/-- The list-set item counts of R172 of one block added to HOLD. -/
def holdAdds (d lset : Nat) (s : State) (b : Nat) : State :=
  let its := (List.range 18).flatMap (fun l => spGet (fun _ => []) (s.prog d).lists ((lset * 24 + b) * 18 + l))
  (its.filter (fun i => i.hdr.wcEn && i.hdr.vage)).foldl (fun s i =>
    let h := s.hdr d i.hdr.wcHdr
    s.setHdr d i.hdr.wcHdr (h.modHold h.vprev (· + 1))) s

/-- A block at the start of a step's attempt: its bank takes the tag, its lists start at their heads; the commit list is cleared by
attempt 0 only (R153, R160, R236). A sequencer that was busy at the cue that selected the other microcode bank switches first (R369). -/
def startBlock (d lset no att : Nat) (s : State) (b : Nat) : State :=
  let sw := wakeBlk s b
  let s0 := if (sw.blk b).ubank = sw.flt.usel then sw else takeBank sw b
  let k := s0.blk b
  let x := (bankTag (k.bankOf no) no att).getD (k.bankOf no)
  s0.setBlk b { k.setBank no x with
    phase := .starting, dom := d, lset := lset, att := att % 16, step := no, items := [], norm := 0, pass := none, falls := []
    curs := [], staged := [], commits := if att = 0 then [] else k.commits
    nonfin := if att = 0 then k.nonfin else false, wdt := 0, gateOld := none }

/-- Steps 1 to 4 of R160 for attempt `att`: blocks start, HOLD is raised, emission buffers are opened. -/
def startAttempt (s : State) (d att : Nat) : State :=
  let st := s.stp d
  let s1 := s.setStp d { st with order := .starting, stopped := false, att := att, xfer := false, reported := 0, walked := 0, clipped := 0, clipOn := 0 }
  let s2 := (progBlocks s1 d).foldl (startBlock d st.lset st.no att) s1
  let s3 := (progBlocks s2 d).foldl (holdAdds d st.lset) s2
  (s3.prog d).hdrs.map (·.1) |>.foldl (openBuf d) s3

/-- The modes of CMD_DIFF_MODE in force. -/
def diffModes (s : State) : Nat := s.app 4 (key 0x4800 0) % 2 + 2 * (s.app 4 (key 0x4800 1) % 2)

/-- A step dispatched for the first time (R160, R216): number, list set, latched modes and Cutter entries. -/
def dispatchStep (s : State) (d k lset : Nat) : State :=
  let old := s.stp d
  let st : StepSt :=
    { stepDflt 0 with
      no := (s.dom d).nextStep, lset := lset, ctx := k, latch := takeLatch s, ls := s.ro? (key 0x7080 1)
      modes := diffModes s, prevModes := old.modes }
  let s1 := (s.setStp d st).setRo (key 0x4800 3) (st.modes + 4 * st.prevModes)
  let p := s1.prog d
  startAttempt (s1.setProg d { p with lastSet := lset }) d 0

/-! ## STEP (R299) -/

/-- Whether the domain's group contains the module, or the domain has none (R264). -/
def groupOk (s : State) (d : Nat) : Bool :=
  let g := s.live (key 0x5020 d)
  let c := s.live (key 0x5000 0)
  let o := s.live (key (0x5010 + g) 0)
  let e := s.live (key (0x5010 + g) 1)
  let inside (m l : Nat) : Bool := bits o m l ≤ bits c m l && bits c m l ≤ bits o m l + bits e m l
  g = 0xFF || (g < 4 && inside 11 8 && inside 7 4 && inside 3 0)

/-- STEP as the command unit runs it. -/
def specStep (d desc : Nat) : CmdSpec :=
  let lset := bits (dw desc 1) 2 0
  { opc := 0x10, cost := 1, inRange := bits (dw desc 4) 11 0 ≤ 3840 && bits (dw desc 4) 11 0 % 4 == 0, pay := none
    static := fun s k =>
      if !(s.ctx k).stepq then some 0x0E
      else if !(s.prog d).loaded then some 0x0C
      else if stepRuns s d then some 0x0F
      else if !mbit (s.prog d).lsets lset then some 0x1A
      else if bit (dw desc 2) 63 && bits (dw desc 2) 31 0 != (s.dom d).nextStep then some 0x14
      else if !groupOk s d then some 0x11
      else if (progBlocks s d).any (fun b => !bit (s.blk b).map 31) then some 0x05
      else none
    run := fun s k => dispatchStep s d k lset }

/-- STEP (R160, R299). -/
def execStep (d q desc : Nat) (s : State) : Host.Outcome State Fault Refusal :=
  .next (runCommand s d q desc (specStep d desc))

/-! ## Items (R155, R157, R165) -/

/-- Signals of an item: SIG0, SIG1, and a RECORD item's broadcast to every block that holds lists of the program (R150, R152). -/
def signalsOf (s : State) (b : Nat) (it : Item) : List Sig :=
  let k := s.blk b
  let mk (t c : Nat) : Sig := { blk := t, ctr := c, step := k.step % 65536, att := k.att }
  it.hdr.sigs.map (fun p => mk (if p.1 = 31 then b else p.1) p.2)
    ++ (if it.hdr.kind = 3 ∧ bit (it.word 0) 50 then (progBlocks s k.dom).map (fun t => mk t (bits (it.word 0) 49 40)) else [])

/-- An item is done: hold decrement, then its signals (R155). -/
def finishItem (s : State) (b l i : Nat) (it : Item) : State :=
  let k := s.blk b
  let s1 := s.setBlk b { k with items := spSet itemDflt k.items (itemKey l i) { k.item l i with st := .done }, wdt := 0 }
  let s2 := holdDec s1 k.dom it
  { s2 with sigs := s2.sigs ++ signalsOf s2 b it }.count (kSeqPerf b 0) 1

/-- An item that completes without running (R165, Table 8-3): its signals are sent and its hold decrement is made. -/
def unrunItem (s : State) (b l i : Nat) (it : Item) : State := finishItem (traceBurst s b l i 3) b l i it

/-- The VAR codes that the items of a program's list set carry. -/
def setVars (p : Prog) (lset : Nat) : List Nat :=
  (p.lists.filter (fun e => e.1 / 432 == lset)).flatMap (fun e => e.2.map (fun i => i.hdr.var))

/-- The other variant of a layer kind. -/
def otherVar (v : Nat) : Nat := if v % 2 = 1 then v + 1 else v - 1

/-- Whether an item's variant is selected (R165): by the latched modes, or because its list set carries no item of the other variant. -/
def variantOn (vars : List Nat) (st : StepSt) (it : Item) : Bool :=
  let m := if it.hdr.vage then st.prevModes else st.modes
  it.hdr.var = 0 || !vars.contains (otherVar it.hdr.var) || bit m ((it.hdr.var - 1) / 2) == (it.hdr.var % 2 == 0)

/-- The unselected variants of a block complete at the release (R160, R165). -/
def unrunVariants (d : Nat) (s : State) (b : Nat) : State :=
  let vs := setVars (s.prog d) (s.stp d).lset
  (List.range 18).foldl (fun s l =>
    let its := listOf s b l
    (List.range its.length).foldl (fun s i =>
      match its[i]? with
      | some it => if variantOn vs (s.stp d) it then s else (unrunItem s b l i it).count (kSeqPerf b 1) 1
      | none => s) s) s

/-- STEP_RELEASE (R160 step 5): every block has reported, and all are released together; the barrier wait is counted. -/
def execStepRelease (d cycles : Nat) (s : State) : Host.Outcome State Fault Refusal :=
  let bs := progBlocks s d
  .next (if (s.stp d).order != .starting || (s.stp d).stopped || !dataUp s || bs.any (fun b => !alive s (regOfBlk b) || (s.blk b).clkOff) then s
    else
      let s1 := s.setStp d { s.stp d with order := .running }
      let s2 := bs.foldl (fun s b => (s.setBlk b { s.blk b with phase := .running, wdt := 0, traceQ := 0 }).count (kSeqPerf b 9) cycles) s1
      bs.foldl markReady (bs.foldl (unrunVariants d) s2))

/-! ## The choice (R157, R158) -/

/-- The candidates of a unit that are ready: those among the first 32 unstarted items of the list (R157, R159). -/
def readyCands (s : State) (b l : Nat) (p : Item → Bool) : List Nat :=
  let its := listOf s b l
  ((unstarted s b l).take 32).filter (fun i => ((s.blk b).item l i).st == .ready && (match its[i]? with
    | some it => p it
    | none => false))

/-- The rank of an item as one number: class, ready event, list, place (R157). -/
def rankOf (s : State) (b l i : Nat) : Nat :=
  match (listOf s b l)[i]? with
  | some it =>
    let st := (s.blk b).item l i
    (((if st.promoted then 1 else it.hdr.cls) * 2 ^ 64 + st.readyAt) * 32 + l) * 65536 + i
  | none => 2 ^ 128

/-- The best ranked of (list, place) pairs. -/
def bestOf (s : State) (b : Nat) (c : List (Nat × Nat)) : Option (Nat × Nat) :=
  c.foldl (fun o x => match o with
    | none => some x
    | some y => if rankOf s b x.1 x.2 < rankOf s b y.1 y.2 then some x else some y) none

/-- Whether a bank of every array of an operation is free (R71, R157). -/
def arraysFree (s : State) (b pos : Nat) (it : Item) : Bool :=
  (mlist it.tile.arrEn 4).all (fun a => ((runningItems s b pos needsArrays).filter (fun x => bit x.tile.arrEn a)).length < 2)

/-- Whether a cell's vector engine is idle (R96). -/
def engineFree (s : State) (b pos : Nat) : Bool := (runningItems s b pos needsEngine).isEmpty

/-- What a cell may start now: the best of each free unit, but where a TILE_VEC ranks first in the cell only that, and only when both units
are free (R157). -/
def cellStarts (s : State) (b pos : Nat) : List (Nat × Nat) :=
  let its := listOf s b pos
  let ta := bestOf s b ((readyCands s b pos needsArrays).map (fun i => (pos, i)))
  let ve := bestOf s b ((readyCands s b pos needsEngine).map (fun i => (pos, i)))
  let isTv (x : Nat × Nat) : Bool := match its[x.2]? with
    | some it => it.hdr.kind == 2
    | none => false
  let arr (x : Nat × Nat) : Bool := match its[x.2]? with
    | some it => arraysFree s b pos it
    | none => false
  match bestOf s b (ta.toList ++ ve.toList) with
  | none => []
  | some x =>
    if isTv x then (if arr x && engineFree s b pos then [x] else [])
    else (ta.toList.filter (fun y => !isTv y && arr y)) ++ (ve.toList.filter (fun y => !isTv y && engineFree s b pos))

/-- What the Cutter and the block unit may start now (R157). -/
def unitStarts (s : State) (b : Nat) : List (Nat × Nat) :=
  let all : Item → Bool := fun _ => true
  (if (runningOf s b 16).isEmpty then (bestOf s b ((readyCands s b 16 all).map (fun i => (16, i)))).toList else [])
    ++ (if (runningOf s b 17).length < 16 then (bestOf s b ((readyCands s b 17 all).map (fun i => (17, i)))).toList else [])

/-- Whether a block runs items: RUNNING, in service, its clocks on, its region alive, its attempt not aborted (R357). -/
def blkRuns (s : State) (b : Nat) : Bool :=
  let k := s.blk b
  !(s.stp k.dom).stopped && dataUp s && alive s (regOfBlk b) && k.phase == .running && bit k.map 31 && !k.clkOff

/-- Whether a position of a block is being given to the stand-in (R363): nothing is dispatched to it. -/
def substAt (s : State) (b pos : Nat) : Bool :=
  match (s.blk b).subst with
  | some x => x.pos == pos
  | none => false

/-- The item that a block's sequencer starts next: the best over all free units (R157). -/
def nextItem (s : State) (b : Nat) : Option (Nat × Nat) :=
  bestOf s b (((List.range 16).filter (fun p => !substAt s b p)).flatMap (cellStarts s b) ++ unitStarts s b)

/-- The item that starts is one of a list that satisfies a test: it starts, and its effect follows. -/
def startItem (s : State) (b l : Nat) (p : Item → Bool) (eff : State → Nat → Item → State) : State :=
  if !blkRuns s b then s
  else match nextItem s b with
    | none => s
    | some (l1, i) =>
      match (listOf s b l1)[i]? with
      | none => s
      | some it =>
        if l1 = l ∧ p it then
          let s1 := traceItem s b l i 1
          let k := s1.blk b
          let s2 := s1.setBlk b { k with items := spSet itemDflt k.items (itemKey l i) { k.item l i with st := .running }, wdt := 0 }
          eff s2 i (resolveItem s2 k.dom it)
        else s

/-- The number by which held accesses and packets name an item. -/
def srcOf (b l i : Nat) : Nat := b * 2 ^ 24 + itemKey l i + 1

/-- The DEFER items of a block that are ready and not yet promoted, in a list's window or beyond it (R158). -/
def deferCands (s : State) (b : Nat) : List (Nat × Nat) :=
  (List.range 18).flatMap (fun l => (unstarted s b l).filterMap (fun i =>
    match (listOf s b l)[i]? with
    | some it => if it.hdr.cls = 3 && ((s.blk b).item l i).st == .ready && !((s.blk b).item l i).promoted then some (l, i) else none
    | none => none))

/-- DEFER_PROMOTION (R158): the DEFER items that have been ready for CMD_DEFER_MAX cycles; the row says that the oldest of the block's
candidates has. -/
def execDeferPromotion (b : Nat) (s : State) : Host.Outcome State Fault Refusal :=
  .next (if !blkRuns s b || s.app (seqUnit b) (key 0x4800 2) = 0 then s
    else match bestOf s b (deferCands s b) with
      | none => s
      | some (l, i) =>
        let k := s.blk b
        let s1 := s.setBlk b { k with items := spSet itemDflt k.items (itemKey l i) { k.item l i with promoted := true } }
        (traceItem s1 b l i 5).count (kSeqPerf b 3) 1)

/-! ## Block unit items -/

/-- The record operations of a RECORD item (R47, R49, R51, R152). -/
def doRecord (op b : Nat) (s : State) (_ : Nat) (it : Item) : State :=
  let k := s.blk b
  guardReads s k.dom ((recsOf it).map (fun a => (a, 128))) <| (recsOf it).foldl (fun s a =>
    if op = 1 then modRec s b k.dom a recOpen
    else modRec s b k.dom a (fun w => recClose w k.step k.att (legacy s k.dom && bit w 283))) s

/-- Whether a RECORD item has an operation code. -/
def isRecord (op : Nat) (it : Item) : Bool := it.hdr.kind == 3 && bits (it.word 0) 63 56 == op

/-- RECORD_OPEN (R47, R152). -/
def execRecordOpen (b : Nat) (s : State) : Host.Outcome State Fault Refusal :=
  .next (startItem s b 17 (isRecord 1) (doRecord 1 b))

/-- RECORD_CLOSE (R49, R152). -/
def execRecordClose (b : Nat) (s : State) : Host.Outcome State Fault Refusal :=
  .next (startItem s b 17 (isRecord 2) (doRecord 2 b))

/-- MARK (R151): no work. -/
def execMark (b : Nat) (s : State) : Host.Outcome State Fault Refusal :=
  .next (startItem s b 17 (fun it => it.hdr.kind == 7) (fun s _ _ => s))

end Sys2Proof.Machine
end

