-- ==== Sys2Proof/Machine/Operands.lean ====
section
/-!
DEFINITION. How operations read operands and write results (R42, R44, R50, R70, R97, R128 to R130, R418): the bytes of a block or a
stream, their block scales and coarse scales, the quantising of a result into an output format, the coordinates of R419.
-/

namespace Sys2Proof.Machine

/-- A module address formed by an addition. -/
def ma (a : Nat) : Nat := a % 2 ^ 40

/-- The segment that holds a module address. -/
def segAt (s : State) (d a : Nat) : Seg := s.seg d (maSeg a)

/-- Element codes packed in a little-endian number (R42). -/
def codesOf (f : Fmt) (n w : Nat) : List Nat := (List.range n).map (fun i => bits w (i * fmtBits f + fmtBits f - 1) (i * fmtBits f))

/-! ## Block scales (R129) -/

/-- Physical address of the 32 scale bytes of the block at offset o of a segment, with blocks of `bb` bytes. -/
def scaleAt (g : Seg) (o bb : Nat) : Nat :=
  if g.kind = 1 ∧ !g.tier then
    sliceBase (g.cell0 + o / max (g.span * 65536) 1) + g.sbase + o % max (g.span * 65536) 1 / bb * 32
  else if g.tier then g.sbase + o / bb * 32
  else sliceBase g.cell0 + g.sbase + o / bb * 32

/-- Whether a segment has block scales at an offset. -/
def hasScales (g : Seg) (o : Nat) : Bool := g.valid && isNarrow (segFmt g) && o < g.size * 64 && g.kind != 2

/-- The 32 scale codes of the block at a module address: free bytes where the segment carries none (DESIGN CHOICE, log entry 15). -/
def ldScales (s : State) (d a : Nat) : List Nat :=
  let g := segAt s d a
  if hasScales g (maOff a) then (s.rdBytes (scaleAt g (maOff a) (blockBytes (segFmt g))) 32).map (·.toNat)
  else (List.range 32).map (fun t => (Config.freeByte 1 (a * 32 + t)).toNat)

/-- Scale code t of the block at a module address written; a segment without scales has no place for it. -/
def stScale (s : State) (d a t code : Nat) : State :=
  let g := segAt s d a
  if hasScales g (maOff a) then s.wrBytes (scaleAt g (maOff a) (blockBytes (segFmt g)) + t) [BitVec.ofNat 8 code] else s

/-! ## Coarse scales (R44, R46, R51, R129) -/

/-- The tensor record of the segment that holds an address, as a number; 0 where it has none. -/
def recAt (s : State) (d a : Nat) : Nat :=
  match bufRec s d (maSeg a) with
  | some r => (ldNat s d r 128).1
  | none => 0

/-- COARSE of an operand in a format: 1.0 for the formats without scales. `gram`: a Gram operation in legacy mode takes 1/L for a
gradient. -/
def coarseAt (s : State) (d : Nat) (f : Fmt) (w : Nat) (gram : Bool) : Word :=
  if gram && legacy s d && bit w 283 then lossRcp s d
  else if isScaled f then BitVec.ofNat 32 (bits w 511 480)
  else 0x3F800000

/-- The reciprocal by which a store into a record quantises (R50, R51). -/
def storeRcp (s : State) (d w : Nat) : Word := if legacy s d && bit w 283 then 0x3F800000 else BitVec.ofNat 32 (bits w 479 448)

/-- The factor L of a store into the loss gradient in legacy mode (R51), and the status of that product (R64). -/
def storeSeed (s : State) (d w : Nat) (x : Word) : Word × Sts :=
  if legacy s d && bit w 282 then mul32 x (BitVec.ofNat 32 (s.stp d).ls) else (x, 0)

/-! ## Operand blocks and streams -/

/-- The stored 32 × 32 block at a module address in a format, and the lines that were not performed. -/
def ldBlk (s : State) (d : Nat) (f : Fmt) (a : Nat) : Tblk × Nat :=
  let r := ldBytes s d a (blockBytes f)
  ({ fmt := f, codes := codesOf f 1024 (leNat r.1), scales := if isNarrow f then ldScales s d a else List.replicate 32 127 }, r.2)

/-! ## What operands read beside their elements -/

/-- Whether a module address lies in a REDUCE segment. -/
def inReduceSeg (s : State) (d a : Nat) : Bool := (segAt s d a).valid && (segAt s d a).kind == 2

/-- The range of the record of a segment, where it has one. -/
def segRecs (s : State) (d seg : Nat) : List (Nat × Nat) :=
  match bufRec s d seg with
  | some r => [(r, 128)]
  | none => []

/-- The record read for the coarse scale of an operand in a format: of scaled formats, and in legacy mode of the operands of a Gram product. -/
def coarseReads (s : State) (d : Nat) (f : Fmt) (gram : Bool) (a : Nat) : List (Nat × Nat) :=
  if isScaled f || (gram && legacy s d) then segRecs s d (maSeg a) else []

/-- The physical range of the scale bytes of the block at a module address in a format. -/
def blkScales (s : State) (d : Nat) (f : Fmt) (a : Nat) : List (Nat × Nat) :=
  let g := segAt s d a
  if isNarrow f && hasScales g (maOff a) then [(scaleAt g (maOff a) (blockBytes (segFmt g)), 32)] else []

/-- A range that is added into: an addition reads what its slot holds. -/
def addReads (s : State) (d a n : Nat) : List (Nat × Nat) := if inReduceSeg s d a then [(a, n)] else []

/-- Words of a block of FP32 or INT32 values. -/
def wordsOf (bs : List Byte) : List Word := (chunks 4 bs).map (fun c => BitVec.ofNat 32 (leNat c))
def bytesOf (ws : List Word) : List Byte := ws.flatMap (fun w => leBytes 4 w.toNat)

/-- A linear stream of `n` elements at a module address: its codes, and one scale code for each 32 elements (R97, R130). -/
structure Stream where
  codes : List Nat
  scales : List Nat

def ldStream (s : State) (d : Nat) (f : Fmt) (a n : Nat) : Stream :=
  { codes := codesOf f n (leNat (ldBytes s d a (elemBytes f n)).1)
    scales := if isNarrow f then (List.range ((n + 1023) / 1024)).flatMap (fun b => ldScales s d (ma (a + b * blockBytes f)))
              else [] }

/-- Lines of a stream's first `n` elements that are not performed. -/
def streamMiss (s : State) (d : Nat) (f : Fmt) (a n : Nat) : Nat := (ldBytes s d a (elemBytes f n)).2

/-! ## Results in an output format (R50, R58) -/

/-- A result block in an output format: bytes, scale codes, status, non-finite elements as written, largest finite |x|. -/
structure OutBlk where
  bytes : List Byte
  scales : List Nat
  sts : Sts
  cnt : Nat
  amax : Word

/-- The rows of a 32 × 32 list of values taken as columns. -/
def transposed {α : Type} (dflt : α) (l : List α) : List α := (List.range 1024).map (fun e => l.getD (32 * (e % 32) + e / 32) dflt)

/-- A 32 × 32 block of FP32 values quantised (R50); `cols`: the scale blocks run along output columns (SCL_AXIS_O). -/
def quantTile (f : Fmt) (rcp : Word) (cols : Bool) (xs : List Word) : OutBlk :=
  let byCol := cols && isNarrow f
  let qs := (chunks 32 (if byCol then transposed 0 xs else xs)).map (quant f rcp)
  let cs := qs.flatMap (·.codes)
  { bytes := packElems f (if byCol then transposed 0 cs else cs)
    scales := if isNarrow f then qs.map (·.scale) else []
    sts := qs.foldl (fun a q => a ||| q.sts) 0
    cnt := (qs.map QBlock.count).sum
    amax := qs.foldl (fun a q => (max32 a q.amax).1) 0 }

/-- A piece padded with +0, where its output is narrow and in COMPRESS mode (R111). -/
def padPiece (f : Fmt) (pad : Bool) (p : List Word) : List Word :=
  if pad && isNarrow f then p ++ List.replicate (32 - p.length) 0 else p

/-- Values of a linear output quantised in pieces of 32 (R105). -/
def quantLine (f : Fmt) (pad : Bool) (rcp : Word) (xs : List Word) : OutBlk :=
  let ps := (chunks 32 xs).map (padPiece f pad)
  let qs := ps.map (quant f rcp)
  { bytes := packElems f (qs.flatMap (·.codes))
    scales := if isNarrow f then qs.map (·.scale) else []
    sts := qs.foldl (fun a q => a ||| q.sts) 0
    cnt := (qs.map QBlock.count).sum
    amax := qs.foldl (fun a q => (max32 a q.amax).1) 0 }

/-- The pieces of a linear output that hold a non-finite element, by number. -/
def badPieces (f : Fmt) (pad : Bool) (rcp : Word) (xs : List Word) : List Nat :=
  let ps := (chunks 32 xs).map (padPiece f pad)
  (List.range ps.length).filter (fun i => (quant f rcp (ps.getD i [])).nonfinite.any id)

/-- Scale codes of a linear output at a module address: piece t belongs to block t / 32. -/
def stScales (s : State) (d : Nat) (f : Fmt) (a : Nat) (cs : List Nat) : State :=
  ((List.range cs.length).zip cs).foldl (fun s p => stScale s d (ma (a + p.1 / 32 * blockBytes f)) (p.1 % 32) p.2) s

/-! ## Coordinates (R419) -/

/-- Coordinates of the block at a module address for an output of `cb` block columns; 0: a single row. -/
def coords (f : Fmt) (a cb : Nat) : Nat × Nat :=
  let b := maOff a / blockBytes f
  if cb = 0 then (0, b) else (b / cb, b % cb)

/-- The lesser of two optional coordinates in row-major order. -/
def firstAt (a b : Option (Nat × Nat)) : Option (Nat × Nat) :=
  match a, b with
  | some x, some y => if x.1 < y.1 ∨ (x.1 = y.1 ∧ x.2 ≤ y.2) then some x else some y
  | some x, none => some x
  | none, y => y

end Sys2Proof.Machine
end

