-- ==== Sys2Proof/Machine/Flags.lean ====
section
/-!
DEFINITION. Status flags and counters of operations (R48, R64, R66, R67, R93, R114, R117): ARR_TILE_STS and VEC_OP_STS, ARR_NUM_EVT, the
non-finite bit, record updates, the cycle counters that a unit reports with an operation.
-/

namespace Sys2Proof.Machine

/-- The status register of the arrays (`vec` false) or the engine of the physical cell at a position, set by an operation (R64, R114). -/
def setSts (s : State) (b pos : Nat) (vec : Bool) (v : Sts) : State :=
  let k := s.blk b
  s.setBlk b { k with sts := spSet zeroNat k.sts (physOf k pos + if vec then 32 else 0) v.toNat }

/-- What a run adds to ARR_NUM_EVT when it ends: 1 for each bit of [7:0] of its status (R67, R93). -/
def stsEvts (b : Nat) (v : Sts) : List (Nat × Nat) := (mlist (v.toNat % 256) 8).map (fun n => (blkKey b 1 n, 1))

/-- Event counters raised. -/
def countEvts (s : State) (es : List (Nat × Nat)) : State := s.each es (fun s e => s.count e.1 e.2)

/-- What an item's run leaves for its end: the event counters, and what its chain owes (R93, R114). -/
def oweItem (s : State) (b l i : Nat) (o : Option Owed) (es : List (Nat × Nat)) : State :=
  let k := s.blk b
  s.setBlk b { k with items := spSet itemDflt k.items (itemKey l i) { k.item l i with owed := o, evts := es } }

/-- An item has updated a record or added into a REDUCE segment (R364). -/
def touchItem (s : State) (b l i : Nat) : State :=
  let k := s.blk b
  s.setBlk b { k with items := spSet itemDflt k.items (itemKey l i) { k.item l i with touched := true } }

/-- What an operation's unit reports with it: slice events, link-ECC corrections. -/
def applyMemEvents (s : State) (p : Perf) : State :=
  (((s.count (kSram 4) p.conflicts).count (kSram 0) p.corrected).count (kSram 1) p.retried).each p.linkCe linkCe

/-- The cycle counters of a tile operation (Table 3-10). -/
def applyArrPerf (s : State) (b : Nat) (p : Perf) : State :=
  (((s.count (kArrPerf b 1) p.computing).count (kArrPerf b 2) p.feederDry).count (kArrPerf b 3) p.drainHeld).count (kArrPerf b 4) p.swapWait

/-- The cycle counters of a chain (Table 4-8). -/
def applyVecPerf (s : State) (b : Nat) (p : Perf) : State :=
  ((s.count (kVecPerf b 1) p.vecIssue).count (kVecPerf b 2) p.vecHeld).count (kVecPerf b 3) p.vecQueue

/-- A run of an item: its work, or, where the item is issued again with the work of its first start standing, none (R25, R364). -/
def runOnce (s : State) (b l i : Nat) (f : State → State) : State :=
  let k := s.blk b
  if (k.item l i).redo then s.setBlk b { k with items := spSet itemDflt k.items (itemKey l i) { k.item l i with redo := false } } else f s

/-- A tile operation starts in the physical cell at a position (R25). -/
def countTile (s : State) (b pos : Nat) : State :=
  let k := s.blk b
  let c := physOf k pos
  s.setBlk b { k with tiles := spSet zeroNat k.tiles c (spGet zeroNat k.tiles c + 1) }

end Sys2Proof.Machine
end

