-- ==== Sys2Proof/Machine/Chain.lean ====
section
/-!
DEFINITION. Vector chains in memory (R95 to R117): reading the streams, writing outputs, reductions, the count word, status and records.
-/

namespace Sys2Proof.Machine

/-- Accesses to slots, as addParts gives them. -/
abbrev Adds := List (Nat × Nat × Bool × List Byte)

/-- Positions that a chain processes, and CNTCLAMP (R111). -/
def chainCount (s : State) (dom : Nat) (c : ChainDesc) : Nat × Sts :=
  if c.cntIn then
    let w := (ldNat s dom c.cntAddr 4).1
    (min w c.nElem, stIf (c.nElem < w) stCNTCLAMP)
  else (c.nElem, 0)

/-- Elements of input i that n positions hold at most. -/
def inCount (c : ChainDesc) (i n : Nat) : Nat := if c.inMode.getD i 0 = 2 then n / max c.rowLen 1 else n

/-- The format of input i. -/
def inFmt (c : ChainDesc) (i : Nat) : Fmt := fmtD (c.fmtI.getD i 0)

/-- Element k of an input as it enters a lane (R97). -/
def fetchEl (f : Fmt) (coarse : Word) (x : Stream) (k : Nat) : Word × Sts :=
  dequant f (x.scales.getD (k / 32) 127) coarse (x.codes.getD k 0)

/-- The input streams of a chain, each with its coarse scale. -/
def chainIns (s : State) (dom : Nat) (c : ChainDesc) (n : Nat) : List (Stream × Word) :=
  (List.range 3).map (fun i =>
    if bit c.inEn i then
      let a := c.inAddr.getD i 0
      (ldStream s dom (inFmt c i) a (inCount c i n), coarseAt s dom (inFmt c i) (recAt s dom a) false)
    else ({ codes := [], scales := [] }, 0x3F800000))

/-- Lines that the chain reads and that are not performed: an EXPAND input reads only the elements it delivers. -/
def chainMiss (s : State) (dom : Nat) (c : ChainDesc) (n cursor : Nat) : Nat :=
  ((insOf c).map (fun i => streamMiss s dom (inFmt c i) (c.inAddr.getD i 0)
    (if c.inMode.getD i 0 = 1 then cursor else inCount c i n))).sum + (if c.cntIn then (ldNat s dom c.cntAddr 4).2 else 0)

/-- A result of an output: its format, address, record, bytes and scales, the pieces with non-finite elements. -/
structure OutLine where
  o : Nat
  fmt : Fmt
  vals : List Word
  blk : OutBlk
  bad : List Nat

/-- The values that an output writes: all, or those whose predicate holds (R111). -/
def keptVals (c : ChainDesc) (r : ChainOut) (o : Nat) : List Word :=
  let xs := r.res.getD (c.osrc.getD o 0) []
  if c.outMode.getD o 0 = 1 then ((xs.zip r.pred).filter (·.2)).map (·.1) else xs

/-- An integer result written to INT32: saturated under U32 (R105). -/
def intOut (ty : Nat) (w : Word) : Word × Sts :=
  if ty = 2 ∧ w.toNat ≥ 2 ^ 31 then (0x7FFFFFFF, stSAT) else (w, 0)

/-- One output of a chain in its format (R50, R105). -/
def outLine (s : State) (dom : Nat) (c : ChainDesc) (r : ChainOut) (o : Nat) : OutLine :=
  let xs := keptVals c r o
  let f := fmtD (c.fmtO.getD o 0)
  let ty := (c.stages.getD (c.osrc.getD o 0) (stageOf 0)).ty
  if f = .mask then
    { o := o, fmt := f, vals := xs, bad := []
      blk := { bytes := packElems .mask (xs.map (fun x => if x = 0 then 0 else 1)), scales := [], sts := 0, cnt := 0, amax := 0 } }
  else if ty ≠ 0 then
    let ys := xs.map (intOut ty)
    { o := o, fmt := f, vals := xs, bad := []
      blk := { bytes := bytesOf (ys.map (·.1)), scales := [], sts := ys.foldl (fun a y => a ||| y.2) 0, cnt := 0, amax := 0 } }
  else
    let w := (ldNat s dom (c.recAddr.getD o 0) 128).1
    let rcp := storeRcp s dom w
    let zs := xs.map (storeSeed s dom w)
    let ys := zs.map (·.1)
    let pad := c.outMode.getD o 0 == 1
    let q := quantLine f pad rcp ys
    { o := o, fmt := f, vals := ys, blk := { q with sts := zs.foldl (fun a y => a ||| y.2) q.sts }, bad := badPieces f pad rcp ys }

/-- The output line that overwrites input i (R105), as far as the strips before have written it: its elements, of a narrow COMPRESS output
those of whole blocks. A PLAIN input has read each strip before, and an addition into a slot overwrites nothing (DEDUCED, log entry 108). -/
def overwritten (s : State) (dom : Nat) (c : ChainDesc) (o : ChainOut) (i : Nat) : Option (OutLine × Nat) :=
  if c.inMode.getD i 0 = 0 then none
  else ((outsOf c).find? (fun j => outMem c j && c.outAddr.getD j 0 == c.inAddr.getD i 0 && fmtD (c.fmtO.getD j 0) == inFmt c i
      && !inReduceSeg s dom (c.inAddr.getD i 0))).map (fun j =>
    let l := outLine s dom c o j
    (l, if c.outMode.getD j 0 = 1 && isNarrow l.fmt then l.vals.length / 32 * 32 else l.vals.length))

/-- Element k of input i as strip by strip it is read (R95, R105). -/
def chainEl (s : State) (dom : Nat) (c : ChainDesc) (ins : List (Stream × Word)) (o : ChainOut) (i k : Nat) : Word × Sts :=
  match ins[i]?, overwritten s dom c o i with
  | some x, some l =>
    if k < l.2 then dequant (inFmt c i) (l.1.blk.scales.getD (k / 32) 127) x.2 (elemAt (inFmt c i) l.1.blk.bytes k)
    else fetchEl (inFmt c i) x.2 x.1 k
  | some x, none => fetchEl (inFmt c i) x.2 x.1 k
  | none, _ => (0, 0)

/-- The chain evaluated over n positions. -/
def chainVals (s : State) (dom : Nat) (c : ChainDesc) (n : Nat) : ChainOut := chainEval c n (chainEl s dom c (chainIns s dom c n))

/-- Coordinates of the block that piece t of an output lies in (R419); `t2` gives those of a piece fed to the arrays. -/
def pieceCoords (c : ChainDesc) (tile : Option TileDesc) (l : OutLine) (t : Nat) : Nat × Nat :=
  match tile with
  | some td =>
    if !outMem c l.o then
      let n := max (mlist td.arrEn 4).length 1
      let v := t / n
      ((mlist td.arrEn 4).getD (t % n) 0 * td.mtBlks + v / 32 % max td.mtBlks 1, v / 32 / max td.mtBlks 1)
    else place
  | none => place
where
  place : Nat × Nat :=
    coords l.fmt (ma (c.outAddr.getD l.o 0 + t / 32 * blockBytes l.fmt))
      (if c.outMode.getD l.o 0 = 1 then 0 else c.rowLen / 32)

/-- What an output adds to its record. -/
def lineAdd (c : ChainDesc) (tile : Option TileDesc) (sts : Sts) (l : OutLine) : RecAdd :=
  { amax := l.blk.amax.toNat, cnt := l.blk.cnt, kind := sts.toNat % 16
    at? := l.bad.foldl (fun m t => firstAt m (some (pieceCoords c tile l t))) none }

/-- The bytes that an output writes: where a PLAIN output's last element ends inside a byte, the bits beyond it keep what memory holds,
because an inactive lane writes nothing (R95). -/
def lineBytes (s : State) (dom : Nat) (c : ChainDesc) (l : OutLine) : List Byte :=
  let t := l.vals.length * fmtBits l.fmt % 8
  let n := l.blk.bytes.length
  if c.outMode.getD l.o 0 = 1 || t = 0 || n = 0 then l.blk.bytes
  else
    let old := (ldNat s dom (ma (c.outAddr.getD l.o 0 + (n - 1))) 1).1
    l.blk.bytes.take (n - 1) ++ leBytes 1 (((l.blk.bytes.getD (n - 1) 0).toNat) % 2 ^ t + old / 2 ^ t * 2 ^ t)

/-- The writes of an output that goes to memory: plain writes with scales, or adds for the caller to deposit. -/
def writeLine (b dom src : Nat) (c : ChainDesc) (r : State × Adds × Nat) (l : OutLine) : State × Adds × Nat :=
  let a := c.outAddr.getD l.o 0
  if !outMem c l.o then r
  else if inReduceSeg r.1 dom a then
    let p := addParts r.1 dom a l.blk.bytes
    (r.1, r.2.1 ++ p.1, r.2.2 + p.2)
  else (stScales (stBytes r.1 b dom src a (lineBytes r.1 dom c l)) dom l.fmt a l.blk.scales, r.2)

/-- The event counters of a chain (Tables 2-5, 4-8): its status bits, VRANGE, CNTCLAMP, the elements that COMPRESS outputs kept and
dropped. -/
def chainEvts (b : Nat) (c : ChainDesc) (r : ChainOut) (sts : Sts) : List (Nat × Nat) :=
  let n := ((outsOf c).filter (fun o => c.outMode.getD o 0 == 1)).length
  let kept := (r.pred.filter id).length
  stsEvts b sts ++ (if sts &&& stVRANGE != 0 then [(kVecPerf b 4, 1)] else []) ++ (if sts &&& stCNTCLAMP != 0 then [(kVecPerf b 5, 1)] else [])
    ++ [(kVecPerf b 6, n * kept), (kVecPerf b 7, n * (r.pred.length - kept))]

/-- What a chain leaves for its item: state, adds, adds not performed, the pieces fed to the arrays, what it owes at its end. -/
structure ChainDone where
  st : State
  adds : Adds
  miss : Nat
  fed : OutBlk
  owed : Owed
  evts : List (Nat × Nat)

/-- A chain run by block b at a cell: reads, writes, reduction results, status; what it owes at its end (R114). -/
def runChain (s : State) (b pos dom src : Nat) (c : ChainDesc) (tile : Option TileDesc) : ChainDone :=
  let n := chainCount s dom c
  let r := chainVals s dom c n.1
  let ls := (outsOf c).map (outLine s dom c r)
  let red := reduce c (r.res.getD c.redSrc [])
  let fpRed := (c.stages.getD c.redSrc (stageOf 0)).ty = 0
  let badRed := c.redMode ≠ 0 ∧ fpRed ∧ red.1.any nonfinite32 = true
  let sts := n.2 ||| r.sts ||| red.2 ||| ls.foldl (fun a l => a ||| l.blk.sts) 0
    ||| stIf (fpRed && c.redMode != 0 && red.1.any (fun w => nonfinite32 w && !isNaN32 w)) stINF
  let s1 := boundEvt s b (chainMiss s dom c n.1 r.cursor)
  let w := ls.foldl (writeLine b dom src c) (s1, [], 0)
  let s2 := if c.redMode = 0 then w.1 else stBytes w.1 b dom src c.redAddr (bytesOf red.1)
  { st := setSts s2 b pos true sts, adds := w.2.1, miss := w.2.2
    owed := {
      recs := (ls.filter (fun l => l.fmt != .mask)).map (fun l => (c.recAddr.getD l.o 0, l.fmt, lineAdd c tile sts l))
      nonfin := decide badRed || ls.any (fun l => l.blk.cnt != 0)
      cnt := if compresses c then some (c.cntAddr, (r.pred.filter id).length) else none }
    evts := chainEvts b c r sts
    fed := match ls.find? (fun l => l.o == 0 && !outMem c 0) with
      | some l => l.blk
      | none => { bytes := [], scales := [], sts := 0, cnt := 0, amax := 0 } }

/-- The deposits of an item: one for each slot that it touches (R166). -/
def depositItem (s : State) (b : Nat) (src : Nat) (it : Item) (adds : Adds) (miss : Nat) : State :=
  let k := s.blk b
  depositAll s b src k.step k.att it.hdr.depExp adds miss

/-- Elements of input i that a chain reads: of an EXPAND input those that it delivers (R110). -/
def inRead (s : State) (dom : Nat) (c : ChainDesc) (i n : Nat) : Nat :=
  if c.inMode.getD i 0 = 1 then (chainVals s dom c n).cursor else inCount c i n

/-- The ranges of module addresses that a chain reads: the count word, its inputs with the records of their coarse scales, the records that its
outputs are quantised by, the slots that it adds into. -/
def chainRanges (s : State) (dom : Nat) (c : ChainDesc) : List (Nat × Nat) :=
  let n := (chainCount s dom c).1
  (if c.cntIn then [(c.cntAddr, 4)] else [])
    ++ (insOf c).flatMap (fun i =>
      (c.inAddr.getD i 0, elemBytes (inFmt c i) (inRead s dom c i n)) :: coarseReads s dom (inFmt c i) false (c.inAddr.getD i 0))
    ++ (outsOf c).filterMap (fun o =>
      if (c.stages.getD (c.osrc.getD o 0) (stageOf 0)).ty = 0 && fmtD (c.fmtO.getD o 0) != .mask then some (c.recAddr.getD o 0, 128) else none)
    ++ ((outsOf c).filter (outMem c)).flatMap (fun o =>
      if inReduceSeg s dom (c.outAddr.getD o 0) then [(c.outAddr.getD o 0, 4 * (keptVals c (chainVals s dom c n) o).length)] else [])

/-- The scale bytes that a chain reads, as ranges of physical addresses. -/
def chainScales (s : State) (dom : Nat) (c : ChainDesc) : List (Nat × Nat) :=
  let n := (chainCount s dom c).1
  (insOf c).flatMap (fun i => (List.range ((inRead s dom c i n + 1023) / 1024)).flatMap (fun k =>
    blkScales s dom (inFmt c i) (ma (c.inAddr.getD i 0 + k * blockBytes (inFmt c i)))))

/-- The work of a CHAIN item: its adds touch REDUCE segments (R364); records and the rest wait for its end. -/
def chainWork (b pos i : Nat) (it : Item) (s : State) : State :=
  let src := srcOf b pos i
  let x := runChain s b pos (s.blk b).dom src it.chain none
  let s1 := depositItem x.st b src it x.adds x.miss
  let s2 := if x.adds.isEmpty then s1 else touchItem s1 b pos i
  oweItem s2 b pos i (some x.owed) x.evts

/-- The effect of a CHAIN item that starts. -/
def doChain (b pos : Nat) (p : Perf) (s : State) (i : Nat) (it : Item) : State :=
  let dom := (s.blk b).dom
  guardReads s dom (chainRanges s dom it.chain) <| guardPhys s (chainScales s dom it.chain)
    (applyMemEvents (applyVecPerf (runOnce s b pos i (chainWork b pos i it)) b p) p)

/-- CHAIN (R104, R114). -/
def execChain (b pos : Nat) (p : Perf) (s : State) : Host.Outcome State Fault Refusal :=
  .next (startItem s b pos (fun it => it.hdr.kind == 1) (doChain b pos p))

end Sys2Proof.Machine
end

