-- ==== Sys2Proof/Machine/Tile.lean ====
section
/-!
DEFINITION. Tile operations (R54 to R57, R65, R68 to R86, R90, R113, R166, R418): the operand blocks, accumulation, the three drains, Gram
mode with its factor map.
-/

namespace Sys2Proof.Machine

/-! ## The blocks of an operation (R82, R90, R418) -/

/-- An output block: row block index k, half h of the output columns (FP4 × FP4 has two). -/
abbrev Place := Nat × Nat

/-- Row block indexes of an operation: a × MT_BLKS + m over the enabled arrays. -/
def rowBlks (t : TileDesc) : List Nat := (mlist t.arrEn 4).flatMap (fun a => (List.range t.mtBlks).map (fun m => a * t.mtBlks + m))

def fS (t : TileDesc) : Fmt := fmtD t.fmtS
def fT (t : TileDesc) : Fmt := fmtD t.fmtT
def fO (t : TileDesc) : Fmt := fmtD t.fmtO

/-- Whether the column of half h is computed: under EMA those below NB (R82; without EMA an operation has no factor map to read NB
from, Table 3-8; log entry 72). -/
def colOk (t : TileDesc) (nb h : Nat) : Bool := t.opc != 0x21 || t.drain != 2 || t.gramCol + h < nb

/-- The output blocks that an operation computes: all of a product; of a Gram product those with r ≤ c in the columns of its factor (R82). -/
def tilePlaces (t : TileDesc) (nb : Nat) : List Place :=
  ((rowBlks t).flatMap (fun k => (List.range (colBlocks (fS t) (fT t))).map (fun h => (k, h)))).filter (fun p =>
    t.opc != 0x21 || (t.gramRow0 + p.1 ≤ t.gramCol + p.2 && colOk t nb p.2))

/-- Addresses of the stream block (k, j), of the stationary block (j, h), of the output block and its start values. -/
def sAt (t : TileDesc) (k j : Nat) : Nat := ma (t.sAddr + (k * t.sMstep + j * t.sKstep) * 64)
def tAt (t : TileDesc) (j h : Nat) : Nat := ma (t.tAddr + j * t.tKstep * 64 + h * 512)
def oAt (t : TileDesc) (base : Nat) (p : Place) : Nat := ma (base + p.1 * t.oMstep * 64 + p.2 * blockBytes (fO t))
def auxAt (t : TileDesc) (p : Place) : Nat := ma (t.auxAddr + p.1 * t.oMstep * 64 * 4096 / blockBytes (fO t) + p.2 * 4096)

/-- Piece v of what a chain feeds to the arrays, as a stored block row (R113): the block for row block k = a × MT_BLKS + m and K-block j. -/
def fedBlk (t : TileDesc) (o : OutBlk) (k j : Nat) : Tblk :=
  let arrs := mlist t.arrEn 4
  let n := arrs.length
  let a := arrs.idxOf (k / max t.mtBlks 1)
  let pieceNo (i : Nat) : Nat := ((j * t.mtBlks + k % max t.mtBlks 1) * 32 + i) * n + a
  let w := 4 * fmtBits (fS t)
  { fmt := fS t
    codes := (List.range 32).flatMap (fun i => codesOf (fS t) 32 (leNat ((o.bytes.drop (pieceNo i * w)).take w)))
    scales := (List.range 32).map (fun i => o.scales.getD (pieceNo i) 127) }

/-- The stream block (k, j), from memory or from the chain. -/
def streamBlk (s : State) (d : Nat) (t : TileDesc) (fed : Option OutBlk) (k j : Nat) : Tblk × Nat :=
  match fed with
  | some o => (fedBlk t o k j, 0)
  | none => ldBlk s d (fS t) (sAt t k j)

/-- Start values of an output block as they lie in memory (R71, R418). -/
def startOf (s : State) (d : Nat) (t : TileDesc) (p : Place) : List Word × Nat :=
  if t.accInit = 1 then
    let r := ldBytes s d (auxAt t p) 4096
    (wordsOf r.1, r.2)
  else ([], 0)

/-- The accumulators of an output block (R55 to R57). -/
def accOf (s : State) (d : Nat) (t : TileDesc) (fed : Option OutBlk) (p : Place) : List (Word × Sts) :=
  let kb := (List.range t.kBlks).map (fun j => ((streamBlk s d t fed p.1 j).1, (ldBlk s d (fT t) (tAt t j p.2)).1))
  accBlock kb (t.transS && fed.isNone) t.transT t.axisS t.axisT ((startOf s d t p).1.map (startVal (fS t == .int8)))

/-- The operand blocks that an operation fetches: format and address. -/
def tileBlks (t : TileDesc) (isFed : Bool) (ps : List Place) : List (Fmt × Nat) :=
  let js := List.range t.kBlks
  (if isFed then [] else ((ps.map (·.1)).eraseDups).flatMap (fun k => js.map (fun j => (fS t, sAt t k j))))
    ++ ((ps.map (·.2)).eraseDups).flatMap (fun h => js.map (fun j => (fT t, tAt t j h)))

/-- The blocks that an operation reads, as ranges of module addresses: each stream and stationary block is fetched once, then the start
values. -/
def tileRanges (t : TileDesc) (isFed : Bool) (ps : List Place) : List (Nat × Nat) :=
  (tileBlks t isFed ps).map (fun x => (x.2, blockBytes x.1)) ++ (if t.accInit = 1 then ps.map (fun p => (auxAt t p, 4096)) else [])

/-- Lines read by an operation that are not performed. -/
def tileMiss (s : State) (d : Nat) (t : TileDesc) (isFed : Bool) (ps : List Place) : Nat :=
  ((tileRanges t isFed ps).map (fun r => (ldBytes s d r.1 r.2).2)).sum

/-- COARSE of the stream of an operation: of memory, by its segment's record; of a chain, by the chain's record, with which it is quantised,
so that a gradient in legacy mode has C = 1.0 whatever the record holds (R51). -/
def coarseStream (s : State) (d : Nat) (t : TileDesc) (fed : Option Nat) : Word :=
  let gram := t.opc == 0x21
  match fed with
  | some w => if !gram && legacy s d && bit w 283 then 0x3F800000 else coarseAt s d (fS t) w gram
  | none => coarseAt s d (fS t) (recAt s d t.sAddr) gram

/-- C_A × C_B of an operation, rounded once (R45, R56). -/
def cabOf (s : State) (d : Nat) (t : TileDesc) (fed : Option Nat) : Word × Sts :=
  mul32 (coarseIn (coarseStream s d t fed)) (coarseIn (coarseAt s d (fT t) (recAt s d t.tAddr) (t.opc == 0x21)))

/-! ## Drains (R56, R57, R83) -/

/-- A drained block: where it goes, its result, its old and new values under EMA. -/
structure Drained where
  place : Place
  addr : Nat
  blk : OutBlk
  d : Word
  a : Word

/-- A list of raw values as an output block: raw accumulators, or FP32 results. -/
def rawBlk (isInt : Bool) (ws : List Word) : OutBlk :=
  let nf := if isInt then [] else ws.filter nonfinite32
  { bytes := bytesOf ws, scales := [], sts := stIf (nf.any (fun w => !isNaN32 w)) stINF, cnt := nf.length
    amax := ws.foldl (fun m w => if nonfinite32 w then m else (max32 m (abs32 w)).1) 0 }

/-- One output block drained from its accumulators (Table 3-8, DRAIN). `cur`: the factor's committed copy. A NaN among the differences of an
EMA drain, or among the new values, is passed over by d and a (DESIGN CHOICE, log entry 100). -/
def drainBlk (s : State) (d : Nat) (t : TileDesc) (cab : Word) (cur : Nat) (p : Place) (acc : List (Word × Sts)) : Drained :=
  let isInt := fS t == .int8
  let ast := acc.foldl (fun a x => a ||| x.2) 0
  if t.drain = 1 then
    let o := rawBlk isInt (acc.map (·.1))
    { place := p, addr := oAt t t.oAddr p, blk := { o with sts := o.sts ||| ast }, d := 0, a := 0 }
  else
    let vs := acc.map (fun x => drainVal isInt cab x.1)
    let vst := vs.foldl (fun a x => a ||| x.2) ast
    if t.drain = 2 then
      let old := wordsOf (ldBytes s d (oAt t (if cur = 0 then t.oAddr else t.altAddr) p) 4096).1
      let ns := (vs.zip old).map (fun x => emaVal t.emaAlpha t.emaBeta x.2 x.1.1)
      let o := rawBlk false (ns.map (·.1))
      let dif := (ns.zip old).map (fun x => sub32 x.1.1 x.2)
      { place := p, addr := oAt t (if cur = 0 then t.altAddr else t.oAddr) p
        blk := { o with sts := (if t.chgEn then dif else []).foldl (fun a x => a ||| x.2) (ns.foldl (fun a x => a ||| x.2) (o.sts ||| vst)) }
        d := dif.foldl (fun m x => (max32 m (abs32 x.1)).1) 0, a := ns.foldl (fun m x => (max32 m (abs32 x.1)).1) 0 }
    else
      let w := (ldNat s d t.recAddr 128).1
      let ys := vs.map (fun x => storeSeed s d w x.1)
      let o := quantTile (fO t) (storeRcp s d w) t.axisO (ys.map (·.1))
      { place := p, addr := oAt t t.oAddr p, blk := { o with sts := ys.foldl (fun a y => a ||| y.2) (o.sts ||| vst) }, d := 0, a := 0 }

/-- The old factor values that an EMA drain reads. -/
def emaRanges (t : TileDesc) (cur : Nat) (ps : List Place) : List (Nat × Nat) :=
  if t.drain = 2 then ps.map (fun p => (oAt t (if cur = 0 then t.oAddr else t.altAddr) p, 4096)) else []

/-- Lines of old factor values that are not performed. -/
def emaMiss (s : State) (d : Nat) (t : TileDesc) (cur : Nat) (ps : List Place) : Nat :=
  ((emaRanges t cur ps).map (fun r => (ldBytes s d r.1 r.2).2)).sum

/-- The write of a drained block, or its adds. -/
def writeDrain (b dom src : Nat) (r : State × Adds × Nat) (x : Drained) : State × Adds × Nat :=
  if inReduceSeg r.1 dom x.addr then
    let p := addParts r.1 dom x.addr x.blk.bytes
    (r.1, r.2.1 ++ p.1, r.2.2 + p.2)
  else
    let s1 := stBytes r.1 b dom src x.addr x.blk.bytes
    (((List.range x.blk.scales.length).zip x.blk.scales).foldl (fun s q => stScale s dom x.addr q.1 q.2) s1, r.2)

/-- Block columns of a drain's output (R419). -/
def drainCols (t : TileDesc) : Nat := max 1 (t.oMstep * 64 / blockBytes (fO t))

/-- What an operation adds to its record. -/
def tileAdd (t : TileDesc) (sts : Sts) (xs : List Drained) : RecAdd :=
  { amax := xs.foldl (fun m x => max m x.blk.amax.toNat) 0, cnt := (xs.map (·.blk.cnt)).sum, kind := sts.toNat % 16
    at? := (xs.filter (fun x => x.blk.cnt != 0)).foldl (fun m x => firstAt m (some (coords (fO t) x.addr (drainCols t)))) none }

/-! ## Factor maps (R84 to R86) -/

/-- The number of the entry of upper tile (r, c). -/
def mapEntry (nb r c : Nat) : Nat := r * nb - r * (r - 1) / 2 + (c - r)

/-- The header of a factor map as it is read at issue. -/
def mapHdr (s : State) (d : Nat) (t : TileDesc) : Nat := (ldNat s d t.fmapAddr 8).1

/-- PENDING set at issue (R84). -/
def mapIssue (s : State) (b dom : Nat) (t : TileDesc) : State :=
  stBytes (boundEvt s b (ldNat s dom t.fmapAddr 8).2) b dom 0 t.fmapAddr (leBytes 8 (setBits (mapHdr s dom t) 62 62 1))

/-- The address of the factor map entry of an output block, under a header. -/
def entryOf (t : TileDesc) (h : Nat) (p : Place) : Nat :=
  ma (t.fmapAddr + 8 + 8 * mapEntry (bits h 47 32) (t.gramRow0 + p.1) (t.gramCol + p.2))

/-- DRIFT of an entry with a drain's change, and its status; none without CHG_EN (R85). -/
def driftOf (t : TileDesc) (e : Nat) (x : Drained) : Word × Sts :=
  if t.chgEn then add32 (BitVec.ofNat 32 (bits e 31 0)) x.d else (0, 0)

/-- GRD_CHG_TOL × a of a drain at a cell, and its status (R85). -/
def tolOf (s : State) (b pos : Nat) (t : TileDesc) (x : Drained) : Word × Sts :=
  if t.chgEn then mul32 (BitVec.ofNat 32 (s.app (cellUnit b (physOf (s.blk b) pos)) (key 0x7001 0))) x.a else (0, 0)

/-- The status that the factor map updates of an operation raise (R64). -/
def mapSts (s : State) (b pos dom : Nat) (t : TileDesc) (xs : List Drained) : Sts :=
  if t.drain = 2 then
    let h := mapHdr s dom t
    xs.foldl (fun a x => a ||| (driftOf t (ldNat s dom (entryOf t h x.place) 8).1 x).2 ||| (tolOf s b pos t x).2) 0
  else 0

/-- An EMA drain of upper tile (r, c): its entry's EPOCH, DRAINED, and with CHG_EN its DRIFT and CHG (R84, R85). Every drain above the
tolerance is counted, that of a tile marked before too (DESIGN CHOICE, log entry 101). `h`: the header as read at issue. -/
def mapDrain (b pos dom : Nat) (t : TileDesc) (h : Nat) (s : State) (x : Drained) : State :=
  let a := entryOf t h x.place
  let r := ldNat s dom a 8
  let fresh := bits r.1 55 48 != bits h 55 48
  let e1 := setBits r.1 55 48 (bits h 55 48)
  let drift := (driftOf t r.1 x).1
  let chg := t.chgEn && lt32 (tolOf s b pos t x).1 drift
  let e2 := if t.chgEn then setBits e1 31 0 drift.toNat else e1
  let e3 := if chg then setBits e2 63 63 1 else e2
  let s1 := stBytes (boundEvt s b r.2) b dom 0 a (leBytes 8 e3)
  let now := mapHdr s dom t
  let s2 := if fresh then stBytes s1 b dom 0 t.fmapAddr (leBytes 8 (setBits now 31 0 (bits now 31 0 + 1))) else s1
  (s2.count (kArrPerf b 6) 1).countIf chg (kArrPerf b 7)

/-! ## The operation -/

/-- The halves of an operation's stationary blocks that are fetched: those whose column an EMA drain's factor has (R82). -/
def statHalves (t : TileDesc) (nb : Nat) : List Nat :=
  (List.range (colBlocks (fS t) (fT t))).filter (fun h => colOk t nb h)

/-- The stationary tiles of an operation in the order of their loading: the halves of each K-block. -/
def statTiles (s : State) (d : Nat) (t : TileDesc) (nb : Nat) : List (List Tblk) :=
  (List.range t.kBlks).map (fun j => (statHalves t nb).map (fun h => (ldBlk s d (fT t) (tAt t j h)).1))

/-- What an operation leaves in the arrays of its cell (R71, R73, R74). -/
def holdArrays (s : State) (b pos d nb : Nat) (t : TileDesc) (accs : List (Place × List (Word × Sts))) : State :=
  let k := s.blk b
  let c := physOf k pos
  let bank (a : Nat) : Sparse (List Word) :=
    (accs.filter (fun x => x.1.1 / max t.mtBlks 1 == a)).map (fun x => (x.1.1 % max t.mtBlks 1 * 2 + x.1.2, x.2.map (·.1)))
  s.setBlk b { k with cells := spSet cellDflt k.cells c (runArrays (arrsOf k c) (fT t) t.transT t.axisT (statTiles s d t nb) t.arrEn bank) }

/-- What a tile operation leaves for its item: state, adds, adds not performed, the event counters of its run. -/
structure TileDone where
  st : State
  adds : Adds
  miss : Nat
  evts : List (Nat × Nat)

/-- A tile operation run by block b at a cell; `fed`: the stream that a chain delivers, with its record. -/
def runTile (s : State) (b pos dom src : Nat) (t : TileDesc) (fed : Option (OutBlk × Nat)) : TileDone :=
  let h := mapHdr s dom t
  let cur := if bit h 63 then 1 else 0
  let ps := tilePlaces t (bits h 47 32)
  let fb := fed.map (·.1)
  let cab := cabOf s dom t (fed.map (·.2))
  let accs := ps.map (fun p => (p, accOf s dom t fb p))
  let xs := accs.map (fun x => drainBlk s dom t cab.1 cur x.1 x.2)
  let sts := xs.foldl (fun a x => a ||| x.blk.sts) (if xs.isEmpty || t.drain = 1 then 0 else cab.2) ||| mapSts s b pos dom t xs
  let s0 := if ps.isEmpty then s else holdArrays s b pos dom (bits h 47 32) t accs
  let s1 := boundEvt s0 b (tileMiss s dom t fb.isSome ps + emaMiss s dom t cur ps)
  let s2 := if t.drain = 2 then mapIssue s1 b dom t else s1
  let w := xs.foldl (writeDrain b dom src) (s2, [], 0)
  let s3 := if t.drain = 2 then xs.foldl (mapDrain b pos dom t h) w.1 else w.1
  let s4 := if xs.isEmpty then s3
    else updRecord s3 b dom t.recAddr (if t.drain = 0 then fO t else .fp32) (tileAdd t sts xs)
  let s5 := setNonfin s4 b (xs.any (fun x => x.blk.cnt != 0))
  { st := countTile (setSts s5 b pos false sts) b pos, adds := w.2.1, miss := w.2.2, evts := stsEvts b sts }

/-- The ranges of module addresses that a tile operation reads: operands and start values, the records of their coarse scales, old factor values,
the factor map, the record that it updates, and the slots that it adds into. -/
def tileReads (s : State) (dom : Nat) (t : TileDesc) (isFed : Bool) : List (Nat × Nat) :=
  let h := mapHdr s dom t
  let ps := tilePlaces t (bits h 47 32)
  let gram := t.opc == 0x21
  if ps.isEmpty then []
  else tileRanges t isFed ps ++ (if isFed then [] else coarseReads s dom (fS t) gram t.sAddr) ++ coarseReads s dom (fT t) gram t.tAddr
    ++ emaRanges t (if bit h 63 then 1 else 0) ps
    ++ (if t.drain = 2 then (t.fmapAddr, 8) :: ps.map (fun p => (entryOf t h p, 8)) else [])
    ++ (t.recAddr, 128) :: ps.flatMap (fun p => addReads s dom (oAt t t.oAddr p) (blockBytes (fO t)))

/-- The scale bytes that a tile operation reads, as ranges of physical addresses. -/
def tileScales (s : State) (dom : Nat) (t : TileDesc) (isFed : Bool) : List (Nat × Nat) :=
  (tileBlks t isFed (tilePlaces t (bits (mapHdr s dom t) 47 32))).flatMap (fun x => blkScales s dom x.1 x.2)

/-- A tile operation whose item is issued again with its first work standing still starts in the cell (R25). -/
def runTileOnce (s : State) (b pos i : Nat) (f : State → State) : State :=
  if ((s.blk b).item pos i).redo then countTile (runOnce s b pos i f) b pos else f s

/-- The work of a TILE item: it updates its record, or adds (R364). -/
def tileWork (b pos i : Nat) (it : Item) (s : State) : State :=
  let src := srcOf b pos i
  let x := runTile s b pos (s.blk b).dom src it.tile none
  oweItem (touchItem (depositItem x.st b src it x.adds x.miss) b pos i) b pos i none x.evts

/-- The effect of a TILE item that starts. -/
def doTile (b pos : Nat) (p : Perf) (s : State) (i : Nat) (it : Item) : State :=
  let dom := (s.blk b).dom
  guardReads s dom (tileReads s dom it.tile false) <| guardPhys s (tileScales s dom it.tile false)
    (applyMemEvents (applyArrPerf (runTileOnce s b pos i (tileWork b pos i it)) b p) p)

/-- TILE (R90). -/
def execTile (b pos : Nat) (p : Perf) (s : State) : Host.Outcome State Fault Refusal :=
  .next (startItem s b pos (fun it => it.hdr.kind == 0) (doTile b pos p))

/-- The work of a TILE_VEC item: the chain runs, and its output 0 is the operation's stream where it has DEST_O0 (R113). -/
def tileVecWork (b pos i : Nat) (it : Item) (s : State) : State :=
  let src := srcOf b pos i
  let dom := (s.blk b).dom
  let c := runChain s b pos dom src it.chain (some it.tile)
  let w := (ldNat s dom (it.chain.recAddr.getD 0 0) 128).1
  let x := runTile c.st b pos dom src it.tile (if it.tile.srcS = 1 then some (c.fed, w) else none)
  let s1 := depositItem x.st b src it (c.adds ++ x.adds) (c.miss + x.miss)
  oweItem (touchItem s1 b pos i) b pos i (some c.owed) (c.evts ++ x.evts)

/-- The effect of a TILE_VEC item that starts. -/
def doTileVec (b pos : Nat) (p : Perf) (s : State) (i : Nat) (it : Item) : State :=
  let dom := (s.blk b).dom
  guardReads s dom (chainRanges s dom it.chain ++ tileReads s dom it.tile (it.tile.srcS == 1))
    <| guardPhys s (chainScales s dom it.chain ++ tileScales s dom it.tile (it.tile.srcS == 1))
    (applyMemEvents (applyArrPerf (applyVecPerf (runTileOnce s b pos i (tileVecWork b pos i it)) b p) b p) p)

/-- TILE_VEC (R113, R151). -/
def execTileVec (b pos : Nat) (p : Perf) (s : State) : Host.Outcome State Fault Refusal :=
  .next (startItem s b pos (fun it => it.hdr.kind == 2) (doTileVec b pos p))

end Sys2Proof.Machine
end

