-- ==== Sys2Proof/Machine/Cutter.lean ====
section
/-!
DEFINITION. The Cutter's work items (R212 to R231): fallback, the slot-by-slot pass with its waits, emission of the working copy, the
preconditioner products, FINISH, the page mover, the copies aside for a running daily.
-/

namespace Sys2Proof.Machine

/-! ## Latched values and headers (R12, R207, R216 to R218, R221) -/

/-- Hyperparameter set k as latched in region r for the running step of domain d (Table 8-4). -/
def hyper (s : State) (d r k : Nat) : Hyper :=
  let f (sub : Nat) : Word := BitVec.ofNat 32 (s.lat d r (key (0x7100 + k) sub))
  { lr := f 0, b1 := f 1, b2 := f 2, eps := f 3, wd := f 4, bc1 := f 5, bc2 := f 6, clipT := f 7, orthoK := f 8 }

/-- Whether the step runs in conservative mode (R231). -/
def conservative (s : State) (d r : Nat) : Bool := s.lat d r (key 0x7081 0) == 1

/-- The problem of a logical slot. -/
def problemAt (s : State) (d n : Nat) : Option Problem := (s.prog d).problems.find? (fun p => p.lslot == n)

/-- The result header of a logical slot (Table 7-6). -/
def rhdrAt (s : State) (d n : Nat) : Nat :=
  match problemAt s d n with
  | some p => (ldNat s d p.rhdr 64).1
  | none => 0

/-- Whether a header makes its layer fall back (R12, R207): not VALID, SINGULAR, or older than PREC_MAX_AGE. -/
def hdrFalls (maxAge h : Nat) : Bool := !bit h 511 || bit h 509 || maxAge < bits h 495 480

/-- Whether a layer falls back in this step (R221). -/
def fallsBack (s : State) (b d : Nat) (p : PassDesc) : Bool :=
  let age := s.lat d (b / 6) (key 0x7081 2)
  (p.rule == 2 || p.rule == 3) && (hdrFalls age (rhdrAt s d p.prbRow) || hdrFalls age (rhdrAt s d p.prbCol))

/-- The rule of a descriptor. -/
def PassDesc.ruleD (p : PassDesc) : Rule := (ruleOf p.rule).getD .adapt2

/-! ## Slots and pages (R213, R224) -/

/-- The key of slot n of a layer's gradient. -/
def gradKey (s : State) (d : Nat) (p : PassDesc) (n : Nat) : Option Nat :=
  match maLoc s d (ma (p.gseg * 2 ^ 28 + n * 65536)) with
  | .slot k _ => some k
  | _ => none

/-- The slot number that a key has in a layer's gradient. -/
def slotNo (p : PassDesc) (k : Nat) : Nat := (keySeg k - p.gseg) * 4096 + keySlot k

/-- The module address of a slot. -/
def keyAddr (k : Nat) : Nat := keySeg k * 2 ^ 28 + keySlot k * 65536

/-- Whether a key is one of a layer's gradient slots. -/
def isSlotOf (d : Nat) (p : PassDesc) (k : Nat) : Bool := keyDom k == d && p.gseg ≤ keySeg k && slotNo p k < p.npage

/-- The slots of a layer that lie in the cells of block b. -/
def blkSlots (s : State) (b d : Nat) (p : PassDesc) : List Nat :=
  (List.range p.npage).filter (fun n => match gradKey s d p n with
    | some k => blkOfCell (keyCell k) == b
    | none => false)

/-- The complete slots of a layer in a block, in the order in which they completed. -/
def readySlots (s : State) (b d : Nat) (p : PassDesc) : List Nat := (s.blk b).ready.filter (isSlotOf d p)

/-- Physical address of reel r of a page (R135). -/
def reelAt (e : Dirent) (r : Nat) : Nat := e.addr * 2 ^ 18 + r * 0x20000

/-- The reel that is committed, and the other (R214). -/
def Dirent.cur (e : Dirent) : Nat := b2n e.reel
def Dirent.other (e : Dirent) : Nat := 1 - b2n e.reel

/-- The 16,384 records of a reel as 64-bit numbers (R212). -/
def readReel (s : State) (e : Dirent) (r : Nat) : List Nat := (chunks 8 (s.rdBytes (reelAt e r) 0x20000)).map leNat

/-- Physical address of staging slots `n` (0 or 1) of a block: two of the four highest pool slots of its position 0 (R139). -/
def stageSlots (s : State) (b n : Nat) : Nat := poolBase s (16 * b) (poolSlots s (b / 6) - 4 + 2 * n)

/-- The staging slots that hold a page's committed reel. -/
def stagedAt (k : Blk) (page : Nat) : Option Nat := (k.staged.find? (fun x => x.2 == page)).map (·.1)

/-- Where the Cutter reads the committed records of a page. -/
def committedAt (s : State) (b page : Nat) : Nat :=
  match stagedAt (s.blk b) page with
  | some n => stageSlots s b n
  | none => reelAt (s.dir page) (s.dir page).cur

/-- The committed records of a page as the Cutter of block b reads them: from the staging slots where they have been staged. -/
def readCommitted (s : State) (b page : Nat) : List Nat := (chunks 8 (s.rdBytes (committedAt s b page) 0x20000)).map leNat

/-- A reel written. -/
def writeReel (s : State) (e : Dirent) (r : Nat) (xs : List Nat) : State := s.wrBytes (reelAt e r) (xs.flatMap (leBytes 8))

/-- The MASTER values of records. -/
def masters (xs : List Nat) : List Word := xs.map (fun x => (recOf x).w)

/-! ## Copies aside for a daily (R275, R277) -/

/-- The pages of a domain in ascending rank: by page number (R275). -/
def rankedPages (s : State) (d : Nat) : List Nat := ((s.prog d).pages.foldr insertPage []).map (·.page)

/-- The rank of a page in a domain. -/
def pageRank (s : State) (d page : Nat) : Nat := (rankedPages s d).idxOf page

/-- Whether a is later than b as 32-bit serial numbers (R276). -/
def laterThan (a b : Nat) : Bool :=
  let x := (a % 2 ^ 32 + 2 ^ 32 - b % 2 ^ 32) % 2 ^ 32
  1 ≤ x && x < 2 ^ 31

/-- Daily state of a page: 0 NONE, 1 PENDING, 2 STREAMING, 3 STAGED. -/
def pageState (s : State) (d page : Nat) : Nat := spGet zeroNat (s.day d).states page
def setPageState (s : State) (d page v : Nat) : State :=
  s.setDay d { s.day d with states := spSet zeroNat (s.day d).states page v }

/-- Module address of stage slot i of a domain's daily. -/
def stageAt (s : State) (d i : Nat) : Nat := ma (s.live (key (0x5100 + d) 2) + i * 0x20000)

/-- Whether a write of a page's other reel waits for the stream of that reel. -/
def dailyWaits (s : State) (page : Nat) : Bool :=
  let e := s.dir page
  pageState s e.dom page == 2 && laterThan e.version (s.day e.dom).s

/-- Whether a write of a page's other reel comes after a copy of it aside: the page is PENDING with a later VERSION. -/
def asideDue (s : State) (page : Nat) : Bool :=
  let e := s.dir page
  pageState s e.dom page == 1 && laterThan e.version (s.day e.dom).s

/-- What the copy aside of a page reads: its other reel. -/
def asideReads (s : State) (page : Nat) : List (Nat × Nat) :=
  if asideDue s page then [(reelAt (s.dir page) (s.dir page).other, 0x20000)] else []

/-- Before a write of a page's other reel: it is copied to the page's stage slot where that is due. -/
def dailyAside (s : State) (b page : Nat) : State :=
  let e := s.dir page
  if asideDue s page then
    let s1 := stBytes s b e.dom 0 (stageAt s e.dom (pageRank s e.dom page)) (s.rdBytes (reelAt e e.other) 0x20000)
    (setPageState s1 e.dom page 3).count (key (0x5100 + e.dom) 5) 1
  else s

/-! ## Emission (R173, R228) -/

/-- One 32 × 32 block of a working copy, block i of page slot n, written into a buffer segment. -/
def emitBlock (b d src sn : Nat) (f : Fmt) (rcp : Word) (p : PassDesc) (n : Nat) (ws : List Word)
    (r : State × RecAdd) (i : Nat) : State × RecAdd :=
  let o := quantTile f rcp p.axis ((ws.drop (1024 * i)).take 1024)
  let a := sn * 2 ^ 28 + (n * 16 + i) * blockBytes f
  let s1 := stBytes r.1 b d src a o.bytes
  let s2 := ((List.range o.scales.length).zip o.scales).foldl (fun s q => stScale s d a q.1 q.2) s1
  (s2, { amax := max r.2.amax o.amax.toNat, cnt := r.2.cnt + o.cnt, kind := r.2.kind ||| o.sts.toNat % 16
         at? := if o.cnt = 0 then r.2.at? else firstAt r.2.at? (some (coords f a (p.cols / 32))) })

/-- The working copy of page slot n of a layer emitted into buffer `buf` of its header, from MASTER values; whether an element is
non-finite. -/
def emitPage (s : State) (b d src : Nat) (p : PassDesc) (buf n : Nat) (ws : List Word) : State × Bool :=
  let sn := (s.hdr d p.wchdr).seg buf
  let g := s.seg d sn
  let f := segFmt g
  let w := recAt s d (sn * 2 ^ 28)
  let r := (List.range 16).foldl (emitBlock b d src sn f (BitVec.ofNat 32 (bits w 479 448)) p n ws)
    (s, { amax := 0, cnt := 0, kind := 0, at? := none })
  match bufRec s d sn with
  | some a => (updRecord r.1 b d a f r.2, r.2.cnt != 0)
  | none => (r.1, r.2.cnt != 0)

/-- The buffer of a step's emission. -/
def emitBuf (s : State) (d : Nat) (p : PassDesc) : Nat := (s.hdr d p.wchdr).vcur + 1

/-- Whether the emission is withheld (R173). -/
def emitHeld (s : State) (d : Nat) (p : PassDesc) : Bool := (s.hdr d p.wchdr).hold (emitBuf s d p) != 0

/-- The reel that a page's emission in the step takes: the other one where it has been written, else the committed one (R227). -/
def Dirent.emitReel (e : Dirent) : Nat := if e.frozen then e.cur else e.other

/-- A page emitted in the step. -/
def emitStep (s : State) (b d src : Nat) (p : PassDesc) (n : Nat) : State :=
  let e := s.dir (p.page0 + n)
  let x := emitPage s b d src p (emitBuf s d p) n (masters (readReel s e e.emitReel))
  setNonfin x.1 b x.2

/-- The record that an emission reads and updates: of its buffer's segment. -/
def emitRecs (s : State) (d : Nat) (p : PassDesc) : List (Nat × Nat) := segRecs s d ((s.hdr d p.wchdr).seg (emitBuf s d p))

/-- EPEND set (R173, R228). -/
def setEpend (s : State) (d : Nat) (p : PassDesc) : State := s.setHdr d p.wchdr { s.hdr d p.wchdr with epend := true }

/-! ## SURVEY (R231) -/

/-- Gradient values after the legacy factor 1/L (R218, R225). -/
def gradVals (s : State) (d : Nat) (bs : List Byte) : List Word :=
  if legacy s d then (wordsOf bs).map (fun x => (mul32 x (lossRcp s d)).1) else wordsOf bs

/-- The effect of a SURVEY item. -/
def doSurvey (b : Nat) (s : State) (i : Nat) (it : Item) : State :=
  let d := (s.blk b).dom
  let p := it.pass
  let sum := (readySlots s b d p).foldl (fun a k => sumSq a (gradVals s d (slotBytes s k))) 0
  let old := ldNat s d p.norm 4
  guardReads s d ((p.norm, 4) :: (readySlots s b d p).map (fun k => (keyAddr k, 65536)))
    (stBytes (boundEvt s b old.2) b d (srcOf b 16 i) p.norm (leBytes 4 (add32 (BitVec.ofNat 32 old.1) sum).1.toNat))

/-- A CUT item of an operation code that stands first: it runs, or completes unrun (Table 8-3). -/
def cutItem (s : State) (b op : Nat) (unrun : State → PassDesc → Bool) (eff : State → Nat → Item → State) : State :=
  let isOp (it : Item) : Bool := it.hdr.kind == 4 && it.pass.opc == op
  match nextItem s b with
  | some (16, i) =>
    match (listOf s b 16)[i]? with
    | some it =>
      if blkRuns s b && isOp it && unrun s it.pass then unrunItem (drainTrace s b) b 16 i it else startItem s b 16 isOp eff
    | none => s
  | _ => s

/-- SURVEY (R231, Table 8-3). -/
def execSurvey (b : Nat) (s : State) : Host.Outcome State Fault Refusal :=
  .next (cutItem s b 0x40 (fun s _ => !conservative s (s.blk b).dom (b / 6)) (doSurvey b))

/-! ## PASS (R221, R224 to R229) -/

/-- The factor c_t of R231. -/
def clipT (s : State) (b d : Nat) (p : PassDesc) : Word :=
  if conservative s d (b / 6) then
    let n : Word := BitVec.ofNat 32 (ldNat s d p.norm 4).1
    if nonfinite32 n || eq32 n 0 then 0x3F800000 else clipFactor (hyper s d (b / 6) p.hpset).clipT n
  else 0x3F800000

/-- What the decision of a PASS reads: the result headers of its layer, and in conservative mode the norm. -/
def passReads (s : State) (b d : Nat) (p : PassDesc) : List (Nat × Nat) :=
  let hs (n : Nat) : List (Nat × Nat) := match problemAt s d n with
    | some x => [(x.rhdr, 64)]
    | none => []
  (if p.rule == 2 || p.rule == 3 then hs p.prbRow ++ hs p.prbCol else [])
    ++ (if conservative s d (b / 6) then [(p.norm, 4)] else [])

/-- The lines of these that are not performed (R124). -/
def passMiss (s : State) (b d : Nat) (p : PassDesc) : Nat := ((passReads s b d p).map (fun r => (ldBytes s d r.1 r.2).2)).sum

/-- The factor s_g of R218. -/
def sgOf (s : State) (d : Nat) (ct : Word) (cons : Bool) : Word :=
  let l := if legacy s d then lossRcp s d else (0x3F800000 : Word)
  if cons then (mul32 l ct).1 else l

/-- The rule that a pass runs. -/
def passRule (q : Pass) (p : PassDesc) : Rule := if q.falls then .adapt2 else p.ruleD

/-- Whether the PASS emits the working copy: an element-wise rule, or a fallback (R228). -/
def passEmits (q : Pass) (p : PassDesc) : Bool := !isMatrixRule (passRule q p)

/-- The running pass of a block with its descriptor. -/
def passNow (s : State) (b : Nat) : Option (Pass × PassDesc) :=
  match (s.blk b).pass with
  | some q => ((listOf s b 16)[q.idx]?).map (fun it => (q, it.pass))
  | none => none

def setPass (s : State) (b : Nat) (q : Option Pass) : State := s.setBlk b { s.blk b with pass := q }

/-- A pass ends when every slot of the layer in the block has been taken; one that emits sets EPEND. -/
def passEnd (s : State) (b : Nat) : State :=
  match passNow s b with
  | some (q, p) =>
    let d := (s.blk b).dom
    let mine := blkSlots s b d p
    if q.wait = 0 && mine.all q.taken.contains then
      let s1 := setPass s b none
      if !mine.isEmpty && (p.opc == 0x44 || passEmits q p) then setEpend s1 d p else s1
    else s
  | none => s

/-- The effect of a PASS item: the layer's decision is made and its commit list entry stands. -/
def doPass (b : Nat) (s : State) (i : Nat) (it : Item) : State :=
  let k := s.blk b
  let d := k.dom
  let p := it.pass
  let falls := fallsBack s b d p
  let row := b2n (bit (rhdrAt s d p.prbRow) 510)
  let col := b2n (bit (rhdrAt s d p.prbCol) 510)
  let ct := clipT s b d p
  let q : Pass := { idx := i, falls := falls, ct := ct, taken := [], wait := 0 }
  let c : Commit := { layer := p.layer, page0 := p.page0, npage := p.npage }
  let s1 := s.setBlk b { k with
    pass := some q
    falls := if falls && !k.falls.contains p.layer then p.layer :: k.falls else k.falls
    curs := spSet zeroNat k.curs p.layer (row + 2 * col)
    commits := if k.commits.contains c then k.commits else k.commits ++ [c] }
  let mark := b * 2 ^ 20 + p.layer
  let new := falls && !(s.stp d).fell.contains mark
  let s2 := if new then s1.setStp d { s1.stp d with fell := mark :: (s1.stp d).fell } else s1
  guardReads s d (passReads s b d p) (passEnd (boundEvt (s2.countIf new (kCutPerf b 2)) b (passMiss s b d p)) b)

/-- PASS (R221, R224). -/
def execPass (b : Nat) (s : State) : Host.Outcome State Fault Refusal :=
  .next (startItem s b 16 (fun it => it.hdr.kind == 4 && it.pass.opc == 0x41) (doPass b))

/-- One record of a page under a rule: the pattern written to the other reel (R219, R220). -/
def passRec (rule : Rule) (h : Hyper) (sg : Word) (x : Word) (r : Nat) : Nat :=
  let g := (mul32 x sg).1
  recBits (if isMatrixRule rule then passMatrix rule h g (recOf r) else elemRule rule h g (recOf r))

/-- BF16 values of a page's first moments written to DIN (R220). -/
def writeDin (s : State) (b d src : Nat) (p : PassDesc) (n : Nat) (ms : List Nat) : State :=
  stBytes s b d src (ma (p.din + 2 * 16384 * n)) (ms.flatMap (leBytes 2))

/-- A page that is not frozen (R224 steps 3 to 7): slot values `xs`. -/
def passPage (s : State) (b d src : Nat) (q : Pass) (p : PassDesc) (n : Nat) (xs : List Byte) : State :=
  let page := p.page0 + n
  let e := s.dir page
  let rule := passRule q p
  let vs := wordsOf xs
  let sg := sgOf s d q.ct (conservative s d (b / 6))
  let h := hyper s d (b / 6) p.hpset
  let new := (vs.zip (readCommitted s b page)).map (fun x => passRec rule h sg x.1 x.2)
  let s0 := dailyAside s b page
  let s1 := s0.setBlk b { s0.blk b with norm := sumSq (s0.blk b).norm (gradVals s d xs) }
  let s2 := setNonfin (writeReel s1 e e.other new) b (vs.any nonfinite32 || new.any recNonfinite)
  let s3 := if isMatrixRule rule then writeDin s2 b d src p n (new.map (fun x => bits x 31 16)) else s2
  (s3.setDir page { s3.dir page with pend := true }).count (kCutPerf b 0) 1

/-- A frozen page (R227). -/
def passFrozen (s : State) (b d src : Nat) (q : Pass) (p : PassDesc) (n : Nat) : State :=
  let s1 := if isMatrixRule (passRule q p) then writeDin s b d src p n (List.replicate 16384 0) else s
  s1.count (kCutPerf b 1) 1

/-- What keeps the Cutter from a page: 1 staging, 2 MIG, 4 a daily's stream; 0 nothing. -/
def pageBlocked (s : State) (b page : Nat) : Nat :=
  let e := s.dir page
  if e.mig then 2
  else if e.tier && (stagedAt (s.blk b) page).isNone then 1
  else if !e.frozen && dailyWaits s page then 4
  else 0

/-- The emission that a pass owes for a page slot: it is made, or it waits for HOLD. -/
def passEmit (s : State) (b d src : Nat) (q : Pass) (p : PassDesc) (n : Nat) : State :=
  if !passEmits q p then s
  else if emitHeld s d p then setPass s b ((s.blk b).pass.map (fun x => { x with wait := 3 }))
  else emitStep s b d src p n

/-- The complete slots of a pass that it has not taken: a slot completed again by late deposits stays for the check of R169 (R224, R230). -/
def takable (s : State) (b d : Nat) (q : Pass) (p : PassDesc) : List Nat :=
  (readySlots s b d p).filter (fun k => !q.taken.contains (slotNo p k))

/-- A complete slot is consumed and its page handled (R224). -/
def takeSlot (s : State) (b : Nat) (q : Pass) (p : PassDesc) (k : Nat) : State :=
  let d := (s.blk b).dom
  let n := slotNo p k
  let page := p.page0 + n
  let w := pageBlocked s b page
  if w ≠ 0 then setPass s b (some { q with wait := w })
  else
    let e := s.dir page
    let src := srcOf b 16 q.idx
    let c := consumeSlot s k
    let s1 := c.2.setBlk b { c.2.blk b with
      ready := (c.2.blk b).ready.filter (· != k), pass := some { q with taken := q.taken ++ [n] }, wdt := 0 }
    let s2 := if e.frozen then passFrozen s1 b d src q p n else passPage s1 b d src q p n c.1
    let s3 := s2.setBlk b { s2.blk b with staged := (s2.blk b).staged.filter (fun x => x.2 != page) }
    let s4 := if e.tier then markSpl s3 d else s3
    passEnd (passEmit s4 b d src q p n) b

/-- A slot taken, unless a read meets a poisoned word: of the slot, of the page's records, of a copy aside, of the emission's records. -/
def takeGuarded (s : State) (b : Nat) (q : Pass) (p : PassDesc) (k : Nat) : State :=
  let d := (s.blk b).dom
  let page := p.page0 + slotNo p k
  let e := s.dir page
  let emits := passEmits q p && !emitHeld s d p
  if pageBlocked s b page != 0 then takeSlot s b q p k
  else guardReads s d ((keyAddr k, 65536) :: (if emits then emitRecs s d p else []))
    (guardPhys s (if e.frozen then (if emits then [(reelAt e e.cur, 0x20000)] else [])
        else (committedAt s b page, 0x20000) :: asideReads s page)
      (takeSlot s b q p k))

/-- CUTTER_SLOT_TAKE (R224): the first complete slot of the running pass. -/
def execCutterSlotTake (b : Nat) (perf : Perf) (s : State) : Host.Outcome State Fault Refusal :=
  .next (if !blkRuns s b then s
    else match passNow s b with
      | some (q, p) =>
        if q.wait ≠ 0 ∨ p.opc ≠ 0x41 then s
        else match takable s b (s.blk b).dom q p with
          | k :: _ => takeGuarded (applyMemEvents s perf) b q p k
          | [] => s
      | none => s)

/-! ## DIR1 and DIR2 (R223) -/

/-- The diagonal block of a problem that holds 32-wide index c: its entry, first index and width. -/
def diagAt : List Nat → Nat → Nat → Option (Nat × Nat × Nat)
  | [], _, _ => none
  | e :: es, lo, c => if c < lo + entNB e then some (e, lo, entNB e) else diagAt es (lo + entNB e) c

/-- The address of 32 × 32 tile (i, j) of a diagonal block's result copy, in BF16. -/
def precTile (cur : Nat) (x : Nat × Nat × Nat) (i j : Nat) : Nat := ma (entRes x.1 cur + ((i - x.2.1) * x.2.2 + (j - x.2.1)) * 2048)

/-- The addresses of the operand pairs of one output block of DIR1 or DIR2. -/
def dirAddrs (s : State) (d cur : Nat) (p : PassDesc) (two : Bool) (br bc : Nat) : List (Nat × Nat) :=
  let cb := p.cols / 32
  let blks := match problemAt s d (if two then p.prbRow else p.prbCol) with
    | some x => x.blks
    | none => []
  match diagAt blks 0 (if two then br else bc) with
  | none => []
  | some x => (List.range x.2.2).map (fun j =>
      let k := x.2.1 + j
      if two then (precTile cur x br k, ma (p.dtmp + (k * cb + bc) * 2048)) else (ma (p.din + (br * cb + k) * 2048), precTile cur x k bc))

/-- The operand pairs of one output block of DIR1 or DIR2, and the lines not performed. -/
def dirPairs (s : State) (d cur : Nat) (p : PassDesc) (two : Bool) (br bc : Nat) : List (Tblk × Tblk) × Nat :=
  let ps := (dirAddrs s d cur p two br bc).map (fun q => (ldBlk s d .bf16 q.1, ldBlk s d .bf16 q.2))
  (ps.map (fun q => (q.1.1, q.2.1)), (ps.map (fun q => q.1.2 + q.2.2)).sum)

/-- What a generated tile operation leaves in the arrays of its cell: it runs in array 0 (DESIGN CHOICE, log entry 111). -/
def holdDir (s : State) (b pos : Nat) (tiles : List (List Tblk)) (acc : List Word) : State :=
  let k := s.blk b
  let c := physOf k pos
  s.setBlk b { k with cells := spSet cellDflt k.cells c (runArrays (arrsOf k c) .bf16 false false tiles 1 (fun _ => [(0, acc)])) }

/-- One generated tile operation: the product of output block n of the layer, drained to BF16 in DTMP, or raw to DOUT. It runs in the
cell of the slot whose rows it forms. -/
def dirTile (b d src : Nat) (p : PassDesc) (two : Bool) (cur : Nat) (s : State) (x : Nat × Nat) : State :=
  let cb := max (p.cols / 32) 1
  let pr := dirPairs s d cur p two (x.2 / cb) (x.2 % cb)
  let acc := accBlock pr.1 false false false false []
  let ast := acc.foldl (fun a y => a ||| y.2) 0
  let o := if two then rawBlk false (acc.map (·.1))
    else quantTile .bf16 0x3F800000 false (acc.map (fun y => (drainVal false 0x3F800000 y.1).1))
  let a := ma (if two then p.dout + x.2 * 4096 else p.dtmp + x.2 * 2048)
  let s0 := holdDir s b x.1 (pr.1.map (fun y => [y.2])) (acc.map (·.1))
  let s1 := setNonfin (stBytes (boundEvt s0 b pr.2) b d src a o.bytes) b (o.cnt != 0)
  let s2 := countEvts (setSts s1 b x.1 false (o.sts ||| ast)) (stsEvts b (o.sts ||| ast))
  (countTile s2 b x.1).count (kArrPerf b 0) 1

/-- The output blocks that lie in a block's slots, each with the logical position of its slot's cell. -/
def dirBlocks (s : State) (b d : Nat) (p : PassDesc) : List (Nat × Nat) :=
  (blkSlots s b d p).flatMap (fun n =>
    let pos := match gradKey s d p n with
      | some k => keyCell k % 16
      | none => 0
    ((List.range 16).map (fun i => (pos, n * 16 + i))).filter (fun x => x.2 < p.rows / 32 * (p.cols / 32)))

/-- The effect of a DIR1 or DIR2 item. -/
def doDir (two : Bool) (b : Nat) (perf : Perf) (s : State) (i : Nat) (it : Item) : State :=
  let d := (s.blk b).dom
  let p := it.pass
  let cs := spGet zeroNat (s.blk b).curs p.layer
  let cur := if two then cs % 2 else cs / 2
  let bs := dirBlocks s b d p
  let cb := max (p.cols / 32) 1
  let rs := bs.flatMap (fun x => (dirAddrs s d cur p two (x.2 / cb) (x.2 % cb)).flatMap (fun q => [(q.1, 2048), (q.2, 2048)]))
  let s1 := bs.foldl (dirTile b d (srcOf b 16 i) p two cur) s
  guardReads s d rs (applyMemEvents (applyArrPerf s1 b perf) perf)

/-- Whether a layer fell back in the running step in a block. -/
def layerFell (b : Nat) (s : State) (p : PassDesc) : Bool := (s.blk b).falls.contains p.layer

/-- DIR1 (R223, Table 8-3). -/
def execDir1 (b : Nat) (perf : Perf) (s : State) : Host.Outcome State Fault Refusal :=
  .next (cutItem s b 0x42 (layerFell b) (doDir false b perf))

/-- DIR2 (R223, Table 8-3). -/
def execDir2 (b : Nat) (perf : Perf) (s : State) : Host.Outcome State Fault Refusal :=
  .next (cutItem s b 0x43 (layerFell b) (doDir true b perf))

/-! ## FINISH (R220, R222) -/

/-- The directions of a page under KPRE: grafted, or d = a with the event (R222). -/
def kpreDirs (h : Hyper) (rs : List Rec) (dv : List Word) : List Word × Bool :=
  let as := rs.map (fun r => adaptDir h r.m r.v)
  let bb := sumSq 0 dv
  let graft := (div32 (sqrt32 (sumSq 0 as)).1 (sqrt32 bb).1).1
  if eq32 bb 0 || nonfinite32 graft then (as, true) else (dv.map (fun x => (mul32 x graft).1), false)

/-- The directions of a page (R220). -/
def finishDirs (rule : Rule) (h : Hyper) (rs : List Rec) (dv : List Word) : List Word × Bool :=
  match rule with
  | .kpre => kpreDirs h rs dv
  | .ortho => (dv.map (fun x => (mul32 h.orthoK x).1), false)
  | _ => (dv, false)

/-- D applied to a page's other reel. -/
def finishPage (s : State) (b d : Nat) (p : PassDesc) (n : Nat) : State :=
  let page := p.page0 + n
  let e := s.dir page
  let h := hyper s d (b / 6) p.hpset
  let rs := (readReel s e e.other).map recOf
  let dv := ldBytes s d (ma (p.dout + 4 * 16384 * n)) 65536
  let x := finishDirs p.ruleD h rs (wordsOf dv.1)
  let new := (rs.zip x.1).map (fun y => recBits (finishRec h y.1 y.2))
  let s1 := dailyAside (boundEvt s b dv.2) b page
  (setNonfin (writeReel s1 e e.other new) b (new.any recNonfinite)).countIf x.2 (kCutPerf b 3)

/-- The first poisoned word that FINISH meets at a page slot: in the other reel, in D, in a frozen page's committed reel that it emits, in the
emission's record. -/
def finishPoison (s : State) (d : Nat) (p : PassDesc) (n : Nat) : Option Nat :=
  let e := s.dir (p.page0 + n)
  let emits := !emitHeld s d p
  (physHit s (if e.frozen && !emits then [] else [(reelAt e e.emitReel, 0x20000)])).or
    (poisonHit s d ((if e.frozen then [] else [(ma (p.dout + 4 * 16384 * n), 65536)]) ++ (if emits then emitRecs s d p else [])))

/-- FINISH goes on to a page slot unless it waits. -/
def finishSlot (b : Nat) (s : State) (n : Nat) : State :=
  match passNow s b with
  | some (q, p) =>
    let d := (s.blk b).dom
    let page := p.page0 + n
    if q.wait ≠ 0 ∨ q.taken.contains n = true then s
    else if (s.dir page).mig then setPass s b (some { q with wait := 2 })
    else if !(s.dir page).frozen && dailyWaits s page then setPass s b (some { q with wait := 4 })
    else if let some w := finishPoison s d p n then poisonFault (setPass s b (some { q with wait := 5 })) w
    else
      let s1 := if (s.dir page).frozen then s else finishPage s b d p n
      let q1 := { q with taken := q.taken ++ [n] }
      if emitHeld s1 d p then setPass s1 b (some { q1 with wait := 3 })
      else emitStep (setPass s1 b (some q1)) b d (srcOf b 16 q.idx) p n
  | none => s

/-- FINISH as far as it gets. -/
def finishRun (s : State) (b : Nat) : State :=
  match passNow s b with
  | some (_, p) => passEnd ((blkSlots s b (s.blk b).dom p).foldl (finishSlot b) s) b
  | none => s

/-- The effect of a FINISH item. -/
def doFinish (b : Nat) (perf : Perf) (s : State) (i : Nat) (_ : Item) : State :=
  let q : Pass := { idx := i, falls := false, ct := 0x3F800000, taken := [], wait := 0 }
  finishRun (setPass (applyMemEvents s perf) b (some q)) b

/-- FINISH (R220, Table 8-3). -/
def execFinish (b : Nat) (perf : Perf) (s : State) : Host.Outcome State Fault Refusal :=
  .next (cutItem s b 0x44 (layerFell b) (doFinish b perf))

/-! ## The ends of the Cutter's waits (R138, R139, R173, R277) -/

/-- A pass goes on: FINISH by itself, PASS with its next slot. -/
def passResume (s : State) (b : Nat) (q : Pass) (p : PassDesc) : State :=
  let s1 := setPass s b (some { q with wait := 0 })
  if p.opc = 0x44 then finishRun s1 b else passEnd s1 b

/-- The page that a pass waits at: of its first complete slot, or, in FINISH, of its first slot not done. -/
def waitPage (s : State) (b : Nat) (q : Pass) (p : PassDesc) : Option Nat :=
  let d := (s.blk b).dom
  if p.opc = 0x44 then ((blkSlots s b d p).find? (fun n => !q.taken.contains n)).map (p.page0 + ·)
  else ((takable s b d q p).head?).map (fun k => p.page0 + slotNo p k)

/-- The layer of a PASS item of the block that a page belongs to. -/
def passOfPage (s : State) (b page : Nat) : Option PassDesc :=
  ((listOf s b 16).filter (fun it => it.hdr.kind == 4 && it.pass.opc == 0x41)).map Item.pass |>.find? (fun p =>
    p.page0 ≤ page && page < p.page0 + p.npage)

/-- Whether the first slot of a layer has become complete in a block: one is, or the running pass has taken one (R139). -/
def layerStarted (s : State) (b : Nat) (p : PassDesc) : Bool :=
  !(readySlots s b (s.blk b).dom p).isEmpty || (match passNow s b with
    | some (q, x) => x.layer == p.layer && !q.taken.isEmpty
    | none => false)

/-- The staging slots of a block that are free, lowest first. -/
def freeStage (k : Blk) : Option Nat := [0, 1].find? (fun n => k.staged.all (fun x => x.1 != n))

/-- Whether a page in LPDDR5X may be staged now: its pass has not taken it, its layer has a complete slot. -/
def mayStage (s : State) (b page : Nat) : Bool :=
  let e := s.dir page
  e.valid && e.tier && !e.mig && e.dom == (s.blk b).dom && blkOfCell e.owner == b && (stagedAt (s.blk b) page).isNone
    && (match passOfPage s b page with
      | some p => layerStarted s b p && (match passNow s b with
        | some (q, x) => !(x.layer == p.layer && q.taken.contains (page - p.page0))
        | none => true)
      | none => false)

/-- STAGING_ARRIVAL (R139): a page's committed reel stands in two of the block's staging slots; a pass that waits for it goes on. -/
def execStagingArrival (b : Nat) (a : Arrival) (s : State) : Host.Outcome State Fault Refusal :=
  let page := a.page
  let e := s.dir page
  .next (if !blkRuns s b || !mayStage s b page then s
    else match freeStage (s.blk b) with
      | none => s
      | some n =>
        let s0 := applyMemEvents (s.wrBytes (stageSlots s b n) (s.rdBytes (reelAt e e.cur) 0x20000)) a.perf
        let s1 := s0.setBlk b { s0.blk b with staged := (s0.blk b).staged ++ [(n, page)] }
        match passNow s1 b with
        | some (q, x) =>
          if q.wait = 1 && waitPage s1 b q x == some page then passResume (s1.count (kMem 4) a.cycles) b q x else s1
        | none => s1)

/-- MIG_WAIT_END (R138): the page has been moved, and the pass goes on. -/
def execMigWaitEnd (b cycles : Nat) (s : State) : Host.Outcome State Fault Refusal :=
  .next (if !blkRuns s b then s
    else match passNow s b with
      | some (q, p) =>
        match waitPage s b q p with
        | some page =>
          if q.wait = 2 && !(s.dir page).mig then passResume (s.count (kMem 4) cycles) b q p else s
        | none => s
      | none => s)

/-- EMISSION_RESUME (R173): HOLD of the buffer is 0, and the withheld emission goes on. -/
def execEmissionResume (b cycles : Nat) (s : State) : Host.Outcome State Fault Refusal :=
  .next (if !blkRuns s b then s
    else match passNow s b with
      | some (q, p) =>
        let d := (s.blk b).dom
        if q.wait = 3 && !emitHeld s d p then
          let s1 := s.count (kSeqPerf b 8) cycles
          match q.taken.getLast? with
          | some n =>
            let e := s.dir (p.page0 + n)
            guardReads s1 d (emitRecs s1 d p) (guardPhys s1 [(reelAt e e.emitReel, 0x20000)]
              (passResume (emitStep s1 b d (srcOf b 16 q.idx) p n) b q p))
          | none => passResume s1 b q p
        else s
      | none => s)

/-- The page that a pass waits for is no longer streamed: NONE, and the pass goes on (R277). -/
def passStreamEnd (s : State) (b cycles : Nat) : State :=
  if !blkRuns s b then s
  else match passNow s b with
    | some (q, p) =>
      match waitPage s b q p with
      | some page => if q.wait = 4 then passResume (setPageState (s.count (kMem 4) cycles) (s.dir page).dom page 0) b q p else s
      | none => s
    | none => s

/-! ## The page mover (R138, R276) -/

/-- Whether a pass of a page's layer runs in the Cutter of the page's owner. -/
def layerPassRuns (s : State) (e : Dirent) : Bool :=
  match passNow s (blkOfCell e.owner) with
  | some (_, p) => (s.blk (blkOfCell e.owner)).dom == e.dom && p.layer == e.layer
  | none => false

/-- Whether 256 KiB at a physical address can take a page. -/
def pageFits (s : State) (pa : Nat) : Bool :=
  pa % 2 ^ 18 == 0 &&
    (if pa < 0x8000000000 then freeIn (dramBlocked s none) (pa / 2 ^ 18, 1)
     else (pa - 0x8000000000) / 0x1000000 < 384 &&
       freeIn (cellUsed s ((pa - 0x8000000000) / 0x1000000)) ((pa - 0x8000000000) % 0x1000000 / 65536, 4))

/-- PAGE_MOVE (R138) begins: MIG is set, and the destination is taken. -/
def moveBegin (s : State) (page dest : Nat) : State :=
  let e := s.dir page
  if !e.valid || e.mig || layerPassRuns s e || pageState s e.dom page == 2 || !pageFits s dest then s
  else
    let s1 := s.setDir page { e with mig := true }
    { s1 with back := { s1.back with pmoves := s1.back.pmoves.filter (fun m => m.1 != page) ++ [(page, dest)] } }

/-- PAGE_MOVE ends: both reels have been copied; TIER and PAGE_ADDR are written, and MIG is cleared, in one update. -/
def moveEnd (s : State) (page : Nat) (p : Perf) : State :=
  match (pageMoves s).find? (fun m => m.1 == page) with
  | none => s
  | some m =>
    let e := s.dir page
    let s1 := (applyMemEvents (s.wrBytes m.2 (s.rdBytes (e.addr * 2 ^ 18) 0x40000)) p).setDir page
      { e with tier := m.2 < 0x8000000000, addr := m.2 / 2 ^ 18, mig := false }
    guardPhys s [(e.addr * 2 ^ 18, 0x40000)] { s1 with back := { s1.back with pmoves := s1.back.pmoves.filter (fun x => x.1 != page) } }

/-- PAGE_MOVE (R138): the page mover begins a move, with MIG, or ends one. -/
def execPageMove (page : Nat) (m : MovePhase) (s : State) : Host.Outcome State Fault Refusal :=
  .next (if !dataUp s then s
    else match m with
      | .start dest => moveBegin s page dest
      | .finish p => moveEnd s page p)

end Sys2Proof.Machine
end

