-- ==== Sys2Proof/Machine/Runs.lean ====
section
/-!
DEFINITION. How runs end (R18, R19, R21, R25, R93, R114, R115, R155, R363, R364, R416): completion of items; parity errors, timeouts and the
retirement of cells, with the re-issue of the runs that they abandon.
-/

namespace Sys2Proof.Machine

/-! ## Completion (R155) -/

/-- Whether a port still holds packets of an item, unsent or unacknowledged, has lost one before its acknowledgement (R255), or a combining
entry holds a chunk of it (R262, R267). -/
def linkBusy (s : State) (src : Nat) : Bool :=
  s.fab.ports.any (fun e => e.2.tx.any (fun t => t.src == src) || e.2.retry.any (fun f => f.srcs.contains src) || e.2.gone.contains src)
    || s.fab.combs.any (fun c => c.src == src)

/-- Whether a running item's writes have all been performed: its cell not being replaced, nothing held, no packet unacknowledged, no pass
under way. -/
def itemDone (s : State) (b l i : Nat) (it : Item) : Bool :=
  let src := srcOf b l i
  !substAt s b l && !s.back.held.any (fun h => h.src == src) && !(it.hdr.kind == 6 && linkBusy s src) && !(l == 16 && (s.blk b).pass.isSome)

/-- The run counters of an item that completes (R93, R117). -/
def countRun (s : State) (b : Nat) (it : Item) (cycles : Nat) : State :=
  let s1 := if needsArrays it then s.count (kArrPerf b 0) 1 else s
  let s2 := if needsEngine it then s1.count (kVecPerf b 0) 1 else s1
  if it.hdr.kind = 4 then s2.count (kCutPerf b 4) cycles else s2.count (kSeqPerf b 2) cycles

/-- What a completing item's chain owes is done, and its event counters are counted (R93, R114). -/
def settleItem (s : State) (b l i : Nat) : State :=
  let k := s.blk b
  let x := k.item l i
  let s1 := countRunEvts s b (itemKey l i)
  match x.owed with
  | some o => payOwed s1 b k.dom o
  | none => s1

/-- The records that a completing item's chain updates: their updates read them. -/
def owedReads (x : ItemSt) : List (Nat × Nat) :=
  match x.owed with
  | some o => o.recs.map (fun r => (r.1, 128))
  | none => []

/-- ITEM_COMPLETE (R155): the n-th running item of the block, by list and place, is complete: what its chain owes, hold decrement, signals,
counters, trace. The cycles are for a Cutter item those it ran, for another the array-unit cycles free with no ready candidate since
the last completion; the memory events are those of its accesses that its start did not report (R18, R144). -/
def execItemComplete (b n : Nat) (x : RunEnd) (s : State) : Host.Outcome State Fault Refusal :=
  .next (if !(dataUp s && alive s (regOfBlk b)) then s
    else match (((s.blk b).items.filter (fun e => e.2.st == .running)).map (·.1))[n]? with
      | none => s
      | some ki =>
        let l := ki / 65536
        let i := ki % 65536
        match (listOf s b l)[i]? with
        | none => s
        | some it =>
          if itemDone s b l i it then
            let s1 := settleItem (traceItem s b l i 2) b l i
            guardReads s (s.blk b).dom (owedReads ((s.blk b).item l i))
              (applyMemEvents (countRun (finishItem s1 b l i it) b it x.cycles) x.perf)
          else s)

/-! ## Cells that fail (R19, R21, R25, R115, R363, R364) -/

/-- Whether the stand-in can take a position (R21). -/
def standInFree (k : Blk) : Bool := bits k.map 21 17 == 0x1F && bit k.map 16

/-- A block leaves service: its region is killed and reset (R21, R29). -/
def blockOut (s : State) (b pos : Nat) : State :=
  let k := s.blk b
  let s1 := s.setBlk b { k with map := mclr (mclr k.map (physOf k pos)) 31 }
  let f : Fact := { level := 1, action := 6, cause := 0x0F, region := b / 6, blk := b, cell := 16 * b + pos }
  regionFault (logFault s1 f) (b / 6) 1 { f with level := 2, action := 3 }

/-- A cell is retired: the stand-in is to take its position, or the block leaves service (R19, R21, R25). `worked`: the runs that it
abandons had performed their work (R364). -/
def retireCell (s : State) (b pos cause : Nat) (worked : Bool) : State :=
  let s1 := s.count (kBlkCnt b 1) 1
  if standInFree (s.blk b) && (s.blk b).subst.isNone then
    strike (s1.setBlk b { s1.blk b with subst := some { pos := pos, cause := cause, worked := worked, tick := s.ticks } }) 6
  else blockOut s1 b pos

/-- Whether a block's cells run work whose faults are handled: in service, its region alive (R416). -/
def cellsRun (s : State) (b : Nat) : Bool := bit (s.blk b).map 31 && alive s (b / 6) && dataUp s

/-- Whether a Cutter item is one whose generated tile operations run at a position (R223). -/
def dirAt (s : State) (b pos : Nat) (it : Item) : Bool :=
  it.hdr.kind == 4 && (it.pass.opc == 0x42 || it.pass.opc == 0x43) && (dirBlocks s b (s.blk b).dom it.pass).any (fun x => x.1 == pos)

/-- The runs at a position, by item: those of its cell list, then the tile operations of a running DIR1 or DIR2. -/
def runsAt (s : State) (b pos : Nat) : List Nat :=
  (runningOf s b pos).map (itemKey pos)
    ++ ((runningOf s b 16).filter (fun i => match (listOf s b 16)[i]? with
      | some it => dirAt s b pos it
      | none => false)).map (itemKey 16)

/-- CELL_TIMEOUT (R25): a cell that has not answered a dispatch is retired. -/
def execCellTimeout (b pos : Nat) (worked : Bool) (s : State) : Host.Outcome State Fault Refusal :=
  .next (if contained s (b / 6) && bit (s.blk b).map 31 then containFault s (b / 6)
    else if !cellsRun s b || (runsAt s b pos).isEmpty || substAt s b pos then s
    else retireCell s b pos 0x03 worked)

/-- Whether an item is a chain whose output overwrites an input (R105, R115). -/
def overwrites (it : Item) : Bool :=
  match it.chain? with
  | some c => (outsOf c).any (fun o => outMem c o && (insOf c).any (fun i => c.outAddr.getD o 0 == c.inAddr.getD i 0))
  | none => false

/-- Whether a run, given by its item, is such a chain, by the addresses that it runs with (R171). -/
def runOverwrites (s : State) (b ki : Nat) : Bool :=
  match (listOf s b (ki / 65536))[ki % 65536]? with
  | some it => overwrites (resolveItem s (s.blk b).dom it)
  | none => false

/-- The tile operation of a DIR1 or DIR2 item at a position is issued again: the abandoned run counts, and the cell starts another; its results
are the same (R25, R93). -/
def reissueDir (s : State) (b pos : Nat) : State :=
  let k := s.blk b
  countTile (countEvts s (stsEvts b (BitVec.ofNat _ (spGet zeroNat k.sts (physOf k pos))))) b pos

/-- A run issued again (R25, R115, R364). The abandoned run counts what it raised, and the item becomes ready. Where the abandoned run had
performed its work, the item does it again, and the non-finite bit is set if it had added into a REDUCE segment or updated a
record; where it had not, what the model wrote at its start stands as the work of the run issued again (DESIGN CHOICE, log entry 21). -/
def reissue (b pos : Nat) (worked : Bool) (s : State) (ki : Nat) : State :=
  if ki / 65536 = 16 then reissueDir s b pos
  else
    let k := s.blk b
    let x := spGet itemDflt k.items ki
    let s1 := countEvts s x.evts
    let y := if worked then { x with touched := false, slots := [], owed := none, evts := [], redo := false } else { x with redo := true }
    { s1.setBlk b { s1.blk b with
        items := spSet itemDflt k.items ki { y with st := .ready, readyAt := s.evt }
        nonfin := k.nonfin || (worked && x.touched) } with evt := s1.evt + 1 }

/-- PARITY_ERROR (R18, R25, R115) in a run at a position: the tile is issued again once; a second error of the physical cell within
the next 1,024 tile operations that it starts retires it. A chain that has overwritten its input is reported as an uncorrectable
slice error. -/
def execParityError (b pos : Nat) (x : Struck) (s : State) : Host.Outcome State Fault Refusal :=
  let k := s.blk b
  let c := physOf k pos
  let n := spGet zeroNat k.tiles c
  .next (if contained s (b / 6) && bit k.map 31 then containFault s (b / 6)
    else if !cellsRun s b || substAt s b pos then s
    else match (runsAt s b pos)[x.run]? with
      | none => s
      | some ki =>
        if runOverwrites s b ki then sliceFault s (16 * b + pos) 0
        else match spFind k.parity c with
          | some p =>
            if n - p ≤ 1024 then retireCell (s.setBlk b { k with parity := spDel k.parity c }) b pos 0x02 x.worked
            else again k c n ki
          | none => again k c n ki)
where
  /-- The first error is remembered, recorded and counted, and the run is issued again. -/
  again (k : Blk) (c n ki : Nat) : State :=
    let s1 := reissue b pos x.worked (s.setBlk b { k with parity := spPut k.parity c n }) ki
    (logFault s1 { level := 1, action := 1, cause := 0x02, region := b / 6, blk := b, cell := 16 * b + pos }).count (kBlkCnt b 3) 1

/-- The stand-in as it takes a position: its stationary sets, accumulators and status registers are cleared (Table 12-10); its row repair
stays. -/
def clearStandIn (k : Blk) : Blk :=
  { k with
    cells := spSet cellDflt k.cells 16 ((arrsOf k 16).map (fun a => { a with set0 := setEmpty, set1 := setEmpty, bank0 := [], bank1 := [] }))
    sts := spSet zeroNat (spSet zeroNat k.sts 16 0) 48 0 }

/-- SUBSTITUTION_COMPLETE (R19, R363, R364): the stand-in takes the position, and the runs that the failed cell held are issued again, a chain
that has overwritten its input among them (R364; DESIGN CHOICE, log entry 122). -/
def execSubstitutionComplete (b : Nat) (s : State) : Host.Outcome State Fault Refusal :=
  .next (match (s.blk b).subst with
    | none => s
    | some x =>
      if !alive s (b / 6) || !dataUp s then s
      else
        let k := clearStandIn (s.blk b)
        let held := runsAt s b x.pos
        let m := setBits (mclr k.map (physOf k x.pos)) 21 17 x.pos
        let s1 := s.setBlk b { k with map := m, subst := none }
        let s2 := s1.each held (reissue b x.pos x.worked)
        let s3 := (s2.count (kBlkCnt b 2) 1).count (kBlkCnt b 3) held.length
        logFault s3 { level := 1, action := 2, cause := x.cause, region := b / 6, blk := b, cell := 16 * b + x.pos, tick := some x.tick })

end Sys2Proof.Machine
end

