-- ==== Sys2Proof/Machine/Fabric.lean ====
section
/-!
DEFINITION. The Tabkin link (R244 to R260): routing, packets and their queues, frames sent and received, credits, retry,
resynchronisation, lanes.
-/

namespace Sys2Proof.Machine

/-! ## Coordinates and routing (R257 to R260) -/

/-- Whether a coordinate lies in a torus. -/
def inTorus (t c : Nat) : Bool := (List.range 3).all (fun i => coord c i < dimOf t i)

/-- Fabric values in the units of region r, and at chip level (DEDUCED, log entry 22). -/
def fabCoord (s : State) (r : Nat) : Nat := s.app r (key 0x5000 0)
def fabTorus (s : State) (r : Nat) : Nat := s.app r (key 0x5000 1)

/-- What routing finds for a packet: it is for this module, leaves by a port in a class, or has no destination in the torus. -/
inductive Hop where
  | here
  | out (port cls : Nat)
  | outside
  deriving DecidableEq, Repr

/-- The enabled auxiliary port whose peer has a coordinate (R259). -/
def auxPort (s : State) (r dst : Nat) : Option Nat :=
  [6, 7].find? (fun p => bit (s.app r (key 0x5001 (p - 6))) 15 && bits (s.app r (key 0x5001 (p - 6))) 11 0 == dst)

/-- One dimension of the route of R257 and R258: port, and whether the hop crosses the dateline. -/
def ringHop (d c t i : Nat) : Nat × Bool :=
  let up := (t + d - c) % d
  if 2 * up ≤ d then (2 * i, c + 1 == d) else (2 * i + 1, c == 0)

/-- The next hop of a packet at the units of region r: `prev` is the port it arrived by, with its class. -/
def hopOf (s : State) (r dst : Nat) (auxed : Bool) (prev : Option (Nat × Nat)) : Hop :=
  let c := fabCoord s r
  let t := fabTorus s r
  if dst = c then .here
  else if !inTorus t dst then .outside
  else match (if auxed then none else auxPort s r dst) with
    | some p => .out p 0
    | none =>
      match (List.range 3).find? (fun i => coord c i != coord dst i) with
      | none => .here
      | some i =>
        let h := ringHop (dimOf t i) (coord c i) (coord dst i) i
        let was := match prev with
          | some (q, cls) => if q < 6 ∧ q / 2 = i then cls else 0
          | none => 0
        .out h.1 (if h.2 then 1 else was)

/-- Whether packets for a port are dropped: it is disabled or DOWN (R260). -/
def portDead (s : State) (p : Nat) : Bool := !mbit (s.app (regOfPort p) (key 0x5000 2)) p || (s.port p).st == .down

/-! ## Packets (R250 to R252) -/

/-- Fields of a packet's header (Table 9-3). -/
def Packet.ty (k : Packet) : Nat := bits k.hdr 511 504
def Packet.cls (k : Packet) : Nat := bits k.hdr 503 502
def Packet.bulk (k : Packet) : Bool := bit k.hdr 501
def Packet.last (k : Packet) : Bool := bit k.hdr 500
def Packet.slotLast (k : Packet) : Bool := bit k.hdr 499
def Packet.nfl (k : Packet) : Nat := bits k.hdr 498 492
def Packet.dom (k : Packet) : Nat := bits k.hdr 491 488
def Packet.dgen (k : Packet) : Nat := bits k.hdr 487 476
def Packet.dst (k : Packet) : Nat := bits k.hdr 475 464
def Packet.src (k : Packet) : Nat := bits k.hdr 463 452
def Packet.auxed (k : Packet) : Bool := bit k.hdr 451
def Packet.step (k : Packet) : Nat := bits k.hdr 447 432
def Packet.grp (k : Packet) : Nat := bits k.hdr 431 430
def Packet.xid (k : Packet) : Nat := bits k.hdr 427 412
def Packet.dexp (k : Packet) : Nat := bits k.hdr 411 396
def Packet.sigEn (k : Packet) : Bool := bit k.hdr 395
def Packet.sigBlk (k : Packet) : Nat := bits k.hdr 394 390
def Packet.sigCtr (k : Packet) : Nat := bits k.hdr 389 380
def Packet.addr (k : Packet) : Nat := bits k.hdr 375 336
def Packet.page (k : Packet) : Nat := bits k.hdr 335 315
def Packet.version (k : Packet) : Nat := bits k.hdr 311 280
def Packet.count (k : Packet) : Nat := bits k.hdr 279 256

/-- Flits of a packet. -/
def Packet.flits (k : Packet) : Nat := 1 + k.nfl

/-- Number of data flits that a type allows; none for a reserved type (Table 9-4). -/
def nflRange (ty : Nat) : Option (Nat × Nat) :=
  if ty = 0x01 ∨ ty = 0x02 ∨ ty = 0x10 ∨ ty = 0x11 ∨ ty = 0x30 ∨ ty = 0x32 then some (1, 64)
  else if ty = 0x03 ∨ ty = 0x20 ∨ ty = 0x21 ∨ ty = 0x31 ∨ ty = 0x33 then some (0, 0)
  else if ty = 0x22 ∨ ty = 0x23 then some (36, 36)
  else none

/-- Whether a type belongs to the combine class. -/
def isCombine (ty : Nat) : Bool := ty == 0x10 || ty == 0x11 || (0x20 ≤ ty && ty ≤ 0x23)

/-- Whether a destination accepts a packet (R252): type, class, reserved bits, length. -/
def Packet.legal (k : Packet) : Bool :=
  (match nflRange k.ty with
    | some (lo, hi) => lo ≤ k.nfl && k.nfl ≤ hi
    | none => false)
  && k.cls != 3 && (k.cls == 2) == isCombine k.ty && bits k.hdr 450 448 == 0 && bits k.hdr 429 428 == 0
  && bits k.hdr 379 376 == 0 && bits k.hdr 314 312 == 0 && bits k.hdr 255 0 == 0

/-- Whether a packet's domain is active here in the packet's generation (R273). -/
def Packet.current (s : State) (k : Packet) : Bool := (s.dom k.dom).st == .active && (s.dom k.dom).gen == k.dgen

/-- A packet's data flits filled up to whole flits. -/
def flitData (bs : List Byte) : List Byte := bs ++ fill ((256 - bs.length % 256) % 256) 0

/-- A packet of a domain from this module. `fs`: further header fields, as lowest bit and value. -/
def mkPacket (s : State) (ty cls d dst : Nat) (fs : List (Nat × Nat)) (inl data : List Byte) : Packet :=
  let bs := flitData data
  { hdr := pack ([(504, ty), (502, cls), (492, bs.length / 256), (488, d), (476, (s.dom d).gen), (464, dst), (452, selfCoord s)] ++ fs)
    inl := inl, data := bs }

/-! ## Queues of a port (R253, R256, R260) -/

/-- A packet put behind those that wait for a port's output; dropped, and counted at port `arr`, where that port is dead. -/
def enqueue (s : State) (p src arr : Nat) (k : Packet) : State :=
  if portDead s p then s.count (kPort arr 8) 1
  else s.setPort p { s.port p with tx := (s.port p).tx ++ [{ cls := k.cls, bulk := k.bulk, src := src, last := k.last, pkt := k }] }

/-- A packet that originates at units of region r is handed to the port of its first hop; none where it is for this module. -/
def originate (s : State) (r src : Nat) (k : Packet) : State :=
  match hopOf s r k.dst false none with
  | .here => s
  | .outside => s.count (kPort 0 8) 1
  | .out p cls => enqueue s p src p { k with hdr := setBits (setBits k.hdr 503 502 cls) 451 451 (b2n (p ≥ 6)) }

/-- A packet to a tree neighbour behind a known port. -/
def toNeighbour (s : State) (p src : Nat) (k : Packet) : State := enqueue s p src p k

/-- A list with entry i changed. -/
def listSet {α : Type} : Nat → α → List α → List α
  | _, _, [] => []
  | 0, x, _ :: l => x :: l
  | n + 1, x, a :: l => a :: listSet n x l

/-- The receive buffer of a class of a port. -/
def rxOf (s : State) (p cls : Nat) : List Packet := (s.port p).rx.getD cls []

/-! ## Frames (R247 to R249, R254) -/

/-- Bytes of a slot. -/
def slotBytes256 (bs : List Byte) : List Byte := (bs ++ fill 256 0).take 256

/-- The frame CRC (R248). -/
def frameCrc (control : Nat) (slots : List (List Byte)) : Nat :=
  crc16 (leBytes 10 (setBits control 15 0 0) ++ (slots ++ List.replicate (10 - slots.length) []).flatMap slotBytes256)

/-- Link state that a port sends: HOLD while its region resets, from the end of its dump on, or is OFFLINE; RUN otherwise (R255, R356). -/
def lstateOf (s : State) (p : Nat) : Nat :=
  let r := s.reg (regOfPort p)
  if (r.st == .resetting && r.stage == .reset) || r.st == .offline || r.st == .failed then 1 else 0

/-- Frame control without its CRC (Table 9-2): sequence number, slot kinds, link state. -/
def controlOf (x : Port) (fseq : Nat) (kinds : List Nat) (lstate : Nat) : Nat :=
  pack ([(68, fseq), (56, x.rxSeq), (55, b2n x.nak), (53, x.crd), (45, x.freed.getD x.crd 0),
    (42, match x.lreq with
      | some l => 4 + l.1 % 4
      | none => 0), (39, x.lcnt), (17, lstate)]
    ++ ((List.range kinds.length).zip kinds).map (fun k => (19 + 2 * k.1, k.2)))

/-- A frame leaves a port: CRD_CLS rotates, LCNT counts down (R249, R282), and NAK stands in that one frame (DEDUCED, log entry 114). -/
def emitFrame (s : State) (p fseq lstate : Nat) (kinds : List Nat) (slots : List (List Byte)) : State :=
  let x := s.port p
  let c := controlOf x fseq kinds lstate
  let bytes := leBytes 10 (c + frameCrc c slots) ++ (slots ++ List.replicate (10 - slots.length) []).flatMap slotBytes256
  (s.emit (.flit p bytes)).setPort p { x with crd := (x.crd + 1) % 3, nak := false, lcnt := x.lcnt - 1, lastCtl := c }

/-- A control frame: it repeats the FSEQ of the last frame that carried a flit (R249). -/
def sendControl (s : State) (p : Nat) : State := emitFrame s p (bits (s.port p).lastCtl 79 68) (lstateOf s p) [] []

/-- A frame of the HOLD framer (R255): FSEQ, ACK and the credit report of the last frame sent, LSTATE HOLD, nothing else. -/
def holdFrame (s : State) (p : Nat) : State :=
  let l := (s.port p).lastCtl
  let c := pack [(68, bits l 79 68), (56, bits l 67 56), (53, bits l 54 53), (45, bits l 52 45), (17, 1)]
  s.emit (.flit p (leBytes 10 (c + frameCrc c []) ++ (List.replicate 10 []).flatMap slotBytes256))

/-- Whether a port sends traffic: up, its region in service. -/
def portUp (s : State) (p : Nat) : Bool :=
  ((s.port p).st == .up4 || (s.port p).st == .up3) && linkRuns s (regOfPort p) && dataUp s

/-- Flits of a class have been freed: control frames go out until one has reported the class to the peer, so that each freed packet's
credits return (R249, R253). A port that does not send reports nothing. -/
def returnCredit (s : State) (p cls : Nat) : State :=
  if portUp s p then (List.range ((cls + 3 - (s.port p).crd) % 3 + 1)).foldl (fun s _ => sendControl s p) s else s

/-- A packet leaves a receive buffer: the n-th of its class; its flits are freed (R253). -/
def takeRx (s : State) (p cls n : Nat) : State :=
  let x := s.port p
  match (x.rx.getD cls [])[n]? with
  | none => s
  | some k =>
    returnCredit (s.setPort p { x with
      rx := listSet cls (dropAt n (x.rx.getD cls [])) x.rx
      freed := listSet cls ((x.freed.getD cls 0 + k.flits) % 256) x.freed }) p cls

/-- The flits of a packet: kind and bytes. -/
def flitsOf (k : Packet) : List (Nat × List Byte) :=
  (1, slotBytes256 (leBytes 64 k.hdr ++ k.inl)) :: (chunks 256 k.data).map (fun d => (2, d))

/-- One frame with flits of a packet of a domain: sent, and kept in the retry buffer. -/
def sendFrame (p d : Nat) (s : State) (fr : List (Nat × List Byte) × List Nat) : State :=
  let x := s.port p
  let n := (x.txSeq + 1) % 4096
  let f : TxFrame := { fseq := n, dom := some d, srcs := fr.2, kinds := fr.1.map (·.1), slots := fr.1.map (·.2), tries := 0 }
  emitFrame (s.setPort p { x with txSeq := n, retry := x.retry ++ [f] }) p n (lstateOf s p) f.kinds f.slots

/-- The frames of a packet: ten flits each, the item named by the last (R262). -/
def framesOf (t : TxPkt) : List (List (Nat × List Byte) × List Nat) :=
  let cs := chunks 10 (flitsOf t.pkt)
  (List.range cs.length).map (fun i => (cs.getD i [], if i + 1 = cs.length then [t.src] else []))

/-- Whether a waiting packet may start: credits for all of its flits, room in the retry buffer of 1,024 frames (R253, R254). -/
def canSend (x : Port) (t : TxPkt) : Bool :=
  t.pkt.flits ≤ x.credit.getD t.cls 0 && x.retry.length + (t.pkt.flits + 9) / 10 ≤ 1024

/-- The heads of the sources that wait for an output: the first packet of each source in each class. -/
def txHeads : List TxPkt → List (Nat × Nat) → Nat → List (Nat × TxPkt)
  | [], _, _ => []
  | t :: l, seen, i => if seen.contains (t.src, t.cls) then txHeads l seen (i + 1) else (i, t) :: txHeads l ((t.src, t.cls) :: seen) (i + 1)

/-- The place of a packet's class and BULK among a port's turns. -/
def turnOf (t : TxPkt) : Nat := 2 * t.cls + b2n t.bulk

/-- The rank of a waiting packet (R256): class, BULK, turn of its source among those of its class and BULK. -/
def txRank (x : Port) (t : TxPkt) : Nat :=
  let c := if t.cls = 2 then 0 else if t.cls = 1 then 1 else 2
  let l := x.lastSrc.getD (turnOf t) 0
  let turn := if t.src > l then t.src - l else t.src + 2 ^ 64 - l
  (c * 2 + b2n t.bulk) * 2 ^ 65 + turn

/-- The least ranked of waiting packets. -/
def bestTx (x : Port) (l : List (Nat × TxPkt)) : Option (Nat × TxPkt) :=
  l.foldl (fun o y => match o with
    | none => some y
    | some z => if txRank x y.2 < txRank x z.2 then some y else some z) none

/-- The classes in which BULK packets wait for an output. -/
def bulkClasses (x : Port) : List Nat := [2, 1, 0].filter (fun c => x.tx.any (fun t => t.bulk && t.cls == c))

/-- Whether a class's BULK packets must be granted one now, so that each class in which some wait is granted one in every 64 packets (R256;
DESIGN CHOICE, log entry 125). -/
def bulkDue (x : Port) (c : Nat) : Bool := 64 ≤ x.bulkWait.getD c 0 + (bulkClasses x).length

/-- The class whose BULK packet is due: of those that can send, the one that has waited longest. -/
def dueClass (x : Port) (hs : List (Nat × TxPkt)) : Option Nat :=
  ((bulkClasses x).filter (fun c => bulkDue x c && hs.any (fun y => y.2.bulk && y.2.cls == c))).foldl (fun o c => match o with
    | none => some c
    | some e => if x.bulkWait.getD e 0 < x.bulkWait.getD c 0 then some c else some e) none

/-- The packet that an output grants next: the best ranked one, or a BULK one that is due (R256). -/
def nextTx (x : Port) : Option (Nat × TxPkt) :=
  let hs := (txHeads x.tx [] 0).filter (fun y => canSend x y.2)
  match dueClass x hs with
  | some c => bestTx x (hs.filter (fun y => y.2.bulk && y.2.cls == c))
  | none => bestTx x hs

/-- A port after the grant of a packet: the turns, and the waits of the classes with BULK packets left. -/
def granted (x : Port) (t : TxPkt) (rest : List TxPkt) : Port :=
  let y := { x with tx := rest, lastSrc := listSet (turnOf t) t.src x.lastSrc
                    credit := listSet t.cls (x.credit.getD t.cls 0 - t.pkt.flits) x.credit }
  { y with bulkWait := (List.range 3).map (fun c =>
      if (t.bulk && t.cls == c) || !(bulkClasses y).contains c then 0 else x.bulkWait.getD c 0 + 1) }

/-- The context whose running command a packet belongs to: an EXPORT's, or for an item's transfer the domain's STEP. -/
def cmdCtx (s : State) (t : TxPkt) : Option Nat :=
  if isExport t.src then some (t.src - 2 ^ 33)
  else if t.src ≠ 0 ∧ t.src < 2 ^ 30 ∧ (s.stp t.pkt.dom).order ≠ .none then some (s.stp t.pkt.dom).ctx
  else none

/-- FBP of the command of a packet that was held for credits (R304). -/
def markFbp (cycles : Nat) (s : State) (t : TxPkt) : State :=
  if cycles = 0 then s
  else match cmdCtx s t with
    | some k => modCmd s k (fun c => { c with fbp := true })
    | none => s

/-- An EXPORT ends with its last packet. -/
def exportEnd (s : State) (t : TxPkt) : State := if isExport t.src && t.last then endCmd s (t.src - 2 ^ 33) 0 0 [] else s

/-- A packet of an item has been sent: a progress event in its block (R343). -/
def sentBy (s : State) (t : TxPkt) : State := if t.src ≠ 0 ∧ t.src < 2 ^ 30 then progress s ((t.src - 1) / 2 ^ 24) else s

/-- PACKET_SEND (R249, R253, R256, R262): the packet that the output grants is sent whole; with none to send, a control frame goes out.
`cycles`: how long a packet was held for credits. -/
def execPacketSend (p cycles : Nat) (s : State) : Host.Outcome State Fault Refusal :=
  let x := s.port p
  .next (if !portUp s p then s
    else match nextTx x with
      | none => ((txHeads x.tx [] 0).map (·.2)).foldl (markFbp cycles) ((sendControl s p).count (kPort p 6) (if x.tx.isEmpty then 0 else cycles))
      | some (i, t) =>
        let s1 := s.setPort p (granted x t (dropAt i x.tx))
        let s2 := (framesOf t).foldl (sendFrame p t.pkt.dom) s1
        let s3 := (s2.count (kPort p 6) cycles).count (kPort p 4) t.pkt.flits
        exportEnd (markFbp cycles (sentBy (if t.bulk then s3.count (kPort p 9) t.pkt.flits else s3) t) t) t)

/-! ## Retry (R254) -/

/-- Frames that an acknowledgement leaves outstanding. -/
def unacked (ack : Nat) (l : List TxFrame) : List TxFrame :=
  l.filter (fun f => let d := (f.fseq + 4096 - ack) % 4096; 1 ≤ d && d < 2048)

/-- A port fault that link retry and FEC cannot contain (R29). -/
def portFault (s : State) (p detail : Nat) : State :=
  regionFault s (regOfPort p) 1 { level := 2, action := 3, cause := 0x09, detail := detail }

/-- Every outstanding frame is sent again, in order; beyond FAB_RETRY_LIMIT it is a port fault. -/
def retransmit (s : State) (p : Nat) : State :=
  let x := s.port p
  let fs := x.retry.map (fun f => { f with tries := f.tries + 1 })
  let s1 := (s.setPort p { x with retry := fs }).count (kPort p 3) fs.length
  if fs.any (fun f => f.tries > s.app (regOfPort p) (key 0x5000 3)) then portFault s1 p p
  else fs.foldl (fun s f => emitFrame s p f.fseq (lstateOf s p) f.kinds f.slots) s1

/-- RETRY_TIMEOUT (R254): no progress of ACK for 10 µs with frames outstanding. -/
def execRetryTimeout (p : Nat) (s : State) : Host.Outcome State Fault Refusal :=
  .next (if portUp s p && !(s.port p).retry.isEmpty then retransmit s p else s)

/-! ## Reception (R252 to R255) -/

/-- A packet assembled at a port: kept in the buffer of its class; one for this module that R252 or R273 drops is counted and its flits
are freed. -/
def arrive (s : State) (p : Nat) (k : Packet) : State :=
  let r := regOfPort p
  let mine := k.dst == fabCoord s r
  if mine && !k.legal then (free s).count (kPort p 8) 1
  else if mine && !k.current s then (free s).count (kPort p 7) 1
  else if k.cls = 3 then s.count (kPort p 8) 1
  else
    let x := s.port p
    s.setPort p { x with rx := listSet k.cls (x.rx.getD k.cls [] ++ [k]) x.rx }
where
  /-- The flits of a dropped packet leave the buffer. -/
  free (s : State) : State :=
    let x := s.port p
    returnCredit (s.setPort p { x with freed := listSet k.cls ((x.freed.getD k.cls 0 + k.flits) % 256) x.freed }) p k.cls

/-- One flit received: a packet's flits are gathered until it is whole. -/
def onFlit (p : Nat) (s : State) (fl : Nat × List Byte) : State :=
  let x := s.port p
  let asm := if fl.1 = 1 then [fl.2] else if x.asm.isEmpty then [] else x.asm ++ [fl.2]
  match asm with
  | [] => s
  | h :: ds =>
    let hdr := leNat (h.take 64)
    if ds.length ≥ bits hdr 498 492 then
      arrive (s.setPort p { x with asm := [] }) p { hdr := hdr, inl := h.drop 64, data := ds.flatten }
    else s.setPort p { x with asm := asm }

/-- The credits that a frame reports. -/
def onCredit (x : Port) (cls tot : Nat) : Port :=
  if cls = 3 then x
  else
    let cap := if cls = 2 then 512 else 1024
    { x with credit := listSet cls (min (x.credit.getD cls 0 + (tot + 256 - x.peerTot.getD cls 0) % 256) cap) x.credit
             peerTot := listSet cls tot x.peerTot }

/-- State of a fabric lane. -/
def laneKey (l : Nat) : Nat := key 0x5031 l

/-- FAB_LANE_RESULT. -/
def laneResult (s : State) (v : Nat) : State := s.setRo (key 0x5032 1) v

/-- A lane command of a port that is cut short, and any lane change pending there, end (R282): FAILED, with the lane RETIRED, where the port runs
without the lane already; else REFUSED, the port keeping its lanes (DESIGN CHOICE, log entry 57). -/
def laneCut (s : State) (p : Nat) : State :=
  let s1 := s.setPort p { s.port p with lreq := none, lcnt := 0 }
  match s.fab.lane with
  | some o =>
    if o.lane / 4 != p then s1
    else
      let s2 := { s1 with fab := { s1.fab with lane := none } }
      if s.ro? (laneKey o.lane) = 0 then laneResult s2 4 else laneResult (s2.setRo (laneKey o.lane) 2) 3
  | none => s1

/-- The items whose packets a link has not acknowledged. -/
def unackedSrcs (x : Port) : List Nat := (x.retry.flatMap (·.srcs)).filter (· != 0)

/-- The peer has left reset: the retry buffer and its packets are discarded, sequence numbers restart, credits are full (R255); a lane change that
was pending has been lost with the peer's link layer. -/
def resync (s0 : State) (p : Nat) : State :=
  let s := laneCut s0 p
  let x := s.port p
  let lost := unackedSrcs x
  (s.setPort p { x with
    st := if x.st == .hold then x.back else x.st, txSeq := 0xFFF, rxSeq := 0xFFF, nak := false, retry := [], asm := []
    credit := [1024, 1024, 512], peerTot := [0, 0, 0], freed := [0, 0, 0], lastCtl := ctlReset, gone := x.gone ++ lost }).count (kPort p 0xA) 1

/-- The peer holds: the port shows HOLD (R255). -/
def enterHold (s : State) (p : Nat) : State :=
  let x := s.port p
  if x.st == .up4 || x.st == .up3 then s.setPort p { x with st := .hold, back := x.st, since := s.ticks } else s

/-- The acknowledgement of a frame; a NAK has every outstanding frame sent again. -/
def onAck (s : State) (p c : Nat) : State :=
  let x := s.port p
  let s1 := s.setPort p { x with retry := unacked (bits c 67 56) x.retry }
  if bit c 55 && !(s1.port p).retry.isEmpty then retransmit s1 p else s1

/-- An accepted frame's acknowledgement and credits, then its flits. -/
def onFrame (s : State) (p : Nat) (f : Frame) : State :=
  let c := f.control
  let s1 := s.setPort p (onCredit (s.port p) (bits c 54 53) (bits c 52 45))
  let s2 := onAck s1 p c
  let all := (List.range 10).map (fun i => (bits c (20 + 2 * i) (19 + 2 * i), slotBytes256 (f.slots.getD i [])))
  let fl := all.filter (fun x => x.1 == 1 || x.1 == 2)
  (fl.foldl (onFlit p) s2).count (kPort p 5) fl.length

/-- Whether a frame carries no flit. -/
def isControl (c : Nat) : Bool := bits c 38 19 == 0

/-- A lane change that the peer announces (R282): this end follows it, or refuses by doing nothing: where it runs on three lanes already,
recalibrates a lane itself, or is not in RUN. A port on three lanes follows the change of its lost lane back to four. -/
def followLane (s : State) (p c : Nat) : State :=
  let x := s.port p
  let lane := bits c 43 42
  let busy := match s.fab.lane with
    | some o => o.lane / 4 == p
    | none => false
  if !bit c 44 || x.lreq.isSome || busy || !portUp s p || (x.st == .up3 && x.lost != lane) then s
  else s.setPort p { x with lreq := some (lane, x.st == .up4), lcnt := bits c 41 39 }

/-- A frame whose codewords and CRC are good: a sequenced one is taken if it is the next expected, and else discarded silently. -/
def goodFrame (s : State) (p : Nat) (f : Frame) : State :=
  let c := f.control
  if bits c 18 17 = 1 then enterHold s p
  else if bits c 18 17 = 2 then sendControl (resync s p) p
  else if isControl c then onFrame (followLane s p c) p f
  else if bits c 79 68 = ((s.port p).rxSeq + 1) % 4096 then
    let s1 := followLane s p c
    sendControl (onFrame (s1.setPort p { s1.port p with rxSeq := bits c 79 68 }) p f) p
  else s

/-- A frame that is discarded, and answered with NAK. -/
def badFrame (s : State) (p : Nat) : State := sendControl (s.setPort p { s.port p with nak := true }) p

/-- Whether a port takes frames: past training, its region's link layer not in reset. -/
def portListens (s : State) (p : Nat) : Bool :=
  ((s.port p).st == .up4 || (s.port p).st == .up3 || (s.port p).st == .hold) && linkRuns s (regOfPort p) && dataUp s

/-- FRAME_RECEIVE (R254, R255): accepted, answered with NAK, or discarded. -/
def execFrameReceive (p : Nat) (f : Frame) (s : State) : Host.Outcome State Fault Refusal :=
  .next (if p ≥ 8 || !portListens s p then s
    else
      let s1 := s.count (kPort p 0) f.corrected
      if f.bad ≠ 0 then badFrame (s1.count (kPort p 1) f.bad) p
      else if frameCrc f.control f.slots != bits f.control 15 0 then badFrame (s1.count (kPort p 2) 1) p
      else goodFrame s1 p f)

/-! ## Forwarding (R257 to R260) -/

/-- PACKET_FORWARD (R257 to R260): the first packet of a class that is for another module is routed on, or dropped. -/
def execPacketForward (p cls : Nat) (s : State) : Host.Outcome State Fault Refusal :=
  .next (if !alive s (regOfPort p) || !dataUp s then s
    else match rxOf s p cls with
      | [] => s
      | k :: _ =>
        match hopOf s (regOfPort p) k.dst (k.auxed || p ≥ 6) (if p ≥ 6 then none else some (p, cls)) with
        | .here => s
        | .outside => (takeRx s p cls 0).count (kPort p 8) 1
        | .out q c =>
          let c' := if k.cls = 2 then 2 else c
          enqueue (takeRx s p cls 0) q (2 ^ 60 + p) p { k with hdr := setBits (setBits k.hdr 503 502 c') 451 451 (b2n (k.auxed || q ≥ 6)) })

/-! ## Training and lanes (R282, R283) -/

/-- A link layer that starts up: what its retry buffer held is lost unacknowledged (R262). -/
def freshLink (x : Port) : Port :=
  { x with txSeq := 0xFFF, rxSeq := 0xFFF, nak := false, retry := [], credit := [1024, 1024, 512], peerTot := [0, 0, 0]
           freed := [0, 0, 0], asm := [], lreq := none, lcnt := 0, crd := 0, lastCtl := ctlReset, gone := x.gone ++ unackedSrcs x }

/-- PORT_TRAINED (R283): the port leaves TRAINING, on the lanes that are not retired. -/
def execPortTrained (p : Nat) (s : State) : Host.Outcome State Fault Refusal :=
  .next (if (s.port p).st != .training || !alive s (regOfPort p) then s
    else
      let bad := (List.range 4).filter (fun l => s.ro? (laneKey (4 * p + l)) == 2)
      let s1 := ((List.range 4).filter (fun l => !bad.contains l)).foldl (fun s l => s.setRo (laneKey (4 * p + l)) 0) s
      s1.setPort p { freshLink (s.port p) with
        st := if bad.isEmpty then .up4 else if bad.length = 1 then .up3 else .down, lost := bad.headD 4 })

/-- A lane change is announced: 7 frames to go (R282). -/
def announce (s : State) (p lane : Nat) (three : Bool) : State :=
  sendControl (s.setPort p { s.port p with lreq := some (lane, three), lcnt := 7 }) p

/-- A lane command that a cue has handed over, with a given operation (R282). -/
def laneCmd (s : State) (op : Nat) : Option Nat :=
  (s.mgt.cmdPend.find? (fun c => c.1 == key 0x5032 0 && c.2 / 256 == op)).map (·.2)

/-- A lane command carried out: the port moves to three lanes, unless it or its peer refuses. -/
def laneCommand (s : State) (op : Nat) (peerReady : Bool) : State :=
  match laneCmd s op with
  | none => s
  | some v =>
    let s1 := { s with mgt := { s.mgt with cmdPend := s.mgt.cmdPend.erase (key 0x5032 0, v) } }
    let lane := v % 256
    let p := lane / 4
    if (s.port p).st != .up4 || (s.port p).lreq.isSome || s.fab.lane.isSome || !peerReady || !portUp s p then laneResult s1 4
    else announce (laneResult { s1 with fab := { s1.fab with lane := some { op := op, lane := lane } } } 1) p (lane % 4) true

/-- FAB_LANE_RECAL (R282): the peer accepts or refuses the change. -/
def execFabLaneRecal (peerReady : Bool) (s : State) : Host.Outcome State Fault Refusal := .next (laneCommand s 1 peerReady)

/-- FAB_LANE_RETIRE (R282): whether the peer refuses the change is a free value (DESIGN CHOICE, log entry 57). -/
def execFabLaneRetire (s : State) : Host.Outcome State Fault Refusal :=
  .next (laneCommand s.fresh.2 2 (bit (Config.freeWord s.fresh.1).toNat 0))

/-- The frames left before a lane change takes effect are sent. -/
def countDown (s : State) (p : Nat) : State := (List.range (s.port p).lcnt).foldl (fun s _ => sendControl s p) s

/-- The lane command of a lane has ended. -/
def endLane (s : State) (g : Nat) : State :=
  match s.fab.lane with
  | some o => if o.lane = g then { s with fab := { s.fab with lane := none } } else s
  | none => s

/-- A port switches to three lanes without a lane, or back to four. -/
def switchLane (s : State) (p lane : Nat) (three : Bool) : State :=
  let s1 := s.setPort p { s.port p with st := if three then .up3 else .up4, lost := if three then lane else 4, lreq := none, lcnt := 0 }
  let g := 4 * p + lane
  if !three then
    match s.fab.lane with
    | some o => if o.lane = g then endLane (laneResult (s1.setRo (laneKey g) 0) 2) g else s1.setRo (laneKey g) 0
    | none => s1.setRo (laneKey g) 0
  else match s.fab.lane with
    | some o =>
      if o.lane ≠ g then s1.setRo (laneKey g) 2
      else if o.op = 1 then s1.setRo (laneKey g) 1
      else endLane (laneResult (s1.setRo (laneKey g) 2) 2) g
    | none => s1.setRo (laneKey g) 2

/-- LANE_CHANGE (R282): both ends switch at the same frame boundary, after the frames that LCNT still counts. -/
def execLaneChange (p : Nat) (s : State) : Host.Outcome State Fault Refusal :=
  .next (if !portUp s p then s
    else match (s.port p).lreq with
      | none => s
      | some (lane, three) => switchLane (countDown s p) p lane three)

/-- LANE_RECAL_DONE (R282): the port goes back to four lanes by a second change, or the lane is retired. -/
def execLaneRecalDone (p : Nat) (ok : Bool) (s : State) : Host.Outcome State Fault Refusal :=
  .next (match s.fab.lane with
    | some o =>
      if o.op ≠ 1 ∨ o.lane / 4 ≠ p ∨ (s.port p).lreq.isSome ∨ s.ro? (laneKey o.lane) ≠ 1 then s
      else if ok then announce s p (o.lane % 4) false
      else laneResult ({ s with fab := { s.fab with lane := none } }.setRo (laneKey o.lane) 2) 3
    | none => s)

/-- The packets that wait for a port that is DOWN or disabled are dropped, each counted at the port by which it arrived (R260). -/
def dropQueue (s : State) (p : Nat) : State :=
  let ts := (s.port p).tx
  ts.foldl (fun s t => exportEnd (s.count (kPort (if t.src ≥ 2 ^ 60 then t.src - 2 ^ 60 else p) 8) 1) t) (s.setPort p { s.port p with tx := [] })

/-- LANE_LOSS (R282, R416): a port on four lanes goes on with three, and a change pending there is cut short; one in UP3 is DOWN, and the
loss is a port fault, contained where a reset is under way. -/
def execLaneLoss (lane : Nat) (s : State) : Host.Outcome State Fault Refusal :=
  let p := lane / 4
  let x := s.port p
  .next (if lane ≥ 32 || !(s.pwr.rails == .up && s.pwr.trained && !s.pwr.coldWait) then s
    else if x.st == .up4 then
      let s1 := laneCut (s.setRo (laneKey lane) 2) p
      s1.setPort p { s1.port p with st := .up3, lost := lane % 4 }
    else if x.st == .up3 && x.lost != lane % 4 then
      let s1 := laneCut (s.setRo (laneKey lane) 2) p
      portFault (dropQueue (s1.setPort p { s1.port p with st := .down }) p) p lane
    else s)

end Sys2Proof.Machine
end

