-- ==== Sys2Proof/Machine/Transfers.lean ====
section
/-!
DEFINITION. Transfers (R261 to R268, R272): XFER items, what WRITE, RADD and SIGNAL packets do at their destination, combining groups and
trees.
-/

namespace Sys2Proof.Machine

/-! ## What a packet does at its destination (R263) -/

/-- The attempt that a step number from the fabric takes here. -/
def attFor (s : State) (d st : Nat) : Nat := if (s.stp d).order != .none && (s.stp d).no % 65536 == st % 65536 then (s.stp d).att % 16 else 0

/-- The block whose non-finite bit a packet's faulty line sets: the lowest of the domain's program. -/
def faultBlk (s : State) (d : Nat) : Nat := (progBlocks s d).headD 0

/-- The number of a packet's transfer among the sources of held accesses: domain, source coordinate, XID. -/
def transferSrc (k : Packet) : Nat := 2 ^ 40 + k.dom * 2 ^ 28 + k.src * 2 ^ 16 + k.xid

/-- The signal of a transfer: posted when its LAST packet has been stored, which accesses of the transfer that are held put off (R263). -/
def postSignal (s : State) (k : Packet) : State :=
  if k.last && k.sigEn && k.sigBlk < 24 then
    let g : Sig := { blk := k.sigBlk, ctr := k.sigCtr, step := k.step, att := attFor s k.dom k.step }
    if s.back.held.any (fun h => h.src == transferSrc k) then { s with back := { s.back with sigq := s.back.sigq ++ [(transferSrc k, g)] } }
    else { s with sigs := s.sigs ++ [g] }
  else s

/-- Adds of fabric data at a module address, of the transfer `src`, with a deposit counted or not; one that meets a poisoned word of its slot
is reported by the slice's block (R18). -/
def fabricAdds (s : State) (d src st ex a : Nat) (counts : Bool) (bs : List Byte) : State :=
  let p := addParts s d a bs
  guardReads s d (addReads s d a bs.length) (depositAdds s (faultBlk s d) src st (attFor s d st) ex counts p.1 p.2)

/-- A packet stored in a cell's slice: a progress event in the cell's block (R343; DESIGN CHOICE, log entry 115). -/
def storedBy (s : State) (k : Packet) : State :=
  match maLoc s k.dom k.addr with
  | .slot n _ => progress s (blkOfCell (keyCell n))
  | .pa a => if 0x8000000000 ≤ a then progress s (blkOfCell ((a - 0x8000000000) / 2 ^ 24)) else s
  | _ => s

/-- A WRITE, RADD or SIGNAL packet performed here. -/
def performPacket (s : State) (k : Packet) : State :=
  let s1 := if k.ty = 0x01 then stBytes s (faultBlk s k.dom) k.dom (transferSrc k) k.addr k.data
    else if k.ty = 0x02 then fabricAdds s k.dom (transferSrc k) k.step k.dexp k.addr k.slotLast k.data
    else s
  postSignal (if k.ty = 0x03 then s1 else storedBy s1 k) k

/-- The first packet of a class that is for this module and of a given type: a packet that R273 no longer lets in is dropped and counted. -/
def onPacket (s : State) (p cls ty : Nat) (f : State → Packet → State) : State :=
  if p ≥ 8 || !alive s (regOfPort p) || !dataUp s then s
  else match rxOf s p cls with
    | [] => s
    | k :: _ =>
      if k.ty ≠ ty ∨ k.dst ≠ fabCoord s (regOfPort p) then s
      else if k.current s then f (takeRx s p cls 0) k
      else (takeRx s p cls 0).count (kPort p 7) 1

/-- PKT_WRITE (R263). -/
def execPktWrite (p cls : Nat) (s : State) : Host.Outcome State Fault Refusal := .next (onPacket s p cls 0x01 performPacket)

/-- PKT_RADD (R263), with the memory events of its additions (R18, R144). -/
def execPktRadd (p : Nat) (cls : Accessed) (s : State) : Host.Outcome State Fault Refusal :=
  .next (onPacket s p cls.n 0x02 (fun t k => performPacket (applyMemEvents t cls.perf) k))

/-- PKT_SIGNAL (R251, R263). -/
def execPktSignal (p cls : Nat) (s : State) : Host.Outcome State Fault Refusal := .next (onPacket s p cls 0x03 performPacket)

/-! ## XFER items (R261, R262) -/

/-- An XFER payload taken apart (Table 9-5). -/
structure XferDesc where
  op : Nat
  toRoot : Bool
  consume : Bool
  bulk : Bool
  dst : Nat
  grp : Nat
  xid : Nat
  len : Nat
  dexp : Nat
  rsig : Bool
  rblk : Nat
  rctr : Nat
  src : Nat
  addr : Nat

def xferOf (w : Nat) : XferDesc :=
  { op := bits w 255 248, toRoot := bit w 247, consume := bit w 246, bulk := bit w 245, dst := bits w 239 228, grp := bits w 227 226
    xid := bits w 223 208, len := bits w 207 184 * 256, dexp := bits w 183 168, rsig := bit w 167, rblk := bits w 166 162
    rctr := bits w 161 152, src := bits w 143 104, addr := bits w 103 64 }

/-- A range cut at every 16 KiB boundary of the destination offset: offset, address and length of each piece. -/
def cut16k : Nat → Nat → Nat → Nat → List (Nat × Nat × Nat)
  | 0, _, _, _ => []
  | fuel + 1, off, a, n =>
    if n = 0 then []
    else
      let m := min n (16384 - a % 16384)
      (off, a, m) :: cut16k fuel (off + m) (ma (a + m)) (n - m)

/-- Consuming reads of a range of a REDUCE segment, line by line (R134). -/
def consumeRange (s : State) (d a n : Nat) : List Byte × Nat × State :=
  (linesOf a n).foldl (fun r la =>
    match maLoc r.2.2 d la with
    | .slot k off =>
      let x := consumeLine r.2.2 k off
      (r.1 ++ x.1, r.2.1, x.2)
    | _ => (r.1 ++ fill 64 0, r.2.1 + 1, r.2.2)) ([], 0, s)

/-- The source of a transfer read: its bytes and the state after. -/
def readSource (s : State) (b d : Nat) (x : XferDesc) : List Byte × State :=
  if x.consume then
    let r := consumeRange s d x.src x.len
    (r.1, boundEvt r.2.2 b r.2.1)
  else
    let r := ldBytes s d x.src x.len
    (r.1, boundEvt s b r.2)

/-- The packets of a WRITE, RADD or SIGNAL transfer. -/
def xferPackets (s : State) (d : Nat) (x : XferDesc) (data : List Byte) : List Packet :=
  let st := (s.stp d).no % 65536
  let common : List (Nat × Nat) := [(501, b2n x.bulk), (432, st), (412, x.xid), (396, x.dexp), (395, b2n x.rsig), (390, x.rblk), (380, x.rctr)]
  if x.op = 3 then [mkPacket s 3 0 d x.dst ([(500, 1), (499, 1), (336, x.addr)] ++ common) [] []]
  else
    let cs := cut16k (x.len / 256 + 1) 0 x.addr x.len
    (List.range cs.length).map (fun i =>
      let c := cs.getD i (0, 0, 0)
      let isLast := i + 1 == cs.length
      mkPacket s x.op 0 d x.dst ([(500, b2n isLast), (499, b2n (isLast || (c.2.1 + c.2.2) % 65536 == 0)), (336, c.2.1)] ++ common) []
        ((data.drop c.1).take c.2.2))

/-- The step of a domain has started a transfer (R361). -/
def markXfer (s : State) (d : Nat) : State := s.setStp d { s.stp d with xfer := true }

/-- A transfer's packets go to the engine of their first hop; those for this module are performed here. -/
def sendPackets (s : State) (r src : Nat) (ks : List Packet) : State :=
  ks.foldl (fun s k => match hopOf s r k.dst false none with
    | .here => performPacket s k
    | _ => originate s r src k) s

/-- The range of module addresses that a transfer reads. -/
def xferReads (x : XferDesc) : List (Nat × Nat) := if x.op = 3 then [] else [(x.src, x.len)]

/-- The effect of a WRITE, RADD or SIGNAL item. -/
def doXfer (b : Nat) (s : State) (i : Nat) (it : Item) : State :=
  let d := (s.blk b).dom
  let x := xferOf it.xfer
  let r := if x.op = 3 then ([], s) else readSource s b d x
  guardReads s d (xferReads x) (sendPackets (markXfer r.2 d) (b / 6) (srcOf b 17 i) (xferPackets r.2 d x r.1))

/-- Whether an item is a transfer of an operation code. -/
def isXfer (op : Nat) (it : Item) : Bool := it.hdr.kind == 6 && (xferOf it.xfer).op == op

/-- XFER_WRITE (R262). -/
def execXferWrite (b : Nat) (s : State) : Host.Outcome State Fault Refusal := .next (startItem s b 17 (isXfer 1) (doXfer b))

/-- XFER_RADD (R262). -/
def execXferRadd (b : Nat) (s : State) : Host.Outcome State Fault Refusal := .next (startItem s b 17 (isXfer 2) (doXfer b))

/-- XFER_SIGNAL (R261). -/
def execXferSignal (b : Nat) (s : State) : Host.Outcome State Fault Refusal := .next (startItem s b 17 (isXfer 3) (doXfer b))

/-! ## Combining trees (R266 to R268, R362) -/

/-- A tree packet of a chunk to a tree neighbour. -/
def treePacket (s : State) (ty p : Nat) (c : Comb) (data : List Byte) : Packet :=
  mkPacket s ty 2 c.dom (neighbour s (selfCoord s) p)
    [(501, b2n c.bulk), (500, b2n c.last), (499, b2n c.slotLast), (432, c.step), (430, c.grp), (412, c.xid), (396, c.dexp), (380, c.sig),
     (336, c.addr)] [] data

/-- The non-finite bit of a block of a domain (R267, R361). -/
def domNonfin (s : State) (d : Nat) : State := setNonfin s (faultBlk s d) true

/-- A completed sum at the root (R268): deposited, one deposit for each slot, and, in mode ALL, sent down. -/
def atRoot (s : State) (c : Comb) (sum : List Byte) : State :=
  let k := treePacket s 0x11 0 c sum
  let s1 := postSignal (fabricAdds s c.dom (transferSrc k) c.step c.dexp c.addr c.slotLast sum) k
  if c.root then s1
  else (childPorts s c.grp).foldl (fun s p => toNeighbour s p c.src (treePacket s 0x11 p c sum)) s1

/-- The sum of a chunk: the member's own, then its children's in ascending port order (R266). -/
def combSum (c : Comb) (ports : List Nat) : List Byte :=
  ports.foldl (fun a p => match c.kids.find? (fun k => k.1 == p) with
    | some k => addWords a k.2
    | none => a) (c.own.getD [])

/-- A chunk that has been combined goes on: up as one TUP packet, or, at the root, down. The pair is kept among the last 64 completed. -/
def chunkDone (s : State) (c : Comb) (sum : List Byte) : State :=
  let alu := aluPort s c.grp
  let mine := (s.fab.done.filter (fun x => x.2.2 == alu)).take 63
  let others := s.fab.done.filter (fun x => x.2.2 != alu)
  let s1 := { s with fab := { s.fab with done := (c.xid + 65536 * c.step, c.addr, alu) :: mine ++ others } }
  match parentPort s c.grp (selfCoord s) with
  | some p => toNeighbour s1 p c.src (treePacket s 0x10 p c sum)
  | none => atRoot s1 c sum

/-- The entries that are allocated: the first 64 of an ALU (R267). -/
def allocated (s : State) (c : Comb) : Bool :=
  ((s.fab.combs.filter (fun x => aluPort s x.grp == aluPort s c.grp)).take 64).contains c

/-- Entries that hold every contribution are sent on and freed, as far as they go. -/
def combRun : Nat → State → State
  | 0, s => s
  | fuel + 1, s =>
    match s.fab.combs.find? (fun c => allocated s c && c.own.isSome && (childPorts s c.grp).all (fun p => c.kids.any (fun k => k.1 == p))) with
    | none => s
    | some c =>
      combRun fuel (chunkDone { s with fab := { s.fab with combs := s.fab.combs.erase c } } c (combSum c (childPorts s c.grp)))

/-- The chunks of a TREE transfer. -/
def treeChunks (s : State) (d src : Nat) (x : XferDesc) (data : List Byte) : List Comb :=
  let cs := cut16k (x.len / 256 + 1) 0 x.addr x.len
  (List.range cs.length).map (fun i =>
    let c := cs.getD i (0, 0, 0)
    { dom := d, grp := x.grp, xid := x.xid, root := x.toRoot, len := c.2.2, addr := c.2.1, dexp := x.dexp, bulk := x.bulk
      step := (s.stp d).no % 65536, src := src, last := i + 1 == cs.length
      slotLast := i + 1 == cs.length || (c.2.1 + c.2.2) % 65536 == 0, sig := 32768 * b2n x.rsig + 1024 * x.rblk + x.rctr
      own := some ((data.drop c.1).take c.2.2), kids := [] })

/-- A group of one is its own root: one deposit for each slot of the transfer (R272). -/
def ownTree (s : State) (d : Nat) (x : XferDesc) (data : List Byte) : State :=
  let p := addParts s d x.addr data
  let k := mkPacket s 3 0 d 0 [(500, 1), (432, (s.stp d).no % 65536), (412, x.xid), (380, 32768 * b2n x.rsig + 1024 * x.rblk + x.rctr)] [] []
  guardReads s d (addReads s d x.addr data.length)
    (postSignal (depositAdds s (faultBlk s d) (transferSrc k) ((s.stp d).no % 65536) ((s.stp d).att % 16) x.dexp true p.1 p.2) k)

/-- The effect of a TREE item: a domain without a group deposits its own chunks; a marked attempt sends them upward at once (R272, R362). -/
def doTree (b : Nat) (s : State) (i : Nat) (it : Item) : State :=
  let d := (s.blk b).dom
  let x := xferOf it.xfer
  let r := readSource s b d x
  let s1 := markXfer r.2 d
  guardReads s d (xferReads x) (match grpOfDom s d with
    | none => ownTree s1 d x r.1
    | some _ =>
      let cs := treeChunks s1 d (srcOf b 17 i) x r.1
      if (s1.stp d).marked then cs.foldl (fun s c => chunkDone s c (c.own.getD [])) s1
      else combRun (s1.fab.combs.length + cs.length) { s1 with fab := { s1.fab with combs := s1.fab.combs ++ cs } })

/-- XFER_TREE (R267, R272). -/
def execXferTree (b : Nat) (s : State) : Host.Outcome State Fault Refusal := .next (startItem s b 17 (isXfer 16) (doTree b))

/-- What becomes of a TUP packet: 0 it waits for its entry, 1 combined, 2 combined with a mismatch, 3 dropped and counted with the
non-finite bit, 4 dropped and counted. -/
def tupFate (s : State) (p : Nat) (k : Packet) : Nat × Option Comb :=
  let mine := s.fab.combs.filter (fun c => c.dom == k.dom && c.grp == k.grp && c.xid == k.xid && c.step == k.step)
  let open' := mine.filter (fun c => !c.kids.any (fun x => x.1 == p))
  match open'.find? (fun c => c.addr == k.addr) with
  | some c => if !allocated s c then (0, none) else if c.len = 256 * k.nfl then (1, some c) else (2, some c)
  | none =>
    if (s.stp k.dom).marked && (s.stp k.dom).no % 65536 == k.step then (4, none)
    else if s.fab.done.any (fun x => x.1 == k.xid + 65536 * k.step && x.2.1 == k.addr && x.2.2 == aluPort s k.grp) then (3, none)
    else match open' with
      | c :: _ => if allocated s c then (2, some c) else (0, none)
      | [] => (0, none)

/-- A child's chunk taken into its entry. -/
def tupInto (s : State) (p : Nat) (k : Packet) (c : Comb) : State :=
  let data := (k.data ++ fill c.len 0).take c.len
  let combs := s.fab.combs.map (fun x => if x == c then { x with kids := x.kids ++ [(p, data)] } else x)
  combRun combs.length { s with fab := { s.fab with combs := combs } }

/-- The n-th packet of the combine buffer of a port that has a given type. -/
def combineOf (s : State) (p : Nat) (ok : Packet → Bool) : Option (Nat × Packet) :=
  let l := rxOf s p 2
  ((List.range l.length).zip l).find? (fun x => x.2.dst == fabCoord s (regOfPort p) && ok x.2)

/-- A combine packet of a type at a port: performed by `f` after it has left the buffer. -/
def onCombine (s : State) (p : Nat) (ok : Packet → Bool) (f : State → Packet → State) : State :=
  if p ≥ 8 || !alive s (regOfPort p) || !dataUp s then s
  else match combineOf s p ok with
    | none => s
    | some (n, k) => if k.current s then f (takeRx s p 2 n) k else (takeRx s p 2 n).count (kPort p 7) 1

/-- TUP (R267, R362): the first chunk that does not wait, with the memory events of what it completes (R18, R144). -/
def execTup (port : Accessed) (s : State) : Host.Outcome State Fault Refusal :=
  let p := port.n
  .next (onCombine s p (fun k => k.ty == 0x10 && (!k.current s || (tupFate s p k).1 != 0)) (fun t0 k =>
    let t := applyMemEvents t0 port.perf
    match tupFate s p k with
    | (1, some c) => tupInto t p k c
    | (2, some c) => tupInto (domNonfin (t.count (kXchg 2) 1) k.dom) p k c
    | (3, _) => domNonfin (t.count (kXchg 2) 1) k.dom
    | (4, _) => t.count (kXchg 2) 1
    | _ => t))

/-- TDOWN (R268): deposited here and forwarded to the children, changed only in the DST of the hop; with the memory events of its additions
(R18, R144). -/
def execTdown (port : Accessed) (s : State) : Host.Outcome State Fault Refusal :=
  .next (onCombine s port.n (fun k => k.ty == 0x11) (fun t0 k =>
    let t := applyMemEvents t0 port.perf
    let t1 := postSignal (fabricAdds t k.dom (transferSrc k) k.step k.dexp k.addr k.slotLast k.data) k
    (childPorts t k.grp).foldl (fun u q =>
      toNeighbour u q 0 { k with hdr := setBits k.hdr 475 464 (neighbour u (selfCoord u) q) }) t1))

/-- Waiting TUP packets of a step that has ended are dropped and counted (R362). -/
def dropTups (d st : Nat) (s : State) (p : Nat) : State :=
  let mine (k : Packet) : Bool := k.ty == 0x10 && k.dom == d && k.step == st % 65536
  (rxOf s p 2).foldl (fun s _ => match (rxOf s p 2).findIdx? mine with
    | some i => (takeRx s p 2 i).count (kXchg 2) 1
    | none => s) s

end Sys2Proof.Machine
end

