-- ==== Sys2Proof/Machine/Commit.lean ====
section
/-!
DEFINITION. The end of a step (R30, R31, R52, R66, R84, R161, R169, R174, R206, R232 to R241, R275, R305, R308): the clip pass, replica
signatures, commit walks, headers, factor maps, Grader outcomes, the loss scale, held FREEZE commands, the start of a daily.
-/

namespace Sys2Proof.Machine

/-! ## The block's check and report (R161, R169) -/

/-- Whether every item of a block's lists has completed. -/
def itemsDone (s : State) (b : Nat) : Bool :=
  (List.range 18).all (fun l => (List.range (listOf s b l).length).all (fun i => ((s.blk b).item l i).st == .done))

/-- The orphans of a block (R169): bindings of its slices with the domain, step and attempt that run. -/
def orphans (s : State) (b : Nat) : List (Nat × Bind) :=
  let k := s.blk b
  s.binds.filter (fun e => blkOfCell (keyCell e.1) == b && keyDom e.1 == k.dom && e.2.step == k.step % 65536 && e.2.att == k.att)

/-- Orphans are zeroed, unbound and counted; any of them sets the non-finite bit. -/
def dropOrphans (s : State) (b : Nat) : State :=
  (orphans s b).foldl (fun s e => (setNonfin (unbind (zeroRange s (slotBase s e.1 e.2) 65536) e.1) b true).count (kSeqPerf b 7) 1) s

/-- The block reports (R161): PHASE is REPORTED. -/
def reportBlock (s : State) (b : Nat) : State :=
  let s1 := dropOrphans s b
  let d := (s1.blk b).dom
  let s2 := s1.setBlk b { s1.blk b with phase := .reported, wdt := 0 }
  s2.setStp d { s2.stp d with reported := mset (s2.stp d).reported b }

/-- The module's flag: OR of its blocks' non-finite bits. -/
def treeF (s : State) (d : Nat) : Bool := (progBlocks s d).any (fun b => (s.blk b).nonfin)

/-- The module's norm: the blocks' partials added in the order of global block numbers (R30). -/
def treeN (s : State) (d : Nat) : Word := (progBlocks s d).foldl (fun a b => (add32 a (s.blk b).norm).1) 0

/-- The blocks wait for the outcome; their non-finite bits have been taken. -/
def awaitBlocks (s : State) (d : Nat) : State :=
  (progBlocks s d).foldl (fun s b => s.setBlk b { s.blk b with phase := .awaiting, nonfin := false }) s

/-! ## The layers of a block -/

/-- The PASS descriptor of a layer in a block's lists of the running list set. -/
def layerPass (s : State) (b layer : Nat) : Option PassDesc :=
  ((listOf s b 16).filter (fun it => it.hdr.kind == 4 && it.pass.opc == 0x41)).map Item.pass |>.find? (fun p => p.layer == layer)

/-- The pages of a commit list entry that lie in a block, as slot numbers (R236, R242). -/
def entrySlots (s : State) (b : Nat) (c : Commit) : List Nat :=
  (List.range c.npage).filter (fun n => blkOfCell (s.dir (c.page0 + n)).owner == b && (s.dir (c.page0 + n)).valid)

/-! ## The clip pass (R233) -/

/-- A page's change scaled: the other reel written again. -/
def clipPage (b : Nat) (c : Word) (s : State) (page : Nat) : State :=
  let e := s.dir page
  let s0 := dailyAside s b page
  let new := ((readReel s0 e e.cur).zip (readReel s0 e e.other)).map (fun x => recBits (clipRec (recOf x.1) (recOf x.2) c))
  (writeReel s0 e e.other new).count (kCutPerf b 7) 1

/-- The slots of a commit list entry whose pages the step has written, and the entries of a block that have any. -/
def writtenSlots (s : State) (b : Nat) (x : Commit) : List Nat := (entrySlots s b x).filter (fun n => (s.dir (x.page0 + n)).pend)
def writtenLayers (s : State) (b : Nat) : List Commit := (s.blk b).commits.filter (fun x => !(writtenSlots s b x).isEmpty)

/-- One layer in the clip pass of a block: every written page, then the working copies of all its pages. -/
def clipLayer (b d : Nat) (c : Word) (s : State) (x : Commit) : State :=
  let ns := entrySlots s b x
  let hit := writtenSlots s b x
  if hit.isEmpty then s
  else
    let s1 := hit.foldl (fun s n => clipPage b c s (x.page0 + n)) s
    match layerPass s b x.layer with
    | none => s1
    | some p => ns.foldl (fun s n =>
        let e := s.dir (x.page0 + n)
        (emitPage s b d 0 p (emitBuf s d p) n (masters (readReel s e (if e.pend then e.other else e.cur)))).1) s1

/-- The page that keeps a block's clip pass waiting: one that it writes, being streamed from the other reel (R277). -/
def clipWait (s : State) (b : Nat) : Option Nat :=
  (s.blk b).commits.findSome? (fun x => ((entrySlots s b x).map (fun n => x.page0 + n)).find? (fun page => (s.dir page).pend && dailyWaits s page))

/-- The reels that a clip pass reads: both of every written page, and the committed one of the other pages of their layers. -/
def clipReels (s : State) (b : Nat) : List (Nat × Nat) :=
  (writtenLayers s b).flatMap (fun x => (entrySlots s b x).flatMap (fun n =>
    let e := s.dir (x.page0 + n)
    (reelAt e e.cur, 0x20000) :: (if e.pend then [(reelAt e e.other, 0x20000)] else [])))

/-- The records that its emissions read. -/
def clipRecs (s : State) (b d : Nat) : List (Nat × Nat) :=
  (writtenLayers s b).flatMap (fun x => match layerPass s b x.layer with
    | some p => emitRecs s d p
    | none => [])

/-- The clip pass of one block's Cutter; it waits where a page that it writes is streamed from the other reel. One that meets a poisoned word
stands as started (R18, R358; DEDUCED, log entry 138). -/
def clipBlock (d : Nat) (c : Word) (s : State) (b : Nat) : State :=
  let s0 := s.setStp d { s.stp d with clipOn := mset (s.stp d).clipOn b }
  if (clipWait s b).isSome then s0
  else
    let s1 := (s.blk b).commits.foldl (clipLayer b d c) (s0.count (kCutPerf b 5) 1)
    guardReads s0 d (clipRecs s b d) (guardPhys s0 (clipReels s b) (s1.setStp d { s1.stp d with clipped := mset (s1.stp d).clipped b }))

/-- The clip pass that a block owes: its step is in order CLIP, and its Cutter has not made it. -/
def owesClip (s : State) (b : Nat) : Bool :=
  let d := (s.blk b).dom
  (s.stp d).order == .clip && !mbit (s.stp d).clipped b && (progBlocks s d).contains b && alive s (b / 6) && dataUp s

/-- DAILY_STREAM_WAIT_END (R277): the page being streamed from the other reel becomes NONE, and the Cutter's write goes on: of a pass, or of
a clip pass. -/
def execDailyStreamWaitEnd (b cycles : Nat) (s : State) : Host.Outcome State Fault Refusal :=
  .next (if owesClip s b then
      let s1 := s.count (kMem 4) cycles
      let s2 := match clipWait s b with
        | some page => setPageState s1 (s.dir page).dom page 0
        | none => s1
      clipBlock (s.blk b).dom (s.stp (s.blk b).dom).c s2 b
    else passStreamEnd s b cycles)

/-- The clip factor of a step (R233): 1.0 in conservative mode and with CUT_CLIP_NORM = 0. -/
def stepClip (s : State) (d : Nat) (n : Word) : Word :=
  let r := faultBlk s d / 6
  let k : Word := BitVec.ofNat 32 (s.lat d r (key 0x7081 1))
  if conservative s d r || eq32 k 0 then 0x3F800000 else clipFactor k n

/-! ## Signatures (R238, R239) -/

/-- CRC of a page of a layer over the records that are committed after the step. -/
def pageSig (s : State) (c : Commit) (n : Nat) : Nat :=
  let e := s.dir (c.page0 + n)
  crc64 (leBytes 4 n ++ s.rdBytes (reelAt e (if e.pend then e.other else e.cur)) 0x20000)

/-- The signatures of the layers that carry one: slot and XOR of page CRCs, per block and layer. -/
def blockSigs (s : State) (b : Nat) : List (Nat × Nat) :=
  (s.blk b).commits.filterMap (fun c => match layerPass s b c.layer with
    | some p => if p.sigEn then some (p.sigSlot, (entrySlots s b c).foldl (fun a n => a ^^^ pageSig s c n) 0) else none
    | none => none)

/-- The module's signature of each slot that it holds, slots ascending. -/
def moduleSigs (s : State) (d : Nat) : Sparse Nat :=
  ((progBlocks s d).flatMap (blockSigs s)).foldl (fun l x => spPut l x.1 ((spFind l x.1).getD 0 ^^^ x.2)) []

/-- The data of an XSIG packet for slots from `lo` (R239, R270). -/
def sigData (sigs : Sparse Nat) (lo : Nat) : List Byte :=
  (List.range 512).flatMap (fun i => match spFind sigs (lo + i) with
    | some v => leBytes 8 v ++ leBytes 8 v ++ leBytes 2 1
    | none => fill 8 0xFF ++ fill 10 0)

/-- The slots found divergent in one half's result (R239). -/
def divergent (res : List Byte) (lo : Nat) : List Nat :=
  (List.range 512).filterMap (fun i =>
    let x := (res.drop (18 * i)).take 18
    if leNat (x.drop 16) ≥ 2 ∧ x.take 8 ≠ (x.drop 8).take 8 then some (lo + i) else none)

/-- The signatures in one half's data as a member enters it. -/
def sigsIn (data : List Byte) (lo : Nat) : Sparse Nat :=
  (List.range 512).filterMap (fun i =>
    let x := (data.drop (18 * i)).take 18
    if leNat (x.drop 16) = 0 then none else some (lo + i, leNat (x.take 8)))

/-- The reels that the signatures of a domain's blocks read. -/
def sigReels (s : State) (d : Nat) : List (Nat × Nat) :=
  (progBlocks s d).flatMap (fun b => (s.blk b).commits.flatMap (fun c => match layerPass s b c.layer with
    | some p => if p.sigEn then (entrySlots s b c).map (fun n =>
        let e := s.dir (c.page0 + n)
        (reelAt e (if e.pend then e.other else e.cur), 0x20000)) else []
    | none => []))

/-- The divergence entries and CUT_SIG set from the exchange (R239), with the module's own signatures. -/
def applySigs (s : State) (d : Nat) (sigs : Sparse Nat) (lo hi : List Byte) : State :=
  let ds := divergent lo 0 ++ divergent hi 512
  let s1 := (((s.setRo (key 0x7090 0) ds.length).setRo (key 0x7090 1) (ds.headD 0xFFFF)).count (key 0x7090 2) ds.length)
  let s2 := sigs.foldl (fun s x => s.setRo (key (0x7091 + x.1 / 256) (x.1 % 256)) x.2) s1
  if ds.isEmpty then s2 else s2.setStp d { s2.stp d with dv := true }

/-! ## The walk (R236) -/

/-- One page at the token. -/
def walkPage (b no : Nat) (commit : Bool) (s : State) (page : Nat) : State :=
  let e := s.dir page
  if e.pend then
    (s.setDir page (if commit then { e with reel := !e.reel, pend := false, version := no % 2 ^ 32 } else { e with pend := false })).count
      (kCutPerf b 6) 1
  else s

/-- The walk of one block's Cutter. -/
def walkBlock (d : Nat) (s : State) (b : Nat) : State :=
  let st := s.stp d
  let s1 := (s.blk b).commits.foldl (fun s c =>
    (entrySlots s b c).foldl (fun s n => walkPage b st.no (st.outcome == 1) s (c.page0 + n)) s) s
  s1.setStp d { s1.stp d with walked := mset (s1.stp d).walked b }

/-! ## Headers, factor maps, Graders (R84, R174, R206) -/

/-- A working-copy header at the token (R174, R228). -/
def headerToken (d : Nat) (s : State) (h : Nat) : State :=
  let x := s.hdr d h
  let st := s.stp d
  let commit := st.outcome == 1
  let s1 := if commit && x.epend then
      match bufRec s d (x.seg (x.vcur + 1)) with
      | some a => modRec s (recBlk s d a) d a (fun w => recClose w st.no st.att (legacy s d && bit w 283))
      | none => s
    else s
  s1.setHdr d h { x with
    vprev := x.vcur, vcur := if commit then (x.vcur + b2n x.epend) % 2 ^ 32 else x.vcur, epend := false }

/-- The factor maps that a step's items or the program's problems name. -/
def factorMaps (s : State) (d : Nat) : List Nat :=
  let its := (progBlocks s d).flatMap (fun b => (List.range 16).flatMap (listOf s b))
  ((its.filter (fun it => needsArrays it && it.tile.drain == 2)).map (fun it => it.tile.fmapAddr)
    ++ (s.prog d).problems.flatMap (fun p => p.blks.map entFmap)).eraseDups

/-- A factor map header at the token (R84): acted on by its holder where PENDING is set. An incomplete gathering is
counted in ARR_PERF.05 at a skipped step too (DESIGN CHOICE, log entry 99). -/
def factorToken (d : Nat) (s : State) (a : Nat) : State :=
  let h := (ldNat s d a 8).1
  if bit h 62 then
    let nb := bits h 47 32
    let full := bits h 31 0 == nb * (nb + 1) / 2
    let cur := if full && (s.stp d).outcome == 1 then 1 - b2n (bit h 63) else b2n (bit h 63)
    let w := setBits (setBits (setBits (setBits h 63 63 cur) 62 62 0) 31 0 0) 55 48 ((bits h 55 48 + 1) % 256)
    let b := recBlk s d a
    (stBytes s b d 0 a (leBytes 8 w)).countIf (!full) (kArrPerf b 5)
  else s

/-- A result header with AGE and FEED_AGE raised by a commit (R206). -/
def ageHdr (h : Nat) : Nat :=
  setBits (setBits h 495 480 (min (bits h 495 480 + 1) 0xFFFF)) 463 448 (min (bits h 463 448 + 1) 0xFFFF)

/-- The largest of FP32 values; 0 of none. -/
def largest32 : List Word → Word
  | [] => 0
  | w :: l => l.foldl (fun m x => (max32 m x).1) w

/-- A pending publication applied to a result header (R204, R206, Table 7-6): the figures are those of every block of the new current result,
carried ones included. -/
def pubHdr (h : Nat) (p : Pub) : Nat :=
  let fa := bits h 463 448
  let age := if p.carried then max fa (bits h 495 480) else fa
  let top (f : Fig → Nat) : Nat := p.figs.foldl (fun m x => max m (f x)) 0
  let piv := (p.figs.map (·.pivots)).sum
  let ovf := (p.figs.map (·.ovf)).sum
  pack [(511, 1), (510, 1 - b2n (bit h 510)), (508, b2n (p.figs.all (·.conv))), (507, b2n p.deadline), (506, b2n (piv != 0)), (505, b2n (ovf != 0))
       , (504, b2n p.mismatch), (503, b2n (p.figs.any (·.cold))), (480, age), (472, top (·.iters) % 256), (470, top (·.retries) % 4), (448, fa)
       , (416, p.sig), (384, p.resid.toNat), (352, (largest32 (p.figs.map (·.damp))).toNat), (320, (largest32 (p.figs.map (·.mu))).toNat)
       , (288, piv % 2 ^ 32), (256, ovf % 2 ^ 32), (224, (bits h 255 224 + 1) % 2 ^ 32)]

/-- A Grader's slot at the token: ages, then the pending outcome (R206). -/
def slotToken (commit : Bool) (r : Nat) (s : State) (e : Nat × GSlot) : State :=
  let x := e.2
  let d := x.dom
  let b := faultBlk s d
  let h0 := (ldNat s d x.prob.rhdr 64).1
  let h1 := if commit then ageHdr h0 else h0
  let h2 := match x.pub with
    | some p => if p.singular then setBits h1 509 509 1 else pubHdr h1 p
    | none => h1
  let s1 := stBytes s b d 0 x.prob.rhdr (leBytes 64 h2)
  let g := s1.grd r
  let s2 := s1.setGrd r { g with slots := spPut g.slots e.1 { x with
    pub := none, commits := if commit then x.commits + 1 else x.commits
    figs := match x.pub with
      | some p => if p.singular then x.figs else p.figs
      | none => x.figs } }
  match x.pub with
  | some p => (s2.countIf (!p.singular && p.figs.all (·.conv)) (kGrdPerf r 1)).countIf (!p.singular && p.deadline) (kGrdPerf r 2)
  | none => s2

/-- The Graders at a domain's token: the slots of the loaded program. -/
def graderToken (d : Nat) (commit : Bool) (s : State) (r : Nat) : State :=
  ((s.grd r).slots.filter (fun e => e.2.dom == d && e.2.live)).foldl (slotToken commit r) s

/-! ## The loss scale (R52) -/

/-- L and the clean-step counter at a step boundary in legacy scaling mode. -/
def lossToken (s : State) (d : Nat) : State :=
  let r := faultBlk s d / 6
  let e (n : Nat) : Nat := s.lat d r (key 0x7080 n)
  let l : Word := BitVec.ofNat 32 (s.ro? (key 0x7080 1))
  if !legacy s d then s
  else if (s.stp d).outcome = 2 then
    (s.setRo (key 0x7080 1) (max32 (mul32 l 0x3F000000).1 (BitVec.ofNat 32 (e 4))).1.toNat).setRo (key 0x7080 6) 0
  else if s.ro? (key 0x7080 6) + 1 = e 3 then
    (s.setRo (key 0x7080 1) (min32 (mul32 l 0x40000000).1 (BitVec.ofNat 32 (e 5))).1.toNat).setRo (key 0x7080 6) 0
  else s.setRo (key 0x7080 6) (s.ro? (key 0x7080 6) + 1)

/-! ## FREEZE (R227, R299) -/

/-- FROZEN of the domain's pages in a range set or cleared. -/
def applyFreeze (s : State) (d desc : Nat) : State :=
  let w := dw desc 1
  (List.range (bits w 15 0)).foldl (fun s n =>
    let page := bits w 52 32 + n
    let e := s.dir page
    if e.valid && e.dom == d then s.setDir page { e with frozen := bit w 63 } else s) s

/-- The contexts of a domain that hold a running command of an opcode. -/
def runningCmds (s : State) (d opc : Nat) : List (Nat × Cmd) :=
  s.cp.ctxs.filterMap (fun e => match e.2.cmd with
    | some c => if c.dom == d && c.admitted && c.fin == .running && dOpc c.desc == opc then some (e.1, c) else none
    | none => none)

/-- The held FREEZE commands are applied after the walk. -/
def freezeToken (s : State) (d : Nat) : State :=
  (runningCmds s d 0x32).foldl (fun s e => endCmd (applyFreeze s d e.2.desc) e.1 0 0 []) s

/-! ## The start of a daily (R275) -/

/-- A daily that is due at the commit of step `no` starts, or is counted where one is running. -/
def dailyToken (s : State) (d no : Nat) : State :=
  let n := s.live (key (0x5100 + d) 0)
  if n = 0 ∨ no % n ≠ 0 then s
  else if (s.day d).running then s.count (key (0x5100 + d) 7) 1
  else
    let st := (s.prog d).pages.foldl (fun l r => spSet zeroNat l r.page 1) []
    s.setDay d { s.day d with running := true, s := no % 2 ^ 32, states := st, engines := 0 }

/-! ## The end (R299, R305, R308) -/

/-- The bytes of RES_SRC at step end; zeros where R124 gives none. -/
def resBytesOf (s : State) (d desc : Nat) : List Byte :=
  let a := bits (dw desc 3) 39 0
  let n := bits (dw desc 4) 11 0
  if (segAt s d a).kind == 2 then fill n 0 else (ldBytes s d a n).1

/-- The step payload (Table 10-14). -/
def stepPayload (s : State) (d desc : Nat) : List Byte :=
  let st := s.stp d
  let layers := ((st.fell.map (· % 2 ^ 20)).eraseDups).length
  let l := if legacy s d then s.ro? (key 0x7080 1) else 0x3F800000
  leBytes 4 st.no ++ leBytes 1 st.outcome ++ leBytes 1 (st.att + 1) ++ leBytes 1 (b2n st.f) ++ leBytes 1 0 ++ leBytes 4 st.n.toNat
    ++ leBytes 4 st.c.toNat ++ leBytes 4 (s.ro? (key 0x7090 0)) ++ leBytes 2 (s.ro? (key 0x7090 1)) ++ leBytes 2 layers ++ leBytes 4 l
    ++ fill 100 0 ++ resBytesOf s d desc

/-- The blocks of a program return to IDLE. -/
def idleBlocks (s : State) (d : Nat) : State :=
  (progBlocks s d).foldl (fun s b => s.setBlk b { s.blk b with phase := .idle, items := [], norm := 0, wdt := 0 }) s

/-- Order 7 of Table 8-6 done in full: the step ends, NEXT_STEP advances, the command ends. -/
def finishStep (s : State) (d : Nat) : State :=
  let st := s.stp d
  let commit := st.outcome == 1
  let s1 := ((s.prog d).hdrs.map (·.1)).foldl (headerToken d) s
  let s2 := (factorMaps s1 d).foldl (factorToken d) s1
  let s3 := (List.range 4).foldl (graderToken d commit) s2
  let s4 := lossToken s3 d
  let s5 := freezeToken s4 d
  let s6 := if commit then clearSuspect (dailyToken s5 d st.no) d else s5
  let s7 := (List.range 8).foldl (dropTups d st.no) s6
  let pay := match (s7.ctx st.ctx).cmd with
    | some c => stepPayload s7 d c.desc
    | none => []
  let s8 := s7.setDom d { s7.dom d with nextStep := (st.no + 1) % 2 ^ 32 }
  let s9 := modCmd s8 st.ctx (fun c => { c with stepNo := st.no, attempt := st.att, rst := st.rst, dv := st.dv })
  let s10 := idleBlocks (endCmd s9 st.ctx (if commit then 0 else 1) 0 pay) d
  s10.setStp d { s10.stp d with order := .none }

/-- Whether every Grader that holds slots of a domain is in service: one that resets works through its slots when it has left reset (R206). -/
def gradersUp (s : State) (d : Nat) : Bool :=
  (List.range 4).all (fun r => alive s r || !(s.grd r).slots.any (fun e => e.2.dom == d && e.2.live))

/-- What the end of a step reads: the records of the buffers that it closes, factor map headers, result headers, RES_SRC. -/
def finishReads (s : State) (d : Nat) : List (Nat × Nat) :=
  let st := s.stp d
  ((s.prog d).hdrs.flatMap (fun h => let x := s.hdr d h.1
    if st.outcome == 1 && x.epend then segRecs s d (x.seg (x.vcur + 1)) else []))
    ++ (factorMaps s d).map (fun a => (a, 8))
    ++ (List.range 4).flatMap (fun r => ((s.grd r).slots.filter (fun e => e.2.dom == d && e.2.live)).map (fun e => (e.2.prob.rhdr, 64)))
    ++ (match (s.ctx st.ctx).cmd with
      | some c => [(bits (dw c.desc 3) 39 0, bits (dw c.desc 4) 11 0)]
      | none => [])

/-- The step ends when every Cutter of the program has walked and every Grader of its slots has taken the token. A read that meets a poisoned
word puts the end off until its region is back (R18). -/
def tryFinish (s : State) (d : Nat) : State :=
  if (s.stp d).order == .decided && (progBlocks s d).all (fun b => mbit (s.stp d).walked b) && gradersUp s d then
    guardReads s d (finishReads s d) (finishStep s d)
  else s

/-- The token (R31, R234): the Cutters that are in service walk; the others when they leave reset. -/
def token (s : State) (d outcome : Nat) : State :=
  let st := s.stp d
  let s1 := s.setStp d { st with order := .decided, outcome := outcome, walked := 0 }
  let s2 := s1.setRo (key 0x7081 5) (outcome * 2 ^ 30 + st.no % 65536)
  tryFinish (((progBlocks s2 d).filter (fun b => alive s2 (b / 6))).foldl (walkBlock d) s2) d

/-- F and N have arrived (R232 to R235): the skip token, the clip pass, or the signature exchange (order SIG). -/
def decide' (s : State) (d : Nat) (f : Bool) (n : Word) : State :=
  let c : Word := if f then 0x3F800000 else stepClip s d n
  let clips := !f && lt32 c 0x3F800000
  let s1 := ((s.setStp d { s.stp d with f := f, n := n, c := if clips then c else 0x3F800000 }).setRo (key 0x7081 3) n.toNat).setRo
    (key 0x7081 4) (if clips then c.toNat else 0x3F800000)
  if f then token s1 d 2
  else if clips then
    let s2 := s1.setStp d { s1.stp d with order := .clip, clipped := 0, clipOn := 0 }
    (progBlocks s2 d).foldl (fun s b => if alive s (b / 6) then clipBlock d c s b else s) s2
  else s1.setStp d { s1.stp d with order := .sig }

end Sys2Proof.Machine
end

