-- ==== Sys2Proof/Machine/Exchange.lean ====
section
/-!
DEFINITION. The flag and norm exchange and the signature exchange at the end of a step (R30, R161, R232, R234, R239, R269 to R272).
-/

namespace Sys2Proof.Machine

/-! ## Contributions (R266, R269, R270) -/

/-- The three combinations of a domain: flag and norm, signatures of slots 0 to 511, signatures of slots 512 to 1,023. -/
inductive XKind where
  | norm | lo | hi
  deriving DecidableEq, Repr

def Xch.at (x : Xch) : XKind → Xc
  | .norm => x.norm
  | .lo => x.sigLo
  | .hi => x.sigHi

def Xch.put (x : Xch) (k : XKind) (c : Xc) : Xch :=
  match k with
  | .norm => { x with norm := c }
  | .lo => { x with sigLo := c }
  | .hi => { x with sigHi := c }

/-- Packet type that goes toward the root, and back. -/
def XKind.up : XKind → Nat
  | .norm => 0x20
  | .lo => 0x22
  | .hi => 0x22
def XKind.down : XKind → Nat
  | .norm => 0x21
  | .lo => 0x23
  | .hi => 0x23

/-- N and F as they stand inline (Table 9-4). -/
def normData (f : Bool) (n : Word) : List Byte := leBytes 4 n.toNat ++ leBytes 1 (b2n f)
def dataN (bs : List Byte) : Word := BitVec.ofNat 32 (leNat (bs.take 4))
def dataF (bs : List Byte) : Bool := leNat ((bs.drop 4).take 1) % 2 == 1

/-- Flags by OR, norms by FP32 addition. -/
def combNorm (a b : List Byte) : List Byte := normData (dataF a || dataF b) (add32 (dataN a) (dataN b)).1

/-- One signature slot: AND, OR, count saturating at 0xFFFF. -/
def combSlot (a b : List Byte) : List Byte :=
  leBytes 8 (leNat (a.take 8) &&& leNat (b.take 8)) ++ leBytes 8 (leNat ((a.drop 8).take 8) ||| leNat ((b.drop 8).take 8))
    ++ leBytes 2 (min (leNat ((a.drop 16).take 2) + leNat ((b.drop 16).take 2)) 0xFFFF)

/-- 512 signature slots of 18 bytes. -/
def combSig (a b : List Byte) : List Byte :=
  (List.range 512).flatMap (fun i => combSlot ((a.drop (18 * i)).take 18) ((b.drop (18 * i)).take 18))

def combData : XKind → List Byte → List Byte → List Byte
  | .norm => combNorm
  | .lo => combSig
  | .hi => combSig

/-- An exchange packet to a tree neighbour. The second packet of a signature pair is the LAST of the two. -/
def xPacket (s : State) (d p ty : Nat) (k : XKind) (st : Nat) (data : List Byte) : Packet :=
  let fs : List (Nat × Nat) := [(500, b2n (k != .lo)), (432, st % 65536), (430, (grpOfDom s d).getD 0)]
  let dst := neighbour s (selfCoord s) p
  if k = .norm then mkPacket s ty 2 d dst fs data [] else mkPacket s ty 2 d dst fs [] data

/-- The data of a received exchange packet, and its kind. -/
def xData (k : Packet) : List Byte := if k.ty < 0x22 then k.inl.take 5 else k.data
def xKindOf (k : Packet) : XKind := if k.ty < 0x22 then .norm else if k.last then .hi else .lo

/-- A contribution's entry for a step: the one that stands, or a fresh one where the step is new; none where the step is over. -/
def xcFor (c : Xc) (st : Nat) : Option Xc :=
  if c.step = st then some c
  else if (c.own.isNone && c.kids.isEmpty) || ((st + 65536 - c.step) % 65536 < 32768) then some { xcEmpty with step := st }
  else none

/-! ## Results (R234, R239, R269 to R271) -/

/-- The result has arrived: the exchange watchdog is disarmed. -/
def xArrived (s : State) (d : Nat) : State := (s.setXch d { s.xch d with contributed := none, hung := false }).count (kXchg 0) 1

/-- The last result of a kind kept for the domain (R271). -/
def Xch.keep (x : Xch) (k : XKind) (st : Nat) (data : List Byte) : Xch :=
  match k with
  | .norm => { x with keptNorm := some (st, data) }
  | .lo => { x with keptLo := some (st, data) }
  | .hi => { x with keptHi := some (st, data) }

/-- A kept result, where it is one of step `st`. -/
def keptFor (r : Option (Nat × List Byte)) (st : Nat) : Option (List Byte) :=
  match r with
  | some (n, data) => if n = st then some data else none
  | none => none

/-- The global flag and norm delivered to the module, where it waits for them; the state answers order SIG where the signature exchange
is entered next. -/
def useNorm (s : State) (d : Nat) : State :=
  match keptFor (s.xch d).keptNorm (s.stp d).no with
  | some data => if (s.stp d).order == .norm then decide' (xArrived s d) d (dataF data) (dataN data) else s
  | none => s

/-- The module's own signatures as it has entered them. -/
def ownSigs (x : Xch) : Sparse Nat := sigsIn (x.sigLo.own.getD []) 0 ++ sigsIn (x.sigHi.own.getD []) 512

/-- The signature results delivered to the module, where it waits for them and holds both halves: the commit token is issued. -/
def useSig (s : State) (d : Nat) : State :=
  let no := (s.stp d).no
  match keptFor (s.xch d).keptLo no, keptFor (s.xch d).keptHi no with
  | some lo, some hi => if (s.stp d).order == .sig then token (applySigs (xArrived s d) d (ownSigs (s.xch d)) lo hi) d 1 else s
  | _, _ => s

/-- A result at a member: forwarded to its children, then delivered. -/
def xResult (s : State) (d st : Nat) (k : XKind) (data : List Byte) : State :=
  let s1 := match grpOfDom s d with
    | some g => (childPorts s g).foldl (fun s p => toNeighbour s p 0 (xPacket s d p k.down k st data)) s
    | none => s
  let no := (s1.stp d).no
  let s2 := s1.setXch d ((s1.xch d).keep k (if no % 65536 = st then no else st) data)
  if k = .norm then useNorm s2 d else useSig s2 d

/-- A combination that holds the member's own contribution and every child's goes to the parent; at the root it is the result. -/
def xRun (s : State) (d : Nat) (k : XKind) : State :=
  match grpOfDom s d with
  | none => s
  | some g =>
    let c := (s.xch d).at k
    let ports := childPorts s g
    match c.own with
    | none => s
    | some own =>
      if c.sent || !ports.all (fun p => c.kids.any (fun x => x.1 == p)) then s
      else
        let sum := ports.foldl (fun a p => match c.kids.find? (fun x => x.1 == p) with
          | some x => combData k a x.2
          | none => a) own
        let s1 := s.setXch d ((s.xch d).put k { c with sent := true })
        match parentPort s g (selfCoord s) with
        | some p => toNeighbour s1 p 0 (xPacket s1 d p k.up k c.step sum)
        | none => xResult s1 d c.step k sum

/-- The module's own contribution; a second one of the same step is dropped and counted (R271). -/
def xOwn (s : State) (d : Nat) (k : XKind) (data : List Byte) : State :=
  let st := (s.stp d).no % 65536
  match xcFor ((s.xch d).at k) st with
  | none => s.count (kXchg 1) 1
  | some c =>
    if c.own.isSome then s.count (kXchg 1) 1
    else xRun (s.setXch d { (s.xch d).put k { c with own := some data } with contributed := some s.ticks, hung := false }) d k

/-- The module enters its signatures: order 6 of Table 8-6. A domain without a group is its own result (R272). A read that meets a poisoned word
puts it off until its region is back (R18). -/
def enterSig (s : State) (d : Nat) : State :=
  let sigs := moduleSigs s d
  let lo := sigData sigs 0
  let hi := sigData sigs 512
  guardPhys s (sigReels s d) (match grpOfDom s d with
    | none => token (applySigs s d sigs lo hi) d 1
    | some _ => useSig (xOwn (xOwn s d .lo lo) d .hi hi) d)

/-- What follows F and N at once: the signature exchange, where no clip pass comes first. -/
def afterNorm (s : State) (d : Nat) : State :=
  if (s.stp d).order == .sig && !((s.xch d).sigLo.step == (s.stp d).no % 65536 && (s.xch d).sigLo.own.isSome) then enterSig s d else s

/-- Every block of the program has reported: order 2 of Table 8-6. -/
def enterNorm (s : State) (d : Nat) : State :=
  let f := treeF s d
  let n := treeN s d
  let s1 := awaitBlocks s d
  let s2 := s1.setStp d { s1.stp d with order := .norm }
  match grpOfDom s d with
  | none => afterNorm (decide' s2 d f n) d
  | some _ => afterNorm (useNorm (xOwn s2 d .norm (normData f n)) d) d

/-! ## The rows -/

/-- BLOCK_REPORT (R66, R161, R234): every item of the block has completed. -/
def execBlockReport (b : Nat) (s : State) : Host.Outcome State Fault Refusal :=
  .next (if !(!(s.stp (s.blk b).dom).stopped && dataUp s && alive s (regOfBlk b) && (s.blk b).phase == .running && (s.blk b).pass.isNone && itemsDone s b) then s
    else
      let s1 := reportBlock s b
      let d := (s1.blk b).dom
      if (s1.stp d).order == .running && (progBlocks s1 d).all (fun c => mbit (s1.stp d).reported c) then enterNorm s1 d else s1)

/-- CLIP_PASS_COMPLETE (R234, R358): every Cutter's clip pass is done, and the signature exchange is entered; with the memory events of the
passes and of the signatures (R18, R144). -/
def execClipPassComplete (dom : Accessed) (s : State) : Host.Outcome State Fault Refusal :=
  let d := dom.n
  .next (if dataUp s && (s.stp d).order == .clip && (progBlocks s d).all (fun b => mbit (s.stp d).clipped b && alive s (b / 6)) then
      enterSig ((applyMemEvents s dom.perf).setStp d { s.stp d with order := .sig }) d
    else s)

/-- A child's contribution taken: combined, or dropped and counted as a second one of its step. -/
def xChild (p : Nat) (s : State) (k : Packet) : State :=
  let x := xKindOf k
  match xcFor ((s.xch k.dom).at x) k.step with
  | none => s.count (kXchg 1) 1
  | some c =>
    if c.kids.any (fun y => y.1 == p) then s.count (kXchg 1) 1
    else afterNorm (xRun (s.setXch k.dom ((s.xch k.dom).put x { c with kids := c.kids ++ [(p, xData k)] })) k.dom x) k.dom

/-- A result taken from the parent. -/
def xParent (s : State) (k : Packet) : State := afterNorm (xResult s k.dom k.step (xKindOf k) (xData k)) k.dom

/-- XNORM (R269, R271). -/
def execXnorm (p : Nat) (s : State) : Host.Outcome State Fault Refusal := .next (onCombine s p (fun k => k.ty == 0x20) (xChild p))

/-- XNORM_RES (R232, R269). -/
def execXnormRes (p : Nat) (s : State) : Host.Outcome State Fault Refusal := .next (onCombine s p (fun k => k.ty == 0x21) xParent)

/-- XSIG (R270, R271). -/
def execXsig (p : Nat) (s : State) : Host.Outcome State Fault Refusal := .next (onCombine s p (fun k => k.ty == 0x22) (xChild p))

/-- XSIG_RES (R239, R270). -/
def execXsigRes (p : Nat) (s : State) : Host.Outcome State Fault Refusal := .next (onCombine s p (fun k => k.ty == 0x23) xParent)

end Sys2Proof.Machine
end

