-- ==== Sys2Proof/Machine/Solve.lean ====
section
/-!
DEFINITION. The Grader's arithmetic (R189) and its four methods (R193 to R197), each as a function of the block's
matrix: what an attempt returns, whether a NaN arose, and how many iterations and pivots it took.
-/

namespace Sys2Proof.Machine

/-- A matrix of FP32 patterns, by rows. -/
abbrev Mat := List (List Word)

/-- Element (i, j). -/
def mget (a : Mat) (i j : Nat) : Word := (a.getD i []).getD j 0

/-- A matrix of r rows and c columns from its elements. -/
def mgen (r c : Nat) (f : Nat → Nat → Word) : Mat := (List.range r).map (fun i => (List.range c).map (f i))

/-- 1.0 in FP32. -/
def one32 : Word := 0x3F800000

/-- Plain accumulation of one more product: acc = ftz(fma32(a, b, acc)). -/
def accPlain (acc : Word) (p : Word × Word) : Word := (fma32 p.1 p.2 acc).1

/-- One term of the compensated accumulation (R189): sum and compensation. -/
def accComp (se : Word × Word) (p : Word × Word) : Word × Word :=
  let h := (mul32 p.1 p.2).1
  let l := (fma32 p.1 p.2 (neg32 h)).1
  let s1 := (add32 se.1 h).1
  let z := (sub32 s1 se.1).1
  let t := (add32 (sub32 se.1 (sub32 s1 z).1).1 (sub32 h z).1).1
  (s1, (add32 se.2 (add32 t l).1).1)

/-- Σ of products in ascending order, plain or compensated (R189). Which sums CSUM compensates beside the product elements: DESIGN CHOICE,
log entry 130. -/
def dot32 (csum : Bool) (ps : List (Word × Word)) : Word :=
  if csum then
    let r := ps.foldl accComp (0, 0)
    (add32 r.1 r.2).1
  else ps.foldl accPlain 0

/-- C = A × B, each element over ascending k (R189). -/
def matmul (csum : Bool) (a b : Mat) : Mat :=
  let kk := b.length
  a.map (fun row => (List.range ((b.getD 0 []).length)).map (fun j =>
    dot32 csum ((List.range kk).map (fun k => (row.getD k 0, mget b k j)))))

/-- The transpose. -/
def mtrans (a : Mat) : Mat := mgen (a.getD 0 []).length a.length (fun i j => mget a j i)

/-- Element-wise operation on two matrices. -/
def mzip (f : Word → Word → Word) (a b : Mat) : Mat := (a.zip b).map (fun r => (r.1.zip r.2).map (fun e => f e.1 e.2))

/-- Every element through a function. -/
def mmap (f : Word → Word) (a : Mat) : Mat := a.map (·.map f)

/-- Whether a matrix holds a NaN. -/
def hasNaN (a : Mat) : Bool := a.any (·.any isNaN32)

/-- max|a − identity|; a NaN operand gives NaN. -/
def residual (a : Mat) : Word :=
  let d := (List.range a.length).map (fun i => ((List.range (a.getD i []).length).map (fun j =>
    abs32 (sub32 (mget a i j) (if i = j then one32 else 0)).1)))
  if hasNaN d then nan32 else d.foldl (fun m r => r.foldl (fun x y => if lt32 x y then y else x) m) 0

/-- c × identity. -/
def scaledId (n : Nat) (c : Word) : Mat := mgen n n (fun i j => if i = j then c else 0)

/-- Plain ascending sum. -/
def sum32 (xs : List Word) : Word := xs.foldl (fun a x => (add32 a x).1) 0

/-- Smallest integer q with g ≤ 2^(p q), for a positive finite g (R193). -/
def ceilLog (p : Nat) (g : Word) : Int :=
  match val32 g with
  | .fin _ m e =>
    if m = 0 then Config.solveScale g
    else
      let l := ilog2Q m 1
      let c : Int := l + e + (if m = 2 ^ l.toNat then 0 else 1)
      Int.neg (Int.neg c / (p : Int))
  | _ => Config.solveScale g

/-- The preparation of R193: damping, the damped matrix, and the exponent of c. -/
structure Prep where
  lam : Word
  aHat : Mat
  cExp : Int
  deriving DecidableEq, Repr

/-- max_i A_ii. The signed maximum of R195, not max|diag| of R199 (DESIGN CHOICE, log entry 133). -/
def maxDiag (a : Mat) : Word :=
  match (List.range a.length).map (fun i => mget a i i) with
  | [] => 0
  | d :: ds => ds.foldl (fun x y => (max32 x y).1) d

/-- The damping of R193, before any retry. -/
def damping (rel absD : Word) (a : Mat) : Word :=
  let n := a.length
  let tr := sum32 ((List.range n).map (fun i => mget a i i))
  (add32 absD (mul32 rel (div32 tr (ofInt32 n)).1).1).1

/-- Preparation of a block with a given damping. -/
def prepare (p : Nat) (lam : Word) (a : Mat) : Prep :=
  let n := a.length
  let ah := mgen n n (fun i j => if i = j then (add32 (mget a i j) lam).1 else mget a i j)
  let g := (ah.map (fun r => sum32 (r.map abs32))).foldl (fun x y => (max32 x y).1) 0
  { lam := lam, aHat := ah, cExp := (p : Int) * ceilLog p g }

/-- t^p times m, with the products of R194. -/
def powMul (cs : Bool) (p : Nat) (t m : Mat) : Mat :=
  if p = 1 then matmul cs t m
  else
    let s := matmul cs t t
    if p = 2 then matmul cs s m else matmul cs (matmul cs s s) m

/-- What one attempt on a block leaves. -/
structure Attempt where
  res : Mat
  resid : Word
  failedNaN : Bool
  conv : Bool
  iters : Nat
  cold : Bool
  warmRejected : Bool
  pivots : Nat
  mu : Word
  deriving DecidableEq, Repr

/-- The loop of R194 from (x, m) with the best iterate so far: neither holds a NaN. One that arises fails the attempt (R198). -/
def nsLoop (cs : Bool) (p : Nat) (tol : Word) : Nat → Nat → Mat → Mat → Mat → Word → Attempt
  | 0, it, _, _, best, br =>
    { res := best, resid := br, failedNaN := false, conv := !lt32 tol br, iters := it, cold := false
      warmRejected := false, pivots := 0, mu := 0 }
  | fuel + 1, it, x, m, best, br =>
    let n := m.length
    let inv := pow2_32 (if p = 1 then 0 else if p = 2 then -1 else -2)
    let t := mgen n n (fun i j => (mul32 (sub32 (if i = j then ofInt32 (p + 1) else 0) (mget m i j)).1 inv).1)
    let x' := matmul cs x t
    let m' := powMul cs p t m
    let r := residual m'
    if isNaN32 r || hasNaN x' then
      { res := best, resid := br, failedNaN := true, conv := false, iters := it + 1, cold := false, warmRejected := false
        pivots := 0, mu := 0 }
    else
      let better := lt32 r br
      let best' := if better then x' else best
      let br' := if better then r else br
      if !lt32 tol r then
        { res := best', resid := br', failedNaN := false, conv := true, iters := it + 1, cold := false
          warmRejected := false, pivots := 0, mu := 0 }
      else nsLoop cs p tol fuel (it + 1) x' m' best' br'

/-- An attempt of R194 from (x, m); one that begins with a NaN fails (R198). -/
def nsFrom (cs : Bool) (p : Nat) (tol : Word) (maxIt : Nat) (x m : Mat) : Attempt :=
  let r := residual m
  if isNaN32 r || hasNaN x then
    { res := x, resid := r, failedNaN := true, conv := false, iters := 0, cold := false, warmRejected := false, pivots := 0, mu := 0 }
  else nsLoop cs p tol maxIt 0 x m x r

/-- NSROOT (R194): `prev` is the previous result where the solve starts warm. A warm start whose residual is 1 or more is rejected. -/
def nsroot (cs : Bool) (p : Nat) (tol : Word) (maxIt : Nat) (pr : Prep) (prev : Option Mat) : Attempt :=
  let n := pr.aHat.length
  let coldX := scaledId n (pow2_32 (-(pr.cExp / (p : Int))))
  let coldM := mmap (fun a => (mul32 a (pow2_32 (-pr.cExp))).1) pr.aHat
  match prev with
  | none => { nsFrom cs p tol maxIt coldX coldM with cold := true }
  | some x =>
    let m := powMul cs p x pr.aHat
    let r := residual m
    if !isNaN32 r && !lt32 r one32 then { nsFrom cs p tol maxIt coldX coldM with cold := true, warmRejected := true }
    else nsFrom cs p tol maxIt x m

/-- Column j of the Cholesky factor added to the columns before it: the columns, the pivots and whether a NaN arose. The panels' updates
form one sum over ascending k (R189; DESIGN CHOICE, log entry 106). -/
def cholCol (cs : Bool) (fl : Word) (a : Mat) (st : List (List Word) × Nat × Bool) (j : Nat) :
    List (List Word) × Nat × Bool :=
  let n := a.length
  let l (i k : Nat) : Word := (st.1.getD k []).getD i 0
  let d0 := (sub32 (mget a j j) (dot32 cs ((List.range j).map (fun k => (l j k, l j k))))).1
  let low := !isNaN32 d0 && lt32 d0 fl
  let d := if low then fl else d0
  let ljj := (sqrt32 d).1
  let col := (List.range n).map (fun i =>
    if i < j then (0 : Word)
    else if i = j then ljj
    else (div32 (sub32 (mget a i j) (dot32 cs ((List.range j).map (fun k => (l i k, l j k))))).1 ljj).1)
  (st.1 ++ [col], st.2.1 + b2n low, st.2.2 || isNaN32 d0)

/-- One entry of a column of the inverse of L, after the entries above it. -/
def invStep (cs : Bool) (cols : List (List Word)) (j : Nat) (ys : List Word) (i : Nat) : List Word :=
  let l (r k : Nat) : Word := (cols.getD k []).getD r 0
  let y := if i < j then (0 : Word)
    else if i = j then (div32 one32 (l j j)).1
    else (div32 (neg32 (dot32 cs ((List.range (i - j)).map (fun k => (l i (j + k), ys.getD (j + k) 0))))) (l i i)).1
  ys ++ [y]

/-- CHOL (R195): a single pass, published with CONV 1 and ITERS 1 (DESIGN CHOICE, log entry 107). -/
def chol (cs : Bool) (tau : Word) (pr : Prep) : Attempt :=
  let n := pr.aHat.length
  let fl := (mul32 tau (maxDiag pr.aHat)).1
  let f := (List.range n).foldl (cholCol cs fl pr.aHat) ([], 0, false)
  let y := mtrans ((List.range n).map (fun j => (List.range n).foldl (invStep cs f.1 j) []))
  let up := matmul cs (mtrans y) y
  let r := mgen n n (fun i j => if i ≤ j then mget up i j else mget up j i)
  let rs := residual (matmul cs pr.aHat r)
  { res := r, resid := rs, failedNaN := f.2.2 || isNaN32 rs, conv := true, iters := 1, cold := true, warmRejected := false
    pivots := f.2.1, mu := 0 }

/-- The loop of R196: best iterate and residual so far. Each update rounds once; a NaN that arises fails the attempt (R198). -/
def orthoLoop (cs : Bool) (tol : Word) : Nat → Nat → Mat → Mat → Word → Attempt
  | 0, it, _, best, br =>
    { res := best, resid := br, failedNaN := false, conv := !lt32 tol br, iters := it, cold := true
      warmRejected := false, pivots := 0, mu := 0 }
  | fuel + 1, it, x, best, br =>
    let b := matmul cs (mtrans x) x
    let r := residual b
    if isNaN32 r || hasNaN x then
      { res := best, resid := br, failedNaN := true, conv := false, iters := it + 1, cold := true, warmRejected := false
        pivots := 0, mu := 0 }
    else
      let better := lt32 r br
      let best' := if better then x else best
      let br' := if better then r else br
      if !lt32 tol r then
        { res := best', resid := br', failedNaN := false, conv := true, iters := it + 1, cold := true
          warmRejected := false, pivots := 0, mu := 0 }
      else
        let x' := mzip (fun u v => lin32 0xBF000000 u 0x3FC00000 v) (matmul cs x b) x
        if hasNaN x' then
          { res := best', resid := br', failedNaN := true, conv := false, iters := it + 1, cold := true, warmRejected := false
            pivots := 0, mu := 0 }
        else orthoLoop cs tol fuel (it + 1) x' best' br'

/-- The elements of a matrix in the blocked order of R128. -/
def blockedElems (g : Mat) : List Word :=
  let r := g.length
  let c := (g.getD 0 []).length
  (List.range (r / 32 * (c / 32))).flatMap (fun b => (List.range 1024).map (fun e =>
    mget g (b / (c / 32) * 32 + e / 32) (b % (c / 32) * 32 + e % 32)))

/-- ORTHO (R196), on the taller orientation. -/
def orthoTall (cs : Bool) (tol : Word) (maxIt : Nat) (g : Mat) : Attempt :=
  let s := (sqrt32 (dot32 cs ((blockedElems g).map (fun x => (x, x))))).1
  if eq32 s 0 && !isNaN32 s then
    { res := g, resid := 0, failedNaN := false, conv := true, iters := 0, cold := true, warmRejected := false, pivots := 0
      mu := 0 }
  else
    let rc := (div32 one32 s).1
    let x := mmap (fun a => (mul32 a rc).1) g
    orthoLoop cs tol maxIt 0 x x (inf32 false)

/-- ORTHO (R196): an m × n matrix with m < n is worked on transposed. -/
def ortho (cs : Bool) (tol : Word) (maxIt : Nat) (g : Mat) : Attempt :=
  if g.length < (g.getD 0 []).length then
    let a := orthoTall cs tol maxIt (mtrans g)
    { a with res := mtrans a.res }
  else orthoTall cs tol maxIt g

/-- The loop of R197 from the vector v; a NaN that arises fails the attempt (R198). -/
def pwrLoop (cs : Bool) (a : Mat) (tol : Word) : Nat → Nat → List Word → Word → Word → Attempt
  | 0, it, v, mu, r =>
    { res := [v], resid := r, failedNaN := false, conv := !isNaN32 r && !lt32 tol r, iters := it, cold := false
      warmRejected := false, pivots := 0, mu := mu }
  | fuel + 1, it, v, _, _ =>
    let w := a.map (fun row => dot32 cs (row.zip v))
    let mu := dot32 cs (v.zip w)
    let q := dot32 cs (w.zip w)
    if !isNaN32 q && eq32 q 0 then
      { res := [v], resid := 0, failedNaN := false, conv := true, iters := it + 1, cold := false, warmRejected := false
        pivots := 0, mu := 0 }
    else
      let y := (sub32 q (mul32 mu mu).1).1
      let r := (div32 (sqrt32 (max32 y 0).1).1 (abs32 mu)).1
      let v' := w.map (fun x => (mul32 x (rsqrt32 q)).1)
      if isNaN32 r || isNaN32 q || isNaN32 y || v'.any isNaN32 then
        { res := [v'], resid := r, failedNaN := true, conv := false, iters := it + 1, cold := false, warmRejected := false
          pivots := 0, mu := mu }
      else if !lt32 tol r then
        { res := [v'], resid := r, failedNaN := false, conv := true, iters := it + 1, cold := false, warmRejected := false
          pivots := 0, mu := mu }
      else pwrLoop cs a tol fuel (it + 1) v' mu r

/-- PWR (R197): the last iterate is the result. -/
def pwr (cs : Bool) (tol : Word) (maxIt : Nat) (a : Mat) (prev : Option (List Word)) : Attempt :=
  let n := a.length
  match prev with
  | some v => pwrLoop cs a tol maxIt 0 v 0 (inf32 false)
  | none =>
    { pwrLoop cs a tol maxIt 0 (List.replicate n (rsqrt32 (ofInt32 n))) 0 (inf32 false) with cold := true }

/-- A result element as written: ±infinity, and a value that overflows BF16, become ± max finite and count (R200). -/
def resElem (fp32 : Bool) (w : Word) : Nat × Bool :=
  if fp32 then
    match val32 w with
    | .inf s => (b2n s * 2 ^ 31 + 0x7F7FFFFF, true)
    | _ => ((flush32 w).toNat, false)
  else
    let r := (toBf16 w).1
    if bits r 14 7 = 255 ∧ bits r 6 0 = 0 then (bits r 15 15 * 2 ^ 15 + 0x7F7F, true) else (r, false)

/-- The symmetrised result: each pair written as rne32((x_ij + x_ji) × 0.5) (R191). -/
def symmetrise (x : Mat) : Mat :=
  mgen x.length x.length (fun i j => halfSum32 (mget x i j) (mget x j i))

end Sys2Proof.Machine
end

