-- ==== Sys2Proof/Machine/Grader.lean ====
section
/-!
DEFINITION. The Graders (R180 to R211): requests, feeds, the choice of the next solve, solves, deadlines, publications that wait for a token.
-/

namespace Sys2Proof.Machine

/-! ## Entries and slots -/

/-- The physical slot that a domain's logical slot is bound to (R184). -/
def slotAt (s : State) (r d l : Nat) : Option (Nat × GSlot) := (s.grd r).slots.find? (fun e => e.2.dom == d && e.2.lslot == l)

def setSlot (s : State) (r n : Nat) (x : GSlot) : State := s.setGrd r { s.grd r with slots := spPut (s.grd r).slots n x }

/-- The result header of a slot (Table 7-6). -/
def slotHdr (s : State) (x : GSlot) : Nat := (ldNat s x.dom x.prob.rhdr 64).1

/-- The upper tiles of a block of dimension nb, row-major. -/
def upperTiles (nb : Nat) : List (Nat × Nat) := (List.range nb).flatMap (fun r => (List.range (nb - r)).map (fun i => (r, r + i)))

/-- The address of a tile's entry in a block's factor map. -/
def tileEntry (e : Nat) (rc : Nat × Nat) : Nat := ma (entFmap e + 8 + 8 * mapEntry (entNB e) rc.1 rc.2)

/-- The upper tiles that a feed of a problem goes through, in its order. ORTHO has no factor map and no mirror (Tables 7-1, 7-2). -/
def feedTiles (p : Problem) : List (Nat × Nat × Nat) :=
  if p.method = 2 then [] else p.blks.flatMap (fun e => (upperTiles (entNB e)).map (fun rc => (e, rc)))

/-- A feed starts: FEED_AGE is 0 (R187). -/
def feedStart (s : State) (r n : Nat) (x : GSlot) : State :=
  let drifts := (feedTiles x.prob).map (fun t => bits (ldNat s x.dom (tileEntry t.1 t.2) 8).1 31 0)
  let s1 := stBytes s (faultBlk s x.dom) x.dom 0 x.prob.rhdr (leBytes 64 (setBits (slotHdr s x) 463 448 0))
  setSlot s1 r n { x with feeding := true, feedHeld := false, drifts := drifts }

/-- A solve is accepted; `evt` orders acceptances. -/
def solveAccept (s : State) (r n : Nat) (x : GSlot) : State :=
  { setSlot s r n { x with queued := some (s.evt, s.ticks), commits := 0, again := false } with evt := s.evt + 1 }

/-! ## Requests (R185, R186) -/

/-- A request that R186 ignores. -/
def grdIgnored (s : State) (r : Nat) : State := s.count (kGrdPerf r 0xC) 1

def reqFeed (s : State) (r n : Nat) (x : GSlot) : State :=
  if (s.grd r).run = some n then setSlot s r n { x with feedHeld := true }
  else if x.feeding then grdIgnored s r
  else feedStart s r n x

def reqSolve (s : State) (r n : Nat) (x : GSlot) : State :=
  if (s.grd r).run = some n then setSlot s r n { x with again := true }
  else if x.queued.isSome then grdIgnored s r
  else solveAccept s r n x

def reqCold (s : State) (r n : Nat) (x : GSlot) : State := setSlot s r n { x with cold := true }

/-- A request of operation `op` for a logical slot recorded by the slot's Grader. FEED_SOLVE is a feed and a solve behind it; into a
Grader whose region is not in service a request is lost (R208). -/
def grdRequest (s : State) (d l op : Nat) : State :=
  match problemAt s d l with
  | none => s
  | some p =>
    let r := p.greg
    if !alive s r then s.count (kGrdPerf r 0xD) 1
    else match slotAt s r d l with
      | none => s
      | some (n, x) =>
        if op = 1 then reqFeed s r n x
        else if op = 2 then reqSolve s r n x
        else if op = 3 then
          let s1 := reqFeed s r n x
          reqSolve s1 r n ((spFind (s1.grd r).slots n).getD x)
        else reqCold s r n x

/-- Whether an item is a GRD item of an operation. -/
def isGrd (op : Nat) (it : Item) : Bool := it.hdr.kind == 5 && bits (it.word 0) 63 56 == op

/-- The effect of a GRD item. -/
def doGrd (op b : Nat) (s : State) (_ : Nat) (it : Item) : State := grdRequest s (s.blk b).dom (bits (it.word 0) 55 48) op

/-- GRD_FEED (R185, R186). -/
def execGrdFeed (b : Nat) (s : State) : Host.Outcome State Fault Refusal := .next (startItem s b 17 (isGrd 1) (doGrd 1 b))

/-- GRD_SOLVE (R185, R186). -/
def execGrdSolve (b : Nat) (s : State) : Host.Outcome State Fault Refusal := .next (startItem s b 17 (isGrd 2) (doGrd 2 b))

/-- GRD_FEED_SOLVE (R185, R186). -/
def execGrdFeedSolve (b : Nat) (s : State) : Host.Outcome State Fault Refusal := .next (startItem s b 17 (isGrd 3) (doGrd 3 b))

/-- GRD_COLD (R185, R186). -/
def execGrdCold (b : Nat) (s : State) : Host.Outcome State Fault Refusal := .next (startItem s b 17 (isGrd 4) (doGrd 4 b))

/-! ## The feed (R187) -/

/-- A 32 × 32 tile of FP32 words transposed. -/
def tileTrans (bs : List Byte) : List Byte := bytesOf (transposed 0 (wordsOf bs))

/-- Upper tile i of a feed: copied where its entry is marked, and its mark taken. `torn`: the tiles on which a drain landed during their
copy: where DRIFT has indeed changed since the feed started, the mark and DRIFT are left, and counted. -/
def feedTile (reg d : Nat) (torn drifts : List Nat) (s : State) (x : Nat × Nat × Nat × Nat) : State :=
  let e := x.2.1
  let rc := x.2.2
  let nb := entNB e
  let h := (ldNat s d (entFmap e) 8).1
  let a := tileEntry e rc
  let w := (ldNat s d a 8).1
  if !bit w 63 then s
  else
    let b := faultBlk s d
    let t := (ldBytes s d (ma (entCopy e (b2n (bit h 63)) + (rc.1 * nb + rc.2) * 4096)) 4096).1
    let s1 := stBytes s b d 0 (ma (entMirror e + (rc.1 * nb + rc.2) * 4096)) t
    let s2 := (if rc.1 = rc.2 then s1 else stBytes s1 b d 0 (ma (entMirror e + (rc.2 * nb + rc.1) * 4096)) (tileTrans t)).count (kGrdPerf reg 9) 1
    if torn.contains x.1 && bits w 31 0 != drifts.getD x.1 0 then s2.count (kGrdPerf reg 0xB) 1
    else stBytes s2 b d 0 a (leBytes 8 (setBits (setBits w 63 63 0) 31 0 0))

/-- A feed of all blocks, ascending (R187). -/
def feedSlot (reg : Nat) (torn : List Nat) (s : State) (x : GSlot) : State :=
  let ts := feedTiles x.prob
  ((List.range ts.length).zip ts).foldl (feedTile reg x.dom torn x.drifts) s

/-- The ranges that a feed reads: map headers, entries, and the marked tiles of the current copies. -/
def feedReads (s : State) (x : GSlot) : List (Nat × Nat) :=
  (feedTiles x.prob).flatMap (fun t =>
    let h := (ldNat s x.dom (entFmap t.1) 8).1
    let a := tileEntry t.1 t.2
    (entFmap t.1, 8) :: (a, 8) :: (if bit (ldNat s x.dom a 8).1 63 then
      [(ma (entCopy t.1 (b2n (bit h 63)) + (t.2.1 * entNB t.1 + t.2.2) * 4096), 4096)] else []))

/-- FEED_COMPLETE (R187): every marked tile has been copied; the copies repeated after an EPOCH change are counted, and tiles on which a drain
landed during their copy keep their drift. -/
def execFeedComplete (r n : Nat) (f : FeedEnd) (s : State) : Host.Outcome State Fault Refusal :=
  .next (match spFind (s.grd r).slots n with
    | some x =>
      if r < 4 && dataUp s && alive s r && x.feeding then
        guardReads s x.dom (feedReads s x)
          (setSlot (applyMemEvents ((feedSlot r f.torn s x).count (kGrdPerf r 0xA) f.repeats) f.perf) r n { x with feeding := false, drifts := [] })
      else s
    | none => s)

/-! ## The start of a solve (R192, R201) -/

/-- The signature of a slot's structure (R201). -/
def slotSig (p : Problem) : Nat :=
  crc32c (leBytes 1 p.blks.length ++ p.blks.flatMap (fun e => leBytes 1 (entNB e)) ++ leBytes 1 p.orthoN)

/-- The rank of an eligible slot: larger AGE first, then the earlier acceptance. -/
def ageOrder (s : State) (x : GSlot) : Nat :=
  (0xFFFF - bits (slotHdr s x) 495 480) * 2 ^ 64 + (x.queued.getD (0, 0)).1

/-- The queued solve that starts next. -/
def nextSolve (s : State) (r : Nat) : Option (Nat × GSlot) :=
  ((s.grd r).slots.filter (fun e => e.2.queued.isSome && !e.2.feeding)).foldl (fun o e => match o with
    | none => some e
    | some y => if ageOrder s e.2 < ageOrder s y.2 then some e else some y) none

/-- GRD_DAMP_GROW and GRD_FAIL_RES in force in a region. -/
def dampGrow (s : State) (r : Nat) : Word := BitVec.ofNat 32 (s.app r (key 0x7002 1))
def failRes (s : State) (r : Nat) : Word := BitVec.ofNat 32 (s.app r (key 0x7002 2))

/-- The values that block i of the running solve takes: those of the latest cue that applied at or before its start (R192). -/
def solveVals (s : State) (r i : Nat) : Word × Word :=
  (((s.grd r).runVals.find? (fun v => v.1 ≤ i)).map (·.2)).getD (dampGrow s r, failRes s r)

/-- A cue for a Grader applies between blocks: the blocks of the running solve from `done` on take the new values (R192). -/
def graderCue (s : State) (r done : Nat) : State :=
  if (s.grd r).run.isSome then s.setGrd r { s.grd r with runVals := (done, dampGrow s r, failRes s r) :: (s.grd r).runVals } else s

/-- SOLVE_START (R192, R201). -/
def execSolveStart (r : Nat) (s : State) : Host.Outcome State Fault Refusal :=
  .next (if r ≥ 4 || !dataUp s || !alive s r || (s.grd r).run.isSome then s
    else match nextSolve s r with
      | none => s
      | some (n, x) =>
        let h := slotHdr s x
        let mism := x.prob.warm && bit h 511 && bits h 447 416 != slotSig x.prob
        let warm := x.prob.warm && bit h 511 && !mism && !x.cold
        let s1 := setSlot s r n { x with queued := none, cold := false }
        let s2 := s1.setGrd r { s1.grd r with
          run := some n, runCold := !warm, runMism := mism, runTick := (x.queued.getD (0, 0)).2, runCur := b2n (bit h 510)
          runVals := [(0, dampGrow s r, failRes s r)] }
        (s2.count (kGrdPerf r 0) 1).countIf mism (kGrdPerf r 7))

/-! ## A block's solve (R193 to R200) -/

/-- A matrix of r rows and c columns in the blocked layout (R128). -/
def unblock (r c : Nat) (ws : List Word) : Mat :=
  mgen r c (fun i j => ws.getD ((i / 32 * (c / 32) + j / 32) * 1024 + i % 32 * 32 + j % 32) 0)

/-- FP32 words, or BF16 values widened. -/
def widen (fp32 : Bool) (bs : List Byte) : List Word :=
  if fp32 then wordsOf bs else (chunks 2 bs).map (fun c => BitVec.ofNat 32 (leNat c * 65536))

/-- The matrix that a block's solve works on: the mirror, or for ORTHO the source matrix. The source matrix is FP32 in the blocked layout
(DESIGN CHOICE, log entry 131). -/
def blockMat (s : State) (d : Nat) (p : Problem) (e : Nat) : Mat :=
  let r := blkRows e
  let c := blkCols p e
  unblock r c (wordsOf (ldBytes s d (if p.method = 2 then entCopy e 0 else entMirror e) (4 * r * c)).1)

/-- A block's previous result in copy `cur`, as rows; the vector of PWR as one row. -/
def prevMat (s : State) (d : Nat) (p : Problem) (e cur : Nat) : Mat :=
  let w := if p.outFp32 then 4 else 2
  let r := blkRows e
  if p.method = 3 then [widen p.outFp32 (ldBytes s d (entRes e cur) (r * w)).1]
  else unblock r r (widen p.outFp32 (ldBytes s d (entRes e cur) (r * r * w)).1)

/-- GRD_DAMP_GROW^k, one product at a time. -/
def growPow (g : Word) : Nat → Word
  | 0 => one32
  | k + 1 => (mul32 (growPow g k) g).1

/-- The damping of attempt k (R193, R198). -/
def dampK (p : Problem) (grow : Word) (a : Mat) (k : Nat) : Word :=
  let lam := damping p.dampRel p.dampAbs a
  if k = 0 then lam else (mul32 (growPow grow k) (max32 lam (mul32 p.tau (maxDiag a)).1).1).1

/-- Attempt k on a block, of at most `maxIt` iterations; `prev` where it starts warm. A failed warm PWR attempt is repeated from the cold
start (DESIGN CHOICE, log entry 132). -/
def attemptK (p : Problem) (grow : Word) (a : Mat) (prev : Option Mat) (k maxIt : Nat) : Attempt :=
  let warm := if k = 0 then prev else none
  match p.method with
  | 0 => chol p.csum p.tau (prepare 1 (dampK p grow a k) a)
  | 1 => nsroot p.csum p.pexp p.tol maxIt (prepare p.pexp (dampK p grow a k) a) warm
  | 2 => ortho p.csum p.tol maxIt a
  | _ => pwr p.csum p.tol maxIt a (warm.map (fun m => m.getD 0 []))

/-- Whether an attempt fails (R198). -/
def attemptFails (failRes : Word) (t : Attempt) : Bool := t.failedNaN || lt32 failRes t.resid

/-- What a block's solve leaves: the last attempt, its damping, retries, whether every retry failed, pivots of all its attempts. -/
structure BlkOut where
  att : Attempt
  lam : Word
  retries : Nat
  failed : Bool
  pivAll : Nat

/-- A block solved from attempt k on, with `fuel` retries left. -/
def blockTry (p : Problem) (grow failRes : Word) (a : Mat) (prev : Option Mat) : Nat → Nat → BlkOut
  | fuel, k =>
    let t := attemptK p grow a prev k p.maxIt
    let lam := if p.method < 2 then dampK p grow a k else 0
    let o : BlkOut := { att := t, lam := lam, retries := k, failed := attemptFails failRes t, pivAll := t.pivots }
    match fuel with
    | 0 => o
    | f + 1 =>
      if o.failed then
        let x := blockTry p grow failRes a prev f (k + 1)
        { x with pivAll := x.pivAll + t.pivots, att := { x.att with warmRejected := x.att.warmRejected || t.warmRejected } }
      else o

/-- The previous result from which a block of the running solve starts, if it starts warm. -/
def warmOf (s : State) (r : Nat) (x : GSlot) (e : Nat) : Option Mat :=
  if (s.grd r).runCold then none else some (prevMat s x.dom x.prob e (s.grd r).runCur)

/-- Block i of the running solve. -/
def solveBlk (s : State) (r : Nat) (x : GSlot) (i e : Nat) : BlkOut :=
  let v := solveVals s r i
  blockTry x.prob v.1 v.2 (blockMat s x.dom x.prob e) (warmOf s r x e) 3 0

/-- Blocks from number i on in ascending order, up to and with the first that fails. -/
def solveBlks (s : State) (r : Nat) (x : GSlot) : Nat → List Nat → List (Nat × BlkOut)
  | _, [] => []
  | i, e :: es =>
    let o := solveBlk s r x i e
    (e, o) :: (if o.failed then [] else solveBlks s r x (i + 1) es)

/-- A block's result as stored (R205), and its saturated elements. -/
def resultBytes (p : Problem) (t : Attempt) : List Byte × Nat :=
  let els (fp32 : Bool) (ws : List Word) : List Byte × Nat :=
    let xs := ws.map (resElem fp32)
    (xs.flatMap (fun x => leBytes (if fp32 then 4 else 2) x.1), (xs.filter (·.2)).length)
  if p.method = 3 then
    let v := els p.outFp32 (t.res.getD 0 [])
    let m := els true [t.mu, t.resid]
    (v.1 ++ m.1, v.2 + m.2)
  else els p.outFp32 (blockedElems (if p.method < 2 then symmetrise t.res else t.res))

/-! ## Publications (R203, R204, R206) -/

/-- The figures of a new block. A block tried again starts cold (R198). -/
def figOf (p : Problem) (o : BlkOut) (ovf : Nat) : Fig :=
  { conv := o.att.conv, cold := o.att.cold || o.retries != 0, iters := o.att.iters, retries := o.retries, damp := o.lam
    mu := if p.method = 3 then o.att.mu else 0, pivots := o.att.pivots, ovf := ovf }

/-- The figures of block i of a current result that no solve since the load has published: the header gives those of the whole result; the
block's own counts are free (DESIGN CHOICE, log entry 117). -/
def figHdr (h i : Nat) : Fig :=
  { conv := bit h 508, cold := bit h 503, iters := bits h 479 472, retries := bits h 471 470, damp := BitVec.ofNat 32 (bits h 383 352)
    mu := BitVec.ofNat 32 (bits h 351 320), pivots := (Config.carriedFigure h (2 * i)).toNat, ovf := (Config.carriedFigure h (2 * i + 1)).toNat }

/-- The outcome of a solve that ended under R198. -/
def pubSingular : Pub := { singular := true, deadline := false, mismatch := false, carried := false, resid := 0, sig := 0, figs := [] }

/-- The largest of the residuals; a free value where no block is new (DESIGN CHOICE, log entry 33). -/
def largestResid (s : State) (os : List BlkOut) : Word × State :=
  match os with
  | [] => (Config.freeWord s.fresh.1, s.fresh.2)
  | o :: l => (l.foldl (fun m x => (max32 m x.att.resid).1) o.att.resid, s)

/-- A block's result written into the copy that is not current, and its figures. -/
def writeResult (d cur : Nat) (p : Problem) (a : State × List Fig) (x : Nat × BlkOut) : State × List Fig :=
  let b := resultBytes p x.2.att
  (stBytes a.1 (faultBlk a.1 d) d 0 (entRes x.1 (1 - cur)) b.1, a.2 ++ [figOf p x.2 b.2])

/-- A block of the current result copied into the new copy. -/
def carryBlock (d cur : Nat) (p : Problem) (s : State) (e : Nat) : State :=
  stBytes s (faultBlk s d) d 0 (entRes e (1 - cur)) (ldBytes s d (entRes e cur) (resBytes p e)).1

/-- What the blocks of a solve count. -/
def countBlocks (s : State) (r : Nat) (os : List BlkOut) : State :=
  ((s.count (kGrdPerf r 4) (os.map (fun o => o.retries)).sum).count (kGrdPerf r 5) (os.map (fun o => o.pivAll)).sum).count (kGrdPerf r 8)
    ((os.filter (fun o => o.att.warmRejected)).length)

/-- The running solve ends with a pending outcome: a held feed starts, a solve asked for again is queued (R186). A held feed that starts
here resets FEED_AGE before the pending publication flips (DESIGN CHOICE, log entry 134). -/
def solveEnd (s : State) (r n : Nat) (x : GSlot) (p : Pub) : State :=
  let s1 := s.setGrd r { s.grd r with run := none }
  let y := { x with pub := some p }
  let s2 := setSlot s1 r n y
  let s3 := if y.again then solveAccept s2 r n y else s2
  let z := (spFind (s3.grd r).slots n).getD y
  if z.feedHeld then feedStart s3 r n z else s3

/-- A solve that has ended: every new block is written and the rest is carried, or the problem is SINGULAR. `dropped`: a block in progress that
counts as not reached, whose attempts are counted all the same. -/
def solveFinish (s : State) (r n : Nat) (x : GSlot) (news : List (Nat × BlkOut)) (dropped : List BlkOut) (carry : List Nat) (deadline : Bool) :
    State :=
  let os := news.map (·.2)
  let s1 := countBlocks s r (os ++ dropped)
  if os.any (fun o => o.failed) then solveEnd (s1.count (kGrdPerf r 3) 1) r n x pubSingular
  else
    let h := slotHdr s x
    let cur := b2n (bit h 510)
    let w := news.foldl (writeResult x.dom cur x.prob) (s1, [])
    let s2 := carry.foldl (carryBlock x.dom cur x.prob) w.1
    let m := largestResid s2 os
    let kept := (List.range carry.length).map (fun i => (x.figs[news.length + i]?).getD (figHdr h (news.length + i)))
    solveEnd (m.2.count (kGrdPerf r 6) (w.2.map (·.ovf)).sum) r n x
      { singular := false, deadline := deadline, mismatch := (s.grd r).runMism, carried := !carry.isEmpty, resid := m.1
        sig := slotSig x.prob, figs := w.2 ++ kept }

/-- The ranges that a solve reads: the mirrors or source matrices of its blocks, the previous results it starts from, or, where it
stops at its deadline, carries. -/
def solveReads (s : State) (r : Nat) (x : GSlot) (carries : Bool) : List (Nat × Nat) :=
  let p := x.prob
  p.blks.flatMap (fun e =>
    (if p.method = 2 then entCopy e 0 else entMirror e, 4 * blkRows e * blkCols p e)
      :: (if (s.grd r).runCold && !carries then [] else [(entRes e (s.grd r).runCur, resBytes p e)]))

/-- The slot whose solve runs, where no publication of it is pending: its next result waits for the flip (R206). -/
def runSlot (s : State) (r : Nat) : Option (Nat × GSlot) :=
  if r ≥ 4 || !dataUp s || !alive s r then none
  else match (s.grd r).run with
    | none => none
    | some n => match spFind (s.grd r).slots n with
      | some x => if x.pub.isSome then none else some (n, x)
      | none => none

/-- The cycle counters of a solve and the memory events of its reads. -/
def solvePerf (s : State) (r cycles portWait : Nat) (perf : Perf) : State :=
  applyMemEvents ((s.count (kGrdPerf r 0xE) cycles).count (kGrdPerf r 0xF) portWait) perf

/-- Whether a running solve's deadline has expired, and applies (R202, R203). -/
def deadlineDue (s : State) (r : Nat) (x : GSlot) : Bool :=
  let dl := s.app r (key 0x7002 0)
  bit (slotHdr s x) 511 && (x.commits ≥ x.prob.dlCommits || (dl != 0 && s.ticks - (s.grd r).runTick ≥ dl))

/-- SOLVE_COMPLETE (R193 to R200, R202, R205, R206): every block has been solved. The last test of the deadline is made here; a solve held by
a pending publication makes it when it goes on (DEDUCED, log entry 116). -/
def execSolveComplete (r cycles : Nat) (p : PortPerf) (s : State) : Host.Outcome State Fault Refusal :=
  .next (match runSlot s r with
    | none => s
    | some (n, x) =>
      guardReads s x.dom (solveReads s r x false)
        (solveFinish (solvePerf s r cycles p.wait p.perf) r n x (solveBlks s r x 0 x.prob.blks) [] [] (deadlineDue s r x)))

/-- Block i in progress, stopped after `iter` iterations of attempt `k`: its best iterate. None where the attempt cannot be running: an
earlier one did not fail, or this one ends before. -/
def partialBlk (s : State) (r : Nat) (x : GSlot) (i e k iter : Nat) : Option BlkOut :=
  let p := x.prob
  let v := solveVals s r i
  let a := blockMat s x.dom p e
  let prev := warmOf s r x e
  let before := (List.range k).map (fun j => attemptK p v.1 a prev j p.maxIt)
  let t := attemptK p v.1 a prev k (min iter p.maxIt)
  if iter = 0 || p.method = 0 || !before.all (attemptFails v.2) || t.iters != iter then none
  else some { att := { t with warmRejected := t.warmRejected || before.any (·.warmRejected) }
              lam := if p.method < 2 then dampK p v.1 a k else 0, retries := k
              failed := isNaN32 t.resid || attemptFails v.2 t, pivAll := (before.map (·.pivots)).sum + t.pivots }

/-- What a solve that stops between blocks, or in block i, publishes of its own, and the block in progress that counts as not reached. -/
def stopParts (s : State) (r : Nat) (x : GSlot) (i k iter : Nat) : List (Nat × BlkOut) × List BlkOut :=
  let done := solveBlks s r x 0 (x.prob.blks.take i)
  match (x.prob.blks[i]?).bind (fun e => (partialBlk s r x i e k iter).map (fun o => (e, o))) with
  | some y => if y.2.failed then (done, [y.2]) else (done ++ [y], [])
  | none => (done, [])

/-- SOLVE_DEADLINE (R202, R203): the deadline has expired at a test: at the end of an iteration of an attempt at a block, or, with
iteration 0, at the end of the blocks before it. -/
def execSolveDeadline (r : Nat) (stop : StopPoint) (cycles : Nat) (p : PortPerf) (s : State) : Host.Outcome State Fault Refusal :=
  .next (match runSlot s r with
    | none => s
    | some (n, x) =>
      if !deadlineDue s r x || stop.attempt > 3 || stop.block > x.prob.blks.length then s
      else
        let y := stopParts s r x stop.block stop.attempt stop.iter
        guardReads s x.dom (solveReads s r x true)
          (solveFinish (solvePerf s r cycles p.wait p.perf) r n x y.1 y.2 (x.prob.blks.drop y.1.length) true))

end Sys2Proof.Machine
end

