-- ==== Sys2Proof/Machine/Dailies.lean ====
section
/-!
DEFINITION. Dailies (R275 to R280), and what IMPORT packets do at their destination (R240, R281).
-/

namespace Sys2Proof.Machine

/-! ## Sending a daily (R276, R279) -/

/-- Entries of FAB_DAILY_CFG. -/
def dailyBuddy (s : State) (d : Nat) : Nat := s.live (key (0x5100 + d) 1)
def dailyArea (s : State) (d : Nat) : Nat := s.live (key (0x5100 + d) 3)

/-- Bytes of one half of a receiving area (R278). -/
def halfBytes (pages : Nat) : Nat := pages * 131328

/-- What a page's stream reads: its stage slot, as a module address (R276). -/
def streamStage (s : State) (d page : Nat) : List (Nat × Nat) :=
  if pageState s d page == 3 then [(stageAt s d (pageRank s d page), 0x20000)] else []

/-- What it reads else: the committed reel, or the other reel, at its physical address. -/
def streamReel (s : State) (d page : Nat) : Nat :=
  let e := s.dir page
  reelAt e (if laterThan e.version (s.day d).s then e.other else e.cur)

/-- The records of a page's stream, and the lines of its stage slot that are not performed (R124). -/
def streamBytes (s : State) (d page : Nat) : List Byte × Nat :=
  match streamStage s d page with
  | r :: _ => ldBytes s d r.1 r.2
  | [] => (s.rdBytes (streamReel s d page) 0x20000, 0)

/-- A page's header entry (R278). -/
def dailyHeader (s : State) (d page : Nat) (recs : List Byte) : List Byte :=
  let e := s.dir page
  leBytes 4 page ++ leBytes 4 e.layer ++ leBytes 4 e.version ++ leBytes 4 (s.day d).s ++ leBytes 8 (crc64 recs) ++ fill 232 0

/-- A DAILY packet; XID carries the half (DEDUCED, log entry 34). -/
def dailyPacket (s : State) (d half page : Nat) (x : Nat × List Byte × Bool) : Packet :=
  mkPacket s 0x30 0 d (dailyBuddy s d)
    [(501, 1), (500, b2n x.2.2), (499, b2n x.2.2), (412, half), (336, x.1), (315, page), (280, (s.day d).s)] [] x.2.1

/-- The DAILY packets of a page: its header, then its records cut at 16 KiB boundaries. -/
def pagePackets (s : State) (d page : Nat) : List Packet :=
  let day := s.day d
  let half := day.completed % 2
  let n := (rankedPages s d).length
  let base := dailyArea s d + half * halfBytes n
  let i := pageRank s d page
  let recs := (streamBytes s d page).1
  let cs := cut16k 16 0 (ma (base + n * 256 + i * 131072)) 131072
  dailyPacket s d half page (ma (base + i * 256), dailyHeader s d page recs, false) ::
    (List.range cs.length).map (fun j =>
      let c := cs.getD j (0, 0, 0)
      dailyPacket s d half page (c.2.1, (recs.drop c.1).take c.2.2, j + 1 == cs.length))

/-- The pages of a domain whose owner lies in a region and whose daily state is v. -/
def pagesIn (s : State) (d r v : Nat) : List Nat :=
  (rankedPages s d).filter (fun p => (s.dir p).owner / 96 == r && pageState s d p == v)

/-- The next page of a mirror engine: of those PENDING or STAGED the first in rank. -/
def nextDaily (s : State) (d r : Nat) : Option Nat :=
  (rankedPages s d).find? (fun p => (s.dir p).owner / 96 == r && (pageState s d p == 1 || pageState s d p == 3))

/-- The daily's packets go out; to the module itself they are performed here. -/
def sendDaily (perform : State → Packet → State) (r src : Nat) (s : State) (k : Packet) : State :=
  match hopOf s r k.dst false none with
  | .here => perform s k
  | _ => originate s r src k

/-! ## Receiving a daily (R278, R279) -/

/-- A DAILY packet stored at the buddy. -/
def dailyStore (s : State) (k : Packet) : State :=
  let d := k.dom
  let day := s.day d
  let half := k.xid % 2
  let same := day.rxHalf == half && day.rxStep == k.version
  let pages := if same then day.rxPages else []
  let s1 := stBytes s (faultBlk s d) d 0 k.addr k.data
  s1.setDay d { s1.day d with
    rxHalf := half, rxStep := k.version
    rxPages := if k.slotLast && !pages.contains k.page then pages ++ [k.page] else pages }

/-- DAILY_END at the buddy: complete if COUNT pages of the half have been stored. -/
def dailyClose (s : State) (k : Packet) : State :=
  let d := k.dom
  let day := s.day d
  let half := k.xid % 2
  if day.rxHalf == half && day.rxStep == k.version && day.rxPages.length == k.count then
    (s.setDay d { day with rxCount := k.count }).setRo (key (0x5120 + d) 0) (2 ^ 63 + half * 2 ^ 62 + k.version)
  else s

/-- DAILY (R278). -/
def execDaily (p cls : Nat) (s : State) : Host.Outcome State Fault Refusal := .next (onPacket s p cls 0x30 dailyStore)

/-- DAILY_END (R279). -/
def execDailyEnd (p cls : Nat) (s : State) : Host.Outcome State Fault Refusal := .next (onPacket s p cls 0x31 dailyClose)

/-! ## The rows of the sender -/

/-- The page that an engine streams is done: NONE (R276). -/
def streamDone (s : State) (d r : Nat) : State := (pagesIn s d r 2).foldl (fun s p => setPageState s d p 0) s

/-- DAILY_PAGE_STREAM (R276): a mirror engine ends its page and streams the next one; a STAGED page is NONE at once, and one that is being
moved is not started. The command reports the memory events of the page's reads (R18, R144). A domain that is no longer ACTIVE sends no page
(R274, R292). -/
def execDailyPageStream (d : Nat) (region : Accessed) (s : State) : Host.Outcome State Fault Refusal :=
  let r := region.n
  .next (if (s.dom d).st != .active || d ≥ 16 || r ≥ 4 || !dataUp s || !alive s r || !(s.day d).running || mbit (s.day d).engines r then s
    else
      let s1 := streamDone s d r
      match nextDaily s1 d r with
      | none => s1.setDay d { s1.day d with engines := mset (s1.day d).engines r }
      | some page =>
        if (s1.dir page).mig then s1
        else
          let s2 := boundEvt (applyMemEvents s1 region.perf) (blkOfCell (s1.dir page).owner) (streamBytes s1 d page).2
          let s3 := (pagePackets s1 d page).foldl (sendDaily dailyStore r (2 ^ 32 + r)) s2
          guardReads s1 d (streamStage s1 d page)
            (guardPhys s1 (if pageState s1 d page == 3 then [] else [(streamReel s1 d page, 0x20000)])
              (setPageState s3 d page (if pageState s1 d page == 3 then 0 else 2))))

/-- DAILY_ENGINES_DONE (R279). -/
def execDailyEnginesDone (d : Nat) (s : State) : Host.Outcome State Fault Refusal :=
  let day := s.day d
  .next (if d ≥ 16 || !dataUp s || !day.running || day.engines != 15 then s
    else
      let k := mkPacket s 0x31 0 d (dailyBuddy s d)
        [(501, 1), (500, 1), (412, day.completed % 2), (280, day.s), (256, (rankedPages s d).length)] [] []
      let s1 := sendDaily dailyClose 0 (2 ^ 32) s k
      (s1.setDay d { s1.day d with running := false, states := [], engines := 0, completed := day.completed + 1 }).setRo
        (key (0x5100 + d) 4) day.s)

/-! ## Imports (R240, R281) -/

/-- The PASS descriptor of a layer in block b's lists of the list set last run. -/
def lastPass (s : State) (d b layer : Nat) : Option PassDesc :=
  let p := s.prog d
  (((spGet (fun _ => []) p.lists ((p.lastSet * 24 + b) * 18 + 16)).filter (fun it => it.hdr.kind == 4 && it.pass.opc == 0x41)).map
    Item.pass).find? (fun x => x.layer == layer)

/-- A page's working copy emitted from its committed reel into buffer VCUR mod 2 (R240). -/
def importEmit (s : State) (d page : Nat) : State :=
  let e := s.dir page
  let b := blkOfCell e.owner
  match lastPass s d b e.layer with
  | some p => (emitPage s b d 0 p (s.hdr d p.wchdr).vcur (page - p.page0) (masters (readReel s e e.cur))).1
  | none => s

/-- The armed import that a packet matches. -/
def impOf (s : State) (k : Packet) : Option Imp :=
  (s.day k.dom).imps.find? (fun i => i.src == k.src && (k.ty == 0x33 || (i.page ≤ k.page && k.page < i.page + i.n)))

/-- An import changed; one whose IMPORT_END has arrived, with its COUNT of pages written, ends its command. -/
def impPut (s : State) (d : Nat) (i : Imp) : State :=
  let others := (s.day d).imps.filter (fun x => x.ctx != i.ctx)
  let ended : Bool := match i.count with
    | some n => i.done.length ≥ n
    | none => false
  if ended then endCmd (s.setDay d { s.day d with imps := others }) i.ctx 0 0 []
  else s.setDay d { s.day d with imps := others ++ [i] }

/-- An import that overlaps a step is refused (R240). -/
def impRefuse (s : State) (d : Nat) (i : Imp) : State :=
  endCmd (s.setDay d { s.day d with imps := (s.day d).imps.filter (fun x => x.ctx != i.ctx) }) i.ctx 0x10 0x0F []

/-- What the emission of an imported page reads: the record of the buffer it goes into. -/
def importRecs (s : State) (d page : Nat) : List (Nat × Nat) :=
  let e := s.dir page
  match lastPass s d (blkOfCell e.owner) e.layer with
  | some p => segRecs s d ((s.hdr d p.wchdr).seg (s.hdr d p.wchdr).vcur)
  | none => []

/-- 16 KiB of records written into the committed reel; with the page's last packet its VERSION is set, PEND cleared, and its working copy
emitted. -/
def importWrite (s : State) (k : Packet) (i : Imp) : State :=
  let e := s.dir k.page
  let s1 := s.wrBytes (reelAt e e.cur + k.addr % 0x20000) (k.data.take (0x20000 - k.addr % 0x20000))
  if k.slotLast then
    let s2 := importEmit (s1.setDir k.page { e with version := k.version, pend := false }) k.dom k.page
    guardReads s1 k.dom (importRecs s1 k.dom k.page) (guardPhys s1 [(reelAt e e.cur, 0x20000)]
      (impPut s2 k.dom { i with done := if i.done.contains k.page then i.done else i.done ++ [k.page] }))
  else s1

/-- An IMPORT or IMPORT_END packet that matches an armed import; any other is dropped and counted at port p. -/
def onImport (p : Nat) (s : State) (k : Packet) (f : State → Imp → State) : State :=
  match impOf s k with
  | none => s.count (kPort p 8) 1
  | some i => if stepRuns s k.dom then impRefuse (s.count (kPort p 8) 1) k.dom i else f s i

/-- An IMPORT packet performed. -/
def importPage (p : Nat) (s : State) (k : Packet) : State :=
  onImport p s k (fun s i =>
    if (s.dir k.page).valid && (s.dir k.page).dom == k.dom then importWrite s k i else s.count (kPort p 8) 1)

/-- An IMPORT_END packet performed. -/
def importClose (p : Nat) (s : State) (k : Packet) : State := onImport p s k (fun s i => impPut s k.dom { i with count := some k.count })

/-- IMPORT (R240, R281), with the memory events of its accesses (R18, R144). -/
def execImportPkt (p : Nat) (cls : Accessed) (s : State) : Host.Outcome State Fault Refusal :=
  .next (onPacket s p cls.n 0x32 (fun t k => importPage p (applyMemEvents t cls.perf) k))

/-- IMPORT_END (R281). -/
def execImportEnd (p cls : Nat) (s : State) : Host.Outcome State Fault Refusal := .next (onPacket s p cls 0x33 (importClose p))

end Sys2Proof.Machine
end

