-- ==== Sys2Proof/Machine/Commands.lean ====
section
/-!
DEFINITION. The domain commands that have no file of their own (R227, R281, R298, R299): COPY, HOST_WRITE, HOST_READ, EXPORT, IMPORT_ARM,
FREEZE, GRADE, FENCE; the admission of deferred commands (R302).
-/

namespace Sys2Proof.Machine

/-! ## Data commands (R299) -/

/-- Whether a data command may name a range: every line passes R124 and lies in no REDUCE segment. -/
def dataOk (s : State) (d a n : Nat) : Bool :=
  (linesOf a n).all (fun la => match maLoc s d la with
    | .pa _ => true
    | _ => false)

/-- A length of HOST_WRITE and HOST_READ: a multiple of 64 bytes, at most 1 MiB. -/
def hostLenOk (n : Nat) : Bool := n % 64 == 0 && n ≤ 1048576

/-- A module address of 40 bits (R122). -/
def maOk (a : Nat) : Bool := a < 2 ^ 40

/-- COPY as the command unit runs it. -/
def specCopy (d desc : Nat) : CmdSpec :=
  let src := dw desc 1
  let dst := dw desc 2
  let n := dw desc 3
  { opc := 0x20, cost := 1 + (n + 1048575) / 1048576, inRange := maOk src && maOk dst && n % 64 == 0 && n < 2 ^ 32, pay := none
    static := fun s _ => if dataOk s d src n && dataOk s d dst n then none else some 0x13
    run := fun s k => guardReads s d [(src, n)] (endCmd (stBytes s (faultBlk s d) d 0 dst (ldBytes s d src n).1) k 0 0 []) }

/-- COPY (R299). -/
def execCopy (d q desc : Nat) (s : State) : Host.Outcome State Fault Refusal := .next (runCommand s d q desc (specCopy d desc))

/-- HOST_WRITE as the command unit runs it: `data` as read by DMA, none where the read failed. -/
def specHostWrite (d desc : Nat) (data : Option (List Byte)) : CmdSpec :=
  let dst := dw desc 2
  let n := dw desc 3
  { opc := 0x21, cost := 2, inRange := maOk dst && hostLenOk n, pay := data
    static := fun s _ => if dataOk s d dst n then none else some 0x13
    run := fun s k => match payOf s k with
      | some bs => endCmd (stBytes s (faultBlk s d) d 0 dst ((bs ++ fill n 0).take n)) k 0 0 []
      | none => endCmd s k 0x21 0x18 [] }

/-- HOST_WRITE (R299). -/
def execHostWrite (d q desc : Nat) (data : Option (List Byte)) (s : State) : Host.Outcome State Fault Refusal :=
  .next (runCommand s d q desc (specHostWrite d desc data))

/-- HOST_READ as the command unit runs it; its stored payload is none where the DMA write fails. -/
def specHostRead (d desc : Nat) (ok : Bool) : CmdSpec :=
  let src := dw desc 1
  let n := dw desc 3
  { opc := 0x22, cost := 2, inRange := maOk src && hostLenOk n, pay := if ok then some [] else none
    static := fun s _ => if dataOk s d src n then none else some 0x13
    run := fun s k => match payOf s k with
      | some _ => guardReads s d [(src, n)] (endCmd (s.emit (.dma (dw desc 2) (ldBytes s d src n).1)) k 0 0 [])
      | none => endCmd s k 0x21 0x18 [] }

/-- HOST_READ (R299). -/
def execHostRead (d q desc : Nat) (dmaOk : Bool) (s : State) : Host.Outcome State Fault Refusal :=
  .next (runCommand s d q desc (specHostRead d desc dmaOk))

/-! ## EXPORT and IMPORT_ARM (R281) -/

/-- Fields of word 1 of EXPORT, IMPORT_ARM and FREEZE. -/
def wPage (desc : Nat) : Nat := bits (dw desc 1) 52 32
def wCount (desc : Nat) : Nat := bits (dw desc 1) 15 0

/-- The index of a page in the complete daily half held here, and the half's place (R278). -/
def heldAt (s : State) (d page : Nat) : Option (Nat × Nat × Nat) :=
  let rx := s.ro? (key (0x5120 + d) 0)
  let n := (s.day d).rxCount
  let base := s.live (key (0x5100 + d) 3) + bits rx 62 62 * halfBytes n
  if bit rx 63 then
    ((List.range n).find? (fun i => (ldNat s d (ma (base + i * 256)) 4).1 == page)).map (fun i => (base, n, i))
  else none

/-- The records and the VERSION of a page that an EXPORT sends; none where the source does not hold it. -/
def exportPage (s : State) (d page : Nat) (half : Bool) : Option (List Byte × Nat) :=
  if half then
    (heldAt s d page).map (fun x => ((ldBytes s d (ma (x.1 + x.2.1 * 256 + x.2.2 * 131072)) 131072).1,
      (ldNat s d (ma (x.1 + x.2.2 * 256 + 8)) 4).1))
  else
    let e := s.dir page
    if e.valid && e.dom == d then some (s.rdBytes (reelAt e e.cur) 0x20000, e.version) else none

/-- The 8 IMPORT packets of a page; ADDR is the offset within the page (DEDUCED, log entry 35). -/
def importPackets (s : State) (d dst page : Nat) (x : List Byte × Nat) : List Packet :=
  (List.range 8).map (fun i =>
    mkPacket s 0x32 0 d dst [(501, 1), (499, b2n (i == 7)), (336, 16384 * i), (315, page), (280, x.2)] [] ((x.1.drop (16384 * i)).take 16384))

/-- All packets of an EXPORT, IMPORT_END last. -/
def exportPackets (s : State) (d desc : Nat) : List Packet :=
  let w2 := dw desc 2
  let dst := bits w2 11 0
  (List.range (wCount desc)).flatMap (fun i => match exportPage s d (wPage desc + i) (bit (dw desc 1) 63) with
    | some x => importPackets s d dst (bits w2 52 32 + i) x
    | none => [])
    ++ [mkPacket s 0x33 0 d dst [(501, 1), (500, 1), (256, wCount desc)] [] []]

/-- A packet of an EXPORT to the module itself. -/
def importHere (s : State) (k : Packet) : State := if k.ty = 0x33 then importClose 0 s k else importPage 0 s k

/-- The physical ranges that an EXPORT of committed reels reads. -/
def exportReads (s : State) (d desc : Nat) : List (Nat × Nat) :=
  if bit (dw desc 1) 63 then []
  else (List.range (wCount desc)).filterMap (fun i =>
    let e := s.dir (wPage desc + i)
    if e.valid && e.dom == d then some (reelAt e e.cur, 0x20000) else none)

/-- The module ranges that an EXPORT from a held half reads, and their lines that are not performed (R124). -/
def exportHalf (s : State) (d desc : Nat) : List (Nat × Nat) :=
  if bit (dw desc 1) 63 then (List.range (wCount desc)).filterMap (fun i =>
    (heldAt s d (wPage desc + i)).map (fun x => (ma (x.1 + x.2.1 * 256 + x.2.2 * 131072), 131072)))
  else []
def exportMiss (s : State) (d desc : Nat) : Nat := ((exportHalf s d desc).map (fun r => (ldBytes s d r.1 r.2).2)).sum

/-- The packets of an EXPORT handed to their port; the command ends with its last packet, at once where none waits. -/
def startExport (s : State) (d k desc : Nat) : State :=
  let r := (s.ctx k).home
  let s1 := (exportPackets s d desc).foldl (sendDaily importHere r (exportSrc k)) (boundEvt s (faultBlk s d) (exportMiss s d desc))
  let waits := (List.range 8).any (fun p => (s1.port p).tx.any (fun t => t.src == exportSrc k))
  guardReads s d (exportHalf s d desc) (guardPhys s (exportReads s d desc) (if waits then s1 else endCmd s1 k 0 0 []))

/-- EXPORT as the command unit runs it. -/
def specExport (d desc : Nat) : CmdSpec :=
  let half := bit (dw desc 1) 63
  { opc := 0x30, cost := 1 + (wCount desc * 262144 + 1048575) / 1048576, inRange := wPage desc + wCount desc ≤ 2097152, pay := none
    static := fun s _ =>
      if !(s.prog d).loaded then some 0x0C
      else if !half && stepRuns s d then some 0x0F
      else if !inTorus (s.live (key 0x5000 1)) (bits (dw desc 2) 11 0) then some 0x12
      else if (List.range (wCount desc)).any (fun i => (exportPage s d (wPage desc + i) half).isNone) then some 0x01
      else none
    run := fun s k => startExport s d k desc }

/-- EXPORT (R281, R299). -/
def execExportRun (d q desc : Nat) (s : State) : Host.Outcome State Fault Refusal := .next (runCommand s d q desc (specExport d desc))

/-- An import armed for the command of a context. Table 10-9 gives the source coordinate as bits [11:0] of the word whose bits [15:0] it
gives as NPAGE: both are read as the table writes them (DEDUCED, log entry 36). -/
def armImport (s : State) (d k desc : Nat) : State :=
  let i : Imp := { ctx := k, src := bits (dw desc 1) 11 0, page := wPage desc, n := wCount desc, done := [], count := none }
  s.setDay d { s.day d with imps := (s.day d).imps.filter (fun x => x.ctx != k) ++ [i] }

/-- IMPORT_ARM as the command unit runs it: it runs until the import completes. -/
def specImportArm (d desc : Nat) : CmdSpec :=
  { opc := 0x31, cost := 1, inRange := wPage desc + wCount desc ≤ 2097152, pay := none
    static := fun s _ => if stepRuns s d then some 0x0F else if (s.day d).running then some 0x10 else none
    run := fun s k => armImport s d k desc }

/-- IMPORT_ARM (R280, R281, R299). -/
def execImportArm (d q desc : Nat) (s : State) : Host.Outcome State Fault Refusal := .next (runCommand s d q desc (specImportArm d desc))

/-! ## FREEZE, GRADE, FENCE (R227, R298, R299) -/

/-- FREEZE as the command unit runs it: held until the commit walk of a running step, else applied at once. -/
def specFreeze (d desc : Nat) : CmdSpec :=
  { opc := 0x32, cost := 1, inRange := wPage desc + wCount desc ≤ 2097152, pay := none
    static := fun s _ => if (s.prog d).loaded then none else some 0x0C
    run := fun s k => if stepRuns s d then s else endCmd (applyFreeze s d desc) k 0 0 [] }

/-- FREEZE (R227, R299). -/
def execFreeze (d q desc : Nat) (s : State) : Host.Outcome State Fault Refusal := .next (runCommand s d q desc (specFreeze d desc))

/-- GRADE as the command unit runs it: a request for a logical slot that no problem defines is out of range. -/
def specGrade (d desc : Nat) : CmdSpec :=
  let op := bits (dw desc 1) 63 56
  let l := bits (dw desc 1) 55 48
  { opc := 0x40, cost := 1, inRange := 1 ≤ op && op ≤ 4, pay := none
    static := fun s _ => if (problemAt s d l).isSome then none else some 0x01
    run := fun s k => endCmd (grdRequest s d l op) k 0 0 [] }

/-- GRADE (R185, R186, R299). -/
def execGrade (d q desc : Nat) (s : State) : Host.Outcome State Fault Refusal := .next (runCommand s d q desc (specGrade d desc))

/-- FENCE as the command unit runs it: it is admitted, and ends, after every earlier command of the domain. -/
def specFence : CmdSpec :=
  { opc := 0x50, cost := 1, inRange := true, pay := none, static := fun _ _ => none, run := fun s k => endCmd s k 0 0 [] }

/-- FENCE (R298). -/
def execFence (d q desc : Nat) (s : State) : Host.Outcome State Fault Refusal := .next (runCommand s d q desc specFence)

/-! ## Deferred commands (R302) -/

/-- What the command unit does with a descriptor of a domain, by its opcode, with the payload that its DMA read. -/
def specOf (d desc : Nat) (pay : Option (List Byte)) : CmdSpec :=
  match dOpc desc with
  | 0x01 => specProgLoad d desc pay
  | 0x02 => specProgUnload d
  | 0x10 => specStep d desc
  | 0x20 => specCopy d desc
  | 0x21 => specHostWrite d desc pay
  | 0x22 => specHostRead d desc pay.isSome
  | 0x30 => specExport d desc
  | 0x31 => specImportArm d desc
  | 0x32 => specFreeze d desc
  | 0x40 => specGrade d desc
  | _ => specFence

/-- Deferred commands of a domain in the order in which they were deferred. -/
def insertDefer (x : Nat × Defer) : List (Nat × Defer) → List (Nat × Defer)
  | [] => [x]
  | y :: l => if x.2.order < y.2.order then x :: y :: l else y :: insertDefer x l
def deferredOf (s : State) (d : Nat) : List (Nat × Defer) :=
  (s.cp.ctxs.filterMap (fun e => match e.2.defer with
    | some f => if f.cmd.dom == d then some (e.1, f) else none
    | none => none)).foldr insertDefer []

/-- Whether a deferred command goes on now: its notice, if any, has been written, it fits and no fence holds it, or its cost has come to
exceed QUOTA. -/
def deferReady (s : State) (d : Nat) (x : Nat × Defer) : Bool :=
  (s.ctx x.1).kill == .no && !x.2.note && (x.2.cost > (s.dom d).quota || (creditsFit s d x.2.cost && !(x.2.unitCause && stepKept s d)
    && !fenced s d x.1 x.2.order x.2.cmd.desc))

/-- A deferred command admitted, or refused where a fixed condition now refuses it. -/
def admitDeferred (s : State) (d k : Nat) (f : Defer) : State :=
  let x := specOf d f.cmd.desc f.cmd.data
  if f.cost > (s.dom d).quota then refuse s k f.cmd 0x0A
  else match x.static s k with
    | some r => refuse s k f.cmd r
    | none => x.run (grant s k f.cmd) k

/-- DEFERRED_ADMISSION (R302, R407): with the command unit clocked, the oldest deferred command of the domain that fits. -/
def execDeferredAdmission (d : Nat) (s : State) : Host.Outcome State Fault Refusal :=
  .next (if d ≥ 16 || !dataUp s || !s.cp.pcieRef || (s.dom d).st != .active then s
    else match (deferredOf s d).find? (deferReady s d) with
      | some (k, f) => admitDeferred s d k f
      | none => s)

/-! ## Completion records (R295, R304) -/

/-- COMMAND_COMPLETION (R292, R295, R301, R304): the record of a queue's ended command. A full ring, or a link that cannot carry it, holds
it. The memory events of the command's accesses are counted (R18, R144). -/
def execCommandCompletion (q : QRef) (x : DmaEnd) (s : State) : Host.Outcome State Fault Refusal :=
  .next (match ctxOf s q with
    | none => s
    | some k =>
      match (s.ctx k).cmd with
      | none => s
      | some c =>
        if c.fin == .running || !hostUp s || s.flt.chip.isSome || cqFull (s.ctx k) then s
        else complete (applyMemEvents s x.perf) k c x.ok)

end Sys2Proof.Machine
end

