-- ==== Sys2Proof/Machine/Cues.lean ====
section
/-!
DEFINITION. Cues as the units apply them (R283, R326): the latest live values of a group, at a unit's own boundary.
-/

namespace Sys2Proof.Machine

/-! ## Cues applied (R326) -/

/-- Whether the port entries of a region changed between two states: their links retrain (R283). -/
def fabChanged (s t : State) (r : Nat) : Bool :=
  [key 0x5000 0, key 0x5000 1, key 0x5000 2].any (fun k => s.app r k != t.app r k)

/-- A port whose entries changed: a lane command there is cut short, and the port trains again, or it is disabled and the packets that wait for it
are dropped (R260, R282, R283). -/
def restartPort (s : State) (p : Nat) : State :=
  let s1 := startPort (laneCut s p) p
  if (s1.port p).st == .disabled then dropQueue s1 p else s1

/-- What a unit does beside taking its group's values. -/
def onApply (s t : State) (g u : Nat) : State :=
  if g = 5 then
    if fabChanged s t u then
      t.each (portsOf u) (fun x p => if fabRetrains s t u p then restartPort x p else x)
    else t
  else if g = 0 then
    if t.app 4 (key 0x8100 1) = 0 then { t with mgt := { t.mgt with noBeacon := false } } else t
  else if g = 10 then
    if pwrGateIdle s != pwrGateIdle t then (List.range 24).foldl (keepGate (pwrGateIdle s)) t else t
  else t
where
  /-- An idle period under way keeps the PWR_GATE_IDLE that it started with (R414). -/
  keepGate (old : Nat) (t : State) (b : Nat) : State :=
    if (t.blk b).phase == .idle then t.setBlk b { t.blk b with gateOld := some ((t.blk b).gateOld.getD old) } else t
  /-- A change of coordinates or torus concerns every enabled port; a change of FAB_PORT_EN the ports whose bit changed. -/
  fabRetrains (s t : State) (u p : Nat) : Bool :=
    s.app u (key 0x5000 0) != t.app u (key 0x5000 0) || s.app u (key 0x5000 1) != t.app u (key 0x5000 1)
      || mbit (s.app u (key 0x5000 2)) p != mbit (t.app u (key 0x5000 2)) p

/-- Whether a unit is at its boundary (R326): a cell between work items, the fabric units of a region between packets. A sequencer, a memory
controller and a hub finish a request within one command; a Grader's boundary is the operand of CUE_APPLY. -/
def atBoundary (s : State) (g u : Nat) : Bool :=
  if 32 ≤ u then
    let b := (u - 32) / 17
    (List.range 16).all (fun pos => physOf (s.blk b) pos != (u - 32) % 17 || (runsAt s b pos).isEmpty)
  else if g = 5 ∧ u < 4 then (portsOf u).all (fun p => (s.port p).asm.isEmpty)
  else true

/-- CUE_APPLY (R192, R326): a unit applies its group's latest live values at its own boundary; a Grader that solves, after the
blocks that it has finished. A unit whose region left service meanwhile is no longer waited for (R325). -/
def execCueApply (g : Nat) (x : UnitAt) (s : State) : Host.Outcome State Fault Refusal :=
  let u := x.unit
  .next (if s.mgt.apply.contains (g, u) && (!unitAlive s u || atBoundary s g u) then
      let s1 := { s with mgt := { s.mgt with apply := s.mgt.apply.filter (· != (g, u)) } }
      if unitAlive s u then
        let s2 := onApply s1 (loadGroup s1 g u) g u
        if u < 4 && mbit (grpOf (key 0x7002 1)) g then graderCue s2 u x.done else s2
      else s1
    else s)

end Sys2Proof.Machine
end

