-- ==== Sys2Proof/Machine/Recovery.lean ====
section
/-!
DEFINITION. Detection and recovery (R342 to R371): the watchdogs, CLAPPER_IN, dumps, the end of region resets and chip warm resets with
their replay, overruns, region commands, faults of chip-level units.
-/

namespace Sys2Proof.Machine

/-! ## Watchdogs (R343 to R346) -/

/-- Whether a block's watchdog has expired (R343). -/
def wdtExpired (s : State) (b : Nat) : Bool :=
  ((s.blk b).phase == .starting || (s.blk b).phase == .running) && (s.blk b).wdt ≥ wdtWindow s

/-- BLOCK_HANG (R25, R29, R343): the block reports a hang to its region. -/
def execBlockHang (b : Nat) (s : State) : Host.Outcome State Fault Refusal :=
  .next (if b ≥ 24 || !wdtExpired s b then s
    else if contained s (b / 6) then containFault s (b / 6)
    else if !alive s (b / 6) || !dataUp s then s
    else regionFault (s.count (kBlkCnt b 0) 1) (b / 6) 0 { level := 1, action := 3, cause := 0x04, blk := b })

/-- A fault of a region's own unit found by its watchdog. -/
def unitHang (s : State) (r cause : Nat) : State :=
  if r ≥ 4 then s
  else if contained s r then containFault s r
  else if !dataUp s then s
  else regionFault s r 0 { level := 2, action := 3, cause := cause }

/-- Whether a Grader has work: a feed, a queued or a running solve. -/
def grdBusy (g : Grd) : Bool := g.run.isSome || g.slots.any (fun e => e.2.feeding || e.2.queued.isSome || e.2.pub.isSome)

/-- GRADER_HANG (R208, R345). -/
def execGraderHang (r : Nat) (s : State) : Host.Outcome State Fault Refusal :=
  .next (if grdBusy (s.grd r) then unitHang s r 0x05 else s)

/-- HUB_HANG (R345). -/
def execHubHang (r : Nat) (s : State) : Host.Outcome State Fault Refusal := .next (unitHang s r 0x06)

/-- MEM_CTRL_HANG (R29, R345). Table 12-6 gives this fault no cause: the record's CAUSE is a free value (DESIGN CHOICE, log entry 37). -/
def execMemCtrlHang (r : Nat) (s : State) : Host.Outcome State Fault Refusal :=
  let x := s.fresh
  .next (unitHang x.2 r ((Config.freeWord x.1).toNat % 256))

/-- Whether a domain waits for an exchange result longer than the window (R345). -/
def xchLate (s : State) (d : Nat) : Bool :=
  match (s.xch d).contributed with
  | some t => s.ticks - t ≥ wdtWindow s && !(s.xch d).hung
  | none => false

/-- EXCHANGE_HANG (R271, R346): recorded, and the module goes on waiting. -/
def execExchangeHang (d : Nat) (s : State) : Host.Outcome State Fault Refusal :=
  .next (if d ≥ 16 || !xchLate s d then s
    else
      let s1 := s.setXch d { s.xch d with hung := true }
      strike ((logFault s1 { level := 3, action := 7, cause := 0x0A, doms := 2 ^ d }).count (kXchg 3) 1) 4)

/-- The ports of resetting or OFFLINE regions send HOLD (R255). -/
def sendHold (s : State) (r : Nat) : State := (portsOf r).foldl (fun s p => if (s.port p).st == .disabled then s else holdFrame s p) s

/-- A fault that leads to a chip warm reset: the ports of the regions that reset at once send HOLD. -/
def chipReset (s : State) (src dumpOf : Nat) (f : Fact) : State :=
  if inChipReset s then s.count (kChipCnt 8) 1
  else ((List.range 4).filter (fun r => r != dumpOf)).foldl sendHold (chipFault s src dumpOf f)

/-- COMMAND_UNIT_HANG (R32, R345, R407): the command unit is a chip-level unit; its watchdog, which does not count while the PCIe reference clock
is away, strikes through HANG (R348). -/
def execCommandUnitHang (s : State) : Host.Outcome State Fault Refusal :=
  .next (if s.cp.pcieRef && s.pwr.rails == .up && !s.pwr.coldWait then chipReset s 0 4 { level := 3, action := 4, cause := 0x0C } else s)

/-- CHIP_LEVEL_UNIT_FAULT (R32). -/
def execChipLevelUnitFault (detail : Nat) (s : State) : Host.Outcome State Fault Refusal :=
  .next (if s.pwr.rails == .up && !s.pwr.coldWait then chipReset s 2 4 { level := 3, action := 4, cause := 0x0C, detail := detail } else s)

/-- CLAPPER_IN (R349, R409): a pulse of 280 ns or more strikes, one below 200 ns never does; whether one between them does is a free
value (DESIGN CHOICE, log entry 38). -/
def execClapperIn (nanos : Nat) (s : State) : Host.Outcome State Fault Refusal :=
  .next (if s.pwr.supply != .on || nanos < 200 then s
    else if nanos ≥ 280 then strike s 7
    else
      let x := s.fresh
      if bit (Config.freeWord x.1).toNat 0 then strike x.2 7 else x.2)

/-! ## The crash dump (R353) -/

/-- Dump slots in the order in which they were taken. -/
def oldestDump (s : State) : Nat :=
  [1, 2, 3].foldl (fun o n => if (s.dump n).order < (s.dump o).order then n else o) 0

/-- The slot that a dump takes: the lowest that is not HELD, else the oldest. -/
def dumpSlot (s : State) : Nat := ([0, 1, 2, 3].find? (fun n => !(s.dump n).held)).getD (oldestDump s)

/-- DUMP_START (R353): the dump engine takes a slot for region r; the mask of sections without an answer is shown when the dump is complete. -/
def execDumpStart (r incomplete : Nat) (s : State) : Host.Outcome State Fault Refusal :=
  .next (if r ≥ 4 || (s.reg r).stage != .killed then s
    else
      let n := dumpSlot s
      let g := s.reg r
      let s1 := s.countIf (s.dump n).held (kChipCnt 3)
      let d : Dump := { valid := false, held := true, region := r, incomplete := (s.dump n).incomplete
                        gaps := incomplete % 128, recNo := g.recNo
                        ticks := bits (recordAt s g.recNo) 479 416, order := s.flt.dumpOrder, bytes := [] }
      let s2 := s1.setDump n d
      let s3 := { s2 with flt := { s2.flt with dumpOrder := s2.flt.dumpOrder + 1 } }
      (setRecord s3 g.recNo 331 330 n).setReg r { g with stage := .dumping, slot := n })

/-- The poison word in both halves of a read (R353). -/
def poisonRead : List Byte := leBytes 4 0xDEAD0BAD ++ leBytes 4 0xDEAD0BAD

/-- A section of 4 KiB as read; from the read that got no answer on, which is a free value, the poison word (DESIGN CHOICE, log entry 39). -/
def dumpSection (bad : Bool) (content : List Byte) (s : State) : List Byte × State :=
  if bad then
    let x := s.fresh
    let n := (Config.freeWord x.1).toNat % 512
    (content.take (8 * n) ++ (List.replicate (512 - n) poisonRead).flatten, x.2)
  else (content, s)

/-- The 0x7200 bytes of a dump (R353): the region section's layout is not given, and its bytes are free (DESIGN CHOICE, log entry 39). -/
def dumpBytes (s : State) (r : Nat) (d : Dump) : List Byte × State :=
  let hdr := fitTo 512 (leBytes 4 d.recNo ++ leBytes 8 d.ticks ++ leBytes 1 r ++ leBytes 1 d.gaps)
  let x := (List.range 6).foldl (fun (a : List Byte × State) b =>
    let y := dumpSection (mbit d.gaps b) (slateBytes (6 * r + b) (a.2.blk (6 * r + b)).slate) a.2
    (a.1 ++ y.1, y.2)) (hdr, s)
  let z := dumpSection (mbit d.gaps 6) (freeBytes 3 (d.recNo * 4096) 4096) x.2
  (x.1 ++ z.1, z.2)

/-- DUMP_COMPLETE (R353, R356): INCOMPLETE, VALID and DUMPV are set, and the region reset starts. -/
def execDumpComplete (r : Nat) (s : State) : Host.Outcome State Fault Refusal :=
  .next (if r ≥ 4 || (s.reg r).stage != .dumping then s
    else
      let g := s.reg r
      let d := s.dump g.slot
      let s1 :=
        if d.region = r ∧ d.recNo = g.recNo then
          let x := dumpBytes s r d
          setRecord (x.2.setDump g.slot { d with valid := true, incomplete := d.gaps, bytes := x.1 }) g.recNo 329 329 1
        else s
      sendHold (holdPorts ((s1.setReg r { g with stage := .reset }).count (kRegCnt r 1) 1) r) r)

/-! ## A region leaves reset (R27, R134, R208, R255, R271, R358, R369) -/

/-- A cell as it leaves reset: stationary sets and accumulators hold 0; its row repair and skew, which the boot self-test gave it, stay (R27,
R87). -/
def resetCell (l : List ArrHw) : List ArrHw :=
  l.map (fun a => { arrDflt with remap := a.remap, skew := a.skew, elastic := a.elastic })

/-- A block as it leaves reset: its cells, its counter banks and its Cutter are empty, its commit list, its trace, its slate and the step it
waits for are kept; a cell whose retirement was decided stays out, and the stand-in takes its position when the substitution ends (R25, R27,
R236, R358; DESIGN CHOICE, log entry 64). -/
def resetBlk (k : Blk) : Blk :=
  { k with
    phase := if k.phase == .awaiting then .awaiting else .idle
    bank0 := bankEmpty, bank1 := bankEmpty, items := [], pass := none, ready := [], nonfin := false, norm := 0, wdt := 0
    parity := [], tiles := [], clkOff := false, ramp := false, sts := [], staged := [], gateOld := none
    cells := k.cells.map (fun (e : Nat × List ArrHw) => (e.1, resetCell e.2)) }

/-- The binding tables of a region are empty, and its pool areas zero-filled (R134). -/
def emptyPools (s : State) (r : Nat) : State :=
  let p := poolSlots s r
  let pooled (a : Nat) : Bool := 0x8000000000 ≤ a &&
    (let c := (a - 0x8000000000) / 0x1000000
     let u := (a - 0x8000000000) % 0x1000000 / 65536
     c / 96 == r && 128 - p ≤ u && u < 128)
  let s1 := dropHeld s (fun h => keyCell h.key / 96 == r)
  { s1 with
    mem := s1.mem.filter (fun e => !pooled e.1)
    binds := s1.binds.filter (fun e => keyCell e.1 / 96 != r)
    back := { s1.back with poison := s1.back.poison.filter (fun w => !pooled (8 * w)) } }

/-- What an exchange that has not been sent on holds is lost with its ALU (R271). -/
def loseXc (c : Xc) : Xc := if c.sent then c else { c with own := none, kids := [] }

def loseXch (x : Xch) : Xch := { x with norm := loseXc x.norm, sigLo := loseXc x.sigLo, sigHi := loseXc x.sigHi }

/-- The reduction ALUs of a region lose their entries (R271). -/
def emptyAlus (s : State) (r : Nat) : State :=
  let here (g : Nat) : Bool := regOfPort (aluPort s g) == r
  let xchs : Sparse Xch := s.xchs.map (fun (e : Nat × Xch) => match grpOfDom s e.1 with
    | some g => if here g then (e.1, loseXch e.2) else e
    | none => e)
  { s with
    xchs := xchs
    fab := { s.fab with
      combs := s.fab.combs.filter (fun c => !here c.grp)
      done := s.fab.done.filter (fun x => regOfPort x.2.2 != r) } }

/-- A port's link layer leaves reset: what its buffers held is lost, a lane change under way is cut short, RESYNC is sent (R255). -/
def linkReset (s0 : State) (p : Nat) : State :=
  let s := laneCut s0 p
  let x := s.port p
  let s1 := s.setPort p { freshLink x with rx := [[], [], []], tx := [], bulkWait := [0, 0, 0], lastSrc := [0, 0, 0, 0, 0, 0], gone := [] }
  if x.st == .disabled then s1 else emitFrame s1 p (s1.port p).txSeq 2 [] []

/-- The work that a domain owes when region r leaves reset: its Cutters' clip passes, its signatures, their walks (R236, R358). -/
def settle (r : Nat) (s : State) (d : Nat) : State :=
  let st := s.stp d
  let mine := (progBlocks s d).filter (fun b => b / 6 == r)
  if !alive s r then s
  else if st.order == .clip then
    (mine.filter (fun b => !mbit st.clipped b)).foldl (fun s b => if alive s r then clipBlock d st.c s b else s) s
  else if st.order == .sig then afterNorm s d
  else if st.order == .decided then tryFinish ((mine.filter (fun b => !mbit st.walked b)).foldl (walkBlock d) s) d
  else s

/-- A region's units load the live take: the layout entries only where it passes through OFFLINE (R36, R132, R325). -/
def loadRegion (s : State) (r : Nat) (offline : Bool) : State :=
  let s1 := s.each (unitsIn r) (fun s u => loadCopies s u (fun k => offline || !isLayoutKey k))
  let s2 := { s1 with mgt := { s1.mgt with apply := s1.mgt.apply.filter (fun p => unitReg p.2 != r) } }
  onApply s s2 5 r

/-- The page moves that a reset cuts: those from, to or for the region. MIG is cleared, and the page stays where it was (DESIGN CHOICE, log
entry 49). -/
def dropMoves (s : State) (r : Nat) : State :=
  let cut := (pageMoves s).filter (fun m => regOfPa s m.2 == r || regOfPa s ((s.dir m.1).addr * 2 ^ 18) == r || (s.dir m.1).owner / 96 == r)
  let s1 := s.each cut (fun s m => s.setDir m.1 { s.dir m.1 with mig := false })
  { s1 with back := { s1.back with pmoves := s1.back.pmoves.filter (fun m => !cut.contains m) } }

/-- The pending layout of a region applied as it passes through OFFLINE (R132). -/
def applyLayout (s : State) (r : Nat) : State :=
  let n := layoutNext s r
  s.setRo (key 0x6002 (0x10 + r)) (256 * n.1 + n.2)

/-- A region leaves reset: its units in their reset state, the live take loaded, ONLINE. One that a chip warm reset found OFFLINE takes the
pending layout with it (R132). -/
def regionUp (s0 : State) (r : Nat) : State :=
  let g := s0.reg r
  let s := if g.wasOff then applyLayout s0 r else s0
  let bs := (List.range 6).map (fun b => 6 * r + b)
  let s1 := bs.foldl (fun s b => takeBank (s.setBlk b (resetBlk (s.blk b))) b) s
  let s2 := emptyAlus (emptyPools s1 r) r
  let s3 := dropMoves s2 r
  let s4 := (portsOf r).foldl linkReset (s3.setReg r (regDflt 0))
  loadRegion s4 r g.wasOff

/-! ## Replay (R162, R357 to R361) -/

/-- A domain torn down by the fault handler, with its record (R352, R358, R359). -/
def faultTeardown (s : State) (d cause : Nat) : State :=
  teardown ((logFault s { level := 3, action := 5, cause := cause, doms := 2 ^ d }).count (kChipCnt 2) 1) d

/-- HOLD and EPEND of every header cleared before a restart (R162). -/
def clearHolds (s : State) (d : Nat) : State :=
  ((s.prog d).hdrs.map (·.1)).foldl (fun s h => s.setHdr d h { s.hdr d h with hold0 := 0, hold1 := 0, epend := false }) s

/-- The next attempt of a domain's step; one that follows an attempt with a transfer is marked (R357, R361). -/
def restartStep (s : State) (d : Nat) : State :=
  let st := s.stp d
  let s1 := s.setStp d { st with rst := true, marked := st.xfer }
  let s2 := startAttempt (clearHolds s1 d) d (st.att + 1)
  if st.xfer then (domNonfin s2 d).count (kChipCnt 7) 1 else s2

/-- A step whose program names a block out of service completes REFUSED with BLOCKS; nothing of it is committed (R360). -/
def refuseStep (s : State) (d : Nat) : State :=
  let st := s.stp d
  let s0 := modCmd s st.ctx (fun c => { c with stepNo := st.no, attempt := st.att, rst := st.rst, dv := st.dv })
  let s1 := (List.range 8).foldl (dropTups d st.no) ((progBlocks s d).foldl (dropBlock d) (endCmd s0 st.ctx 0x10 0x05 []))
  s1.setStp d { s1.stp d with order := .none }

/-- FLT_TRY_MAX in force (R359). -/
def tryMax (s : State) : Nat := s.app 4 (key 0x9000 1)

/-- The running step of an affected domain after a reset. -/
def replayStep (s : State) (d : Nat) : State :=
  let st := s.stp d
  if !preNorm st then s
  else if (progBlocks s d).any (fun b => !bit (s.blk b).map 31) then refuseStep s d
  else if st.att + 1 > tryMax s then faultTeardown s d 0x0E
  else restartStep s d

/-- A running command issued again from its start (R357). -/
def reissueCmd (s : State) (e : Nat × Cmd) : State :=
  let k := e.1
  let c := e.2
  if dOpc c.desc = 0x30 then
    startExport ((List.range 8).foldl (fun s p => s.setPort p { s.port p with tx := (s.port p).tx.filter (fun t => t.src != exportSrc k) }) s)
      c.dom k c.desc
  else if dOpc c.desc = 0x31 then armImport s c.dom k c.desc
  else if dOpc c.desc = 0x32 then (specFreeze c.dom c.desc).run s k
  else s

/-- The admitted commands of a domain that run, in context order. -/
def runningOfDom (s : State) (d : Nat) : List (Nat × Cmd) :=
  s.cp.ctxs.filterMap (fun e => match e.2.cmd with
    | some c => if c.dom == d && c.admitted && c.fin == .running then some (e.1, c) else none
    | none => none)

/-- The replay for one affected domain: a clip pass that was cut tears it down (R358); else its step and its other commands run again. -/
def replayDom (cut : Nat) (s : State) (d : Nat) : State :=
  if (s.dom d).st != .active then s
  else if mbit cut d && (s.stp d).order == .clip then faultTeardown s d 0x11
  else
    let s1 := replayStep s d
    (runningOfDom s1 d).foldl reissueCmd s1

/-- Contexts killed by the reset of their home region, or of the chip, resume fetching (R38, R357). -/
def resumeCtx (home : Nat → Bool) (e : Nat × Ctx) : Nat × Ctx :=
  if e.2.kill == .reset && home e.2.home then (e.1, { e.2 with kill := .no }) else e

def resumeCtxs (s : State) (home : Nat → Bool) : State := { s with cp := { s.cp with ctxs := s.cp.ctxs.map (resumeCtx home) } }

/-- The replay of the affected domains, once what the Cutters of the regions that have been reset owe is done. -/
def replay (s : State) (rs : List Nat) (affected cut : Nat) : State :=
  let s1 := (mlist affected 16).foldl (replayDom cut) s
  rs.foldl (fun s r => (List.range 16).foldl (settle r) s) s1

/-- REGION_RESET_COMPLETE (R27, R357). -/
def execRegionResetComplete (r : Nat) (s : State) : Host.Outcome State Fault Refusal :=
  .next (if r ≥ 4 || (s.reg r).stage != .reset || (s.reg r).st != .resetting || inChipReset s then s
    else
      let g := s.reg r
      resumeCtxs (replay (regionUp s r) [r] g.affected g.cut) (· == r))

/-- REGION_RESET_OVERRUN (R32): a chip warm reset follows. -/
def execRegionResetOverrun (r : Nat) (s : State) : Host.Outcome State Fault Refusal :=
  .next (if r ≥ 4 || (s.reg r).st != .resetting || inChipReset s then s
    else
      let s1 := (s.count (kChipCnt 1) 1).setReg r { s.reg r with st := .failed }
      chipReset s1 2 r { level := 3, action := 4, cause := 0x0B, region := r })

/-! ## The end of a chip warm reset (R365) -/

/-- A BAR write that was held, applied. -/
def applyHeld (s : State) (i : Instr) : State :=
  match i with
  | .cmdSqDb q v => sqDb q v s
  | .cmdCqDb q v => cqDb q v s
  | .cmdSqBase q completion v => sqBaseWrite q completion v s
  | .cmdQCtl q v => qCtl q v s
  | .barWrite fn off size v => barWrite s fn off size v
  | .mgtMbCtl v => mbCtl v s
  | _ => s

/-- The BAR writes held in the PCIe core, applied in their order. -/
def applyAllHeld (s : State) : State :=
  s.cp.heldBar.foldl applyHeld { s with cp := { s.cp with heldBar := [] } }

/-- CHIP_WARM_RESET_COMPLETE (R87, R89, R365): the cells as the self-test found them, the four regions ONLINE, the replay, the held BAR
writes. Without the reference clock the reset cannot complete (R407). -/
def execChipWarmResetComplete (cells : List CellBoot) (s : State) : Host.Outcome State Fault Refusal :=
  .next (match s.flt.chip with
    | none => s
    | some c =>
      if c.overrun || !s.pwr.refclk || (List.range 4).any (fun r => (s.reg r).stage != .reset) then s
      else
        let s1 := bootCells s cells
        let s2 := loadUnit ([0, 1, 2, 3].foldl regionUp { s1 with flt := { s1.flt with chip := none } }) 4
        applyAllHeld (resumeCtxs (replay s2 [0, 1, 2, 3] 0xFFFF c.cut) (fun _ => true)))

/-- CHIP_WARM_RESET_OVERRUN (R32, R352, R366): ALERT_L is asserted, and the module waits for a cold boot; the mailbox goes on. -/
def execChipWarmResetOverrun (s : State) : Host.Outcome State Fault Refusal :=
  .next (match s.flt.chip with
    | none => s
    | some c =>
      if c.overrun then s
      else
        let s1 := logFault s { level := 3, action := 8, cause := 0x0D, doms := c.affected }
        applyAllHeld { s1 with flt := { s1.flt with chip := some { c with overrun := true } }, pwr := { s1.pwr with coldWait := true } })

/-! ## Region commands (R368) -/

/-- FLT_REGION_CMD of a region. -/
def kRegCmd (r : Nat) : Nat := key 0x9030 r

/-- A region command that a cue has handed over: performed where it is valid in the region's state (Table 12-14), else counted. -/
def regionCmd (s : State) (r v : Nat) (valid : RState → Bool) (f : State → State) : State :=
  if r ≥ 4 || !cmdPending s (kRegCmd r) v then s
  else
    let s1 := { s with mgt := { s.mgt with cmdPend := s.mgt.cmdPend.erase (kRegCmd r, v) } }
    if valid (s.reg r).st then f s1 else s1.count (kRegCnt r 3) 1

/-- A region goes OFFLINE; its ports send HOLD. -/
def goOffline (s : State) (r : Nat) : State :=
  sendHold ((s.setReg r { s.reg r with st := .offline, onlining := false }).count (kRegCnt r 2) 1) r

/-- REGION_OFFLINE (R368): the region drains. -/
def execRegionOffline (r : Nat) (s : State) : Host.Outcome State Fault Refusal :=
  .next (regionCmd s r 1 (· == .online) (fun s => s.setReg r { s.reg r with st := .draining }))

/-- Whether a command of an affected domain is admitted. -/
def drains (s : State) (r : Nat) : Bool :=
  s.cp.ctxs.any (fun e => match e.2.cmd with
    | some c => c.admitted && mbit (regionUse s r) c.dom
    | none => false)

/-- REGION_DRAINED (R368). -/
def execRegionDrained (r : Nat) (s : State) : Host.Outcome State Fault Refusal :=
  .next (if r < 4 && (s.reg r).st == .draining && !drains s r then goOffline s r else s)

/-- REGION_ONLINE (R132, R134, R368): the clocks start, the pending layout is applied, its pools zero and unbound, the live take is loaded. -/
def execRegionOnline (r : Nat) (s : State) : Host.Outcome State Fault Refusal :=
  .next (regionCmd s r 2 (· == .offline) (fun s =>
    let s1 := emptyPools (applyLayout s r) r
    loadRegion (s1.setReg r { s1.reg r with onlining := true }) r true))

/-- REGION_ONLINE_DONE (R255, R325, R368, R369): ONLINE again; its units load the live values of cues struck meanwhile, sequencers take the
selected microcode bank, links resynchronise, Cutters walk where a token came meanwhile. -/
def execRegionOnlineDone (r : Nat) (s : State) : Host.Outcome State Fault Refusal :=
  .next (if r ≥ 4 || (s.reg r).st != .offline || !(s.reg r).onlining then s
    else
      let s1 := s.setReg r { s.reg r with st := .online, onlining := false }
      let s2 := ((List.range 6).map (fun b => 6 * r + b)).foldl takeBank (loadRegion s1 r false)
      (List.range 16).foldl (settle r) ((portsOf r).foldl linkReset s2))

/-- REGION_RESET (R368): killed and reset at once, as for a fault. -/
def execRegionReset (r : Nat) (s : State) : Host.Outcome State Fault Refusal :=
  .next (regionCmd s r 3 (fun x => x == .online || x == .draining)
    (fun s => regionFault s r 3 { level := 2, action := 3, cause := 0x12 }))

/-- FORCE_OFFLINE (R368): OFFLINE at once, without draining. -/
def execForceOffline (r : Nat) (s : State) : Host.Outcome State Fault Refusal :=
  .next (regionCmd s r 4 (fun x => x == .online || x == .draining) (fun s => goOffline s r))

end Sys2Proof.Machine
end

