-- ==== Sys2Proof/Machine/Dispatch.lean ====
section
/-!
DEFINITION. The dispatcher: one arm per command, one direct call of its meaning.
-/

namespace Sys2Proof.Machine

def exec (i : Instr) (s : State) : Host.Outcome State Fault Refusal :=
  match i with
  | .powerUp => Sys2Proof.Machine.execPowerUp s
  | .alwaysOnPowerGood strap katOk recoveryLow cells => Sys2Proof.Machine.execAlwaysOnPowerGood strap katOk recoveryLow cells s
  | .bootLockTimeout => Sys2Proof.Machine.execBootLockTimeout s
  | .railsInRegulation => Sys2Proof.Machine.execRailsInRegulation s
  | .identityKeyReady => Sys2Proof.Machine.execIdentityKeyReady s
  | .memoryTrainingDone => Sys2Proof.Machine.execMemoryTrainingDone s
  | .overvoltage millivolts => Sys2Proof.Machine.execOvervoltage millivolts s
  | .undervoltage => Sys2Proof.Machine.execUndervoltage s
  | .inputInterruption micros => Sys2Proof.Machine.execInputInterruption micros s
  | .currentTrip => Sys2Proof.Machine.execCurrentTrip s
  | .governorEvaluation p u a => Sys2Proof.Machine.execGovernorEvaluation p u a s
  | .governorFastPath => Sys2Proof.Machine.execGovernorFastPath s
  | .thermalEvaluation t0 t1 t2 t3 => Sys2Proof.Machine.execThermalEvaluation t0 t1 t2 t3 s
  | .junctionLimit t0 t1 t2 t3 => Sys2Proof.Machine.execJunctionLimit t0 t1 t2 t3 s
  | .thermalTrip => Sys2Proof.Machine.execThermalTrip s
  | .refclk100Loss => Sys2Proof.Machine.execRefclk100Loss s
  | .pcieRefclkLoss => Sys2Proof.Machine.execPcieRefclkLoss s
  | .pcieRefclkReturn fullRate => Sys2Proof.Machine.execPcieRefclkReturn fullRate s
  | .blockClockStop blk => Sys2Proof.Machine.execBlockClockStop blk s
  | .rampTurn blk ticks => Sys2Proof.Machine.execRampTurn blk ticks s
  | .perstLAssert => Sys2Proof.Machine.execPerstLAssert s
  | .perstLRelease fullRate => Sys2Proof.Machine.execPerstLRelease fullRate s
  | .flr fn => Sys2Proof.Machine.execFlr fn s
  | .cmdSqDb q value => Sys2Proof.Machine.execCmdSqDb q value s
  | .cmdCqDb q value => Sys2Proof.Machine.execCmdCqDb q value s
  | .cmdSqBase q completion value => Sys2Proof.Machine.execCmdSqBase q completion value s
  | .cmdQCtl q value => Sys2Proof.Machine.execCmdQCtl q value s
  | .barWrite fn off size value => Sys2Proof.Machine.execBarWrite fn off size value s
  | .domCreate desc => Sys2Proof.Machine.execDomCreate desc s
  | .domTeardown desc => Sys2Proof.Machine.execDomTeardown desc s
  | .teardownGenAcked x => Sys2Proof.Machine.execTeardownGenAcked x s
  | .domSet desc => Sys2Proof.Machine.execDomSet desc s
  | .qCreate desc => Sys2Proof.Machine.execQCreate desc s
  | .qDelete desc => Sys2Proof.Machine.execQDelete desc s
  | .qReset desc => Sys2Proof.Machine.execQReset desc s
  | .progLoad dom q desc image => Sys2Proof.Machine.execProgLoad dom q desc image s
  | .progUnload dom q desc => Sys2Proof.Machine.execProgUnload dom q desc s
  | .step dom q desc => Sys2Proof.Machine.execStep dom q desc s
  | .copy dom q desc => Sys2Proof.Machine.execCopy dom q desc s
  | .hostWrite dom q desc data => Sys2Proof.Machine.execHostWrite dom q desc data s
  | .hostRead dom q desc dmaOk => Sys2Proof.Machine.execHostRead dom q desc dmaOk s
  | .exportRun dom q desc => Sys2Proof.Machine.execExportRun dom q desc s
  | .importArm dom q desc => Sys2Proof.Machine.execImportArm dom q desc s
  | .freeze dom q desc => Sys2Proof.Machine.execFreeze dom q desc s
  | .grade dom q desc => Sys2Proof.Machine.execGrade dom q desc s
  | .fence dom q desc => Sys2Proof.Machine.execFence dom q desc s
  | .deferredAdmission dom => Sys2Proof.Machine.execDeferredAdmission dom s
  | .commandCompletion q x => Sys2Proof.Machine.execCommandCompletion q x s
  | .coalesceTimer q => Sys2Proof.Machine.execCoalesceTimer q s
  | .stepRelease dom cycles => Sys2Proof.Machine.execStepRelease dom cycles s
  | .signalArrival n => Sys2Proof.Machine.execSignalArrival n s
  | .tile blk pos perf => Sys2Proof.Machine.execTile blk pos perf s
  | .chain blk pos perf => Sys2Proof.Machine.execChain blk pos perf s
  | .tileVec blk pos perf => Sys2Proof.Machine.execTileVec blk pos perf s
  | .recordOpen blk => Sys2Proof.Machine.execRecordOpen blk s
  | .recordClose blk => Sys2Proof.Machine.execRecordClose blk s
  | .mark blk => Sys2Proof.Machine.execMark blk s
  | .survey blk => Sys2Proof.Machine.execSurvey blk s
  | .pass blk => Sys2Proof.Machine.execPass blk s
  | .dir1 blk perf => Sys2Proof.Machine.execDir1 blk perf s
  | .dir2 blk perf => Sys2Proof.Machine.execDir2 blk perf s
  | .finish blk perf => Sys2Proof.Machine.execFinish blk perf s
  | .grdFeed blk => Sys2Proof.Machine.execGrdFeed blk s
  | .grdSolve blk => Sys2Proof.Machine.execGrdSolve blk s
  | .grdFeedSolve blk => Sys2Proof.Machine.execGrdFeedSolve blk s
  | .grdCold blk => Sys2Proof.Machine.execGrdCold blk s
  | .xferWrite blk => Sys2Proof.Machine.execXferWrite blk s
  | .xferRadd blk => Sys2Proof.Machine.execXferRadd blk s
  | .xferSignal blk => Sys2Proof.Machine.execXferSignal blk s
  | .xferTree blk => Sys2Proof.Machine.execXferTree blk s
  | .deferPromotion blk => Sys2Proof.Machine.execDeferPromotion blk s
  | .itemComplete blk n x => Sys2Proof.Machine.execItemComplete blk n x s
  | .bindWaitEnd cell cycles => Sys2Proof.Machine.execBindWaitEnd cell cycles s
  | .spillZeroFillDone cell => Sys2Proof.Machine.execSpillZeroFillDone cell s
  | .blockReport blk => Sys2Proof.Machine.execBlockReport blk s
  | .cutterSlotTake blk perf => Sys2Proof.Machine.execCutterSlotTake blk perf s
  | .stagingArrival blk x => Sys2Proof.Machine.execStagingArrival blk x s
  | .migWaitEnd blk cycles => Sys2Proof.Machine.execMigWaitEnd blk cycles s
  | .pageMove page m => Sys2Proof.Machine.execPageMove page m s
  | .emissionResume blk cycles => Sys2Proof.Machine.execEmissionResume blk cycles s
  | .dailyStreamWaitEnd blk cycles => Sys2Proof.Machine.execDailyStreamWaitEnd blk cycles s
  | .clipPassComplete dom => Sys2Proof.Machine.execClipPassComplete dom s
  | .sliceUe cell off mirrorLost => Sys2Proof.Machine.execSliceUe cell off mirrorLost s
  | .parityError blk pos x => Sys2Proof.Machine.execParityError blk pos x s
  | .cellTimeout blk pos worked => Sys2Proof.Machine.execCellTimeout blk pos worked s
  | .substitutionComplete blk => Sys2Proof.Machine.execSubstitutionComplete blk s
  | .dramUe pa => Sys2Proof.Machine.execDramUe pa s
  | .granuleMoveComplete granule => Sys2Proof.Machine.execGranuleMoveComplete granule s
  | .memChRetrain region => Sys2Proof.Machine.execMemChRetrain region s
  | .memChRetire region => Sys2Proof.Machine.execMemChRetire region s
  | .packageEmptied package => Sys2Proof.Machine.execPackageEmptied package s
  | .channelRetrainDone ok => Sys2Proof.Machine.execChannelRetrainDone ok s
  | .degradedRetry channel => Sys2Proof.Machine.execDegradedRetry channel s
  | .scrubLine cell off corrected uncorrectable => Sys2Proof.Machine.execScrubLine cell off corrected uncorrectable s
  | .frameReceive port frame => Sys2Proof.Machine.execFrameReceive port frame s
  | .retryTimeout port => Sys2Proof.Machine.execRetryTimeout port s
  | .laneChange port => Sys2Proof.Machine.execLaneChange port s
  | .fabLaneRecal peerReady => Sys2Proof.Machine.execFabLaneRecal peerReady s
  | .fabLaneRetire => Sys2Proof.Machine.execFabLaneRetire s
  | .laneRecalDone port ok => Sys2Proof.Machine.execLaneRecalDone port ok s
  | .portTrained port => Sys2Proof.Machine.execPortTrained port s
  | .packetSend port cycles => Sys2Proof.Machine.execPacketSend port cycles s
  | .packetForward port cls => Sys2Proof.Machine.execPacketForward port cls s
  | .pktWrite port cls => Sys2Proof.Machine.execPktWrite port cls s
  | .pktRadd port cls => Sys2Proof.Machine.execPktRadd port cls s
  | .pktSignal port cls => Sys2Proof.Machine.execPktSignal port cls s
  | .tup port => Sys2Proof.Machine.execTup port s
  | .tdown port => Sys2Proof.Machine.execTdown port s
  | .xnorm port => Sys2Proof.Machine.execXnorm port s
  | .xnormRes port => Sys2Proof.Machine.execXnormRes port s
  | .xsig port => Sys2Proof.Machine.execXsig port s
  | .xsigRes port => Sys2Proof.Machine.execXsigRes port s
  | .daily port cls => Sys2Proof.Machine.execDaily port cls s
  | .dailyEnd port cls => Sys2Proof.Machine.execDailyEnd port cls s
  | .importPkt port cls => Sys2Proof.Machine.execImportPkt port cls s
  | .importEnd port cls => Sys2Proof.Machine.execImportEnd port cls s
  | .dailyPageStream dom region => Sys2Proof.Machine.execDailyPageStream dom region s
  | .dailyEnginesDone dom => Sys2Proof.Machine.execDailyEnginesDone dom s
  | .feedComplete region slot x => Sys2Proof.Machine.execFeedComplete region slot x s
  | .solveStart region => Sys2Proof.Machine.execSolveStart region s
  | .solveDeadline region stop cycles x => Sys2Proof.Machine.execSolveDeadline region stop cycles x s
  | .solveComplete region cycles x => Sys2Proof.Machine.execSolveComplete region cycles x s
  | .blockHang blk => Sys2Proof.Machine.execBlockHang blk s
  | .graderHang region => Sys2Proof.Machine.execGraderHang region s
  | .hubHang region => Sys2Proof.Machine.execHubHang region s
  | .memCtrlHang region => Sys2Proof.Machine.execMemCtrlHang region s
  | .exchangeHang dom => Sys2Proof.Machine.execExchangeHang dom s
  | .commandUnitHang => Sys2Proof.Machine.execCommandUnitHang s
  | .firmwareHang => Sys2Proof.Machine.execFirmwareHang s
  | .firmwareFallback => Sys2Proof.Machine.execFirmwareFallback s
  | .clapperIn nanos => Sys2Proof.Machine.execClapperIn nanos s
  | .fltClapCmd src value => Sys2Proof.Machine.execFltClapCmd src value s
  | .dumpStart region incomplete => Sys2Proof.Machine.execDumpStart region incomplete s
  | .dumpComplete region => Sys2Proof.Machine.execDumpComplete region s
  | .regionResetComplete region => Sys2Proof.Machine.execRegionResetComplete region s
  | .regionResetOverrun region => Sys2Proof.Machine.execRegionResetOverrun region s
  | .chipWarmResetComplete cells => Sys2Proof.Machine.execChipWarmResetComplete cells s
  | .chipWarmResetOverrun => Sys2Proof.Machine.execChipWarmResetOverrun s
  | .fltLogAck src value => Sys2Proof.Machine.execFltLogAck src value s
  | .fltDumpRel src slot value => Sys2Proof.Machine.execFltDumpRel src slot value s
  | .regionOffline region => Sys2Proof.Machine.execRegionOffline region s
  | .regionDrained region => Sys2Proof.Machine.execRegionDrained region s
  | .regionOnline region => Sys2Proof.Machine.execRegionOnline region s
  | .regionOnlineDone region => Sys2Proof.Machine.execRegionOnlineDone region s
  | .regionReset region => Sys2Proof.Machine.execRegionReset region s
  | .forceOffline region => Sys2Proof.Machine.execForceOffline region s
  | .ucodeVerify src => Sys2Proof.Machine.execUcodeVerify src s
  | .ucodeVerifyDone => Sys2Proof.Machine.execUcodeVerifyDone s
  | .ucodeArm src => Sys2Proof.Machine.execUcodeArm src s
  | .ucodeArmDone => Sys2Proof.Machine.execUcodeArmDone s
  | .ucodeRevert src => Sys2Proof.Machine.execUcodeRevert src s
  | .dictMessage src udpPort x => Sys2Proof.Machine.execDictMessage src udpPort x s
  | .read src op => Sys2Proof.Machine.execRead src op s
  | .write src op => Sys2Proof.Machine.execWrite src op s
  | .describe src op => Sys2Proof.Machine.execDescribe src op s
  | .mgtMbCtl value => Sys2Proof.Machine.execMgtMbCtl value s
  | .mgtCue src value => Sys2Proof.Machine.execMgtCue src value s
  | .cueApply group x => Sys2Proof.Machine.execCueApply group x s
  | .takeRevert src => Sys2Proof.Machine.execTakeRevert src s
  | .takeDiscard src => Sys2Proof.Machine.execTakeDiscard src s
  | .takeDefaults src => Sys2Proof.Machine.execTakeDefaults src s
  | .takeStoreWriteDone ok => Sys2Proof.Machine.execTakeStoreWriteDone ok s
  | .configSweepStart => Sys2Proof.Machine.execConfigSweepStart s
  | .configSweepComplete => Sys2Proof.Machine.execConfigSweepComplete s
  | .cutLsWrite src sub value => Sys2Proof.Machine.execCutLsWrite src sub value s
  | .plcaBeacon => Sys2Proof.Machine.execPlcaBeacon s
  | .beaconTimeout => Sys2Proof.Machine.execBeaconTimeout s
  | .duplicateAddressDetection answered => Sys2Proof.Machine.execDuplicateAddressDetection answered s
  | .icmpv6Request kind peer payload => Sys2Proof.Machine.execIcmpv6Request kind peer payload s
  | .secBootLock src value => Sys2Proof.Machine.execSecBootLock src value s
  | .secPolicyNext src value => Sys2Proof.Machine.execSecPolicyNext src value s
  | .secIdeCtl src value => Sys2Proof.Machine.execSecIdeCtl src value s
  | .secFwVerify src => Sys2Proof.Machine.execSecFwVerify src s
  | .secFwVerifyDone => Sys2Proof.Machine.execSecFwVerifyDone s
  | .secFwSwitch src => Sys2Proof.Machine.execSecFwSwitch src s
  | .secFwClear src => Sys2Proof.Machine.execSecFwClear src s
  | .trialConfirm => Sys2Proof.Machine.execTrialConfirm s
  | .getVersion => Sys2Proof.Machine.execGetVersion s
  | .getCapabilities => Sys2Proof.Machine.execGetCapabilities s
  | .negotiateAlgorithms asym hash => Sys2Proof.Machine.execNegotiateAlgorithms asym hash s
  | .getDigests => Sys2Proof.Machine.execGetDigests s
  | .getCertificate slot off len => Sys2Proof.Machine.execGetCertificate slot off len s
  | .challenge slot nonce => Sys2Proof.Machine.execChallenge slot nonce s
  | .getMeasurements index signed nonce => Sys2Proof.Machine.execGetMeasurements index signed nonce s
  | .laneLoss lane => Sys2Proof.Machine.execLaneLoss lane s
  | .inputLow enter => Sys2Proof.Machine.execInputLow enter s
  | .pcieLinkDown => Sys2Proof.Machine.execPcieLinkDown s
  | .chipLevelUnitFault detail => Sys2Proof.Machine.execChipLevelUnitFault detail s
  | .firmwareHeartbeat => Sys2Proof.Machine.execFirmwareHeartbeat s

end Sys2Proof.Machine
end

