-- ==== Sys2Proof/Safety.lean ====
section
/-!
DEFINITION. What the claims about whole runs are stated in: the invariants of the power domain, of memory and of the context
ranges; the words of the claims about single commands: which item a block starts, what a command of a domain queue passes before it runs;
and what each command may change.
-/

namespace Sys2Proof.Machine

/-! ## Invariants -/

/-- A legal step of the main clock (R400). -/
def legalStep (n : Nat) : Prop := 28 ≤ n ∧ n ≤ 56

/-- The supply and the rails agree: both step registers are legal (R400, R402, R412); the data-plane rails are on only with the always-on
rails up and SEC_BOOT_LOCK set (Table 14-3); secure mode needs the always-on rails; after a trip or an overvoltage the data-plane rails are
off and the module waits for a cold boot (R394, R413). -/
structure PowerOk (s : State) : Prop where
  gov : legalStep s.pwr.nGov
  therm : legalStep s.pwr.nTherm
  locked : s.pwr.rails ≠ .off → s.pwr.supply = .on ∧ s.sec.lock = true
  secure : s.sec.phase = .secure → s.pwr.supply = .on
  tripped : s.pwr.tripped = true ∨ s.pwr.ov = true → s.pwr.rails = .off ∧ s.pwr.coldWait = true

/-- Memory is in its canonical form: addresses strictly rising, no listed byte equal to what an unlisted address reads as. -/
def MemoryOk (s : State) : Prop := spWf zeroByte s.mem = true

/-- A context lies in the range of a domain that is not FREE (R287, R289). -/
def holdsCtx (s : State) (d k : Nat) : Prop :=
  (s.dom d).st ≠ .free ∧ (s.dom d).qbase ≤ k ∧ k < (s.dom d).qbase + (s.dom d).qcount

/-- No context belongs to two domains (R289). -/
def RangesOk (s : State) : Prop :=
  ∀ d e k, d < 16 → e < 16 → holdsCtx s d k → holdsCtx s e k → d = e

/-! ## Words of the claims -/

/-- Item i of list l is the one that block b starts next (R157). -/
structure StartsNext (s : State) (b l i : Nat) (it : Item) : Prop where
  runs : blkRuns s b = true
  next : nextItem s b = some (l, i)
  item : (listOf s b l)[i]? = some it

/-- The state in which that item has started: its start is traced, the item is running, the block's watchdog has been reset (R157, R177,
R343). -/
def started (s : State) (b l i : Nat) : State :=
  let s1 := traceItem s b l i 1
  let k := s1.blk b
  s1.setBlk b { k with items := spSet itemDflt k.items (itemKey l i) { k.item l i with st := .running }, wdt := 0 }

/-- A command at the head of local queue q of domain d is read from its ring (R296), passes every check of R301 in context k, and no fence holds
it. -/
structure Admissible (s : State) (d q k desc : Nat) (x : CmdSpec) : Prop where
  ctx : ctxOf s (.dom d q) = some k
  fetch : canFetch s k = true
  read : fetchFails desc = false
  opc : dOpc desc = x.opc
  clean : descClean desc = true
  range : x.inRange = true
  quota : x.cost ≤ (s.dom d).quota
  static : x.static s k = none
  drains : x.opc = 0x10 → stepDrains s d = false
  credits : creditsFit s d x.cost = true
  fence : fenced s d k (s.dom d).deferOrder desc = false

/-- The command as it stands in its context from its fetch on. -/
def cmdAt (s : State) (d q desc : Nat) (x : CmdSpec) : Cmd := { cmdOf d q desc x.cost (s.dom d).deferOrder with data := x.pay }

/-- A request of a source reaches the dictionary, and a WRITE of it is not turned away by its transport (R315, R335, R379, R384). -/
structure MayWrite (s : State) (src : Source) : Prop where
  reach : reaches s src = true
  normal : s.sec.phase ≠ .recovery
  segment : ∀ a p m, src = .t1s a p m → m = false ∧ s.sec.t1sWr ≠ 0

/-- The master may see and write protected entries at index i (R314 to R317). -/
def Trusted (s : State) (src : Source) (i : Nat) : Prop := classAt s src i ≠ .ordinary

/-- The state after a WRITE row has changed the state as `t` says: the operation is counted, and the response with a status leaves to its
source (R318, R333). -/
def answered (t : State) (src : Source) (op : DictOp) (status : Nat) : State :=
  ((t.countIf (status == 0) (kDict 1)).countIf (status != 0) (kDict 2)).emit (.dict src (opReply 2 status op []))

/-- An admin command of an opcode stands at the head of the admin queue, is read from its ring, and its descriptor is clean (R290, R296). -/
structure AdminReady (s : State) (opc desc : Nat) : Prop where
  fetch : canFetch s adminKey = true
  read : fetchFails desc = false
  opc : dOpc desc = opc
  clean : descClean desc = true

/-- The state after an admin command whose effect gave `t`: the command has been taken off its ring and stands in the admin context as `fin`
says (R290). -/
def adminTaken (t : State) (desc : Nat) (fin : Fin) : State :=
  (t.setCtx adminKey { advance (t.ctx adminKey) with cmd := some { cmdOf 16 0 desc 0 0 with fin := fin } }).count (kCmdPerf 0) 1

/-- A BAR write reaches the module and is performed at once (R286, R365). -/
def BarOpen (s : State) : Prop := hostUp s = true ∧ barHeld s = false

/-- The command of a context ended with a status and a reason, its record yet to be written. -/
def EndedWith (s : State) (k status reason : Nat) : Prop :=
  ∃ c, (s.ctx k).cmd = some c ∧ c.fin = .ended status reason

/-! ## Where commands store -/

/-- The physical address of the byte at a module address, where it does not lie in a REDUCE segment (R124). -/
def byteAt (s : State) (d a : Nat) : Option Nat :=
  match maLoc s d a with
  | .pa x => some x
  | _ => none

/-- A physical address lies in one of some physical ranges. -/
def InRanges (rs : List (Nat × Nat)) (x : Nat) : Prop := ∃ r ∈ rs, r.1 ≤ x ∧ x < r.1 + r.2

/-- A physical address lies in a slot's 64 KiB: where it is bound, or, unbound, where it may come to be bound: in a pool slot of its cell, or
spilled (R134). -/
def InSlot (s : State) (key x : Nat) : Prop :=
  match s.bind key with
  | some b => InRanges [(slotBase s key b, 65536)] x
  | none => InRanges [(spillBase s key, 65536)] x ∨ ∃ p, p < poolFor s (keyCell key) ∧ InRanges [(poolBase s (keyCell key) p, 65536)] x

/-- A physical address holds a byte of some ranges of module addresses of a domain: where R124 places it, or in its slot's 64 KiB. -/
def InStore (s : State) (d : Nat) (rs : List (Nat × Nat)) (x : Nat) : Prop :=
  ∃ r ∈ rs, ∃ i, i < r.2 ∧ (byteAt s d (r.1 + i) = some x ∨ ∃ key off, maLoc s d (r.1 + i) = .slot key off ∧ InSlot s key x)

/-- Every byte of memory outside some ranges of module addresses of a domain, and outside some physical ranges, reads in `t` as in `s`. -/
def StoresOnly (s t : State) (d : Nat) (rs ps : List (Nat × Nat)) : Prop :=
  ∀ x, ¬ InStore s d rs x → ¬ InRanges ps x → t.rd x = s.rd x

/-- The bytes `bs` stand at module address `a` of a domain, in every place that no other of them shares. -/
def StoredAt (s t : State) (d a : Nat) (bs : List Byte) : Prop :=
  ∀ i x, i < bs.length → byteAt s d (a + i) = some x → (∀ j, j < bs.length → j ≠ i → byteAt s d (a + j) ≠ some x) →
    t.rd x = bs.getD i 0

/-- The 32 scale bytes of the block at a module address (R129). -/
def scaleRange (s : State) (d a : Nat) : List (Nat × Nat) :=
  let g := segAt s d a
  if hasScales g (maOff a) then [(scaleAt g (maOff a) (blockBytes (segFmt g)), 32)] else []

/-- Where a chain stores: the outputs that go to memory, and the reduction's results. -/
def chainDest (s : State) (dom : Nat) (c : ChainDesc) : List (Nat × Nat) :=
  let r := chainVals s dom c (chainCount s dom c).1
  ((outsOf c).filter (outMem c)).map (fun o => (c.outAddr.getD o 0, (outLine s dom c r o).blk.bytes.length))
    ++ (if c.redMode = 0 then [] else [(c.redAddr, 4 * (reduce c (r.res.getD c.redSrc [])).1.length)])

/-- The scale bytes of those outputs. -/
def chainScaleDest (s : State) (dom : Nat) (c : ChainDesc) : List (Nat × Nat) :=
  let r := chainVals s dom c (chainCount s dom c).1
  ((outsOf c).filter (outMem c)).flatMap (fun o =>
    let l := outLine s dom c r o
    (List.range ((l.blk.scales.length + 31) / 32)).flatMap (fun k => scaleRange s dom (ma (c.outAddr.getD o 0 + k * blockBytes l.fmt))))

/-- The block that a tile operation drains to, for an output place: under EMA in the copy that is not current (R83, R84). -/
def drainDest (s : State) (dom : Nat) (t : TileDesc) (p : Place) : Nat × Nat :=
  if t.drain = 2 then (oAt t (if bit (mapHdr s dom t) 63 then t.oAddr else t.altAddr) p, 4096)
  else (oAt t t.oAddr p, if t.drain = 1 then 4096 else blockBytes (fO t))

/-- Where a tile operation stores: its output blocks, under EMA the map's header and their entries, and its record. -/
def tileDest (s : State) (dom : Nat) (t : TileDesc) : List (Nat × Nat) :=
  let h := mapHdr s dom t
  let ps := tilePlaces t (bits h 47 32)
  ps.map (drainDest s dom t) ++ (if t.drain = 2 then (t.fmapAddr, 8) :: ps.map (fun p => (entryOf t h p, 8)) else [])
    ++ (if ps.isEmpty then [] else [(t.recAddr, 128)])

/-- The scale bytes of its output blocks. -/
def tileScaleDest (s : State) (dom : Nat) (t : TileDesc) : List (Nat × Nat) :=
  (tilePlaces t (bits (mapHdr s dom t) 47 32)).flatMap (fun p => scaleRange s dom (drainDest s dom t p).1)

/-- What the chain of a TILE_VEC item leaves: its tile operation runs in that state (R113). -/
def chainFirst (s : State) (b pos i : Nat) (it : Item) : State :=
  (runChain s b pos (s.blk b).dom (srcOf b pos i) it.chain (some it.tile)).st

/-- Where the operations that DIR1 or DIR2 generates store: DTMP, or DOUT (R223). -/
def dirDest (s : State) (b d : Nat) (p : PassDesc) (two : Bool) : List (Nat × Nat) :=
  (dirBlocks s b d p).map (fun x => if two then (ma (p.dout + x.2 * 4096), 4096) else (ma (p.dtmp + x.2 * 2048), 2048))

/-- Where a page of a program lies: its two reels of 128 KiB (R126, R214). -/
def pageAt (s : State) (r : PageRow) : Nat := (s.dir r.page).addr * 2 ^ 18

/-- Where the emission of page slot n into a buffer stores: the page's blocks of the buffer, and the record of that buffer (R173, R228). -/
def emitDest (s : State) (d : Nat) (p : PassDesc) (buf n : Nat) : List (Nat × Nat) :=
  let sn := (s.hdr d p.wchdr).seg buf
  let w := blockBytes (segFmt (s.seg d sn))
  ((List.range 16).map (fun i => (sn * 2 ^ 28 + (n * 16 + i) * w, w))) ++ segRecs s d sn

/-- The scale bytes of those blocks. -/
def emitScaleDest (s : State) (d : Nat) (p : PassDesc) (buf n : Nat) : List (Nat × Nat) :=
  let sn := (s.hdr d p.wchdr).seg buf
  (List.range 16).flatMap (fun i => scaleRange s d (sn * 2 ^ 28 + (n * 16 + i) * blockBytes (segFmt (s.seg d sn))))

/-- Where the Cutter stores for page slot n of a layer, in module addresses: the page's place in DIN (R220), its stage slot of a daily (R277), its
emission. -/
def pageDest (s : State) (d : Nat) (p : PassDesc) (n : Nat) : List (Nat × Nat) :=
  (ma (p.din + 2 * 16384 * n), 32768) :: (stageAt s (s.dir (p.page0 + n)).dom (pageRank s (s.dir (p.page0 + n)).dom (p.page0 + n)), 0x20000)
    :: emitDest s d p (emitBuf s d p) n

/-- And in physical addresses: the other reel of the page, never the committed one (R214), and the emission's scale bytes. -/
def reelDest (s : State) (d : Nat) (p : PassDesc) (n : Nat) : List (Nat × Nat) :=
  (reelAt (s.dir (p.page0 + n)) (s.dir (p.page0 + n)).other, 0x20000) :: emitScaleDest s d p (emitBuf s d p) n

/-- Where an IMPORT packet of page slot n stores, the reel apart: its working copy in the buffer that is current (R240). -/
def importDest (s : State) (d page : Nat) : List (Nat × Nat) :=
  match lastPass s d (blkOfCell (s.dir page).owner) (s.dir page).layer with
  | some p => emitDest s d p (s.hdr d p.wchdr).vcur (page - p.page0)
  | none => []

/-- And in physical addresses: the committed reel of the page, and the scale bytes of its working copy. -/
def importReelDest (s : State) (d page : Nat) : List (Nat × Nat) :=
  (reelAt (s.dir page) (s.dir page).cur, 0x20000) ::
    match lastPass s d (blkOfCell (s.dir page).owner) (s.dir page).layer with
    | some p => emitScaleDest s d p (s.hdr d p.wchdr).vcur (page - p.page0)
    | none => []

/-- Where a feed of a Grader slot stores: both mirror tiles and the entry of every upper tile (R187). -/
def feedDest (x : GSlot) : List (Nat × Nat) :=
  (feedTiles x.prob).flatMap (fun t =>
    let at' (i j : Nat) : Nat × Nat := (ma (entMirror t.1 + (i * entNB t.1 + j) * 4096), 4096)
    [at' t.2.1 t.2.2, at' t.2.2 t.2.1, (tileEntry t.1 t.2, 8)])

/-- Where the running solve of a slot stores: the results of its new blocks and the blocks that it carries, in the copy that is not current;
and the header, where a held feed starts at its end (R186, R205). -/
def solveDest (s : State) (x : GSlot) (news : List (Nat × BlkOut)) (carry : List Nat) : List (Nat × Nat) :=
  let new := 1 - b2n (bit (slotHdr s x) 510)
  news.map (fun o => (entRes o.1 new, (resultBytes x.prob o.2.att).1.length)) ++ carry.map (fun e => (entRes e new, resBytes x.prob e))
    ++ (if x.feedHeld then [(x.prob.rhdr, 64)] else [])

/-! ## What a command may change -/

/-- The parts of State that frames tell apart. -/
inductive Part where
  | pending | ticks | evt | free | out | pwr | sec | mgt | ro
  | log | head | ack | dumps | clap | regs | chip | ucode | pins
  | doms | ctxs | ress | msix | heldBar | progs | steps | segs | blks
  | sigs | mem | dirs | binds | back | grds | fab | xchs | days
  deriving DecidableEq, Repr

/-- `t` agrees with `s` in every part outside `w`. -/
structure Frame (w : List Part) (s t : State) : Prop where
  pending : .pending ∉ w → t.pending = s.pending
  ticks : .ticks ∉ w → t.ticks = s.ticks
  evt : .evt ∉ w → t.evt = s.evt
  free : .free ∉ w → t.free = s.free
  out : .out ∉ w → t.out = s.out
  pwr : .pwr ∉ w → t.pwr = s.pwr
  sec : .sec ∉ w → t.sec = s.sec
  mgt : .mgt ∉ w → t.mgt = s.mgt
  ro : .ro ∉ w → t.ro = s.ro
  log : .log ∉ w → t.flt.log = s.flt.log
  head : .head ∉ w → t.flt.head = s.flt.head
  ack : .ack ∉ w → t.flt.ack = s.flt.ack
  dumps : .dumps ∉ w → t.flt.dumps = s.flt.dumps ∧ t.flt.dumpOrder = s.flt.dumpOrder
  clap : .clap ∉ w → t.flt.clapSeq = s.flt.clapSeq ∧ t.flt.strike = s.flt.strike ∧ t.flt.clapOut = s.flt.clapOut
  regs : .regs ∉ w → t.flt.regs = s.flt.regs
  chip : .chip ∉ w → t.flt.chip = s.flt.chip
  ucode : .ucode ∉ w → t.flt.ustage = s.flt.ustage ∧ t.flt.usts = s.flt.usts ∧ t.flt.usel = s.flt.usel ∧
    t.flt.uswap = s.flt.uswap ∧ t.flt.ubank0 = s.flt.ubank0 ∧ t.flt.ubank1 = s.flt.ubank1
  pins : .pins ∉ w → t.cp.pcieRef = s.cp.pcieRef ∧ t.cp.perst = s.cp.perst ∧ t.cp.link = s.cp.link
  doms : .doms ∉ w → t.cp.doms = s.cp.doms
  ctxs : .ctxs ∉ w → t.cp.ctxs = s.cp.ctxs
  ress : .ress ∉ w → t.cp.ress = s.cp.ress
  msix : .msix ∉ w → t.cp.msix = s.cp.msix
  heldBar : .heldBar ∉ w → t.cp.heldBar = s.cp.heldBar
  progs : .progs ∉ w → t.progs = s.progs
  steps : .steps ∉ w → t.steps = s.steps
  segs : .segs ∉ w → t.segs = s.segs
  blks : .blks ∉ w → t.blks = s.blks
  sigs : .sigs ∉ w → t.sigs = s.sigs
  mem : .mem ∉ w → t.mem = s.mem
  dirs : .dirs ∉ w → t.dirs = s.dirs
  binds : .binds ∉ w → t.binds = s.binds
  back : .back ∉ w → t.back = s.back
  grds : .grds ∉ w → t.grds = s.grds
  fab : .fab ∉ w → t.fab = s.fab
  xchs : .xchs ∉ w → t.xchs = s.xchs
  days : .days ∉ w → t.days = s.days

/-- The parts of State that a command may change, the queue apart. -/
def mayChange : Instr → List Part
  | .powerUp => [.pwr]
  | .alwaysOnPowerGood .. => [.ticks, .pwr, .sec, .mgt, .ro, .blks]
  | .bootLockTimeout => [.pwr, .sec, .mgt]
  | .railsInRegulation => [.free, .pwr, .sec, .ro, .log, .head, .ucode, .pins, .blks]
  | .identityKeyReady => [.sec]
  | .memoryTrainingDone => [.pwr, .ro, .fab]
  | .overvoltage .. => [.pwr, .sec, .pins, .doms, .ctxs, .ress, .msix, .heldBar, .progs, .steps, .segs, .blks, .sigs, .mem, .dirs, .binds,
      .back, .grds, .fab, .xchs, .days]
  | .undervoltage => [.ticks, .free, .pwr, .sec, .mgt, .ro, .log, .head, .ack, .dumps, .clap, .regs, .chip, .ucode, .pins, .doms, .ctxs, .ress,
      .msix, .heldBar, .progs, .steps, .segs, .blks, .sigs, .mem, .dirs, .binds, .back, .grds, .fab, .xchs, .days]
  | .inputInterruption .. => [.ro]
  | .currentTrip => [.ticks, .free, .pwr, .sec, .mgt, .ro, .log, .head, .ack, .dumps, .clap, .regs, .chip, .ucode, .pins, .doms, .ctxs, .ress,
      .msix, .heldBar, .progs, .steps, .segs, .blks, .sigs, .mem, .dirs, .binds, .back, .grds, .fab, .xchs, .days]
  | .governorEvaluation .. => [.pwr, .ro]
  | .governorFastPath => [.pwr, .ro]
  | .thermalEvaluation .. => [.pwr, .ro]
  | .junctionLimit .. => [.pwr, .ro]
  | .thermalTrip => [.pwr, .sec, .pins, .doms, .ctxs, .ress, .msix, .heldBar, .progs, .steps, .segs, .blks, .sigs, .mem, .dirs, .binds,
      .back, .grds, .fab, .xchs, .days]
  | .refclk100Loss => [.pwr, .ro, .log, .head, .clap, .regs, .chip, .ctxs, .steps, .blks, .grds, .fab, .days]
  | .pcieRefclkLoss => [.sec, .pins]
  | .pcieRefclkReturn .. => [.ro, .pins]
  | .blockClockStop .. => [.blks]
  | .rampTurn .. => [.ro, .blks]
  | .perstLAssert => [.sec, .mgt, .ro, .pins, .doms, .ctxs, .ress, .msix, .fab, .days]
  | .perstLRelease .. => [.ro, .pins]
  | .flr .. => [.mgt, .ro, .doms, .ctxs, .ress, .msix, .steps, .blks, .back, .grds, .fab, .xchs, .days]
  | .cmdSqDb .. => [.ro, .clap, .ctxs, .heldBar, .blks]
  | .cmdCqDb .. => [.free, .out, .ro, .clap, .ctxs, .msix, .heldBar, .blks]
  | .cmdSqBase .. => [.ro, .ctxs, .heldBar]
  | .cmdQCtl .. => [.ro, .clap, .ctxs, .heldBar, .blks]
  | .barWrite .. => [.free, .out, .mgt, .ro, .clap, .ctxs, .msix, .heldBar, .blks]
  | .domCreate .. => [.ro, .clap, .doms, .ctxs, .blks]
  | .domTeardown .. => [.ro, .clap, .doms, .ctxs, .ress, .steps, .blks, .back, .grds, .fab, .xchs, .days]
  | .teardownGenAcked .. => [.out, .ro, .clap, .doms, .ctxs, .ress, .msix, .progs, .steps, .segs, .blks, .mem, .dirs, .binds, .back,
      .grds, .xchs, .days]
  | .domSet .. => [.ro, .clap, .doms, .ctxs, .blks]
  | .qCreate .. => [.ro, .clap, .doms, .ctxs, .blks]
  | .qDelete .. => [.ro, .clap, .doms, .ctxs, .ress, .blks]
  | .qReset .. => [.ro, .clap, .ctxs, .blks]
  | .progLoad .. => [.free, .out, .ro, .clap, .doms, .ctxs, .ress, .msix, .progs, .segs, .blks, .mem, .dirs, .back, .grds]
  | .progUnload .. => [.free, .out, .ro, .clap, .doms, .ctxs, .ress, .msix, .progs, .steps, .segs, .blks, .mem, .dirs, .binds, .back, .grds,
      .xchs]
  | .step .. => [.free, .out, .ro, .log, .head, .clap, .regs, .doms, .ctxs, .ress, .msix, .progs, .steps, .blks, .mem, .binds, .back, .grds,
      .fab, .days]
  | .copy .. => [.free, .out, .ro, .log, .head, .clap, .regs, .doms, .ctxs, .ress, .msix, .steps, .blks, .mem, .binds, .back, .grds, .fab, .days]
  | .hostWrite .. => [.free, .out, .ro, .clap, .doms, .ctxs, .ress, .msix, .blks, .mem, .binds, .back]
  | .hostRead .. => [.free, .out, .ro, .log, .head, .clap, .regs, .doms, .ctxs, .ress, .msix, .steps, .blks, .grds, .fab, .days]
  | .exportRun .. => [.free, .out, .ro, .log, .head, .clap, .regs, .doms, .ctxs, .ress, .msix, .steps, .blks, .mem, .dirs, .binds, .back, .grds,
      .fab,
      .days]
  | .importArm .. => [.free, .out, .ro, .clap, .doms, .ctxs, .ress, .msix, .blks, .days]
  | .freeze .. => [.free, .out, .ro, .clap, .doms, .ctxs, .ress, .msix, .blks, .dirs]
  | .grade .. => [.evt, .free, .out, .ro, .clap, .doms, .ctxs, .ress, .msix, .blks, .mem, .binds, .back, .grds]
  | .fence .. => [.free, .out, .ro, .clap, .doms, .ctxs, .ress, .msix, .blks]
  | .deferredAdmission .. => [.evt, .out, .ro, .log, .head, .clap, .regs, .doms, .ctxs, .ress, .progs, .steps, .segs, .blks, .mem, .dirs,
      .binds, .back, .grds, .fab, .xchs, .days]
  | .commandCompletion .. => [.out, .ro, .clap, .doms, .ctxs, .ress, .msix, .blks, .back]
  | .coalesceTimer .. => [.out, .ctxs, .msix]
  | .stepRelease .. => [.evt, .ro, .progs, .steps, .blks, .sigs]
  | .signalArrival .. => [.evt, .ro, .blks, .sigs]
  | .tile .. => [.ro, .log, .head, .clap, .regs, .ctxs, .steps, .blks, .mem, .binds, .back, .grds, .fab, .days]
  | .chain .. => [.ro, .log, .head, .clap, .regs, .ctxs, .steps, .blks, .mem, .binds, .back, .grds, .fab, .days]
  | .tileVec .. => [.ro, .log, .head, .clap, .regs, .ctxs, .steps, .blks, .mem, .binds, .back, .grds, .fab, .days]
  | .recordOpen .. => [.ro, .log, .head, .clap, .regs, .ctxs, .steps, .blks, .mem, .binds, .back, .grds, .fab, .days]
  | .recordClose .. => [.ro, .log, .head, .clap, .regs, .ctxs, .steps, .blks, .mem, .binds, .back, .grds, .fab, .days]
  | .mark .. => [.ro, .blks]
  | .survey .. => [.ro, .log, .head, .clap, .regs, .ctxs, .progs, .steps, .blks, .sigs, .mem, .binds, .back, .grds, .fab, .days]
  | .pass .. => [.ro, .log, .head, .clap, .regs, .ctxs, .progs, .steps, .blks, .grds, .fab, .days]
  | .dir1 .. => [.ro, .log, .head, .clap, .regs, .ctxs, .progs, .steps, .blks, .sigs, .mem, .binds, .back, .grds, .fab, .days]
  | .dir2 .. => [.ro, .log, .head, .clap, .regs, .ctxs, .progs, .steps, .blks, .sigs, .mem, .binds, .back, .grds, .fab, .days]
  | .finish .. => [.ro, .log, .head, .clap, .regs, .ctxs, .progs, .steps, .blks, .sigs, .mem, .binds, .back, .grds, .fab, .days]
  | .grdFeed .. => [.evt, .ro, .ctxs, .blks, .mem, .binds, .back, .grds]
  | .grdSolve .. => [.evt, .ro, .ctxs, .blks, .mem, .binds, .back, .grds]
  | .grdFeedSolve .. => [.evt, .ro, .ctxs, .blks, .mem, .binds, .back, .grds]
  | .grdCold .. => [.evt, .ro, .ctxs, .blks, .mem, .binds, .back, .grds]
  | .xferWrite .. => [.ro, .log, .head, .clap, .regs, .ctxs, .steps, .blks, .sigs, .mem, .binds, .back, .grds, .fab, .days]
  | .xferRadd .. => [.ro, .log, .head, .clap, .regs, .ctxs, .steps, .blks, .sigs, .mem, .binds, .back, .grds, .fab, .days]
  | .xferSignal .. => [.ro, .log, .head, .clap, .regs, .ctxs, .steps, .blks, .sigs, .mem, .binds, .back, .grds, .fab, .days]
  | .xferTree .. => [.ro, .log, .head, .clap, .regs, .ctxs, .steps, .blks, .sigs, .mem, .binds, .back, .grds, .fab, .days]
  | .deferPromotion .. => [.ro, .blks]
  | .itemComplete .. => [.ro, .log, .head, .clap, .regs, .ctxs, .progs, .steps, .blks, .sigs, .mem, .binds, .back, .grds, .fab, .days]
  | .bindWaitEnd .. => [.ro, .ctxs, .blks, .sigs, .mem, .binds, .back]
  | .spillZeroFillDone .. => [.ro, .ctxs, .blks, .sigs, .mem, .binds, .back]
  | .blockReport .. => [.out, .ro, .log, .head, .clap, .regs, .doms, .ctxs, .ress, .progs, .steps, .blks, .mem, .dirs, .binds, .back, .grds,
      .fab, .xchs, .days]
  | .cutterSlotTake .. => [.ro, .log, .head, .clap, .regs, .ctxs, .progs, .steps, .blks, .mem, .dirs, .binds, .back, .grds, .fab, .days]
  | .stagingArrival .. => [.ro, .log, .head, .clap, .regs, .ctxs, .progs, .steps, .blks, .mem, .binds, .back, .grds, .fab, .days]
  | .migWaitEnd .. => [.ro, .log, .head, .clap, .regs, .ctxs, .progs, .steps, .blks, .mem, .binds, .back, .grds, .fab, .days]
  | .pageMove .. => [.ro, .log, .head, .clap, .regs, .ctxs, .steps, .blks, .mem, .dirs, .back, .grds, .fab, .days]
  | .emissionResume .. => [.ro, .log, .head, .clap, .regs, .ctxs, .progs, .steps, .blks, .mem, .binds, .back, .grds, .fab, .days]
  | .dailyStreamWaitEnd .. => [.ro, .log, .head, .clap, .regs, .ctxs, .progs, .steps, .blks, .mem, .binds, .back, .grds, .fab, .days]
  | .clipPassComplete .. => [.out, .ro, .log, .head, .clap, .regs, .doms, .ctxs, .ress, .progs, .steps, .blks, .mem, .dirs, .binds, .back, .grds,
      .fab, .xchs, .days]
  | .sliceUe .. => [.ro, .log, .head, .clap, .regs, .ctxs, .steps, .blks, .grds, .fab, .days]
  | .parityError .. => [.evt, .ro, .log, .head, .clap, .regs, .ctxs, .steps, .blks, .grds, .fab, .days]
  | .cellTimeout .. => [.ro, .log, .head, .clap, .regs, .ctxs, .steps, .blks, .grds, .fab, .days]
  | .substitutionComplete .. => [.evt, .ro, .log, .head, .blks]
  | .dramUe .. => [.ro, .log, .head, .clap, .regs, .doms, .ctxs, .ress, .steps, .blks, .back, .grds, .fab, .xchs, .days]
  | .granuleMoveComplete .. => [.back]
  | .memChRetrain .. => [.mgt, .ro, .back]
  | .memChRetire .. => [.mgt, .ro, .back]
  | .packageEmptied .. => [.ro, .back]
  | .channelRetrainDone .. => [.ro, .back]
  | .degradedRetry .. => [.ro, .back]
  | .scrubLine .. => [.ro, .back]
  | .frameReceive .. => [.out, .ro, .log, .head, .clap, .regs, .ctxs, .steps, .blks, .grds, .fab, .days]
  | .retryTimeout .. => [.out, .ro, .log, .head, .clap, .regs, .ctxs, .steps, .blks, .grds, .fab, .days]
  | .laneChange .. => [.out, .ro, .fab]
  | .fabLaneRecal .. => [.out, .mgt, .ro, .fab]
  | .fabLaneRetire => [.free, .out, .mgt, .ro, .fab]
  | .laneRecalDone .. => [.out, .ro, .fab]
  | .portTrained .. => [.ro, .fab]
  | .packetSend .. => [.out, .ro, .doms, .ctxs, .ress, .blks, .fab]
  | .packetForward .. => [.out, .ro, .fab]
  | .pktWrite .. => [.out, .ro, .log, .head, .clap, .regs, .ctxs, .steps, .blks, .sigs, .mem, .binds, .back, .grds, .fab, .days]
  | .pktRadd .. => [.out, .ro, .log, .head, .clap, .regs, .ctxs, .steps, .blks, .sigs, .mem, .binds, .back, .grds, .fab, .days]
  | .pktSignal .. => [.out, .ro, .log, .head, .clap, .regs, .ctxs, .steps, .blks, .sigs, .mem, .binds, .back, .grds, .fab, .days]
  | .tup .. => [.out, .ro, .log, .head, .clap, .regs, .ctxs, .steps, .blks, .sigs, .mem, .binds, .back, .grds, .fab, .days]
  | .tdown .. => [.out, .ro, .log, .head, .clap, .regs, .ctxs, .steps, .blks, .sigs, .mem, .binds, .back, .grds, .fab, .days]
  | .xnorm .. => [.out, .ro, .log, .head, .clap, .regs, .doms, .ctxs, .ress, .progs, .steps, .blks, .mem, .dirs, .binds, .back, .grds, .fab,
      .xchs, .days]
  | .xnormRes .. => [.out, .ro, .log, .head, .clap, .regs, .doms, .ctxs, .ress, .progs, .steps, .blks, .mem, .dirs, .binds, .back, .grds, .fab,
      .xchs, .days]
  | .xsig .. => [.out, .ro, .log, .head, .clap, .regs, .doms, .ctxs, .ress, .progs, .steps, .blks, .mem, .dirs, .binds, .back, .grds, .fab,
      .xchs, .days]
  | .xsigRes .. => [.out, .ro, .log, .head, .clap, .regs, .doms, .ctxs, .ress, .progs, .steps, .blks, .mem, .dirs, .binds, .back, .grds, .fab,
      .xchs, .days]
  | .daily .. => [.out, .ro, .ctxs, .blks, .mem, .binds, .back, .fab, .days]
  | .dailyEnd .. => [.out, .ro, .fab, .days]
  | .importPkt .. => [.out, .ro, .log, .head, .clap, .regs, .doms, .ctxs, .ress, .steps, .blks, .mem, .dirs, .binds, .back, .grds, .fab, .days]
  | .importEnd .. => [.out, .ro, .doms, .ctxs, .ress, .fab, .days]
  | .dailyPageStream .. => [.ro, .log, .head, .clap, .regs, .ctxs, .steps, .blks, .mem, .binds, .back, .grds, .fab, .days]
  | .dailyEnginesDone .. => [.ro, .fab, .days]
  | .feedComplete .. => [.ro, .log, .head, .clap, .regs, .ctxs, .steps, .blks, .mem, .binds, .back, .grds, .fab, .days]
  | .solveStart .. => [.ro, .grds]
  | .solveDeadline .. => [.evt, .free, .ro, .log, .head, .clap, .regs, .ctxs, .steps, .blks, .mem, .binds, .back, .grds, .fab, .days]
  | .solveComplete .. => [.evt, .free, .ro, .log, .head, .clap, .regs, .ctxs, .steps, .blks, .mem, .binds, .back, .grds, .fab, .days]
  | .blockHang .. => [.ro, .log, .head, .clap, .regs, .ctxs, .steps, .blks, .grds, .fab, .days]
  | .graderHang .. => [.ro, .log, .head, .clap, .regs, .ctxs, .steps, .blks, .grds, .fab, .days]
  | .hubHang .. => [.ro, .log, .head, .clap, .regs, .ctxs, .steps, .blks, .grds, .fab, .days]
  | .memCtrlHang .. => [.free, .ro, .log, .head, .clap, .regs, .ctxs, .steps, .blks, .grds, .fab, .days]
  | .exchangeHang .. => [.ro, .log, .head, .clap, .blks, .xchs]
  | .commandUnitHang => [.out, .ro, .log, .head, .clap, .regs, .chip, .ctxs, .steps, .blks, .grds, .fab, .days]
  | .firmwareHang => [.sec, .mgt, .ro, .log, .head]
  | .firmwareFallback => [.sec, .mgt, .ro, .log, .head]
  | .clapperIn .. => [.free, .ro, .clap, .blks]
  | .fltClapCmd .. => [.out, .pwr, .sec, .mgt, .ro, .ack, .dumps, .clap, .ucode, .blks]
  | .dumpStart .. => [.ro, .log, .dumps, .regs]
  | .dumpComplete .. => [.free, .out, .ro, .log, .dumps, .regs, .fab]
  | .regionResetComplete .. => [.evt, .out, .mgt, .ro, .log, .head, .clap, .regs, .doms, .ctxs, .ress, .progs, .steps, .segs, .blks, .mem,
      .dirs, .binds, .back, .grds, .fab, .xchs, .days]
  | .regionResetOverrun .. => [.out, .ro, .log, .head, .clap, .regs, .chip, .ctxs, .steps, .blks, .grds, .fab, .days]
  | .chipWarmResetComplete .. => [.evt, .free, .out, .mgt, .ro, .log, .head, .clap, .regs, .chip, .doms, .ctxs, .ress, .msix, .heldBar, .progs,
      .steps, .segs, .blks, .mem, .dirs, .binds, .back, .grds, .fab, .xchs, .days]
  | .chipWarmResetOverrun => [.free, .out, .pwr, .mgt, .ro, .log, .head, .clap, .chip, .ctxs, .msix, .heldBar, .blks]
  | .fltLogAck .. => [.out, .pwr, .sec, .mgt, .ro, .ack, .dumps, .clap, .ucode, .blks]
  | .fltDumpRel .. => [.out, .pwr, .sec, .mgt, .ro, .ack, .dumps, .clap, .ucode, .blks]
  | .regionOffline .. => [.mgt, .ro, .regs]
  | .regionDrained .. => [.out, .ro, .regs]
  | .regionOnline .. => [.mgt, .ro, .regs, .doms, .ctxs, .ress, .blks, .mem, .binds, .back, .fab]
  | .regionOnlineDone .. => [.out, .mgt, .ro, .log, .head, .clap, .regs, .doms, .ctxs, .ress, .progs, .steps, .blks, .mem, .dirs, .binds, .back,
      .grds, .fab, .xchs, .days]
  | .regionReset .. => [.mgt, .ro, .log, .head, .clap, .regs, .ctxs, .steps, .blks, .grds, .fab, .days]
  | .forceOffline .. => [.out, .mgt, .ro, .regs]
  | .ucodeVerify .. => [.out, .pwr, .sec, .mgt, .ro, .ack, .dumps, .clap, .ucode, .blks]
  | .ucodeVerifyDone => [.ucode]
  | .ucodeArm .. => [.out, .pwr, .sec, .mgt, .ro, .ack, .dumps, .clap, .ucode, .blks]
  | .ucodeArmDone => [.sec, .ucode]
  | .ucodeRevert .. => [.out, .pwr, .sec, .mgt, .ro, .ack, .dumps, .clap, .ucode, .blks]
  | .dictMessage .. => [.out, .pwr, .sec, .mgt, .ro, .ack, .dumps, .clap, .ucode, .msix, .blks]
  | .read .. => [.out, .ro]
  | .write .. => [.out, .pwr, .sec, .mgt, .ro, .ack, .dumps, .clap, .ucode, .blks]
  | .describe .. => [.out, .ro]
  | .mgtMbCtl .. => [.mgt, .ro, .heldBar]
  | .mgtCue .. => [.out, .pwr, .sec, .mgt, .ro, .ack, .dumps, .clap, .ucode, .blks]
  | .cueApply .. => [.mgt, .ro, .doms, .ctxs, .ress, .blks, .grds, .fab]
  | .takeRevert .. => [.out, .pwr, .sec, .mgt, .ro, .ack, .dumps, .clap, .ucode, .blks]
  | .takeDiscard .. => [.out, .pwr, .sec, .mgt, .ro, .ack, .dumps, .clap, .ucode, .blks]
  | .takeDefaults .. => [.out, .pwr, .sec, .mgt, .ro, .ack, .dumps, .clap, .ucode, .blks]
  | .takeStoreWriteDone .. => [.mgt, .ro]
  | .configSweepStart => [.mgt]
  | .configSweepComplete => [.mgt, .ro]
  | .cutLsWrite .. => [.out, .pwr, .sec, .mgt, .ro, .ack, .dumps, .clap, .ucode, .blks]
  | .plcaBeacon => [.mgt]
  | .beaconTimeout => [.mgt, .ro]
  | .duplicateAddressDetection .. => [.out, .mgt, .ro]
  | .icmpv6Request .. => [.out, .ro]
  | .secBootLock .. => [.out, .pwr, .sec, .mgt, .ro, .ack, .dumps, .clap, .ucode, .blks]
  | .secPolicyNext .. => [.out, .pwr, .sec, .mgt, .ro, .ack, .dumps, .clap, .ucode, .blks]
  | .secIdeCtl .. => [.out, .pwr, .sec, .mgt, .ro, .ack, .dumps, .clap, .ucode, .blks]
  | .secFwVerify .. => [.out, .pwr, .sec, .mgt, .ro, .ack, .dumps, .clap, .ucode, .blks]
  | .secFwVerifyDone => [.sec]
  | .secFwSwitch .. => [.out, .pwr, .sec, .mgt, .ro, .ack, .dumps, .clap, .ucode, .blks]
  | .secFwClear .. => [.out, .pwr, .sec, .mgt, .ro, .ack, .dumps, .clap, .ucode, .blks]
  | .trialConfirm => [.sec]
  | .getVersion => [.out]
  | .getCapabilities => [.out]
  | .negotiateAlgorithms .. => [.out, .sec]
  | .getDigests => [.out]
  | .getCertificate .. => [.out]
  | .challenge .. => [.out]
  | .getMeasurements .. => [.out]
  | .laneLoss .. => [.ro, .log, .head, .clap, .regs, .doms, .ctxs, .ress, .steps, .blks, .grds, .fab, .days]
  | .inputLow .. => [.pwr, .ro]
  | .pcieLinkDown => [.sec, .pins]
  | .chipLevelUnitFault .. => [.out, .ro, .log, .head, .clap, .regs, .chip, .ctxs, .steps, .blks, .grds, .fab, .days]
  | .firmwareHeartbeat => [.sec]

end Sys2Proof.Machine
end

