-- ==== Sys2Proof/Certificates/Slice0/Obligations.lean ====
section
/-!
DEFINITION. The statements about the block, one `def Obligations.<Name> : Prop` each. A statement whose docstring names log entries rests on
the model's own choices; the others formalise the rules of the spec that they cite.
-/

open Sys2Proof Sys2Proof.Machine

/-! ## The queue and the whole machine -/

/-- A step takes the command at the front of the queue and runs it with the queue's rest. -/
def Obligations.StepRunsFront : Prop :=
  ∀ (c : Instr) (rest : List Instr) (s : State), s.pending = c :: rest → step s = exec c { s with pending := rest }

/-- With no command waiting, a powered module advances its tick count by one (R404) and a module without power does nothing; a tick
changes only the tick count, the remaining time of CLAPPER_OUT and the block watchdogs, each of which stays, goes up by one, up to
FLT_WDT_TICKS, or, where a unit of its block works on an item, restarts on a progress event (R343; DESIGN CHOICE, log entries 3 and 115). -/
def Obligations.IdleStepIsATick : Prop :=
  ∀ s : State, s.pending = [] →
    (s.pwr.supply ≠ .on → step s = .next s) ∧
    (s.pwr.supply = .on → ∃ bs fr, step s = .next { s with
        ticks := s.ticks + 1, flt := { s.flt with clapOut := s.flt.clapOut - 1 }, blks := bs, free := fr } ∧
      ∀ b, ∃ w, spGet blkDflt bs b = { s.blk b with wdt := w } ∧
        (w = (s.blk b).wdt ∨ w = min ((s.blk b).wdt + 1) (wdtWindow s) ∨ (w = 0 ∧ unitsWork (s.blk b) = true)))

/-- No command is ever refused, and only an input above the absolute maximum of 44.0 V stops the module (R394). -/
def Obligations.EveryCommandIsAnswered : Prop :=
  ∀ (c : Instr) (s : State),
    (∃ t, exec c s = .next t) ∨ (∃ mv, c = .overvoltage mv ∧ 44000 < mv ∧ exec c s = .fault .inputAboveAbsoluteMaximum)

/-- A command acts on everything but the queue: a step leaves exactly the commands that were waiting behind the one it took. -/
def Obligations.StepLeavesTheRest : Prop :=
  ∀ s t : State, step s = .next t → t.pending = s.pending.tail

/-- Every step keeps the power domain sound: both step registers stay within 28 to 56 (R400, R402, R412), the data-plane rails are on only
with the always-on rails up and SEC_BOOT_LOCK set (Table 14-3), and after a trip or an overvoltage they stay off (R394, R413). -/
def Obligations.StepKeepsPowerSound : Prop :=
  ∀ s t : State, PowerOk s → step s = .next t → PowerOk t

/-- Every step keeps memory in its canonical form. -/
def Obligations.StepKeepsMemoryCanonical : Prop :=
  ∀ s t : State, MemoryOk s → step s = .next t → MemoryOk t

/-- R289: every step keeps the context ranges apart, and a context outside every range fetches nothing. -/
def Obligations.ContextRangesStayApart : Prop :=
  (∀ s t : State, RangesOk s → step s = .next t → RangesOk t) ∧
  (∀ (s : State) (k : Nat), k ≠ adminKey → (∀ d, d < 16 → ¬ holdsCtx s d k) → canFetch s k = false)

/-- Each command leaves every part of State outside its list in `mayChange` as it is: READ and DESCRIBE change nothing but counters and the
responses (R312, R334), an SPDM request nothing but the negotiated algorithms and the responses (R387), a clock event of a block only blocks
and counters (R406), a packet no program, directory entry, context range, region or security register (R263), and so on for every command.
-/
def Obligations.CommandsChangeOnlyTheirParts : Prop :=
  ∀ (c : Instr) (s t : State), exec c s = .next t → Frame (mayChange c) s t

/-- The module right after reset meets the three invariants. -/
def Obligations.ResetMeetsInvariants : Prop :=
  PowerOk State.reset ∧ MemoryOk State.reset ∧ RangesOk State.reset

/-! ## Input, power and clocks -/

/-- The 40 V input (R394 to R398): POWER_UP starts the charge; undervoltage and a current trip lose everything but the nonvolatile stores, and a
take image caught in its write stands torn, the image of the take that it replaces beside it (R329; layout: DESIGN CHOICE, log entry 126);
an overvoltage and a thermal trip turn off every rail but the always-on rails, and with the PCIe link down the IDE stream is Insecure (R389); an
interruption of up to 100 µs is ridden through and counted
(R395); entering and leaving the band below 38.0 V sets and clears INPUT_LOW, and each entry is counted (R394). -/
def Obligations.SupplyEventsAct : Prop :=
  (∀ s : State, s.pwr.supply = .off →
    exec .powerUp s = .next { s with pwr := { s.pwr with supply := .charging } }) ∧
  (∀ (s : State) (c : Instr), c = .undervoltage ∨ c = .currentTrip → ∃ t, exec c s = .next t ∧
    t.pwr.supply = .off ∧ t.pwr.rails = .off ∧ t.ticks = 0 ∧ t.mem = [] ∧ t.progs = [] ∧ t.steps = [] ∧ t.cp.ctxs = [] ∧ t.cp.doms = [] ∧
    t.flt = fltReset ∧ t.ro = [] ∧ (s.mgt.nvWrite = none → t.mgt.nv0 = s.mgt.nv0 ∧ t.mgt.nv1 = s.mgt.nv1) ∧
    (s.mgt.nvWrite.isSome = true → t.mgt.nv0.ok = false ∧ (s.mgt.nv0.ok = true → t.mgt.nv1 = s.mgt.nv0)) ∧ t.sec.mono0 = s.sec.mono0 ∧
    (s.sec.floorRaised = false ∨ s.sec.phase ≠ .secure → t.sec.mono1 = s.sec.mono1) ∧ t.sec.fuses = s.sec.fuses ∧
    t.sec.policy = s.sec.policy ∧ t.sec.uarea0 = s.sec.uarea0 ∧ t.sec.uarea1 = s.sec.uarea1) ∧
  (∀ (s : State) (mv : Nat), s.pwr.supply = .on → 43000 < mv → mv ≤ 44000 → ∃ t, exec (.overvoltage mv) s = .next t ∧
    t.pwr = { s.pwr with rails := .off, trained := false, ov := true, coldWait := true } ∧ t.mem = [] ∧
    t.sec = { s.sec with ideFresh := [], ideOn := false } ∧
    t.mgt = s.mgt ∧ t.flt = s.flt ∧ t.ticks = s.ticks ∧ t.ro = s.ro) ∧
  (∀ s : State, s.pwr.supply = .on → ∃ t, exec .thermalTrip s = .next t ∧
    t.pwr = { s.pwr with rails := .off, trained := false, tripped := true, coldWait := true } ∧ t.mem = [] ∧
    t.sec = { s.sec with ideFresh := [], ideOn := false } ∧
    t.mgt = s.mgt ∧ t.flt = s.flt ∧ t.ticks = s.ticks ∧ t.ro = s.ro) ∧
  (∀ (s : State) (us : Nat), s.pwr.supply = .on → us ≤ 100 →
    exec (.inputInterruption us) s = .next (s.count (kPwrCnt 7) 1)) ∧
  (∀ s : State, s.pwr.supply = .on → s.pwr.inputLow = false →
    exec (.inputLow true) s = .next (({ s with pwr := { s.pwr with inputLow := true } }).count (kPwrCnt 6) 1)) ∧
  (∀ s : State, s.pwr.supply = .on →
    exec (.inputLow false) s = .next { s with pwr := { s.pwr with inputLow := false } })

/-- The governor (R402): above PWR_LIMIT one step down, not below 28; below PWR_LIMIT − PWR_HYST for the tenth evaluation in a row one step
up, not above 56; in the band the count restarts; the fast path takes eight steps down. Nothing but the power registers and the counters
changes.
The thermal control (R411, R412): at or above 105.0 °C n_therm falls to 28, above the throttle temperature by two, below it less 3.0 °C
it rises by one; the readings and the hottest are stored; at the junction limit n_therm falls to 28 at the reading itself.
Block clocks (R406, R414): an IDLE block stops its clocks where the PWR_GATE_IDLE that its idle period started with is not 0; of the
blocks that wait for a ramp turn the lowest-numbered one starts again, and the wake and its wait are counted. -/
def Obligations.StepsAndClocksFollowTheirInputs : Prop :=
  (∀ (s : State) (p u i : Word), s.pwr.rails = .up → ∃ t, exec (.governorEvaluation p u i) s = .next t ∧
    (lt32 (f32 (pwrLimit s)) p = true → t.pwr.nGov = max (s.pwr.nGov - 1) 28 ∧ t.pwr.lowCount = 0) ∧
    (lt32 (f32 (pwrLimit s)) p = false → lt32 p (f32 (pwrLimit s - pwrHyst s)) = true → s.pwr.lowCount + 1 = 10 →
      t.pwr.nGov = min (s.pwr.nGov + 1) 56 ∧ t.pwr.lowCount = 0) ∧
    (lt32 (f32 (pwrLimit s)) p = false → lt32 p (f32 (pwrLimit s - pwrHyst s)) = true → s.pwr.lowCount + 1 ≠ 10 →
      t.pwr.nGov = s.pwr.nGov ∧ t.pwr.lowCount = s.pwr.lowCount + 1) ∧
    (lt32 (f32 (pwrLimit s)) p = false → lt32 p (f32 (pwrLimit s - pwrHyst s)) = false →
      t.pwr.nGov = s.pwr.nGov ∧ t.pwr.lowCount = 0) ∧
    t = { s with ro := t.ro, pwr := { s.pwr with nGov := t.pwr.nGov, lowCount := t.pwr.lowCount, pIn := p, uIn := u, iIn := i } }) ∧
  (∀ s : State, s.pwr.rails = .up →
    exec .governorFastPath s =
      .next (({ s with pwr := { s.pwr with nGov := max (s.pwr.nGov - 8) 28, lowCount := 0 } }).count (kPwrCnt 2) 1)) ∧
  (∀ (s : State) (t0 t1 t2 t3 : Word), s.pwr.rails = .up → ∃ t, exec (.thermalEvaluation t0 t1 t2 t3) s = .next t ∧
    t.pwr.tj = [t0, t1, t2, t3, hottest t0 t1 t2 t3] ∧
    (isNaN32 (hottest t0 t1 t2 t3) = false → lt32 (hottest t0 t1 t2 t3) tjMax = false →
      t.pwr.nTherm = 28 ∧ t.pwr.tjLimit = true) ∧
    (lt32 (hottest t0 t1 t2 t3) tjMax = true → lt32 (f32 (pwrThrottle s)) (hottest t0 t1 t2 t3) = true →
      t.pwr.nTherm = max (s.pwr.nTherm - 2) 28 ∧ t.pwr.tjLimit = false) ∧
    (lt32 (hottest t0 t1 t2 t3) tjMax = true → lt32 (f32 (pwrThrottle s)) (hottest t0 t1 t2 t3) = false →
      lt32 (hottest t0 t1 t2 t3) (f32 (pwrThrottle s - 3)) = true →
      t.pwr.nTherm = min (s.pwr.nTherm + 1) 56 ∧ t.pwr.tjLimit = false) ∧
    t = { s with ro := t.ro, pwr := { s.pwr with tj := t.pwr.tj, tjLimit := t.pwr.tjLimit, nTherm := t.pwr.nTherm } }) ∧
  (∀ (s : State) (t0 t1 t2 t3 : Word), s.pwr.rails = .up → isNaN32 (hottest t0 t1 t2 t3) = false →
    lt32 (hottest t0 t1 t2 t3) tjMax = false → ∃ t, exec (.junctionLimit t0 t1 t2 t3) s = .next t ∧ t.pwr.nTherm = 28 ∧
    t.pwr.tjLimit = true ∧ t = { s with ro := t.ro, pwr := { s.pwr with tj := t.pwr.tj, tjLimit := true, nTherm := 28 } }) ∧
  (∀ (s : State) (b : Nat), b < 24 → (s.blk b).phase = .idle → (s.blk b).gateOld.getD (pwrGateIdle s) ≠ 0 → (s.blk b).clkOff = false →
    exec (.blockClockStop b) s = .next (s.setBlk b { s.blk b with clkOff := true })) ∧
  (∀ (s : State) (b ticks : Nat), b < 24 → (s.blk b).clkOff = true → (s.blk b).ramp = true → (∀ c, c < b → (s.blk c).ramp = false) →
    exec (.rampTurn b ticks) s =
      .next (((s.setBlk b { s.blk b with clkOff := false, ramp := false }).count (kPwrCnt 8) 1).count (kPwrCnt 9) ticks))

/-- Reference clocks and the PCIe link, in every state (R284, R377, R389, R407). Losing PCIE_REFCLK or the link takes the link down and makes the
IDE stream Insecure. When PCIE_REFCLK returns, the link trains once PERST_L is released, the boot lock is set and the rails are up, and
a training below x4 at 64 GT/s is counted; otherwise only the reference is back. Losing REFCLK100 starts a chip warm reset with cause 0x0C, and
during one it is contained and counted (R32, R416). A loss of what is lost, and a return of what is there, change nothing. -/
def Obligations.ReferenceClocksAct : Prop :=
  (∀ s : State, s.cp.pcieRef = true → exec .pcieRefclkLoss s = .next { s with
      cp := { s.cp with pcieRef := false, link := false }, sec := { s.sec with ideFresh := [], ideOn := false } }) ∧
  (∀ s : State, s.cp.pcieRef = false → exec .pcieRefclkLoss s = .next s) ∧
  (∀ s : State, exec .pcieLinkDown s = .next { s with
      cp := { s.cp with link := false }, sec := { s.sec with ideFresh := [], ideOn := false } }) ∧
  (∀ s : State, s.cp.pcieRef = false → s.cp.perst = false → s.sec.lock = true → s.pwr.rails = .up →
    exec (.pcieRefclkReturn true) s = .next { s with cp := { s.cp with pcieRef := true, link := true } } ∧
    exec (.pcieRefclkReturn false) s = .next ({ s with cp := { s.cp with pcieRef := true, link := true } }.count (kCmdPerf 7) 1)) ∧
  (∀ (s : State) (full : Bool), s.cp.pcieRef = false → s.cp.perst = true ∨ s.sec.lock = false ∨ s.pwr.rails ≠ .up →
    exec (.pcieRefclkReturn full) s = .next { s with cp := { s.cp with pcieRef := true } }) ∧
  (∀ (s : State) (full : Bool), s.cp.pcieRef = true → exec (.pcieRefclkReturn full) s = .next s) ∧
  (∀ s : State, s.pwr.supply = .on → s.pwr.refclk = true → s.flt.chip = none → ∃ t, exec .refclk100Loss s = .next t ∧
    t.pwr = { s.pwr with refclk := false } ∧ t.flt.chip.isSome = true ∧ t.flt.head = s.flt.head + 1 ∧
    bits (recordAt t t.flt.head) 409 402 = 0x0C ∧ ∀ r, r < 4 → (t.reg r).st = .resetting) ∧
  (∀ s : State, s.pwr.supply = .on → s.pwr.refclk = true → s.flt.chip.isSome = true →
    exec .refclk100Loss s = .next (({ s with pwr := { s.pwr with refclk := false } }).count (kChipCnt 8) 1)) ∧
  (∀ s : State, s.pwr.supply ≠ .on ∨ s.pwr.refclk = false → exec .refclk100Loss s = .next s)

/-! ## Boot and security -/

/-- The boot rows. At always-on power-good the strap is sampled, the tick count starts at 0 and the ROM runs (R377, R392, R404); a failed
known-answer test halts it, so do a failed OTP read and a monotonic record without a valid copy, and FW_RECOVERY_L low leads to recovery
(R377); 10 ms after the firmware's start the lock is set, secure mode ends, and the rails start (R379); the identity key pair becomes ready
(R385); training ends, the data plane accepts work, and each enabled port trains (R377, R397); a lane of another port is DISABLED, unless it
is RETIRED (DESIGN CHOICE, log entry 57). -/
def Obligations.BootProceeds : Prop :=
  (∀ (s : State) (strap : Nat) (otp rec : Bool), s.pwr.supply = .charging → ∃ t,
    exec (.alwaysOnPowerGood strap ⟨false, otp⟩ rec []) s = .next t ∧ t.pwr = { s.pwr with supply := .on } ∧ t.ticks = 0 ∧
    t.sec = { s.sec with strap := strap % 8, phase := .halted, kat := true }) ∧
  (∀ (s : State) (strap : Nat) (otp rec : Bool), s.pwr.supply = .charging →
    otp = false ∨ (s.sec.mono0.valid = false ∧ s.sec.mono1.valid = false) → ∃ t,
    exec (.alwaysOnPowerGood strap ⟨true, otp⟩ rec []) s = .next t ∧ t.sec = { s.sec with strap := strap % 8, phase := .halted }) ∧
  (∀ (s : State) (strap : Nat), s.pwr.supply = .charging → s.sec.mono0.valid = true ∨ s.sec.mono1.valid = true → ∃ t,
    exec (.alwaysOnPowerGood strap ⟨true, true⟩ true []) s = .next t ∧ t.pwr = { s.pwr with supply := .on } ∧ t.ticks = 0 ∧
    t.sec = { s.sec with strap := strap % 8, phase := .recovery, recovPin := true } ∧ t.mgt = { s.mgt with phyOn := true }) ∧
  (∀ (s : State) (strap : Nat) (tests : BootTests) (rec : Bool) (cells : List CellBoot), s.pwr.supply = .charging → ∃ t,
    exec (.alwaysOnPowerGood strap tests rec cells) s = .next t ∧ t.pwr = { s.pwr with supply := .on } ∧ t.ticks = 0 ∧
    t.sec = bootRom { s.sec with strap := strap % 8 } tests rec ∧ t.mem = s.mem ∧ t.cp = s.cp ∧ t.flt = s.flt) ∧
  (∀ s : State, s.sec.phase = .secure → s.pwr.coldWait = false → ∃ t, exec .bootLockTimeout s = .next t ∧
    t = { s with sec := { s.sec with lock := true, phase := .locked }
                 mgt := { s.mgt with phyOn := true, noBeacon := false, addrDup := false }
                 pwr := { s.pwr with rails := t.pwr.rails } } ∧
    (s.pwr.rails = .off → t.pwr.rails = .starting)) ∧
  (∀ s : State, s.pwr.supply = .on → s.sec.phase ≠ .halted →
    exec .identityKeyReady s = .next { s with sec := { s.sec with identity := true } }) ∧
  (∀ s : State, s.pwr.rails = .up → s.pwr.trained = false → ∃ t, exec .memoryTrainingDone s = .next t ∧
    t = { s with pwr := { s.pwr with trained := true }, fab := t.fab, ro := t.ro } ∧
    ∀ p, p < 8 → (t.port p).st = (if mbit (s.app (regOfPort p) (key 0x5000 2)) p then .training else .disabled) ∧
      ((t.port p).st = .disabled → ∀ l, l < 4 → t.ro? (laneKey (4 * p + l)) = if s.ro? (laneKey (4 * p + l)) = 2 then 2 else 3))

/-- When the rails are in regulation, each microcode area that passes its checks is in its bank; every block starts on the recorded live
bank where that passed, else on the other bank with a fault record, else it is out of service (R383). Where PERST_L is already high, the PCIe
link trains with the rails (R377; at which rate is free, log entry 128). -/
def Obligations.MicrocodeIsLoadedAtStart : Prop :=
  ∀ s : State, s.pwr.rails = .starting → s.sec.ubank < 2 →
    let u := s.sec.ubank
    let ok : Nat → Bool := fun n => uareaCheck s.sec n == 0
    let bank := if ok u || !ok (1 - u) then u else 1 - u
    ∃ t, exec .railsInRegulation s = .next t ∧ t.pwr = { s.pwr with rails := .up } ∧ t.sec = { s.sec with ubank := bank } ∧
      t.flt.ubank0 = ok 0 ∧ t.flt.ubank1 = ok 1 ∧ t.flt.usel = bank ∧
      t.flt.head = s.flt.head + (if bank = u then 0 else 1) ∧
      (∀ b, b < 24 → t.blk b = if ok u || ok (1 - u) then { s.blk b with ubank := bank }
        else { s.blk b with map := mclr (s.blk b).map 31 }) ∧
      (s.cp.perst = false → s.cp.pcieRef = true → t.cp.link = true) ∧ (s.cp.perst = true → t.cp.link = s.cp.link) ∧
      t = { s with pwr := t.pwr, sec := t.sec, flt := t.flt, blks := t.blks, ro := t.ro, free := t.free, cp := { s.cp with link := t.cp.link } }

/-- Management firmware (R347, R381, R382): without heartbeats it is restarted from its live slot with a record of cause 0x10; a restarted
slot that stays silent gives way to the other; the queue of the segment's messages is dropped with the firmware (log entry 44); a heartbeat
of a slot that passes its checks ends the restart; a trial that runs 10 s becomes preferred, and one that does not gives way with its TRIAL
mark cleared. -/
def Obligations.FirmwareIsWatched : Prop :=
  (∀ s : State, s.sec.fwRun = .running → s.sec.lock = true → s.sec.onTrial = false → ∃ t, exec .firmwareHang s = .next t ∧
    t.sec = { s.sec with fwRun := .restarting } ∧ t.flt.head = s.flt.head + 1 ∧ bits (recordAt t t.flt.head) 409 402 = 0x10 ∧
    t = { s with sec := t.sec, ro := t.ro, mgt := { s.mgt with rxq := [] }, flt := { s.flt with head := t.flt.head, log := t.flt.log } }) ∧
  (∀ s : State, s.sec.fwRun = .running → s.sec.lock = true → s.sec.onTrial = true → ∃ t, exec .firmwareHang s = .next t ∧
    t.sec = { s.sec with fwRun := .restarting, active := 1 - s.sec.active, trial := none, onTrial := false } ∧
    bits (recordAt t t.flt.head) 409 402 = 0x10) ∧
  (∀ s : State, s.sec.fwRun = .restarting → s.sec.onTrial = false → ∃ t, exec .firmwareFallback s = .next t ∧
    t = { s with sec := { s.sec with active := 1 - s.sec.active }, ro := t.ro, mgt := { s.mgt with rxq := [] } }) ∧
  (∀ s : State, s.sec.fwRun = .restarting →
    let up : Sec := { s.sec with fwRun := .running, fwSts := if s.sec.fwSts = 5 then 0 else s.sec.fwSts }
    exec .firmwareHeartbeat s = .next { s with sec := if slotCheck s.sec s.sec.active = 0 then up else s.sec }) ∧
  (∀ s : State, s.sec.onTrial = true → s.sec.fwRun = .running →
    exec .trialConfirm s = .next { s with sec := { s.sec with preferred := s.sec.active, trial := none, onTrial := false } })

/-- Firmware update (R376, R381): the check of the staged image ends in the write, with the slots that it goes to not VALID, or in FAILED with
the code of the first check that failed and no slot touched; the write ends WRITTEN, with the staged bytes in the slots that it began on, and
VALID. It goes to the slot that is not running, in recovery to both (R384). No other slot, area or entry changes. That SEC_FW_VERIFY_DONE
stands for the end of the check in state 1 VERIFYING, and for the end of the write in state 2 WRITING, is the model's choice (DEDUCED, log
entry 17). -/
def Obligations.FirmwareUpdateEnds : Prop :=
  (∀ s : State, s.sec.fwSts = 1 → let code := imageCheck s.sec.staging true 1 (floors s.sec)
    (code ≠ 0 → exec .secFwVerifyDone s = .next { s with sec := { s.sec with fwSts := 4, fwFail := code } }) ∧
    (code = 0 → s.sec.phase ≠ .recovery → ∃ t, exec .secFwVerifyDone s = .next t ∧
      t.sec.fwSts = 2 ∧ t.sec.fwInto = [1 - s.sec.active] ∧
      t.sec.slot (1 - s.sec.active) = { image := (s.sec.slot (1 - s.sec.active)).image, valid := false } ∧
      (s.sec.active < 2 → t.sec.slot s.sec.active = s.sec.slot s.sec.active) ∧
      t = { s with sec := { s.sec with fwSts := 2, fwInto := t.sec.fwInto, slot0 := t.sec.slot0, slot1 := t.sec.slot1 } }) ∧
    (code = 0 → s.sec.phase = .recovery → exec .secFwVerifyDone s = .next { s with sec := { s.sec with
      fwSts := 2, fwInto := [0, 1], slot0 := ⟨s.sec.slot0.image, false⟩, slot1 := ⟨s.sec.slot1.image, false⟩ } })) ∧
  (∀ (s : State) (n : Nat), s.sec.fwSts = 2 → s.sec.fwInto = [n] → n < 2 → ∃ t, exec .secFwVerifyDone s = .next t ∧
    t.sec.slot n = { image := s.sec.staging, valid := true } ∧ t.sec.slot (1 - n) = s.sec.slot (1 - n) ∧
    t = { s with sec := { s.sec with fwSts := 3, fwInto := [], slot0 := t.sec.slot0, slot1 := t.sec.slot1 } }) ∧
  (∀ s : State, s.sec.fwSts = 2 → s.sec.fwInto = [0, 1] → exec .secFwVerifyDone s = .next { s with sec := { s.sec with
      fwSts := 3, fwInto := [], slot0 := ⟨s.sec.staging, true⟩, slot1 := ⟨s.sec.staging, true⟩ } })

/-- The security entries that are rows of their own (R316, R379 to R381, R389): a secure master's write of 1 sets the boot lock; a policy in
range is stored for the next power-up; the IDE stream is enabled once every key is fresh and disabled at once; the check of a staged image
begins, in state 1 VERIFYING whatever its outcome will be (the model's choice, DEDUCED, log entry 17), a
valid idle slot is started on trial, the staging buffer is emptied. Each write answers OK, and SEC_FW_CMD reads as what was written. -/
def Obligations.SecurityWritesAct : Prop :=
  (∀ s : State, reaches s .secure = true → s.sec.lock = false →
    exec (.secBootLock .secure 1) s = .next (answered (setLock s) .secure (fixedOp 0xA000 2 0 1) 0)) ∧
  (∀ (s : State) (src : Source) (v : Nat), MayWrite s src → Trusted s src 0xA060 → v % 256 < 4 → v / 256 < 2 →
    exec (.secPolicyNext src v) s =
      .next (answered { s with sec := { s.sec with policy := some v } } src (fixedOp 0xA060 0 1 v) 0)) ∧
  (∀ (s : State) (src : Source), MayWrite s src → Trusted s src 0xA051 → (∀ k, k < 6 → k ∈ s.sec.ideFresh) →
    exec (.secIdeCtl src 1) s =
      .next (answered { s with sec := { s.sec with ideOn := true } } src (fixedOp 0xA051 0 0 1) 0)) ∧
  (∀ (s : State) (src : Source), MayWrite s src → Trusted s src 0xA051 →
    exec (.secIdeCtl src 0) s =
      .next (answered { s with sec := { s.sec with ideOn := false } } src (fixedOp 0xA051 0 0 0) 0)) ∧
  (∀ (s : State) (src : Source), MayWrite s src → Trusted s src 0xA040 → fwBusy s.sec = false →
    exec (.secFwVerify src) s =
      .next (answered { s with sec := { s.sec with fwSts := 1, fwCmd := 1 } } src (fixedOp 0xA040 1 0 1) 0)) ∧
  (∀ (s : State) (src : Source), MayWrite s src → Trusted s src 0xA040 → fwBusy s.sec = false →
    (s.sec.slot (1 - s.sec.active)).valid = true → s.sec.trial = none → ∃ r,
    exec (.secFwSwitch src) s = .next (answered { s with ro := r, mgt := { s.mgt with rxq := [] }, sec := { s.sec with
      trial := some (1 - s.sec.active), onTrial := true, fwSts := 5, fwCmd := 2, active := 1 - s.sec.active, fwRun := .restarting } }
        src (fixedOp 0xA040 1 0 2) 0)) ∧
  (∀ (s : State) (src : Source), MayWrite s src → Trusted s src 0xA040 → fwBusy s.sec = false →
    exec (.secFwClear src) s =
      .next (answered { s with sec := { s.sec with staging := [], fwCmd := 3 } } src (fixedOp 0xA040 1 0 3) 0))

/-- R316, R379: once the boot lock is 1, a dictionary write of an entry of the protection set-up changes nothing but the operation counters
and the responses sent, whoever writes it and whatever it writes. -/
def Obligations.LockedSetupIsHeld : Prop :=
  ∀ (s : State) (src : Source) (op : DictOp), s.sec.lock = true → s.sec.phase ≠ .recovery → op.index = 0xA000 → op.sub < 3 →
    ∃ t, exec (.write src op) s = .next t ∧ t.sec = s.sec ∧ t.pwr = s.pwr ∧ t.mgt = s.mgt ∧ t = { s with ro := t.ro, out := t.out }

/-- The SPDM responder (R387): with the lock set and the link up every request is answered; without negotiated algorithms, or for an unknown
slot or index, the answer is InvalidRequest; a signature before the identity key is ready is answered ResponseNotReady. The response codes
and the layouts of ALGORITHMS and of a measurement record are those of log entry 16 (PRESUMED). -/
def Obligations.SpdmRequestsAreAnswered : Prop :=
  (∀ s : State, doeUp s = true →
    exec .getVersion s = .next (s.emit (.spdm 0x04 [0x00, 0x12])) ∧
    exec .getCapabilities s = .next (s.emit (.spdm 0x61 (leBytes 4 0x16))) ∧
    exec (.negotiateAlgorithms true true) s =
      .next ({ s with sec := { s.sec with algos := true } }.emit (.spdm 0x63 (algorithms [0x0001] [0x0002])))) ∧
  (∀ (s : State) (asym hash : Bool), doeUp s = true → (asym && hash) = false →
    exec (.negotiateAlgorithms asym hash) s =
      .next ({ s with sec := { s.sec with algos := false } }.emit (.spdm 0x63 (algorithms [] [])))) ∧
  (∀ s : State, doeUp s = true → s.sec.algos = true →
    exec .getDigests s = .next (s.emit (.spdm 0x01 (Config.shake256 certChain 64))) ∧
    ∀ off len, off ≤ certChain.length →
      exec (.getCertificate 0 off len) s = .next (s.emit (.spdm 0x02 ((certChain.drop off).take len)))) ∧
  (∀ (s : State) (nonce : List Byte), doeUp s = true → s.sec.algos = true → s.sec.identity = true → ∃ body sig,
    exec (.challenge 0 nonce) s = .next (s.emit (.spdm 0x03 (body ++ sig))) ∧
      body = Config.shake256 certChain 64 ++ nonce ∧ sig = Config.falconSign body) ∧
  (∀ (s : State) (nonce : List Byte), doeUp s = true → s.sec.algos = true → s.sec.identity = false →
    exec (.challenge 0 nonce) s = .next (s.emit (.spdm 0x7F [0x42]))) ∧
  (∀ (s : State) (i : Nat) (nonce : List Byte), doeUp s = true → s.sec.algos = true → 1 ≤ i → i ≤ 6 →
    exec (.getMeasurements i false nonce) s = .next (s.emit (.spdm 0x60 (measRecord s [i])))) ∧
  (∀ (s : State) (i : Nat) (nonce : List Byte), doeUp s = true → s.sec.algos = true → s.sec.identity = true → 1 ≤ i → i ≤ 6 →
    exec (.getMeasurements i true nonce) s =
      .next (s.emit (.spdm 0x60 (measRecord s [i] ++ nonce ++ Config.falconSign (measRecord s [i] ++ nonce))))) ∧
  (∀ s : State, doeUp s = true → s.sec.algos = false → exec .getDigests s = .next (s.emit (.spdm 0x7F [0x01]))) ∧
  (∀ (s : State) (slot i off len : Nat) (sgn : Bool) (nonce : List Byte), doeUp s = true → slot ≠ 0 → 6 < i → i ≠ 0xFF →
    exec (.getCertificate slot off len) s = .next (s.emit (.spdm 0x7F [0x01])) ∧
    exec (.challenge slot nonce) s = .next (s.emit (.spdm 0x7F [0x01])) ∧
    exec (.getMeasurements i sgn nonce) s = .next (s.emit (.spdm 0x7F [0x01])))

/-! ## The PCIe link, registers and doorbells -/

/-- PERST_L (R297, R339): its fall takes the link down, resets the MSI-X tables, makes every context of a domain's queue KILLED and not
enabled with nothing deferred, and returns the registers of the admin queue to 0; its rise lets the link train once the lock is set and the
rails are up. A fall reaches no program, step, memory, directory or Grader. -/
def Obligations.PerstActs : Prop :=
  (∀ s : State, s.cp.perst = false → ∃ t, exec .perstLAssert s = .next t ∧ t.cp.perst = true ∧ t.cp.link = false ∧ t.cp.msix = [] ∧
    t.ctx adminKey = { ctxDflt adminKey with sqLog := 0, cqLog := 0 } ∧
    (∀ k, k ≠ adminKey → (s.ctx k).made = true → (t.ctx k).kill = .host ∧ (t.ctx k).enable = false ∧ (t.ctx k).defer = none ∧
      (t.ctx k).head = (s.ctx k).head ∧ (t.ctx k).tail = (s.ctx k).tail ∧ (t.ctx k).sqBase = (s.ctx k).sqBase) ∧
    t.pwr = s.pwr ∧ t.flt = s.flt ∧ t.progs = s.progs ∧ t.steps = s.steps ∧ t.blks = s.blks ∧ t.mem = s.mem ∧ t.dirs = s.dirs ∧
    t.binds = s.binds ∧ t.back = s.back ∧ t.grds = s.grds ∧ t.segs = s.segs) ∧
  (∀ (s : State) (full : Bool), s.cp.perst = true → (s.sec.lock && s.pwr.rails == .up && s.cp.pcieRef) = false →
    exec (.perstLRelease full) s = .next { s with cp := { s.cp with perst := false } }) ∧
  (∀ s : State, s.cp.perst = true → s.sec.lock = true → s.pwr.rails = .up → s.cp.pcieRef = true →
    exec (.perstLRelease true) s = .next { s with cp := { s.cp with perst := false, link := true } } ∧
    exec (.perstLRelease false) s = .next ({ s with cp := { s.cp with perst := false, link := true } }.count (kCmdPerf 7) 1))

/-- Function level resets (R292, R296). That of VF n tears down domain n − 1 alone: it becomes TEARING with the next generation, its step is
abandoned, and its contexts are KILLED. That of the PF tears down every ACTIVE domain. That an FLR also resets its function's MSI-X table, and
that of the PF the registers of the admin queue, is the model's choice (PRESUMED, log entry 136). -/
def Obligations.FlrTearsItsDomainDown : Prop :=
  (∀ (s : State) (fn : Nat), hostUp s = true → 1 ≤ fn → fn ≤ 16 → (s.dom (fn - 1)).st = .active → ∃ t, exec (.flr fn) s = .next t ∧
    (t.dom (fn - 1)).st = .tearing ∧ (t.dom (fn - 1)).gen = ((s.dom (fn - 1)).gen + 1) % 4096 ∧ (t.stp (fn - 1)).order = .none ∧
    (∀ k, (s.dom (fn - 1)).qbase ≤ k → k < (s.dom (fn - 1)).qbase + (s.dom (fn - 1)).qcount → (s.ctx k).made = true →
      (t.ctx k).kill = .host) ∧ (∀ v, v < 256 → t.msix fn v = msixDflt v) ∧
    (∀ d, d ≠ fn - 1 → t.dom d = { s.dom d with inflight := (t.dom d).inflight }) ∧ t.mem = s.mem ∧ t.progs = s.progs ∧ t.dirs = s.dirs ∧
        t.segs = s.segs ∧
    t.pwr = s.pwr ∧ t.sec = s.sec ∧ t.mgt = s.mgt) ∧
  (∀ s : State, hostUp s = true → ∃ t, exec (.flr 0) s = .next t ∧ t.ctx adminKey = ctxDflt adminKey ∧
    (∀ d, d < 16 → (s.dom d).st = .active → (t.dom d).st = .tearing ∧ (t.dom d).gen = ((s.dom d).gen + 1) % 4096) ∧
    (∀ d, d < 16 → (s.dom d).st ≠ .active → (t.dom d).st = (s.dom d).st) ∧ t.mem = s.mem ∧ t.progs = s.progs ∧ t.segs = s.segs ∧
    t.pwr = s.pwr ∧ t.sec = s.sec)

/-- Writes of a queue's registers (R37, R287, R294, R295). A submission tail is always stored, and one beyond the ring sets ERROR with cause
TAIL; a completion head is stored, and a notice of a deferral that waits for the room is written (R302); a ring base is stored while ENABLE
is 0, and dropped and counted while it is 1; a write to a queue outside its domain's range is dropped and counted. That a completion head beyond
the ring is taken modulo its size, and that this doorbell is what writes a waiting notice, is the model's choice (DEDUCED, log entry 67); whether
that record's DMA fails is free, and where it does the context enters ERROR with cause DMA (R296; DESIGN CHOICE, log entry 123). -/
def Obligations.QueueRegistersAreWritten : Prop :=
  (∀ (s : State) (q : QRef) (k v : Nat), BarOpen s → ctxOf s q = some k → v < 2 ^ (s.ctx k).sqLog →
    exec (.cmdSqDb q v) s = .next (s.setCtx k { s.ctx k with tail := v % 2 ^ 16 })) ∧
  (∀ (s : State) (q : QRef) (k v : Nat), BarOpen s → ctxOf s q = some k → 2 ^ (s.ctx k).sqLog ≤ v → (s.ctx k).errc = 0 → ∃ t,
    exec (.cmdSqDb q v) s = .next t ∧ t.ctx k = { s.ctx k with tail := v % 2 ^ 16, errc := 1 } ∧
    (∀ j, j ≠ k → t.ctx j = s.ctx j) ∧ t.mem = s.mem ∧ t.progs = s.progs ∧ t.cp.doms = s.cp.doms) ∧
  (∀ (s : State) (q : QRef) (k v : Nat), BarOpen s → ctxOf s q = some k → (∀ f, (s.ctx k).defer = some f → f.note = false) →
    exec (.cmdCqDb q v) s = .next (s.setCtx k { s.ctx k with cqHead := v % 2 ^ (s.ctx k).cqLog })) ∧
  (∀ (s : State) (q : QRef) (k v : Nat) (f : Defer), BarOpen s → ctxOf s q = some k → (s.ctx k).defer = some f → f.note = true →
    v < 2 ^ (s.ctx k).cqLog → ((s.ctx k).cqTail + 1) % 2 ^ (s.ctx k).cqLog ≠ v → ∃ t, exec (.cmdCqDb q v) s = .next t ∧
    (t.ctx k).cqHead = v ∧ (t.ctx k).defer = some { f with note := false } ∧ (∀ j, j ≠ k → t.ctx j = s.ctx j) ∧
    (bit (Config.freeWord s.free).toNat 0 = false → (t.ctx k).cqTail = ((s.ctx k).cqTail + 1) % 2 ^ (s.ctx k).cqLog ∧
      t.out.take (s.out.length + 1) = s.out ++
        [.dma ((s.ctx k).cqBase + 32 * (s.ctx k).cqTail) (leBytes 32 (recordBits s k f.cmd 0x02 0 0))]) ∧
    (bit (Config.freeWord s.free).toNat 0 = true → (t.ctx k).cqTail = (s.ctx k).cqTail ∧ t.out = s.out ∧
      ((s.ctx k).errc = 0 → (t.ctx k).errc = 2))) ∧
  (∀ (s : State) (q : QRef) (k v : Nat), BarOpen s → ctxOf s q = some k → (s.ctx k).enable = false → v < 2 ^ 64 →
    exec (.cmdSqBase q false v) s = .next (s.setCtx k { s.ctx k with sqBase := v / 4096 * 4096 }) ∧
    exec (.cmdSqBase q true v) s = .next (s.setCtx k { s.ctx k with cqBase := v / 4096 * 4096 })) ∧
  (∀ (s : State) (q : QRef) (k v : Nat) (completion : Bool), BarOpen s → ctxOf s q = some k → (s.ctx k).enable = true →
    exec (.cmdSqBase q completion v) s = .next (s.count (kCmdPerf 4) 1)) ∧
  (∀ (s : State) (q : QRef) (v : Nat) (completion : Bool), BarOpen s → ctxOf s q = none →
    exec (.cmdSqDb q v) s = .next (s.count (kCmdPerf 4) 1) ∧ exec (.cmdCqDb q v) s = .next (s.count (kCmdPerf 4) 1) ∧
    exec (.cmdSqBase q completion v) s = .next (s.count (kCmdPerf 4) 1) ∧ exec (.cmdQCtl q v) s = .next (s.count (kCmdPerf 4) 1))

/-- A write of CMD_Q_CTL, of a domain's queue or of the admin queue (R290, R294, Table 10-6). Out-of-range ring sizes or an out-of-range vector are
dropped and counted, and so is a change of the ring sizes, HOME or VEC while ENABLE is 1. Otherwise the fields are stored, STEPQ and HOME
stay, and ENABLE with a ring base of 0 sets ERROR with cause BASE. -/
def Obligations.QueueControlIsWritten : Prop :=
  (∀ (s : State) (q : QRef) (k v : Nat), BarOpen s → ctxOf s q = some k →
    bits v 60 56 < 4 ∨ 16 < bits v 60 56 ∨ bits v 55 51 < 4 ∨ 16 < bits v 55 51 ∨ vecsOf (fnOfCtx s k) ≤ bits v 48 42 →
    exec (.cmdQCtl q v) s = .next (s.count (kCmdPerf 4) 1)) ∧
  (∀ (s : State) (q : QRef) (k v : Nat), BarOpen s → ctxOf s q = some k → (s.ctx k).enable = true →
    bits v 60 56 ≠ (s.ctx k).sqLog ∨ bits v 55 51 ≠ (s.ctx k).cqLog ∨ bits v 48 42 ≠ (s.ctx k).vec ∨
      (k ≠ adminKey ∧ bits v 50 49 ≠ (s.ctx k).home) →
    exec (.cmdQCtl q v) s = .next (s.count (kCmdPerf 4) 1)) ∧
  (∀ (s : State) (q : QRef) (k v : Nat), BarOpen s → ctxOf s q = some k →
    4 ≤ bits v 60 56 → bits v 60 56 ≤ 16 → 4 ≤ bits v 55 51 → bits v 55 51 ≤ 16 → bits v 48 42 < vecsOf (fnOfCtx s k) →
    ((s.ctx k).enable = true → bits v 60 56 = (s.ctx k).sqLog ∧ bits v 55 51 = (s.ctx k).cqLog ∧ bits v 48 42 = (s.ctx k).vec ∧
      (k = adminKey ∨ bits v 50 49 = (s.ctx k).home)) →
    let c : Ctx := { s.ctx k with
      enable := bit v 63, dnote := bit v 61 && k != adminKey, sqLog := bits v 60 56, cqLog := bits v 55 51, vec := bits v 48 42
      coalN := bits v 41 34, coalT := bits v 33 18 }
    (bit v 63 = false ∨ ((s.ctx k).sqBase ≠ 0 ∧ (s.ctx k).cqBase ≠ 0) ∨ (s.ctx k).errc ≠ 0 →
      exec (.cmdQCtl q v) s = .next (s.setCtx k c)) ∧
    (bit v 63 = true → (s.ctx k).sqBase = 0 ∨ (s.ctx k).cqBase = 0 → (s.ctx k).errc = 0 → ∃ t, exec (.cmdQCtl q v) s = .next t ∧
      t.ctx k = { c with errc := 3 } ∧ (∀ j, j ≠ k → t.ctx j = s.ctx j) ∧ t.mem = s.mem ∧ t.progs = s.progs ∧ t.cp.doms = s.cp.doms))

/-- BAR writes by their address (Tables 10-1, 10-2, 11-8; R286, R293, R306, R338). A write of a register that has a row of its own does what the row
does; a narrower write of a context register, a result object and a reserved range are dropped and counted. The request buffer is stored
while no request is BUSY, and dropped and counted while one is (R339); the rest of BAR2 is dropped and counted. An MSI-X address is stored,
and unmasking a pending vector signals it. Without the link a write does not arrive, and during a chip warm reset it is held (R365). A write of
MGT_MB_CTL without GO is stored; GO starts the request of the LEN written with it; a reserved bit, and GO while a request is BUSY or while the
firmware restarts, drop and count the write (R339). -/
def Obligations.BarWritesAct : Prop :=
  (∀ (s : State) (d q v : Nat), BarOpen s → d < 16 → q < 4096 →
    exec (.barWrite 0 (0x200000 * d + 0x180000 + 64 * q) 4 v) s = exec (.cmdSqDb (.dom d q) v) s ∧
    exec (.barWrite (d + 1) (0x180000 + 64 * q + 4) 4 v) s = exec (.cmdCqDb (.dom d q) v) s ∧
    exec (.barWrite 0 (0x200000 * d + 0x100000 + 128 * q) 8 v) s = exec (.cmdSqBase (.dom d q) false v) s ∧
    exec (.barWrite (d + 1) (0x100000 + 128 * q + 0x10) 8 v) s = exec (.cmdQCtl (.dom d q) v) s) ∧
  (∀ (s : State) (v : Nat), BarOpen s → exec (.barWrite 0 0x2000010 8 v) s = exec (.cmdQCtl .admin v) s ∧
    exec (.barWrite 0 0x2000080 4 v) s = exec (.cmdSqDb .admin v) s) ∧
  (∀ (s : State) (off size v : Nat), BarOpen s → off < 0x2000000 →
    off % 0x200000 < 0x100000 ∨ 0x1C0000 ≤ off % 0x200000 ∨ (off % 0x200000 < 0x180000 ∧ size < 8) →
    exec (.barWrite 0 off size v) s = .next (s.count (kCmdPerf 4) 1)) ∧
  (∀ (s : State) (off size v : Nat), BarOpen s → s.sec.lock = true → off + size ≤ 0x1000 → s.mgt.mb.st ≠ .busy →
    exec (.barWrite 0 (0x4000000 + off) size v) s = .next { s with mgt := { s.mgt with mb := { s.mgt.mb with
      req := putBytes s.mgt.mb.req off (leBytes size v) } } }) ∧
  (∀ (s : State) (off size v : Nat), BarOpen s → s.sec.lock = true → (off < 0x1000 ∧ s.mgt.mb.st = .busy) ∨ (0x1000 ≤ off ∧ off ≠ 0x2000) →
    0 < size → exec (.barWrite 0 (0x4000000 + off) size v) s = .next (s.count (kDict 0xB) 1)) ∧
  (∀ (s : State) (e v : Nat), BarOpen s → e < 128 → v < 2 ^ 64 → (s.msix 0 e).addr < 2 ^ 64 → (s.msix 0 e).data < 2 ^ 32 →
    (s.msix 0 e).pend = false →
    exec (.barWrite 0 (0x2020000 + 16 * e) 8 v) s = .next (s.setMsix 0 e { s.msix 0 e with addr := v })) ∧
  (∀ (s : State) (e v : Nat), BarOpen s → e < 128 → v % 2 = 0 → (s.msix 0 e).addr < 2 ^ 64 → (s.msix 0 e).data < 2 ^ 32 →
    (s.msix 0 e).pend = true →
    exec (.barWrite 0 (0x2020000 + 16 * e + 12) 4 v) s = .next ((s.setMsix 0 e { s.msix 0 e with masked := false, pend := false }).emit
      (.msix 0 e (s.msix 0 e).addr (s.msix 0 e).data))) ∧
  (∀ (s : State) (fn off size v : Nat), hostUp s = false → exec (.barWrite fn off size v) s = .next s) ∧
  (∀ (s : State) (fn off size v : Nat), hostUp s = true → barHeld s = true → fn ≤ 16 →
    exec (.barWrite fn off size v) s =
      .next { s with cp := { s.cp with heldBar := s.cp.heldBar ++ [.barWrite fn off size v] } }) ∧
  (∀ (s : State) (v : Nat), bar2Up s = false → exec (.mgtMbCtl v) s = .next s) ∧
  (∀ (s : State) (v : Nat), bar2Up s = true → barHeld s = true →
    exec (.mgtMbCtl v) s = .next { s with cp := { s.cp with heldBar := s.cp.heldBar ++ [.mgtMbCtl v] } }) ∧
  (∀ (s : State) (v : Nat), bar2Up s = true → barHeld s = false → (v &&& mbCtlMask) ≠ v →
    exec (.mgtMbCtl v) s = .next (s.count (kDict 0xB) 1)) ∧
  (∀ (s : State) (v : Nat), bar2Up s = true → barHeld s = false → v < 2 ^ 63 → (v &&& mbCtlMask) = v →
    exec (.mgtMbCtl v) s = .next { s with mgt := { s.mgt with mb := { s.mgt.mb with ctl := v } } }) ∧
  (∀ (s : State) (v : Nat), BarOpen s → exec (.barWrite 0 0x4002000 8 v) s = exec (.mgtMbCtl v) s) ∧
  (∀ (s : State) (v : Nat), bar2Up s = true → barHeld s = false → ctlUp s = true → v < 2 ^ 63 → (v &&& mbCtlMask) = v →
    s.mgt.mb.st ≠ .busy → exec (.mgtMbCtl (2 ^ 63 + v)) s =
      .next { s with mgt := { s.mgt with mb := { s.mgt.mb with ctl := v, len := v % 8192, st := .busy, drop := false } } }) ∧
  (∀ (s : State) (v : Nat), bar2Up s = true → barHeld s = false → v < 2 ^ 63 → (v &&& mbCtlMask) = v →
    s.mgt.mb.st = .busy ∨ ctlUp s = false → exec (.mgtMbCtl (2 ^ 63 + v)) s = .next (s.count (kDict 0xB) 1))

/-! ## Admin commands -/

/-- DOM_CREATE (R289, R290, R291): a FREE domain with a new generation and a free context range becomes ACTIVE with the descriptor's range,
quota and memory limit. -/
def Obligations.DomCreateMakesADomain : Prop :=
  ∀ (s : State) (desc : Nat), AdminReady s 0x80 desc →
    let d := aDom desc
    let gen := bits (dw desc 1) 27 16
    let qb := bits (dw desc 1) 43 32
    let qc := bits (dw desc 1) 56 44
    let quota := bits (dw desc 2) 15 0
    quota ≠ 0 → qb + qc ≤ 4096 → (s.dom d).st = .free → gen ≠ (s.dom d).lastGen →
    (∀ e, e < 16 → e ≠ d → (s.dom e).st = .free ∨ qc = 0 ∨ (s.dom e).qcount = 0 ∨ qb + qc ≤ (s.dom e).qbase ∨
      (s.dom e).qbase + (s.dom e).qcount ≤ qb) →
    exec (.domCreate desc) s = .next (adminTaken (s.setDom d { domDflt 0 with
      st := .active, gen := gen, lastGen := (s.dom d).lastGen, qbase := qb, qcount := qc, quota := quota
      memlim := bits (dw desc 3) 31 0 }) desc (.ended 0 0))

/-- R291: DOM_CREATE is refused where the domain is not FREE, where GEN equals LASTGEN (reason GEN_STALE, 0x16), or where the context range
overlaps another domain's; no domain changes. -/
def Obligations.DomCreateIsRefused : Prop :=
  ∀ (s : State) (desc : Nat), AdminReady s 0x80 desc →
    let d := aDom desc
    let qb := bits (dw desc 1) 43 32
    let qc := bits (dw desc 1) 56 44
    bits (dw desc 2) 15 0 ≠ 0 → qb + qc ≤ 4096 →
    (s.dom d).st ≠ .free ∨ bits (dw desc 1) 27 16 = (s.dom d).lastGen ∨
      (∃ e k, e < 16 ∧ e ≠ d ∧ holdsCtx s e k ∧ qb ≤ k ∧ k < qb + qc) →
    ∃ r, exec (.domCreate desc) s = .next (refuse s adminKey (cmdOf 16 0 desc 0 0) r) ∧
      (refuse s adminKey (cmdOf 16 0 desc 0 0) r).cp.doms = s.cp.doms ∧
      ((s.dom d).st = .free → bits (dw desc 1) 27 16 = (s.dom d).lastGen → r = 0x16)

/-- DOM_SET, Q_CREATE, Q_DELETE and Q_RESET (R290, R296, R303, R305): new limits; a FREE context becomes IDLE with its home region; one
without admitted commands returns to FREE, a deferred command and a record that waits being dropped with it (DEDUCED, log entry 78); a
KILLED or ERROR context returns to IDLE with HEAD and TAIL 0. Q_DELETE and Q_RESET outside the domain's range are refused with NO_CONTEXT
(0x17), of a context in the wrong state with DOM_STATE (0x15). -/
def Obligations.AdminCommandsChangeQueues : Prop :=
  (∀ (s : State) (desc : Nat), AdminReady s 0x82 desc → bits (dw desc 2) 15 0 ≠ 0 → (s.dom (aDom desc)).st = .active →
    exec (.domSet desc) s = .next (adminTaken (s.setDom (aDom desc) { s.dom (aDom desc) with
      quota := bits (dw desc 2) 15 0, memlim := bits (dw desc 3) 31 0 }) desc (.ended 0 0))) ∧
  (∀ (s : State) (desc : Nat), AdminReady s 0x83 desc →
    let x := s.dom (aDom desc)
    let k := x.qbase + aQueue desc
    x.st = .active → aQueue desc < x.qcount → (s.ctx k).made = false → bit (dw desc 1) 34 = false →
    exec (.qCreate desc) s = .next (adminTaken (s.setCtx k { ctxDflt k with made := true, home := bits (dw desc 1) 33 32, stepq := false })
      desc (.ended 0 0))) ∧
  (∀ (s : State) (desc : Nat), AdminReady s 0x83 desc →
    let x := s.dom (aDom desc)
    let k := x.qbase + aQueue desc
    x.st = .active → aQueue desc < x.qcount → (s.ctx k).made = false → bit (dw desc 1) 34 = true → x.stepqEn = false →
    exec (.qCreate desc) s = .next (adminTaken
      ((s.setCtx k { ctxDflt k with made := true, home := bits (dw desc 1) 33 32, stepq := true }).setDom (aDom desc)
        { x with stepqEn := true }) desc (.ended 0 0))) ∧
  (∀ (s : State) (desc : Nat), AdminReady s 0x84 desc →
    let x := s.dom (aDom desc)
    let k := x.qbase + aQueue desc
    x.st = .active → aQueue desc < x.qcount → (s.ctx k).made = true → (s.ctx k).cmd = none → (s.ctx k).stepq = false →
    exec (.qDelete desc) s = .next (adminTaken (s.setCtx k (ctxDflt k)) desc (.ended 0 0))) ∧
  (∀ (s : State) (desc : Nat), AdminReady s 0x84 desc →
    let x := s.dom (aDom desc)
    let k := x.qbase + aQueue desc
    x.st = .active → aQueue desc < x.qcount → (s.ctx k).made = true → inFlight (s.ctx k) = false → k ≠ adminKey → ∃ t,
    exec (.qDelete desc) s = .next t ∧ t.ctx k = ctxDflt k ∧ EndedWith t adminKey 0 0 ∧
      ((s.ctx k).stepq = true → (t.dom (aDom desc)).stepqEn = false)) ∧
  (∀ (s : State) (desc : Nat), AdminReady s 0x85 desc →
    let x := s.dom (aDom desc)
    let k := x.qbase + aQueue desc
    x.st = .active → aQueue desc < x.qcount → (s.ctx k).made = true → (s.ctx k).kill ≠ .no ∨ (s.ctx k).errc ≠ 0 →
    exec (.qReset desc) s = .next (adminTaken (s.setCtx k { s.ctx k with
      kill := .no, errc := 0, enable := false, head := 0, tail := 0 }) desc (.ended 0 0))) ∧
  (∀ (s : State) (opc desc : Nat) (c : Instr), (opc = 0x84 ∧ c = .qDelete desc) ∨ (opc = 0x85 ∧ c = .qReset desc) → AdminReady s opc desc →
    let x := s.dom (aDom desc)
    let k := x.qbase + aQueue desc
    x.st = .active →
    (x.qcount ≤ aQueue desc → exec c s = .next (refuse s adminKey (cmdOf 16 0 desc 0 0) 0x17)) ∧
    (aQueue desc < x.qcount → (s.ctx k).made = false ∨ (opc = 0x84 ∧ inFlight (s.ctx k) = true) ∨
        (opc = 0x85 ∧ (s.ctx k).kill = .no ∧ (s.ctx k).errc = 0) →
      exec c s = .next (refuse s adminKey (cmdOf 16 0 desc 0 0) 0x15)))

/-- R292: a teardown makes the domain TEARING with the next generation and abandons its step; once every target has acknowledged the generation,
the domain's program, segments, pages, Grader slots, bindings and contexts are gone, the domain is FREE, LASTGEN is the generation of the
teardown less 1, modulo 4,096, and DOM_TEARDOWN ends DONE. -/
def Obligations.TeardownFreesADomain : Prop :=
  (∀ (s : State) (desc : Nat), AdminReady s 0x81 desc → (s.dom (aDom desc)).st = .active → ∃ t, exec (.domTeardown desc) s = .next t ∧
    (t.dom (aDom desc)).st = .tearing ∧ (t.dom (aDom desc)).gen = ((s.dom (aDom desc)).gen + 1) % 4096 ∧
    (t.dom (aDom desc)).tearCtx = true ∧ (t.stp (aDom desc)).order = .none ∧ (∀ e, e ≠ aDom desc → t.dom e = { s.dom e with inflight :=
        (t.dom e).inflight }) ∧
    (∃ c, (t.ctx adminKey).cmd = some c ∧ c.fin = .running) ∧ t.mem = s.mem ∧ t.progs = s.progs ∧ t.segs = s.segs ∧ t.dirs = s.dirs) ∧
  (∀ (s : State) (d quar : Nat) (lost : List Nat), d < 16 → s.cp.pcieRef = true → (s.dom d).st = .tearing → (s.dom d).tearCtx = false → ∃ t,
    exec (.teardownGenAcked ⟨d, quar, lost⟩) s = .next t ∧
    t.dom d = { domDflt 0 with gen := (s.dom d).gen, lastGen := ((s.dom d).gen + 4095) % 4096 } ∧ t.prog d = progDflt d ∧
    (∀ n, n < 4096 → t.seg d n = segNone) ∧ (∀ e ∈ t.dirs, e.2.valid = true → e.2.dom ≠ d) ∧ (∀ r, ∀ x ∈ (t.grd r).slots, x.2.dom ≠ d) ∧
    (∀ key, keyDom key = d → t.bind key = none) ∧
    (∀ k, (s.dom d).qbase ≤ k → k < (s.dom d).qbase + (s.dom d).qcount → t.ctx k = ctxDflt k) ∧
    (∀ e, e ≠ d → t.dom e = { s.dom e with inflight := (t.dom e).inflight } ∧ t.prog e = s.prog e)) ∧
  (∀ (s : State) (d quar : Nat) (lost : List Nat) (c : Cmd), d < 16 → s.cp.pcieRef = true → (s.dom d).st = .tearing → (s.dom d).tearCtx = true →
    (s.dom d).qbase + (s.dom d).qcount ≤ adminKey → (s.ctx adminKey).cmd = some c → c.muted = false → ∃ t,
    exec (.teardownGenAcked ⟨d, quar, lost⟩) s = .next t ∧ (t.dom d).st = .free ∧ t.prog d = progDflt d ∧ EndedWith t adminKey 0 0)

/-! ## Commands of the domain queues -/

/-- A command of a domain queue that passes every check of R301 is taken off its ring, its cost is added to INFLIGHT, the result object it
names shows READY = 0, and it does what its opcode says: PROG_LOAD and PROG_UNLOAD (R300), STEP (R160), COPY, HOST_WRITE and HOST_READ
(R299), EXPORT and IMPORT_ARM (R281), FREEZE (R227), GRADE (R185), FENCE (R298). Admission (R301, R307) puts the command behind the advanced
head and changes nothing else but the object, the admission counter and the model's count of the domain's admissions (log entry 68). -/
def Obligations.AdmittedCommandsRun : Prop :=
  (∀ (s : State) (d q k desc : Nat) (pay : Option (List Byte)) (ok : Bool),
    let runs : Instr → CmdSpec → Prop := fun c x =>
      Admissible s d q k desc x → exec c s = .next (x.run (grant s k (cmdAt s d q desc x)) k)
    runs (.progLoad d q desc pay) (specProgLoad d desc pay) ∧ runs (.progUnload d q desc) (specProgUnload d) ∧
    runs (.step d q desc) (specStep d desc) ∧ runs (.copy d q desc) (specCopy d desc) ∧
    runs (.hostWrite d q desc pay) (specHostWrite d desc pay) ∧ runs (.hostRead d q desc ok) (specHostRead d desc ok) ∧
    runs (.exportRun d q desc) (specExport d desc) ∧ runs (.importArm d q desc) (specImportArm d desc) ∧
    runs (.freeze d q desc) (specFreeze d desc) ∧ runs (.grade d q desc) (specGrade d desc) ∧ runs (.fence d q desc) specFence) ∧
  (∀ (s : State) (k : Nat) (c : Cmd), let t := grant s k c
    t.ctx k = { advance (s.ctx k) with cmd := some { c with admitted := true }, defer := none } ∧
    (∀ j, j ≠ k → t.ctx j = s.ctx j) ∧
    t.dom c.dom = { s.dom c.dom with inflight := (s.dom c.dom).inflight + c.cost, deferOrder := (s.dom c.dom).deferOrder + 1 } ∧ (∀ d,
        d ≠ c.dom → t.dom d = s.dom d) ∧
    (dRes c.desc < 256 → t.res c.dom (dRes c.desc) =
      { s.res c.dom (dRes c.desc) with named := (s.res c.dom (dRes c.desc)).named + 1 }) ∧
    t = { s with ro := t.ro, cp := { s.cp with ctxs := t.cp.ctxs, doms := t.cp.doms, ress := t.cp.ress } })

/-- What the commands without a data path do once admitted: FENCE ends DONE; FREEZE with no step running sets or clears FROZEN of the domain's
pages in its range and ends DONE; IMPORT_ARM arms its pages; HOST_READ hands the addressed bytes to DMA, where no word of them is poisoned (R18); a
failed DMA of HOST_WRITE,
HOST_READ or PROG_LOAD ends the command FAILED with reason DMA; STEP starts attempt 0 of the domain's next step; PROG_UNLOAD leaves no
program. -/
def Obligations.CommandEffects : Prop :=
  (∀ (s : State) (d q k desc : Nat), Admissible s d q k desc specFence → ∃ t, exec (.fence d q desc) s = .next t ∧
    EndedWith t k 0 0 ∧ t.mem = s.mem ∧ t.dirs = s.dirs ∧ t.progs = s.progs ∧ t.steps = s.steps) ∧
  (∀ (s : State) (d q k desc : Nat), Admissible s d q k desc (specFreeze d desc) → stepRuns s d = false → ∃ t,
    exec (.freeze d q desc) s = .next t ∧ EndedWith t k 0 0 ∧ t.mem = s.mem ∧ t.progs = s.progs ∧
    ∀ p, t.dir p = if wPage desc ≤ p ∧ p < wPage desc + wCount desc ∧ (s.dir p).valid = true ∧ (s.dir p).dom = d
      then { s.dir p with frozen := bit (dw desc 1) 63 } else s.dir p) ∧
  (∀ (s : State) (d q k desc : Nat), Admissible s d q k desc (specImportArm d desc) → ∃ t, exec (.importArm d q desc) s = .next t ∧
    (∃ i, i ∈ (t.day d).imps ∧ i.ctx = k ∧ i.page = wPage desc ∧ i.n = wCount desc ∧ i.done = [] ∧ i.count = none) ∧
    t.mem = s.mem ∧ t.dirs = s.dirs) ∧
  (∀ (s : State) (d q k desc : Nat), Admissible s d q k desc (specHostRead d desc true) → poisonHit s d [(dw desc 1, dw desc 3)] = none → ∃ t,
    exec (.hostRead d q desc true) s = .next t ∧
    EndedWith t k 0 0 ∧ t.out = s.out ++ [.dma (dw desc 2) (ldBytes s d (dw desc 1) (dw desc 3)).1] ∧ t.mem = s.mem) ∧
  (∀ (s : State) (d q k desc : Nat), Admissible s d q k desc (specHostRead d desc false) → ∃ t, exec (.hostRead d q desc false) s = .next t ∧
    EndedWith t k 0x21 0x18 ∧ t.mem = s.mem ∧ t.out = s.out) ∧
  (∀ (s : State) (d q k desc : Nat), Admissible s d q k desc (specHostWrite d desc none) → ∃ t, exec (.hostWrite d q desc none) s = .next t ∧
    EndedWith t k 0x21 0x18 ∧ t.mem = s.mem) ∧
  (∀ (s : State) (d q k desc : Nat), Admissible s d q k desc (specProgLoad d desc none) → ∃ t, exec (.progLoad d q desc none) s = .next t ∧
    EndedWith t k 0x21 0x18 ∧ t.mem = s.mem ∧ t.progs = s.progs ∧ t.segs = s.segs) ∧
  (∀ (s : State) (d q k desc : Nat), Admissible s d q k desc (specStep d desc) → ∃ t, exec (.step d q desc) s = .next t ∧
    (t.stp d).order = .starting ∧ (t.stp d).no = (s.dom d).nextStep ∧ (t.stp d).att = 0 ∧ (t.stp d).lset = bits (dw desc 1) 2 0 ∧
    (t.stp d).ctx = k ∧ ∀ b, b ∈ progBlocks s d → (t.blk b).phase = .starting ∧ (t.blk b).dom = d ∧ (t.blk b).step = (s.dom d).nextStep ∧
      (t.blk b).items = []) ∧
  (∀ (s : State) (d q k desc : Nat), Admissible s d q k desc (specProgUnload d) → ∃ t, exec (.progUnload d q desc) s = .next t ∧
    EndedWith t k 0 0 ∧ t.prog d = progDflt d ∧ (∀ n, n < 4096 → t.seg d n = segNone) ∧ ∀ e ∈ t.dirs, e.2.valid = true → e.2.dom ≠ d)

/-- Where the commands of the domain queues store, memory being in its canonical form. COPY and HOST_WRITE store their bytes where R124 places the
destination, the payload padded with zeros to its length, and end DONE (R299); HOST_WRITE here has a payload, COPY meets no poisoned word (R18).
PROG_LOAD of an image that parses, passes its checks and is placed writes the pages it has placed alone: the records of its IMAGE pages, in PAGES
order, into both reels, zeros elsewhere (R126, R300); one that does not ends REFUSED with its reason and stores nothing. GRADE stores the header of
its slot alone, FEED_AGE 0 where a feed starts (R185, R187), and nothing where its Grader is out of service. EXPORT stores nothing in this module
where no import is armed or no packet of it is for the module itself; an IMPORT packet stores in its page's committed reel and, with the last, in
the working copy that is current (R240, R281). -/
def Obligations.CommandsStoreAtTheirAddresses : Prop :=
  (∀ (s : State) (d q k desc : Nat), MemoryOk s → Admissible s d q k desc (specCopy d desc) → poisonHit s d [(dw desc 1, dw desc 3)] = none → ∃ t,
    exec (.copy d q desc) s = .next t ∧ EndedWith t k 0 0 ∧ StoresOnly s t d [(dw desc 2, dw desc 3)] [] ∧
    StoredAt s t d (dw desc 2) (ldBytes s d (dw desc 1) (dw desc 3)).1) ∧
  (∀ (s : State) (d q k desc : Nat) (bs : List Byte), MemoryOk s → Admissible s d q k desc (specHostWrite d desc (some bs)) → ∃ t,
    exec (.hostWrite d q desc (some bs)) s = .next t ∧ EndedWith t k 0 0 ∧ StoresOnly s t d [(dw desc 2, dw desc 3)] [] ∧
    StoredAt s t d (dw desc 2) ((bs ++ fill (dw desc 3) 0).take (dw desc 3))) ∧
  (∀ (s : State) (d q k desc : Nat) (im : List Byte), MemoryOk s → Admissible s d q k desc (specProgLoad d desc (some im)) →
    let g := grant s k (cmdAt s d q desc (specProgLoad d desc (some im)))
    let refused : Nat → Prop := fun r => ∃ t, exec (.progLoad d q desc (some im)) s = .next t ∧ EndedWith t k 0x10 r ∧ t.mem = s.mem ∧
        t.dirs = s.dirs
    (∀ r, parseImage im = .error r → refused r.1) ∧
    (∀ m r, parseImage im = .ok m → checkImage g m = some r → refused r.1) ∧
    (∀ m r, parseImage im = .ok m → checkImage g m = none → placeImage g d m = .error r → refused r.1) ∧
    (∀ m u, parseImage im = .ok m → checkImage g m = none → placeImage g d m = .ok u → ∃ t,
      exec (.progLoad d q desc (some im)) s = .next t ∧ EndedWith t k 0 0 ∧ t.dirs = u.dirs ∧ t.segs = u.segs ∧
      StoresOnly s t d [] (m.pages.map (fun r => (pageAt u r, 0x40000))) ∧
      ((m.pages.map (fun r => (u.dir r.page).addr)).Nodup →
        (∀ i r, (m.pages.filter (·.image))[i]? = some r → ∀ x, x < 0x40000 →
          t.rd (pageAt u r + x) = ((m.records.drop (131072 * i)).take 131072).getD (x % 0x20000) 0) ∧
        ∀ r ∈ m.pages, r.image = false → ∀ x, x < 0x40000 → t.rd (pageAt u r + x) = 0))) ∧
  (∀ (s : State) (d q k desc : Nat) (p : Problem), MemoryOk s → Admissible s d q k desc (specGrade d desc) →
    problemAt s d (bits (dw desc 1) 55 48) = some p → ∃ t, exec (.grade d q desc) s = .next t ∧ EndedWith t k 0 0 ∧
    (alive s p.greg = false → t.mem = s.mem) ∧
    (∀ n x, alive s p.greg = true → slotAt s p.greg d (bits (dw desc 1) 55 48) = some (n, x) → StoresOnly s t d [(x.prob.rhdr, 64)] [] ∧
      (bits (dw desc 1) 63 56 = 1 ∨ bits (dw desc 1) 63 56 = 3 → (s.grd p.greg).run ≠ some n → x.feeding = false →
        dataOk s d x.prob.rhdr 64 = true → StoredAt s t d x.prob.rhdr (leBytes 64 (setBits (slotHdr s x) 463 448 0))))) ∧
  (∀ (s : State) (d q k desc : Nat), Admissible s d q k desc (specExport d desc) →
    let g := grant s k (cmdAt s d q desc (specExport d desc))
    (∀ e, (s.day e).imps = []) ∨ (∀ p ∈ exportPackets g d desc, hopOf g (s.ctx k).home p.dst false none ≠ .here) → ∃ t,
    exec (.exportRun d q desc) s = .next t ∧ t.mem = s.mem ∧ t.dirs = s.dirs) ∧
  (∀ (s : State) (p : Nat) (k : Packet), MemoryOk s →
    StoresOnly s (importPage p s k) k.dom (importDest s k.dom k.page) (importReelDest s k.dom k.page))

/-- A ring read that returns UR or CA sets ERROR with cause DMA and takes nothing off the ring (R296). R301, checks 1 and 2: a command of a
reserved opcode, a reserved bit or a field out of range is refused with BAD_DESC, one whose cost exceeds QUOTA with QUOTA, one that a fixed
condition of its opcode forbids with that reason; and check 3 with R302: one that the free credits do not cover is deferred at the head of
its queue, and nothing of it runs. Stated of COPY. -/
def Obligations.CommandChecksAreOrdered : Prop :=
  ∀ (s : State) (d q k desc : Nat), ctxOf s (.dom d q) = some k → canFetch s k = true →
    let x := specCopy d desc
    let c := cmdAt s d q desc x
    (fetchFails desc = true → ∃ t, exec (.copy d q desc) s = .next t ∧ t.ctx k = { s.ctx k with errc := 2 } ∧ t.mem = s.mem) ∧
    (fetchFails desc = false → (knownOpc false (dOpc desc) = false → exec (.copy d q desc) s = .next (refuse s k c 0x01)) ∧
    (dOpc desc = 0x20 → (descClean desc = false ∨ x.inRange = false → exec (.copy d q desc) s = .next (refuse s k c 0x01)) ∧
    (descClean desc = true → x.inRange = true → (s.dom d).quota < x.cost → exec (.copy d q desc) s = .next (refuse s k c 0x0A)) ∧
    (descClean desc = true → x.inRange = true → x.cost ≤ (s.dom d).quota → x.static s k = some 0x13 →
      exec (.copy d q desc) s = .next (refuse s k c 0x13)) ∧
    (descClean desc = true → x.inRange = true → x.cost ≤ (s.dom d).quota → x.static s k = none → creditsFit s d x.cost = false → ∃ t f,
      exec (.copy d q desc) s = .next t ∧ (t.ctx k).defer = some f ∧ f.cost = x.cost ∧ f.cmd.desc = desc ∧ f.cmd.deferred = true ∧
      (t.ctx k).head = (s.ctx k).head ∧ (t.dom d).inflight = (s.dom d).inflight ∧ t.mem = s.mem)))

/-- R302: the oldest deferred command of a domain that now fits is admitted and runs; one whose cost has come to exceed QUOTA is refused with QUOTA.
-/
def Obligations.DeferredCommandsAreTriedInOrder : Prop :=
  ∀ (s : State) (d k : Nat) (f : Defer), d < 16 → dataUp s = true → s.cp.pcieRef = true → (s.dom d).st = .active →
    (deferredOf s d).find? (deferReady s d) = some (k, f) →
    ((s.dom d).quota < f.cost → exec (.deferredAdmission d) s = .next (refuse s k f.cmd 0x0A)) ∧
    (f.cost ≤ (s.dom d).quota → (specOf d f.cmd.desc f.cmd.data).static s k = none →
      exec (.deferredAdmission d) s = .next ((specOf d f.cmd.desc f.cmd.data).run (grant s k f.cmd) k))

/-- A completed command (R301, R304, R309): its context is free for the next one, its cost is given back, the record is written at CMD_CQ_TAIL with
its CID and STATUS, the tail advances and the phase inverts where the ring wraps. A record whose DMA fails is discarded, and the context enters
ERROR (R296). Once the oldest unsignalled record is COAL_T ticks old, the vector is signalled. Stated of an ended, admitted command of a
domain's queue. -/
def Obligations.CompletionsAreRecorded : Prop :=
  (∀ (s : State) (d q k : Nat) (c : Cmd) (p : Perf), ctxOf s (.dom d q) = some k → k ≠ adminKey → (s.ctx k).cmd = some c → c.fin = .ended 0 0 →
    c.admitted = true → c.dom < 16 → hostUp s = true → s.flt.chip = none → cqFull (s.ctx k) = false → (s.ctx k).errc = 0 →
        (s.ctx k).head < 2 ^ 16 → c.detail < 2 ^ 32 → c.stepNo < 2 ^ 32 →
    (∃ t w, exec (.commandCompletion (.dom d q) ⟨true, p⟩) s = .next t ∧ bits w 255 240 = dCid c.desc ∧ bits w 239 232 = 0 ∧
      bit w 216 = (s.ctx k).cqPhase ∧
      t.out.take (s.out.length + 1) = s.out ++ [.dma ((s.ctx k).cqBase + 32 * (s.ctx k).cqTail) (leBytes 32 w)] ∧
      (t.ctx k).cmd = none ∧ (t.ctx k).cqTail = ((s.ctx k).cqTail + 1) % 2 ^ (s.ctx k).cqLog ∧
      ((t.ctx k).cqPhase = if ((s.ctx k).cqTail + 1) % 2 ^ (s.ctx k).cqLog = 0 then !(s.ctx k).cqPhase else (s.ctx k).cqPhase) ∧
      (t.dom c.dom).inflight = (s.dom c.dom).inflight - c.cost ∧ t.mem = s.mem ∧ t.progs = s.progs) ∧
    (∃ t, exec (.commandCompletion (.dom d q) ⟨false, p⟩) s = .next t ∧ (t.ctx k).cmd = none ∧ (t.ctx k).errc = 2 ∧
      (t.ctx k).cqTail = (s.ctx k).cqTail ∧ (t.dom c.dom).inflight = (s.dom c.dom).inflight - c.cost)) ∧
  (∀ (s : State) (q : QRef) (k : Nat), ctxOf s q = some k → 0 < (s.ctx k).unsig → 0 < (s.ctx k).coalT →
    (s.ctx k).coalT ≤ s.ticks - (s.ctx k).unsigTick → hostUp s = true →
    let x := s.msix (fnOfCtx s k) (s.ctx k).vec
    (x.masked = false → exec (.coalesceTimer q) s =
      .next ((s.setCtx k { s.ctx k with unsig := 0 }).emit (.msix (fnOfCtx s k) (s.ctx k).vec x.addr x.data))) ∧
    (x.masked = true → exec (.coalesceTimer q) s =
      .next ((s.setCtx k { s.ctx k with unsig := 0 }).setMsix (fnOfCtx s k) (s.ctx k).vec { x with pend := true })))

/-! ## The step: items, signals, waits -/

/-- The item rows (R157, R165): the best-ranked ready item of a block starts, and its effect is that of its kind. A CUT item that Table 8-3
completes unrun is completed so. The start itself changes the block's own item states, watchdog and trace with its counter, and nothing else. -/
def Obligations.ItemsStart : Prop :=
  ∀ (s : State) (b l i : Nat) (it : Item) (p : Perf), StartsNext s b l i it →
    let t := started s b l i
    let x := resolveItem t (t.blk b).dom it
    let cut : Nat → Prop := fun o => l = 16 ∧ it.hdr.kind = 4 ∧ it.pass.opc = o
    let unit : Bool → Prop := fun is => l = 17 ∧ is = true
    let fell := layerFell b s it.pass
    (t = { s with blks := t.blks, ro := t.ro } ∧ (∀ c, c ≠ b → t.blk c = s.blk c) ∧ ((t.blk b).item l i).st = .running ∧ (t.blk b).wdt = 0) ∧
    (it.hdr.kind = 0 → exec (.tile b l p) s = .next (doTile b l p t i x)) ∧
    (it.hdr.kind = 1 → exec (.chain b l p) s = .next (doChain b l p t i x)) ∧
    (it.hdr.kind = 2 → exec (.tileVec b l p) s = .next (doTileVec b l p t i x)) ∧
    (cut 0x40 → exec (.survey b) s =
      .next (if conservative s (s.blk b).dom (b / 6) then doSurvey b t i x else unrunItem (drainTrace s b) b 16 i it)) ∧
    (cut 0x41 → exec (.pass b) s = .next (doPass b t i x)) ∧
    (cut 0x42 → exec (.dir1 b p) s = .next (if fell then unrunItem (drainTrace s b) b 16 i it else doDir false b p t i x)) ∧
    (cut 0x43 → exec (.dir2 b p) s = .next (if fell then unrunItem (drainTrace s b) b 16 i it else doDir true b p t i x)) ∧
    (cut 0x44 → exec (.finish b p) s = .next (if fell then unrunItem (drainTrace s b) b 16 i it else doFinish b p t i x)) ∧
    (unit (isRecord 1 it) → exec (.recordOpen b) s = .next (doRecord 1 b t i x)) ∧
    (unit (isRecord 2 it) → exec (.recordClose b) s = .next (doRecord 2 b t i x)) ∧
    (unit (it.hdr.kind == 7) → exec (.mark b) s = .next t) ∧
    (unit (isGrd 1 it) → exec (.grdFeed b) s = .next (doGrd 1 b t i x)) ∧
    (unit (isGrd 2 it) → exec (.grdSolve b) s = .next (doGrd 2 b t i x)) ∧
    (unit (isGrd 3 it) → exec (.grdFeedSolve b) s = .next (doGrd 3 b t i x)) ∧
    (unit (isGrd 4 it) → exec (.grdCold b) s = .next (doGrd 4 b t i x)) ∧
    (unit (isXfer 1 it) → exec (.xferWrite b) s = .next (doXfer b t i x)) ∧
    (unit (isXfer 2 it) → exec (.xferRadd b) s = .next (doXfer b t i x)) ∧
    (unit (isXfer 3 it) → exec (.xferSignal b) s = .next (doXfer b t i x)) ∧
    (unit (isXfer 16 it) → exec (.xferTree b) s = .next (doTree b t i x))

/-- Where the items of a step store (R124, R129), memory being in its canonical form: every byte outside these addresses reads as before. A
TILE item stores its output blocks, in the copy that is not current under EMA, its factor map and its record (R82 to R90); a CHAIN item its
outputs and its results, and at its end the records and the count word that it owes (R105, R114); a TILE_VEC item both, the tile operation
run in what its chain leaves (R113); RECORD its records (R47, R49); SURVEY its norm (R231); PASS nothing; DIR1 and DIR2 the layer's blocks
of DTMP and DOUT (R223); a slot that PASS takes, and every page of FINISH that no poisoned word stops, store DIN, the stage slot of a daily,
the page's other reel and its working copy (R214, R220, R224, R277), the slot being zeroed where it was bound; an emission its blocks and
its record (R173); a Grader request the header of its slot; a feed both mirror tiles and the entry of each upper tile (R187); a solve its
results and what it carries, in the copy that is not current (R205). -/
def Obligations.ItemsStoreAtTheirAddresses : Prop :=
  (∀ (s : State) (b l i : Nat) (it : Item) (p : Perf), MemoryOk s →
    let d := (s.blk b).dom
    let u := chainFirst s b l i it
    StoresOnly s (doTile b l p s i it) d (tileDest s d it.tile) (tileScaleDest s d it.tile) ∧
    StoresOnly s (doChain b l p s i it) d (chainDest s d it.chain) (chainScaleDest s d it.chain) ∧
    StoresOnly s (doTileVec b l p s i it) d (chainDest s d it.chain ++ tileDest u d it.tile) (chainScaleDest s d it.chain ++ tileScaleDest u d it.tile) ∧
    (∀ op, StoresOnly s (doRecord op b s i it) d ((recsOf it).map (fun a => (a, 128))) []) ∧
    StoresOnly s (doSurvey b s i it) d [(it.pass.norm, 4)] [] ∧ (doPass b s i it).mem = s.mem ∧
    (∀ two, StoresOnly s (doDir two b p s i it) d (dirDest s b d it.pass two) []) ∧
    (∀ op x n y, problemAt s d (bits (it.word 0) 55 48) = some x → slotAt s x.greg d (bits (it.word 0) 55 48) = some (n, y) →
      StoresOnly s (doGrd op b s i it) d [(y.prob.rhdr, 64)] [])) ∧
  (∀ (s : State) (b d : Nat) (o : Owed), MemoryOk s →
    StoresOnly s (payOwed s b d o) d (o.recs.map (fun r => (r.1, 128)) ++ o.cnt.toList.map (fun c => (c.1, 4))) []) ∧
  (∀ (s : State) (b k : Nat) (q : Pass) (p : PassDesc), MemoryOk s →
    let d := (s.blk b).dom
    let n := slotNo p k
    let u := (consumeSlot s k).2
    (∀ x, s.bind k = some x → StoresOnly s u d [] [(slotBase s k x, 65536)]) ∧ (s.bind k = none → u = s) ∧
    (pageBlocked s b (p.page0 + n) ≠ 0 → (takeSlot s b q p k).mem = s.mem) ∧
    (pageBlocked s b (p.page0 + n) = 0 → (s.dir (p.page0 + n)).dom = d →
      StoresOnly u (takeSlot s b q p k) d (pageDest u d p n) (reelDest u d p n))) ∧
  (∀ (s : State) (b i : Nat) (it : Item) (perf : Perf) (q : Pass) (p : PassDesc), MemoryOk s →
    let u := setPass (applyMemEvents s perf) b (some { idx := i, falls := false, ct := 0x3F800000, taken := [], wait := 0 })
    let d := (u.blk b).dom
    let ns := blkSlots u b d p
    u.mem = s.mem ∧ (passNow u b = some (q, p) → u.back.poison = [] → (∀ n ∈ ns, (u.dir (p.page0 + n)).dom = d) →
      StoresOnly u (doFinish b perf s i it) d (ns.flatMap (pageDest u d p)) (ns.flatMap (reelDest u d p)))) ∧
  (∀ (s : State) (b d src n : Nat) (p : PassDesc), MemoryOk s →
    StoresOnly s (emitStep s b d src p n) d (emitDest s d p (emitBuf s d p) n) (emitScaleDest s d p (emitBuf s d p) n)) ∧
  (∀ (s : State) (r n : Nat) (f : FeedEnd) (x : GSlot), MemoryOk s → spFind (s.grd r).slots n = some x → ∃ t,
    exec (.feedComplete r n f) s = .next t ∧ StoresOnly s t x.dom (feedDest x) []) ∧
  (∀ (s : State) (r n cycles : Nat) (stop : StopPoint) (p : PortPerf) (x : GSlot), MemoryOk s → runSlot s r = some (n, x) →
    let u := solvePerf s r cycles p.wait p.perf
    let y := stopParts s r x stop.block stop.attempt stop.iter
    u.mem = s.mem ∧
    (∃ t, exec (.solveComplete r cycles p) s = .next t ∧ StoresOnly u t x.dom (solveDest u x (solveBlks s r x 0 x.prob.blks) []) []) ∧
    ∃ t, exec (.solveDeadline r stop cycles p) s = .next t ∧ StoresOnly u t x.dom (solveDest u x y.1 (x.prob.blks.drop y.1.length)) [])

/-- What the step's rows leave (R155, R158, R160, R161, R234): the release sets every block of the program RUNNING; the oldest ready DEFER item
is promoted and keeps its ready cycle; an item whose writes have been performed is DONE, and only then are its signals sent, after what a chain owes
at its end (R114); a block whose
items are all done is REPORTED, and the last one enters the flag and norm exchange; after the clip pass the signature exchange begins. -/
def Obligations.StepProgresses : Prop :=
  (∀ (s : State) (d cycles : Nat), (s.stp d).order = .starting → (s.stp d).stopped = false → dataUp s = true →
    (∀ b ∈ progBlocks s d, alive s (regOfBlk b) = true ∧ (s.blk b).clkOff = false) → ∃ t, exec (.stepRelease d cycles) s = .next t ∧
    (t.stp d).order = .running ∧ (∀ b ∈ progBlocks s d, (t.blk b).phase = .running) ∧ t.mem = s.mem ∧ t.dirs = s.dirs ∧ t.cp = s.cp) ∧
  (∀ (s : State) (b l i : Nat), blkRuns s b = true → s.app (seqUnit b) (key 0x4800 2) ≠ 0 → bestOf s b (deferCands s b) = some (l, i) →
    ∃ t, exec (.deferPromotion b) s = .next t ∧ (t.blk b).item l i = { (s.blk b).item l i with promoted := true } ∧
      t = { s with blks := t.blks, ro := t.ro } ∧ t.ro? (kSeqPerf b 3) = min (s.ro? (kSeqPerf b 3) + 1) (entMax (kSeqPerf b 3))) ∧
  (∀ (s : State) (b : Nat), s.app (seqUnit b) (key 0x4800 2) = 0 → exec (.deferPromotion b) s = .next s) ∧
  (∀ (s : State) (b n l i cycles : Nat) (it : Item) (p : Perf), dataUp s = true → alive s (regOfBlk b) = true → i < 65536 →
    (((s.blk b).items.filter (fun e => e.2.st == .running)).map (·.1))[n]? = some (itemKey l i) → (listOf s b l)[i]? = some it →
    itemDone s b l i it = true → poisonHit s (s.blk b).dom (owedReads ((s.blk b).item l i)) = none → ∃ t,
      exec (.itemComplete b n ⟨cycles, p⟩) s = .next t ∧ ((t.blk b).item l i).st = .done ∧
      t.sigs.length = s.sigs.length + (signalsOf s b it).length ∧ t.dirs = s.dirs ∧ t.fab = s.fab ∧
      (((s.blk b).item l i).owed = none → t.sigs = s.sigs ++ signalsOf s b it ∧ t.mem = s.mem)) ∧
  (∀ (s : State) (b : Nat), dataUp s = true → alive s (regOfBlk b) = true → (s.stp (s.blk b).dom).stopped = false →
    (s.blk b).phase = .running → (s.blk b).pass = none → itemsDone s b = true →
    let t := reportBlock s b
    let d := (t.blk b).dom
    (t.blk b).phase = .reported ∧ exec (.blockReport b) s =
      .next (if (t.stp d).order = .running ∧ ∀ c ∈ progBlocks t d, mbit (t.stp d).reported c = true then enterNorm t d else t)) ∧
  (∀ (s : State) (d : Nat) (perf : Perf), dataUp s = true → (s.stp d).order = .clip →
    (∀ b ∈ progBlocks s d, mbit (s.stp d).clipped b = true ∧ alive s (b / 6) = true) →
    exec (.clipPassComplete ⟨d, perf⟩) s = .next (enterSig ((applyMemEvents s perf).setStp d { s.stp d with order := .sig }) d))

/-- Readiness counters (R153): a signal with its bank's tag adds 1, saturating at 0xFFFF; a newer one, or one into an invalid bank, clears the
bank, takes its tag over and adds 1; an older one changes no counter; one into a region that is resetting is lost. -/
def Obligations.SignalsCount : Prop :=
  (∀ (s : State) (n : Nat) (g : Sig), s.sigs[n]? = some g → alive s (regOfBlk g.blk) = true → ∃ t, exec (.signalArrival n) s = .next t ∧
    t.sigs = dropAt n s.sigs ∧ (t.blk g.blk).wdt = 0 ∧ t.mem = s.mem ∧
    let x := (s.blk g.blk).bankOf g.step
    let y := (t.blk g.blk).bankOf g.step
    (x.valid = true → x.step = g.step % 65536 → x.att = g.att % 16 → y.valid = true ∧ y.step = x.step ∧ y.att = x.att ∧
      ∀ c, spGet zeroNat y.ctr c = if c = g.ctr then min (spGet zeroNat x.ctr c + 1) 65535 else spGet zeroNat x.ctr c) ∧
    (x.valid = false ∨ tagNewer g.step g.att x.step x.att = true → y.valid = true ∧ y.step = g.step % 65536 ∧ y.att = g.att % 16 ∧
      ∀ c, spGet zeroNat y.ctr c = if c = g.ctr then 1 else 0) ∧
    (x.valid = true → tagNewer g.step g.att x.step x.att = false → ¬ (x.step = g.step % 65536 ∧ x.att = g.att % 16) → y = x)) ∧
  (∀ (s : State) (n : Nat) (g : Sig), s.sigs[n]? = some g → alive s (regOfBlk g.blk) = false →
    exec (.signalArrival n) s = .next { s with sigs := dropAt n s.sigs })

/-- The Cutter's pass (R138, R139, R173, R214, R224, R277): a complete slot whose page is free is taken, its page's PEND is set, and its committed
reel stays selected; a staged page stands in the block's staging slots; staging, a page move, HOLD and a daily's stream end their waits, and the
pass goes on; PAGE_MOVE sets MIG when it begins, and at its end copies both reels and writes TIER, PAGE_ADDR and MIG in one update. -/
def Obligations.CutterPassProceeds : Prop :=
  (∀ (s : State) (b k : Nat) (ks : List Nat) (q : Pass) (p : PassDesc) (perf : Perf), blkRuns s b = true → passNow s b = some (q, p) →
    q.wait = 0 → p.opc = 0x41 → takable s b (s.blk b).dom q p = k :: ks →
    exec (.cutterSlotTake b perf) s = .next (takeGuarded (applyMemEvents s perf) b q p k) ∧
    (s.back.poison = [] → takeGuarded (applyMemEvents s perf) b q p k = takeSlot (applyMemEvents s perf) b q p k) ∧
    (pageBlocked s b (p.page0 + slotNo p k) = 0 → (s.dir (p.page0 + slotNo p k)).frozen = false →
      let t := takeSlot (applyMemEvents s perf) b q p k
      let e := s.dir (p.page0 + slotNo p k)
      (t.dir (p.page0 + slotNo p k)).pend = true ∧ (t.dir (p.page0 + slotNo p k)).reel = e.reel)) ∧
  (∀ (s : State) (b page cycles n : Nat) (perf : Perf), blkRuns s b = true → mayStage s b page = true → freeStage (s.blk b) = some n →
    let u := applyMemEvents (s.wrBytes (stageSlots s b n) (s.rdBytes (reelAt (s.dir page) (s.dir page).cur) 0x20000)) perf
    let t := u.setBlk b { u.blk b with staged := (u.blk b).staged ++ [(n, page)] }
    (t.blk b).staged = (s.blk b).staged ++ [(n, page)] ∧
    ((∀ q p, passNow s b = some (q, p) → q.wait ≠ 1) → exec (.stagingArrival b ⟨page, cycles, perf⟩) s = .next t) ∧
    (∀ q p, passNow t b = some (q, p) → q.wait = 1 → waitPage t b q p = some page →
      exec (.stagingArrival b ⟨page, cycles, perf⟩) s = .next (passResume (t.count (kMem 4) cycles) b q p))) ∧
  (∀ (s : State) (b page cycles : Nat) (q : Pass) (p : PassDesc), blkRuns s b = true → passNow s b = some (q, p) →
    waitPage s b q p = some page → q.wait = 2 → (s.dir page).mig = false →
    exec (.migWaitEnd b cycles) s = .next (passResume (s.count (kMem 4) cycles) b q p)) ∧
  (∀ (s : State) (b n cycles : Nat) (q : Pass) (p : PassDesc), blkRuns s b = true → passNow s b = some (q, p) →
    q.taken.getLast? = some n → q.wait = 3 → emitHeld s (s.blk b).dom p = false → s.back.poison = [] →
    exec (.emissionResume b cycles) s =
      .next (passResume (emitStep (s.count (kSeqPerf b 8) cycles) b (s.blk b).dom (srcOf b 16 q.idx) p n) b q p)) ∧
  (∀ (s : State) (b page cycles : Nat) (q : Pass) (p : PassDesc), blkRuns s b = true → passNow s b = some (q, p) →
    waitPage s b q p = some page → q.wait = 4 → owesClip s b = false →
    exec (.dailyStreamWaitEnd b cycles) s =
      .next (passResume (setPageState (s.count (kMem 4) cycles) (s.dir page).dom page 0) b q p)) ∧
  (∀ (s : State) (page dest : Nat), dataUp s = true → (s.dir page).valid = true → (s.dir page).mig = false →
    layerPassRuns s (s.dir page) = false → pageState s (s.dir page).dom page ≠ 2 → pageFits s dest = true → ∃ t,
    exec (.pageMove page (.start dest)) s = .next t ∧ t.dir page = { s.dir page with mig := true } ∧ (∀ x, x ≠ page → t.dir x = s.dir x) ∧
    (page, dest) ∈ pageMoves t ∧ t.mem = s.mem ∧ t.blks = s.blks ∧ t.progs = s.progs ∧ t.binds = s.binds) ∧
  (∀ (s : State) (page dest : Nat) (perf : Perf), dataUp s = true → s.back.poison = [] →
    (pageMoves s).find? (fun m => m.1 == page) = some (page, dest) → ∃ t,
    exec (.pageMove page (.finish perf)) s = .next t ∧ t.mem = (s.wrBytes dest (s.rdBytes ((s.dir page).addr * 2 ^ 18) 0x40000)).mem ∧
    t.dir page = { s.dir page with tier := dest < 0x8000000000, addr := dest / 2 ^ 18, mig := false } ∧
    (∀ y, y ≠ page → t.dir y = s.dir y) ∧ t.progs = s.progs ∧ t.binds = s.binds)

/-! ## Memory -/

/-- Reads after writes (R134, R147): with memory in its canonical form, bytes written read back as written, whatever their words held before, and
every byte outside reads as before, words that the write touches apart. A plain read of an unbound slot gives +0; a consuming read of a slot
gives its contents and leaves it unbound. That a write of a part of a poisoned word takes the poison off the whole word is the model's choice
(DEDUCED, log entry 76). -/
def Obligations.MemoryReadsBack : Prop :=
  (∀ (s : State) (a : Nat) (bs : List Byte), MemoryOk s →
    let t := s.wrBytes a bs
    t.rdBytes a bs.length = bs ∧ MemoryOk t ∧
    (∀ x, x < a ∨ a + bs.length ≤ x → t.rd x = s.rd x) ∧
    (∀ x, x / 8 < a / 8 ∨ (a + bs.length + 7) / 8 ≤ x / 8 → t.rdBytes x 1 = s.rdBytes x 1)) ∧
  (∀ (s : State) (key : Nat), (s.bind key = none → slotBytes s key = fill 65536 0) ∧
    (consumeSlot s key).1 = slotBytes s key ∧ slotBytes (consumeSlot s key).2 key = fill 65536 0 ∧ (consumeSlot s key).2.bind key = none ∧
    (∀ k, k ≠ key → (consumeSlot s key).2.bind k = s.bind k))

/-- Held accesses (R134): when an entry of a cell's full binding table frees, the accesses held for the first slot are performed in their order,
and the wait is counted; once a spilled slot's lines are zero, those held for it are, and none of them waits any longer. -/
def Obligations.HeldAccessesResume : Prop :=
  (∀ (s : State) (cell cycles : Nat) (h : Held), firstHeld s cell false = some h → (bindsOf s cell).length < 256 →
    exec (.bindWaitEnd cell cycles) s = .next (releaseHeld (s.count (kMem 3) cycles) h.key slotWrite)) ∧
  (∀ (s : State) (cell : Nat) (h : Held) (b : Bind), firstHeld s cell true = some h → s.bind h.key = some b →
    let t := releaseHeld (zeroRange s (slotBase s h.key b) 65536) h.key (fun s x => match s.bind x.key with
      | some y => onBound s y x
      | none => slotWrite s x)
    exec (.spillZeroFillDone cell) s = .next t ∧ t.back.held = s.back.held.filter (fun x => x.key != h.key) ∧
    (t.bind h.key).isSome = true ∧ t.dirs = s.dirs ∧ t.progs = s.progs)

/-- Errors of cells and slices (R18, R19, R25, R115, R136, R147, R363): a slice error kills its region with cause 0x01, but a directory line is
served from its mirror; a tile after a parity error is issued again, a second one within 1,024 tiles, or no answer, gives the position to
the stand-in, or takes the block out of service; the substitution enters the stand-in in the map; an uncorrectable scrubbed line is poisoned.
Which records are made, a second one where the block goes out of service, and their fields are the model's reading (DEDUCED, log entry 55). -/
def Obligations.CellAndSliceErrorsAct : Prop :=
  (∀ (s : State) (cell off : Nat), s.pwr.rails = .up → inDirectory cell off = false → inSegTable s cell off = false →
    contained s (cell / 96) = false → alive s (cell / 96) = true → ∃ t, exec (.sliceUe cell off false) s = .next t ∧
    (t.reg (cell / 96)).st = .resetting ∧ t.flt.head = s.flt.head + 1 ∧ bits (recordAt t t.flt.head) 409 402 = 0x01) ∧
  (∀ (s : State) (cell off : Nat), s.pwr.rails = .up → inDirectory cell off = true →
    exec (.sliceUe cell off false) s = .next ((s.count (kSram 2) 1).count (kSram 3) 1)) ∧
  (∀ (s : State) (cell off : Nat) (c : Bool), s.pwr.rails = .up → ∃ t, exec (.scrubLine cell off c true) s = .next t ∧
    (∀ i, i < 8 → (sliceBase cell + off) / 64 * 8 + i ∈ t.back.poison) ∧ t.mem = s.mem) ∧
  (∀ (s : State) (cell off : Nat), s.pwr.rails = .up → exec (.scrubLine cell off true false) s = .next (s.count (kSram 0) 1)) ∧
  (∀ (s : State) (b pos : Nat) (worked : Bool), contained s (b / 6) = false → cellsRun s b = true → runsAt s b pos ≠ [] →
    substAt s b pos = false →
    (standInFree (s.blk b) = true → (s.blk b).subst = none → ∃ t, exec (.cellTimeout b pos worked) s = .next t ∧
      (t.blk b).subst = some { pos := pos, cause := 0x03, worked := worked, tick := s.ticks } ∧ t.mem = s.mem ∧ t.flt.head = s.flt.head) ∧
    (standInFree (s.blk b) = false → ∃ t, exec (.cellTimeout b pos worked) s = .next t ∧
      (t.reg (b / 6)).st = .resetting ∧ bit (t.blk b).map 31 = false ∧ t.flt.head = s.flt.head + 2) ∧
    (∀ hit ki, (runsAt s b pos)[hit]? = some ki → runOverwrites s b ki = false →
      (spFind (s.blk b).parity (physOf (s.blk b) pos) = none → ∃ t, exec (.parityError b pos ⟨hit, worked⟩) s = .next t ∧
        t.flt.head = s.flt.head + 1 ∧ bits (recordAt t t.flt.head) 413 410 = 1 ∧ bits (recordAt t t.flt.head) 409 402 = 0x02 ∧
        (ki / 65536 ≠ 16 → (spGet itemDflt (t.blk b).items ki).st = .ready) ∧ t.mem = s.mem) ∧
      (∀ n, spFind (s.blk b).parity (physOf (s.blk b) pos) = some n →
        spGet zeroNat (s.blk b).tiles (physOf (s.blk b) pos) ≤ n + 1024 → standInFree (s.blk b) = true → (s.blk b).subst = none → ∃ t,
        exec (.parityError b pos ⟨hit, worked⟩) s = .next t ∧
        (t.blk b).subst = some { pos := pos, cause := 0x02, worked := worked, tick := s.ticks }))) ∧
  (∀ (s : State) (b : Nat) (x : Subst), (s.blk b).subst = some x → alive s (b / 6) = true → dataUp s = true → x.pos < 16 → ∃ t,
    exec (.substitutionComplete b) s = .next t ∧ (t.blk b).subst = none ∧ bits (t.blk b).map 21 17 = x.pos ∧
    t.flt.head = s.flt.head + 1 ∧ bits (recordAt t t.flt.head) 413 410 = 2 ∧
    bits (recordAt t t.flt.head) 479 416 = x.tick % 2 ^ 64 ∧ t.mem = s.mem)

/-- Channels of backing memory (R142 to R145): a channel command with space elsewhere starts emptying its package and reads BUSY; a granule move
exchanges two device locations and changes no byte; an emptied package is trained or retired; training ends in service or in retirement; an
uncorrectable read kills its region with cause 0x07, and its granule is suspect; a second one of the granule fails the package, with a record of
cause 0x08. That the second read makes both records, and that a granule is suspect from the read on, is the model's reading (DEDUCED, log
entry 85). -/
def Obligations.MemoryChannelsAct : Prop :=
  (∀ (s : State) (op r : Nat) (x : Nat × Nat), op = 1 ∨ op = 2 → dataUp s = true → channelCmd s r op = some x →
    let t := applyChannel { s with mgt := { s.mgt with cmdPend := s.mgt.cmdPend.erase x } } op (x.2 % 256)
    exec (if op = 1 then .memChRetrain r else .memChRetire r) s = .next t ∧ t.mem = s.mem ∧
    (chState s (x.2 % 256) < 4 → s.back.ops = [] → hasSpace s (x.2 % 256 / 4) = true →
      t.ro? (key 0x6023 1) = 1 ∧ (opOf t (x.2 % 256 / 4)).isSome = true)) ∧
  (∀ (s : State) (g : Nat) (m : Nat × Nat), s.back.moves.find? (fun m => m.1 == g) = some m → dataUp s = true → m.1 ≠ m.2 → ∃ t,
    exec (.granuleMoveComplete g) s = .next t ∧ devOf t m.1 = devOf s m.2 ∧ devOf t m.2 = devOf s m.1 ∧
    (∀ k, k ≠ m.1 → k ≠ m.2 → devOf t k = devOf s k) ∧ t = { s with back := t.back }) ∧
  (∀ (s : State) (p : Nat) (o : ChOp), opOf s p = some o → dataUp s = true → chState s o.ch = 1 → usedIn s p = [] → movingIn s p = [] →
    exec (.packageEmptied p) s = .next (if o.op = 1 then setCh o.ch 2 (setPkg s p 3) else endOp (setPkg s p 4) o 2)) ∧
  (∀ (s : State) (o : ChOp), s.back.ops.find? (fun o => chState s o.ch == 2) = some o → dataUp s = true →
    (∃ t, exec (.channelRetrainDone true) s = .next t ∧ t = { s with back := t.back, ro := t.ro } ∧
      (o.report = true → t.ro? (key 0x6023 1) = 2) ∧ opOf t (o.ch / 4) = none) ∧
    exec (.channelRetrainDone false) s = .next (endOp (setPkg s (o.ch / 4) 4) o 4)) ∧
  (∀ (s : State) (ch : Nat), dataUp s = true → chState s ch = 6 → exec (.degradedRetry ch) s = .next (autoRetire s ch)) ∧
  (∀ (s : State) (pa : Nat), pa < 0x8000000000 → dataUp s = true →
    let g := pa / 2 ^ 28
    let r := regOfPkg (devOf s g / 128)
    contained s r = false → alive s r = true → s.back.suspect.contains g = false → ∃ t, exec (.dramUe pa) s = .next t ∧
      (t.reg r).st = .resetting ∧ t.flt.head = s.flt.head + 1 ∧ bits (recordAt t t.flt.head) 409 402 = 0x07 ∧
      t.back.suspect = s.back.suspect ++ [g]) ∧
  (∀ (s : State) (pa : Nat), pa < 0x8000000000 → dataUp s = true →
    let g := pa / 2 ^ 28
    let p := devOf s g / 128
    contained s (regOfPkg p) = false → alive s (regOfPkg p) = true → s.back.suspect.contains g = true → ∃ t, exec (.dramUe pa) s = .next t ∧
      mbit t.back.gone p = true ∧ (t.reg (regOfPkg p)).st = .resetting ∧ t.flt.head = s.flt.head + 2 ∧
      bits (recordAt t t.flt.head) 409 402 = 0x08)

/-! ## The fabric -/

/-- Links (R249, R253, R254, R255, R260): a frame with an uncorrectable codeword or a wrong CRC is discarded and answered with NAK; an
accepted one advances the expected sequence number, one out of order is discarded silently; a resynchronising peer restores full credits and
discards the retry buffer; a timeout sends every outstanding frame again; the granted packet takes its credits and stays in the retry
buffer; a packet for another module goes on by the port of its hop, one with no destination in the torus is dropped and counted. -/
def Obligations.LinksCarryFrames : Prop :=
  (∀ (s : State) (p : Nat) (f : Frame), p < 8 → portListens s p = true →
    f.bad ≠ 0 ∨ frameCrc f.control f.slots ≠ bits f.control 15 0 → ∃ t, exec (.frameReceive p f) s = .next t ∧
    (t.port p).lastCtl = controlOf { s.port p with nak := true } (bits (s.port p).lastCtl 79 68) [] (lstateOf s p) ∧
    t.out.length = s.out.length + 1 ∧ (t.port p).rxSeq = (s.port p).rxSeq ∧ (t.port p).rx = (s.port p).rx ∧ t.mem = s.mem ∧
    ∀ q, q ≠ p → t.port q = s.port q) ∧
  (∀ (s : State) (p : Nat) (f : Frame), p < 8 → portListens s p = true → f.bad = 0 →
    frameCrc f.control f.slots = bits f.control 15 0 → bits f.control 18 17 = 0 → isControl f.control = false →
    (bits f.control 79 68 = ((s.port p).rxSeq + 1) % 4096 → ∃ t, exec (.frameReceive p f) s = .next t ∧
      (t.port p).rxSeq = bits f.control 79 68 ∧ (t.port p).nak = false ∧ t.mem = s.mem) ∧
    (bits f.control 79 68 ≠ ((s.port p).rxSeq + 1) % 4096 →
      exec (.frameReceive p f) s = .next (s.count (kPort p 0) f.corrected))) ∧
  (∀ (s : State) (p : Nat) (f : Frame), p < 8 → portListens s p = true → f.bad = 0 →
    frameCrc f.control f.slots = bits f.control 15 0 → bits f.control 18 17 = 2 → ∃ t, exec (.frameReceive p f) s = .next t ∧
    (t.port p).retry = [] ∧ (t.port p).credit = [1024, 1024, 512] ∧ (t.port p).rxSeq = 0xFFF ∧
    ((s.port p).st = .hold → (t.port p).st = (s.port p).back) ∧ t.mem = s.mem) ∧
  (∀ (s : State) (p : Nat), portUp s p = true → (s.port p).retry ≠ [] →
    exec (.retryTimeout p) s = .next (retransmit s p) ∧
    ((∀ f ∈ (s.port p).retry, f.tries < s.app (regOfPort p) (key 0x5000 3)) →
      (retransmit s p).out.length = s.out.length + (s.port p).retry.length ∧
      ((retransmit s p).port p).retry = (s.port p).retry.map (fun f => { f with tries := f.tries + 1 }))) ∧
  (∀ (s : State) (p i cycles : Nat) (k : TxPkt), portUp s p = true → nextTx (s.port p) = some (i, k) → k.cls < (s.port p).credit.length →
    ∃ t, exec (.packetSend p cycles) s = .next t ∧ (t.port p).tx = dropAt i (s.port p).tx ∧
    (t.port p).credit.getD k.cls 0 = (s.port p).credit.getD k.cls 0 - k.pkt.flits ∧
    (t.port p).retry.length = (s.port p).retry.length + (framesOf k).length ∧ t.mem = s.mem) ∧
  (∀ (s : State) (p cls : Nat) (k : Packet) (ks : List Packet), alive s (regOfPort p) = true → dataUp s = true → rxOf s p cls = k :: ks →
    (hopOf s (regOfPort p) k.dst (k.auxed || p ≥ 6) (if p ≥ 6 then none else some (p, cls)) = .outside →
      exec (.packetForward p cls) s = .next ((takeRx s p cls 0).count (kPort p 8) 1)) ∧
    (∀ q c, hopOf s (regOfPort p) k.dst (k.auxed || p ≥ 6) (if p ≥ 6 then none else some (p, cls)) = .out q c →
      exec (.packetForward p cls) s = .next (enqueue (takeRx s p cls 0) q (2 ^ 60 + p) p
        { k with hdr := setBits (setBits k.hdr 503 502 (if k.cls = 2 then 2 else c)) 451 451 (b2n (k.auxed || q ≥ 6)) })))

/-- Routing (R257): inside the torus, with no auxiliary port, a hop goes the shorter way around the first ring in which the coordinates
differ, the + way where both are as long, and the distance left in that ring falls by one; a packet for the module itself is delivered. -/
def Obligations.RoutingBringsNearer : Prop :=
  (∀ (s : State) (r dst : Nat) (aux : Bool) (prev : Option (Nat × Nat)), dst = fabCoord s r → hopOf s r dst aux prev = .here) ∧
  (∀ (d c t : Nat), c < d → t < d → c ≠ t → ∀ i,
    let up := (t + d - c) % d
    let h := ringHop d c t i
    (2 * up ≤ d → h.1 = 2 * i ∧ h.2 = decide (c + 1 = d) ∧ (t + d - (c + 1) % d) % d + 1 = up) ∧
    (d < 2 * up → h.1 = 2 * i + 1 ∧ h.2 = decide (c = 0) ∧ ((c + d - 1) % d + d - t) % d + 1 = (c + d - t) % d)) ∧
  (∀ (s : State) (r dst p cls : Nat) (prev : Option (Nat × Nat)), hopOf s r dst true prev = .out p cls → ∃ i, i < 3 ∧
    p = (ringHop (dimOf (fabTorus s r) i) (coord (fabCoord s r) i) (coord dst i) i).1 ∧
    coord (fabCoord s r) i ≠ coord dst i ∧ ∀ j, j < i → coord (fabCoord s r) j = coord dst j)

/-- Lanes and ports (R282, R283): training ends in UP4, or in UP3 with one lane retired; a lane command on a port in UP4 is announced and
reads BUSY where the peer accepts it (to RETIRE its answer is a free value, log entry 57), elsewhere it reads REFUSED; both ends switch; a
recalibration ends DONE on four lanes or FAILED with the lane retired; a lost lane takes a port from UP4 to UP3, where a change pending
at it is cut short (DESIGN CHOICE, log entry 57), and from UP3 to DOWN with a port fault. -/
def Obligations.LanesChange : Prop :=
  (∀ (s : State) (p : Nat), (s.port p).st = .training → alive s (regOfPort p) = true → ∃ t, exec (.portTrained p) s = .next t ∧
    ((∀ l, l < 4 → s.ro? (laneKey (4 * p + l)) ≠ 2) → (t.port p).st = .up4) ∧
    (∀ l, l < 4 → s.ro? (laneKey (4 * p + l)) = 2 → (∀ m, m < 4 → m ≠ l → s.ro? (laneKey (4 * p + m)) ≠ 2) →
      (t.port p).st = .up3 ∧ (t.port p).lost = l) ∧ t.mem = s.mem ∧ ∀ q, q ≠ p → t.port q = s.port q) ∧
  (∀ (s : State) (op v : Nat) (ready : Bool), op = 1 ∨ op = 2 → laneCmd s op = some v →
    let c : Instr := if op = 1 then .fabLaneRecal ready else .fabLaneRetire
    let p := v % 256 / 4
    let accepted : Prop := (s.port p).st = .up4 ∧ (s.port p).lreq = none ∧ s.fab.lane = none ∧ portUp s p = true ∧
      (op = 1 → ready = true) ∧ (op = 2 → bit (Config.freeWord s.free).toNat 0 = true)
    ∃ t, exec c s = .next t ∧
      (accepted → t.ro? (key 0x5032 1) = 1 ∧ (t.port p).lreq = some (v % 256 % 4, true) ∧ (t.port p).lcnt = 6 ∧
        t.fab.lane = some { op := op, lane := v % 256 }) ∧
      (¬ accepted → t.ro? (key 0x5032 1) = 4 ∧ t.fab = s.fab)) ∧
  (∀ (s : State) (p lane : Nat) (three : Bool), p < 8 → portUp s p = true → lane < 4 → (s.port p).lreq = some (lane, three) → ∃ t,
      exec (.laneChange p) s = .next t ∧
    (t.port p).st = (if three then .up3 else .up4) ∧ (t.port p).lreq = none ∧
    (three = false → t.ro? (laneKey (4 * p + lane)) = 0) ∧ (three = true → s.fab.lane = none → t.ro? (laneKey (4 * p + lane)) = 2) ∧
    t.mem = s.mem) ∧
  (∀ (s : State) (p : Nat) (o : LaneOp), s.fab.lane = some o → o.op = 1 → o.lane < 32 → o.lane / 4 = p → (s.port p).lreq = none →
    s.ro? (laneKey o.lane) = 1 → (∃ t, exec (.laneRecalDone p true) s = .next t ∧ (t.port p).lreq = some (o.lane % 4, false)) ∧
    (∃ t, exec (.laneRecalDone p false) s = .next t ∧ t.ro? (key 0x5032 1) = 3 ∧ t.ro? (laneKey o.lane) = 2 ∧ t.fab.lane = none)) ∧
  (∀ (s : State) (lane : Nat), lane < 32 → dataUp s = true → (s.port (lane / 4)).st = .up4 → ∃ t, exec (.laneLoss lane) s = .next t ∧
    (t.port (lane / 4)).st = .up3 ∧ (t.port (lane / 4)).lost = lane % 4 ∧ (t.port (lane / 4)).lreq = none ∧ t.ro? (laneKey lane) = 2) ∧
  (∀ (s : State) (lane : Nat), lane < 32 → dataUp s = true → (s.port (lane / 4)).st = .up3 → (s.port (lane / 4)).lost ≠ lane % 4 →
    alive s (regOfPort (lane / 4)) = true → (s.reg (regOfPort (lane / 4))).st ≠ .resetting → ∃ t, exec (.laneLoss lane) s = .next t ∧
    (t.port (lane / 4)).st = .down ∧ (t.port (lane / 4)).tx = [] ∧ (t.reg (regOfPort (lane / 4))).st = .resetting ∧
    bits (recordAt t t.flt.head) 409 402 = 0x09)

/-- Packets at their destination (R263, R266 to R273, R278 to R281): the first packet of its type is performed in its domain's current generation,
and otherwise dropped whole and counted; a TDOWN packet is deposited and goes on to the children unchanged but for the DST of the hop. -/
def Obligations.PacketsArePerformed : Prop :=
  (∀ (s : State) (p cls : Nat) (k : Packet) (ks : List Packet), p < 8 → alive s (regOfPort p) = true → dataUp s = true →
    rxOf s p cls = k :: ks → k.dst = fabCoord s (regOfPort p) →
    let runs : Instr → Nat → (State → Packet → State) → Prop := fun c ty f => k.ty = ty →
      exec c s = .next (if k.current s then f (takeRx s p cls 0) k else (takeRx s p cls 0).count (kPort p 7) 1)
    runs (.pktWrite p cls) 0x01 performPacket ∧ runs (.pktSignal p cls) 0x03 performPacket ∧
    (∀ perf, runs (.pktRadd p ⟨cls, perf⟩) 0x02 (fun t k => performPacket (applyMemEvents t perf) k)) ∧
    runs (.daily p cls) 0x30 dailyStore ∧ runs (.dailyEnd p cls) 0x31 dailyClose ∧
    (∀ perf, runs (.importPkt p ⟨cls, perf⟩) 0x32 (fun t k => importPage p (applyMemEvents t perf) k)) ∧
    runs (.importEnd p cls) 0x33 (importClose p)) ∧
  (∀ (s : State) (p n : Nat) (k : Packet), p < 8 → alive s (regOfPort p) = true → dataUp s = true →
    let runs : Instr → Nat → (State → Packet → State) → Prop := fun c ty f => combineOf s p (fun x => x.ty == ty) = some (n, k) →
      exec c s = .next (if k.current s then f (takeRx s p 2 n) k else (takeRx s p 2 n).count (kPort p 7) 1)
    runs (.xnorm p) 0x20 (xChild p) ∧ runs (.xnormRes p) 0x21 xParent ∧ runs (.xsig p) 0x22 (xChild p) ∧ runs (.xsigRes p) 0x23 xParent) ∧
  (∀ (s : State) (p n : Nat) (k : Packet) (perf : Perf), p < 8 → alive s (regOfPort p) = true → dataUp s = true → k.current s = true →
    combineOf s p (fun x => x.ty == 0x11) = some (n, k) →
    let u := applyMemEvents (takeRx s p 2 n) perf
    exec (.tdown ⟨p, perf⟩) s = .next ((childPorts u k.grp).foldl
      (fun u q => toNeighbour u q 0 { k with hdr := setBits k.hdr 475 464 (neighbour u (selfCoord u) q) })
      (postSignal (fabricAdds u k.dom (transferSrc k) k.step k.dexp k.addr k.slotLast k.data) k))) ∧
  (∀ (s : State) (p n : Nat) (k : Packet) (c : Comb) (perf : Perf), p < 8 → alive s (regOfPort p) = true → dataUp s = true → k.current s = true →
    combineOf s p (fun x => x.ty == 0x10 && (!x.current s || (tupFate s p x).1 != 0)) = some (n, k) →
    let u := applyMemEvents (takeRx s p 2 n) perf
    (tupFate s p k = (1, some c) → exec (.tup ⟨p, perf⟩) s = .next (tupInto u p k c)) ∧
    (tupFate s p k = (2, some c) → exec (.tup ⟨p, perf⟩) s = .next (tupInto (domNonfin (u.count (kXchg 2) 1) k.dom) p k c)) ∧
    (tupFate s p k = (3, none) → exec (.tup ⟨p, perf⟩) s = .next (domNonfin (u.count (kXchg 2) 1) k.dom)))

/-- What packets do (R263): a packet stores where R124 places its range and nowhere else; a WRITE outside its domain's segments writes
nothing; a SIGNAL with SIG_EN and LAST posts exactly its signal, where no access of its transfer is held; a packet writes no other domain's
tables, and no packet changes a program, a directory entry, a domain's context range or, unless it adds to a poisoned word (R18), a region.
-/
def Obligations.PacketEffectsAreConfined : Prop :=
  (∀ (s : State) (k : Packet), k.ty = 0x03 → k.last = true → k.sigEn = true → k.sigBlk < 24 →
    s.back.held.any (fun h => h.src == transferSrc k) = false →
    performPacket s k = { s with sigs := s.sigs ++ [{ blk := k.sigBlk, ctr := k.sigCtr, step := k.step, att := attFor s k.dom k.step }] }) ∧
  (∀ (s : State) (k : Packet), (∀ o, o < 2 ^ 28 → segLoc (s.seg k.dom (maSeg k.addr)) k.dom (maSeg k.addr) o = .miss) →
    k.ty = 0x01 → maOff k.addr + k.data.length ≤ 2 ^ 28 → k.addr < 2 ^ 40 → (performPacket s k).mem = s.mem ∧
    (performPacket s k).binds = s.binds) ∧
  (∀ (s : State) (k : Packet), let t := performPacket s k
    t.progs = s.progs ∧ t.dirs = s.dirs ∧ t.segs = s.segs ∧ t.cp.doms = s.cp.doms ∧ (s.back.poison = [] → t.flt.regs = s.flt.regs) ∧
        t.pwr = s.pwr ∧
    t.sec = s.sec ∧ t.mgt = s.mgt ∧ (MemoryOk s → StoresOnly s t k.dom [(k.addr, k.data.length)] []) ∧
    ∀ key, keyDom key ≠ k.dom → t.bind key = s.bind key)

/-- Dailies (R274, R276, R279): an engine whose pages are done is finished; else it takes the first of its PENDING or STAGED pages in rank,
and the page is STREAMING, or NONE where it was STAGED; a domain no longer ACTIVE sends none (R274); with all four engines done the daily is
complete, and its half gives way to the other. -/
def Obligations.DailiesStream : Prop :=
  (∀ (s : State) (d r : Nat) (perf : Perf), d < 16 → r < 4 → (s.dom d).st = .active → dataUp s = true → alive s r = true →
    (s.day d).running = true → mbit (s.day d).engines r = false → s.back.poison = [] →
    let t := streamDone s d r
    (nextDaily t d r = none → exec (.dailyPageStream d ⟨r, perf⟩) s = .next (t.setDay d { t.day d with engines := mset (t.day d).engines r })) ∧
    (∀ page, nextDaily t d r = some page → (t.dir page).mig = true → exec (.dailyPageStream d ⟨r, perf⟩) s = .next t) ∧
    (∀ page, nextDaily t d r = some page → (t.dir page).mig = false → ∃ u, exec (.dailyPageStream d ⟨r, perf⟩) s = .next u ∧
      pageState u d page = (if pageState t d page = 3 then 0 else 2) ∧ u.dirs = s.dirs ∧ u.progs = s.progs)) ∧
  (∀ (s : State) (d : Nat) (x : Accessed), (s.dom d).st ≠ .active → exec (.dailyPageStream d x) s = .next s) ∧
  (∀ (s : State) (d : Nat), d < 16 → dataUp s = true → (s.day d).running = true → (s.day d).engines = 15 → ∃ t,
    exec (.dailyEnginesDone d) s = .next t ∧ (t.day d).running = false ∧ (t.day d).states = [] ∧ (t.day d).engines = 0 ∧
    (t.day d).completed = (s.day d).completed + 1 ∧ t.ro? (key (0x5100 + d) 4) = (s.day d).s ∧ t.mem = s.mem)

/-! ## The Graders -/

/-- The Graders (R186, R187, R192, R206): a feed ends; the free array starts the queued solve of a slot with no feed whose AGE is largest,
the earliest accepted first among equals; a solve ends, at its completion or its deadline, with its outcome pending, marked DEADLINE where
the deadline has expired, and none running; a read that meets no poisoned word. -/
def Obligations.GradersRun : Prop :=
  (∀ (s : State) (r n rep : Nat) (torn : List Nat) (p : Perf) (x : GSlot), spFind (s.grd r).slots n = some x → r < 4 → dataUp s = true →
    alive s r = true → s.back.poison = [] → x.feeding = true → ∃ t, exec (.feedComplete r n ⟨rep, torn, p⟩) s = .next t ∧
    spFind (t.grd r).slots n = some { x with feeding := false, drifts := [] } ∧
    (t.grd r).run = (s.grd r).run ∧ t.dirs = s.dirs ∧ t.progs = s.progs) ∧
  (∀ (s : State) (r : Nat), r < 4 → dataUp s = true → alive s r = true → (s.grd r).run = none →
    (∃ e ∈ (s.grd r).slots, e.2.queued.isSome = true ∧ e.2.feeding = false) → ∃ t n x, exec (.solveStart r) s = .next t ∧
    (n, x) ∈ (s.grd r).slots ∧ x.queued.isSome = true ∧ x.feeding = false ∧ (t.grd r).run = some n ∧
    (∀ e ∈ (s.grd r).slots, e.2.queued.isSome = true → e.2.feeding = false → ageOrder s x ≤ ageOrder s e.2) ∧
    spFind (t.grd r).slots n = some { x with queued := none, cold := false } ∧
    ((t.grd r).runCold = false → x.prob.warm = true ∧ x.cold = false ∧ bit (slotHdr s x) 511 = true ∧
      bits (slotHdr s x) 447 416 = slotSig x.prob) ∧ t.mem = s.mem) ∧
  (∀ (s : State) (r n cycles wait : Nat) (p : Perf) (x : GSlot), runSlot s r = some (n, x) → s.back.poison = [] → ∃ t y q,
    exec (.solveComplete r cycles ⟨wait, p⟩) s = .next t ∧ (t.grd r).run = none ∧ spFind (t.grd r).slots n = some y ∧
    y.feedHeld = false ∧ y.pub = some q ∧ (q.singular = false → q.deadline = deadlineDue s r x)) ∧
  (∀ (s : State) (r n block attempt iter cycles wait : Nat) (p : Perf) (x : GSlot), runSlot s r = some (n, x) → s.back.poison = [] →
    deadlineDue s r x = true → attempt ≤ 3 → block ≤ x.prob.blks.length → ∃ t y q,
    exec (.solveDeadline r ⟨block, attempt, iter⟩ cycles ⟨wait, p⟩) s = .next t ∧ (t.grd r).run = none ∧
    spFind (t.grd r).slots n = some y ∧ y.pub = some q ∧ (q.singular = false → q.deadline = true))

/-! ## Faults and recovery -/

/-- The fault log (R351): a new record takes the next number and overwrites the oldest of 256; every other record stays, and overwriting one that
is not acknowledged is counted. -/
def Obligations.FaultLogIsARing : Prop :=
  ∀ (s : State) (f : Fact), let t := logFault s f
    t.flt.head = s.flt.head + 1 ∧ recordAt t t.flt.head = recordOf s t.flt.head f ∧
    bits (recordAt t t.flt.head) 511 480 = t.flt.head % 2 ^ 32 ∧ bits (recordAt t t.flt.head) 479 416 = s.ticks % 2 ^ 64 ∧
    bits (recordAt t t.flt.head) 409 402 = f.cause % 256 ∧
    (∀ n, n ≤ s.flt.head → s.flt.head < n + 255 → recordAt t n = recordAt s n) ∧
    (s.flt.head < s.flt.ack + 256 → t.ro = s.ro) ∧
    (s.flt.ack + 256 ≤ s.flt.head → t.ro? (kChipCnt 5) = min (s.ro? (kChipCnt 5) + 1) (entMax (kChipCnt 5))) ∧
    t = { s with ro := t.ro, flt := { s.flt with head := t.flt.head, log := t.flt.log } }

/-- The watchdogs (R25, R29, R32, R343 to R346): an expired block, a busy Grader, a hub or a memory controller that hangs kills its region,
with a record of its cause; a fault in a region already resetting is contained and counted; an exchange that is late is recorded, and the
module goes on; a fault of a chip-level unit starts a chip warm reset (the command unit's watchdog counts only with the PCIe reference clock,
R407). The cause of a memory controller's hang is free (DESIGN CHOICE, log
entry 37), and the level of an exchange hang and the cause of the chip-level watchdogs are the model's readings. -/
def Obligations.HangsAreFaults : Prop :=
  (∀ (s : State) (c : Instr) (r : Nat), dataUp s = true → alive s r = true → r < 4 → (s.reg r).st ≠ .resetting →
    (∃ b, b < 24 ∧ b / 6 = r ∧ c = .blockHang b ∧ wdtExpired s b = true) ∨ (c = .graderHang r ∧ grdBusy (s.grd r) = true) ∨
      c = .hubHang r ∨ c = .memCtrlHang r → ∃ t, exec c s = .next t ∧
    (t.reg r).st = .resetting ∧ (t.reg r).stage = .killed ∧ (t.reg r).recNo = t.flt.head ∧ t.flt.head = s.flt.head + 1 ∧
    bits (recordAt t t.flt.head) 413 410 = 3 ∧ bits (recordAt t t.flt.head) 401 398 = r ∧
    (∀ b, c = .blockHang b → bits (recordAt t t.flt.head) 409 402 = 0x04) ∧ (c = .graderHang r → bits (recordAt t t.flt.head) 409 402 = 0x05) ∧
    (c = .hubHang r → bits (recordAt t t.flt.head) 409 402 = 0x06) ∧ t.mem = s.mem ∧ t.dirs = s.dirs ∧ ∀ q, q ≠ r → t.reg q = s.reg q) ∧
  (∀ (s : State) (r : Nat), r < 4 → inChipReset s = false → (s.reg r).st = .resetting →
    exec (.hubHang r) s = .next (s.count (kRegCnt r 4) 1)) ∧
  (∀ (s : State) (d : Nat), d < 16 → xchLate s d = true → ∃ t, exec (.exchangeHang d) s = .next t ∧ (t.xch d).hung = true ∧
    t.flt.head = s.flt.head + 1 ∧ bits (recordAt t t.flt.head) 409 402 = 0x0A ∧ bits (recordAt t t.flt.head) 413 410 = 7 ∧
    t.flt.regs = s.flt.regs ∧ t.steps = s.steps ∧ t.mem = s.mem) ∧
  (∀ (s : State) (c : Instr), (c = .commandUnitHang ∧ s.cp.pcieRef = true) ∨ (∃ n, c = .chipLevelUnitFault n) → s.pwr.rails = .up →
      s.pwr.coldWait = false →
    s.flt.chip = none → ∃ t, exec c s = .next t ∧ t.flt.chip.isSome = true ∧ (∀ r, r < 4 → (t.reg r).st = .resetting) ∧
    bits (recordAt t t.flt.head) 413 410 = 4 ∧ t.mem = s.mem ∧ t.dirs = s.dirs)

/-- Dumps and resets (R27, R32, R353, R356, R365, R366): the dump takes the lowest slot that is not held; once it is complete, it is VALID,
INCOMPLETE names its sections without an answer, and the region's reset starts; the region then comes back ONLINE with empty counter banks
and no binding; one that overruns fails, and the chip resets; a chip warm reset brings the four regions back; if it overruns, the module
waits for a cold boot. -/
def Obligations.DumpsAndResetsProceed : Prop :=
  (∀ (s : State) (r inc n : Nat), r < 4 → (s.reg r).stage = .killed → n < 4 → (s.dump n).held = false →
    (∀ m, m < n → (s.dump m).held = true) → ∃ t, exec (.dumpStart r inc) s = .next t ∧ (t.dump n).held = true ∧ (t.dump n).valid = false ∧
    (t.dump n).region = r ∧ (t.dump n).recNo = (s.reg r).recNo ∧ (t.dump n).incomplete = (s.dump n).incomplete ∧
    (t.dump n).gaps = inc % 128 ∧ (t.reg r).stage = .dumping ∧ (t.reg r).slot = n ∧
    (∀ m, m ≠ n → t.dump m = s.dump m) ∧ t.mem = s.mem ∧ t.ro = s.ro) ∧
  (∀ (s : State) (r : Nat), r < 4 → (s.reg r).stage = .dumping → (s.dump (s.reg r).slot).region = r →
    (s.dump (s.reg r).slot).recNo = (s.reg r).recNo → ∃ t, exec (.dumpComplete r) s = .next t ∧ (t.dump (s.reg r).slot).valid = true ∧
    (t.dump (s.reg r).slot).incomplete = (s.dump (s.reg r).slot).gaps ∧ (t.reg r).stage = .reset ∧ (t.reg r).st = (s.reg r).st ∧ t.mem = s.mem) ∧
  (∀ (s : State) (r : Nat), r < 4 → (s.reg r).stage = .reset → (s.reg r).st = .resetting → inChipReset s = false →
    (s.reg r).affected = 0 → (∀ d, d < 16 → (s.stp d).order = .none) → ∃ t, exec (.regionResetComplete r) s = .next t ∧
    (t.reg r).st = .online ∧ (∀ b, b / 6 = r → (t.blk b).bank0 = bankEmpty ∧ (t.blk b).bank1 = bankEmpty ∧
        (t.blk b).commits = (s.blk b).commits) ∧
    (∀ e ∈ t.binds, keyCell e.1 / 96 ≠ r) ∧ (∀ q, q ≠ r → (t.reg q).st = (s.reg q).st) ∧
    ∀ page, t.dir page = s.dir page ∨ t.dir page = { s.dir page with mig := false }) ∧
  (∀ (s : State) (r : Nat), r < 4 → (s.reg r).st = .resetting → inChipReset s = false → ∃ t, exec (.regionResetOverrun r) s = .next t ∧
    t.flt.chip.isSome = true ∧ bits (recordAt t t.flt.head) 409 402 = 0x0B ∧ ∀ q, q < 4 → (t.reg q).st = .resetting) ∧
  (∀ (s : State) (c : ChipRst), s.flt.chip = some c → c.overrun = false → s.pwr.refclk = true →
    (∀ r, r < 4 → (s.reg r).stage = .reset) → s.cp.heldBar = [] →
    (∀ d, d < 16 → (s.dom d).st = .free ∧ (s.stp d).order = .none) → ∃ t, exec (.chipWarmResetComplete []) s = .next t ∧ t.flt.chip = none ∧
    (∀ r, r < 4 → (t.reg r).st = .online) ∧ t.binds.all (fun e => keyCell e.1 ≥ 384) = true) ∧
  (∀ (s : State) (c : ChipRst), s.flt.chip = some c → c.overrun = false → s.cp.heldBar = [] → ∃ t,
    exec .chipWarmResetOverrun s = .next t ∧ t.flt.chip = some { c with overrun := true } ∧ t.pwr = { s.pwr with coldWait := true } ∧
    bits (recordAt t t.flt.head) 409 402 = 0x0D ∧ t.mem = s.mem)

/-- Region commands (R368): a command handed over by its cue is performed where Table 12-14 allows it; OFFLINE elsewhere is only counted; OFFLINE
drains, and the region is OFFLINE once no affected command is admitted; ONLINE starts a region that is ONLINE
again at its end, and its pool areas are zero and unbound (DEDUCED, log entry 64); RESET kills it with cause 0x12; FORCE_OFFLINE takes it out
at once. -/
def Obligations.RegionCommandsAct : Prop :=
  (∀ (s : State) (r : Nat), r < 4 →
    let pend : Nat → Prop := fun v => cmdPending s (kRegCmd r) v = true
    let used : Nat → State → Prop := fun v t => t.mgt.cmdPend = s.mgt.cmdPend.erase (kRegCmd r, v)
    (pend 1 → (s.reg r).st = .online → ∃ t, exec (.regionOffline r) s = .next t ∧ used 1 t ∧ (t.reg r).st = .draining ∧ t.mem = s.mem) ∧
    (pend 2 → (s.reg r).st = .offline → ∃ t, exec (.regionOnline r) s = .next t ∧ used 2 t ∧ (t.reg r).onlining = true ∧
      (∀ e ∈ t.binds, keyCell e.1 / 96 ≠ r) ∧ (∀ e ∈ s.mem, e.1 < 0x8000000000 → e ∈ t.mem) ∧ (∀ e ∈ t.mem, e ∈ s.mem) ∧
      (poolSlots t r ≤ 128 → ∀ cell p x, cell / 96 = r → p < poolSlots t r → x < 65536 → t.rd (poolBase t cell p + x) = 0)) ∧
    (pend 3 → (s.reg r).st = .online ∨ (s.reg r).st = .draining → inChipReset s = false → ∃ t, exec (.regionReset r) s = .next t ∧ used 3 t ∧
      (t.reg r).st = .resetting ∧ bits (recordAt t t.flt.head) 409 402 = 0x12 ∧ t.mem = s.mem) ∧
    (pend 4 → (s.reg r).st = .online ∨ (s.reg r).st = .draining → ∃ t, exec (.forceOffline r) s = .next t ∧ used 4 t ∧
      (t.reg r).st = .offline ∧ t.mem = s.mem) ∧
    (pend 1 → (s.reg r).st ≠ .online → ∃ t, exec (.regionOffline r) s = .next t ∧ used 1 t ∧ t.flt = s.flt ∧ t.blks = s.blks ∧
      t.ro? (kRegCnt r 3) = min (s.ro? (kRegCnt r 3) + 1) (entMax (kRegCnt r 3)))) ∧
  (∀ (s : State) (r : Nat), r < 4 → (s.reg r).st = .draining → drains s r = false → ∃ t, exec (.regionDrained r) s = .next t ∧
    (t.reg r).st = .offline ∧ t.mem = s.mem ∧ t.blks = s.blks) ∧
  (∀ (s : State) (r : Nat), r < 4 → (s.reg r).st = .offline → (s.reg r).onlining = true → (∀ d, d < 16 → (s.stp d).order = .none) → ∃ t,
    exec (.regionOnlineDone r) s = .next t ∧ (t.reg r).st = .online ∧ (t.reg r).onlining = false ∧ t.mem = s.mem ∧
    ∀ b, b / 6 = r → (t.blk b).ubank = s.flt.usel)

/-- The fault handler's entries and inputs (R349, R351, R353, R369): a strike of the clapper is captured by every block and mirrored for 16 ticks,
and one within 1,250 ticks of it is merged and only counted; the log is acknowledged up to its head; a complete dump is released; the microcode
commands stage, verify, arm and revert. -/
def Obligations.FaultEntriesAreWritten : Prop :=
  (∀ (s : State) (src : Source), MayWrite s src → exec (.fltClapCmd src 1) s = .next (answered (strike s 8) src (fixedOp 0x9000 3 0 1) 0)) ∧
  (∀ (s : State) (n : Nat), s.pwr.supply = .on → 280 ≤ n → exec (.clapperIn n) s = .next (strike s 7)) ∧
  (∀ (s : State) (n : Nat), n < 200 → exec (.clapperIn n) s = .next s) ∧
  (∀ (s : State) (src : Nat), mbit (clapSrc s) src = true → s.flt.strike = none → s.flt.clapSeq < 0xFFFFFFFF →
    let t := strike s src
    t.flt = { s.flt with clapSeq := s.flt.clapSeq + 1, strike := some s.ticks, clapOut := 16 } ∧ t.mem = s.mem ∧
    ∀ b, b < 24 → (t.blk b).slate.heads.length = 18 ∧ (t.blk b).phase = (s.blk b).phase) ∧
  (∀ (s : State) (src k : Nat), mbit (clapSrc s) src = true → s.flt.strike = some k → s.ticks - k ≤ 1250 →
    strike s src = s.count (kChipCnt 4) 1) ∧
  (∀ (s : State) (src : Source) (v : Nat), MayWrite s src → v ≤ s.flt.head → v < 2 ^ 32 →
    exec (.fltLogAck src v) s =
      .next (answered { s with flt := { s.flt with ack := max s.flt.ack v } } src (fixedOp 0x9010 1 2 v) 0)) ∧
  (∀ (s : State) (src : Source) (v : Nat), MayWrite s src → s.flt.head < v → v < 2 ^ 32 →
    exec (.fltLogAck src v) s = .next (answered s src (fixedOp 0x9010 1 2 v) 4)) ∧
  (∀ (s : State) (src : Source) (n : Nat), MayWrite s src → n < 4 →
    ((s.dump n).valid = true → exec (.fltDumpRel src n 1) s =
      .next (answered (s.setDump n { s.dump n with held := false }) src (fixedOp (0x9100 + n) 2 0 1) 0)) ∧
    ((s.dump n).held = true → (s.dump n).valid = false →
      exec (.fltDumpRel src n 1) s = .next (answered s src (fixedOp (0x9100 + n) 2 0 1) 4))) ∧
  (∀ (s : State) (src : Source), MayWrite s src →
    (ucodeBusy s = false → exec (.ucodeVerify src) s =
      .next (answered { s with flt := { s.flt with usts := 1 } } src (fixedOp 0x9200 1 0 1) 0)) ∧
    (s.flt.usts = 2 → exec (.ucodeArm src) s =
      .next (answered { s with flt := { s.flt with usts := 3 } } src (fixedOp 0x9200 1 0 2) 0)) ∧
    (ucodeBusy s = false → (if s.flt.usel = 0 then s.flt.ubank1 else s.flt.ubank0) = true → exec (.ucodeRevert src) s =
      .next (answered { s with flt := { s.flt with uswap := true } } src (fixedOp 0x9200 1 0 3) 0))) ∧
  (∀ s : State, s.flt.usts = 1 → exec .ucodeVerifyDone s = .next { s with flt := { s.flt with
      usts := if imageCheck s.flt.ustage true 2 (floors s.sec) = 0 then 2 else 5 } }) ∧
  (∀ s : State, s.flt.usts = 3 → ∃ t, exec .ucodeArmDone s = .next t ∧ t.flt.usts = 4 ∧ t.flt.uswap = true ∧
    t.sec = s.sec.setUarea (1 - s.flt.usel) { image := s.flt.ustage, valid := true } ∧ t.blks = s.blks ∧ t.mem = s.mem)

/-! ## The dictionary -/

/-- Dictionary operations (R312, R315, R318, R323, R333, R334): READ and DESCRIBE change nothing but the operation counters; a fixed-width
WO entry reads as zero; an address without an entry answers NO_ENTRY; to an ORDINARY master a protected entry reads as zeros, and its write
answers OK and changes nothing; a write of a cue-applied entry within its range is stored in the shadow, and the live value stays; a mailbox
request is performed, then the datagrams that waited behind it; a datagram of the segment is dropped and counted, answered, from the cache
where it repeats its address's SEQ, or queued, 8 at most. That datagrams wait behind a BUSY mailbox and are performed after its request, and that
a frame with a bad FCS is counted in MGT_T1S_CNT.02 alone, is the model's choice (DEDUCED, log entry 44). -/
def Obligations.DictionaryOperationsAct : Prop :=
  (∀ (s : State) (src : Source) (op : DictOp), reaches s src = true →
    (∃ t, exec (.read src op) s = .next t ∧ t.out.length = s.out.length + 1 ∧ t = { s with ro := t.ro, out := t.out }) ∧
    (∃ t, exec (.describe src op) s = .next t ∧ t.out.length = s.out.length + 1 ∧ t = { s with ro := t.ro, out := t.out })) ∧
  (∀ (s : State) (src : Source) (op : DictOp) (e : Ent), reaches s src = true → s.sec.phase ≠ .recovery → entryAt op.index op.sub = some e →
    e.acc = 2 → e.ty < 6 → op.ty = e.ty → op.value = [] → op.offset = 0 → isProtected s op.index op.sub = false → ∃ t,
    exec (.read src op) s = .next t ∧ t.out = s.out ++ [.dict src (opReply 1 0 op (leBytes (tyWidth e.ty) 0))]) ∧
  (∀ (s : State) (src : Source) (op : DictOp), reaches s src = true → s.sec.phase ≠ .recovery → entryAt op.index op.sub = none →
    isProtected s op.index op.sub = false → op.shadow = false → ∃ t,
    exec (.write src op) s = .next t ∧ t.out = s.out ++ [.dict src (opReply 2 1 op [])] ∧ t = { s with ro := t.ro, out := t.out }) ∧
  (∀ (s : State) (src : Source) (op : DictOp), reaches s src = true → s.sec.phase ≠ .recovery → isProtected s op.index op.sub = true →
    classAt s src op.index = .ordinary → op.shadow = false →
    (∃ t, exec (.read src op) s = .next t ∧ t.out = s.out ++ [.dict src (opReply 1 0 op (fill (tyWidth op.ty) 0))]) ∧
    (∃ t, exec (.write src op) s = .next t ∧ t.out = s.out ++ [.dict src (opReply 2 0 op [])] ∧ t = { s with ro := t.ro, out := t.out })) ∧
  (∀ (s : State) (src : Source) (op : DictOp) (e : Ent), MayWrite s src → entryAt op.index op.sub = some e → e.acc = 1 → e.ty < 6 →
    op.ty = e.ty → op.shadow = false → op.offset = 0 → op.value.length = tyWidth e.ty → isProtected s op.index op.sub = false →
    e.grp ≠ 0 → isLsEntry op.index op.sub = false → inRange e (leNat op.value) = true →
    rulesHold s op.index op.sub (leNat op.value) = true → 0x2010 ≤ op.index → op.index < 0xA000 → ¬ (op.index = 0x9000 ∧ op.sub = 3) →
    ¬ (op.index = 0x9010 ∨ (0x9100 ≤ op.index ∧ op.index < 0x9104) ∨ op.index = 0x9200) → ∃ t,
    exec (.write src op) s = .next t ∧ t.shadow (key op.index op.sub) = leNat op.value ∧ t.mgt.live = s.mgt.live ∧ t.mem = s.mem ∧
    t.out = s.out ++ [.dict src (opReply 2 0 op [])]) ∧
  (∀ (s : State) (ok : Bool) (port : Nat) (bs : List Byte), reaches s .secure = true → ∃ t, exec (.dictMessage .secure port ⟨ok,
      bs⟩) s = .next t ∧
    t.out = s.out ++ [.dict .secure (runMessage s .secure bs).1]) ∧
  (∀ (s : State) (ok : Bool) (port : Nat) (bs : List Byte), s.mgt.mb.st = .busy → ctlUp s = true → s.mgt.mb.drop = false →
    16 ≤ s.mgt.mb.len → s.mgt.mb.len ≤ 4096 → ∃ t, exec (.dictMessage .mailbox port ⟨ok, bs⟩) s = .next (answerQueue t) ∧
    t.mgt.mb.st = .done ∧ t.mgt.mb.resp = (runMessage s .mailbox (fitTo s.mgt.mb.len s.mgt.mb.req)).1 ∧
    t.mgt.mb.rlen = t.mgt.mb.resp.length) ∧
  (∀ (s : State) (a sp port : Nat) (m : Bool) (bs : List Byte), s.pwr.supply = .on → s.mgt.phyOn = true →
    let src : Source := .t1s a sp m
    let d : Datagram := { src := src, port := port, bytes := bs }
    let s0 := s.count (kT1s 0) 1
    exec (.dictMessage src port ⟨false, bs⟩) s = .next (s.count (kT1s 2) 1) ∧
    (reaches s src = false ∨ 1452 < bs.length ∨ port ≠ s.live (key 0x8100 3) →
      exec (.dictMessage src port ⟨true, bs⟩) s = .next (s0.count (kDict 4) 1)) ∧
    (reaches s src = true → bs.length ≤ 1452 → port = s.live (key 0x8100 3) →
      (∀ r, s.mgt.mb.st ≠ .busy → s.mgt.rxq = [] → cachedFor s.mgt a (bits (leNat (bs.take 16)) 63 32) = some r → ∃ t,
        exec (.dictMessage src port ⟨true, bs⟩) s = .next t ∧ t.out = s.out ++ [.udp port src r] ∧
        t.ro? (kDict 5) = min (s.ro? (kDict 5) + 1) (entMax (kDict 5)) ∧
        t = { s with ro := t.ro, out := t.out, mgt := keepResponse s.mgt a (bits (leNat (bs.take 16)) 63 32) r }) ∧
      (s.mgt.mb.st = .busy ∨ s.mgt.rxq ≠ [] → exec (.dictMessage src port ⟨true, bs⟩) s = .next (
        if s.mgt.rxq.length < 8 then { s0 with mgt := { s0.mgt with rxq := s0.mgt.rxq ++ [d] } } else s0.count (kDict 4) 1))))

/-- Takes and cues (R53, R325 to R330): a cue is struck for the groups written; a unit applies its group's latest live values at its
boundary; REVERT, DISCARD and DEFAULTS act on the shadows and takes; a take is stored, or the store reads FAILED with a torn image in the
place of the take's (DEDUCED, log entry 126), and one made meanwhile follows; a sweep starts and ends with its CRC; a value that is no power
of two is rounded down into CUT_LS_INIT, CUT_LS_MIN or CUT_LS_MAX and counted, and MIN above MAX answers RANGE. -/
def Obligations.TakesAct : Prop :=
  (∀ (s : State) (src : Source) (v : Nat), MayWrite s src → v ≤ 0xFFF → exec (.mgtCue src v) s =
    .next (answered (if v = 0 then s else strikeCue s v) src (fixedOp 0x2001 0 2 v) 0)) ∧
  (∀ (s : State) (g u done : Nat), (g, u) ∈ s.mgt.apply →
    (unitAlive s u = true → atBoundary s g u = true → ∃ t, exec (.cueApply g ⟨u, done⟩) s = .next t ∧
      (g, u) ∉ t.mgt.apply ∧ (∀ k, mbit (grpOf k) g = true → isLayoutKey k = false → holdsCopy u k = true → k < 0x1000000 →
        (∃ v, (k, v) ∈ s.mgt.live) → t.app u k = s.live k) ∧ t.mem = s.mem) ∧
    (unitAlive s u = true → atBoundary s g u = false → exec (.cueApply g ⟨u, done⟩) s = .next s) ∧
    (unitAlive s u = false → exec (.cueApply g ⟨u, done⟩) s =
      .next { s with mgt := { s.mgt with apply := s.mgt.apply.filter (· != (g, u)) } })) ∧
  (∀ (s : State) (src : Source), MayWrite s src →
    (s.mgt.prevNum ≠ 0 → exec (.takeRevert src) s = .next (answered (takeRevert s).2 src (fixedOp 0x2000 2 0 1) 0)) ∧
    (s.mgt.prevNum = 0 → exec (.takeRevert src) s = .next (answered s src (fixedOp 0x2000 2 0 1) 4)) ∧
    exec (.takeDiscard src) s =
      .next (answered { s with mgt := { s.mgt with shadow := s.mgt.live, cmdFresh := [] } } src (fixedOp 0x2000 2 0 2) 0) ∧
    (∃ t, exec (.takeDefaults src) s = .next (answered t src (fixedOp 0x2000 2 0 3) 0) ∧
      (∀ k, isTake k = true → t.shadow k = entReset k) ∧ (∀ k, isTake k = false → t.shadow k = s.shadow k) ∧
      t.mgt.live = s.mgt.live)) ∧
  (∀ (s : State) (x : TakeImg), s.mgt.nvWrite = some x →
    (s.mgt.nvNext = false → exec (.takeStoreWriteDone true) s = .next { s with mgt := { s.mgt with
        nvState := 0, nvWrite := none, nv0 := x, nv1 := if s.mgt.nv0.ok then s.mgt.nv0 else s.mgt.nv1 } } ∧
      ∃ t, exec (.takeStoreWriteDone false) s = .next t ∧ t = { s with ro := t.ro, mgt := { s.mgt with
        nvState := 2, nvWrite := none, nv0 := x.torn, nv1 := if s.mgt.nv0.ok then s.mgt.nv0 else s.mgt.nv1 } }) ∧
    (s.mgt.nvNext = true → ∀ ok, ∃ t, exec (.takeStoreWriteDone ok) s = .next t ∧ t.mgt.nvWrite = some (liveImage s.mgt) ∧
      t.mgt.nvState = 1 ∧ t.mgt.nvNext = false ∧ t.mgt.nv0 = (if ok then x else x.torn))) ∧
  (∀ s : State, s.pwr.supply = .on → cueApplyMask s = 0 → s.mgt.sweep = false →
    exec .configSweepStart s = .next { s with mgt := { s.mgt with sweep := true } }) ∧
  (∀ s : State, s.mgt.sweep = true → ∃ t, exec .configSweepComplete s = .next t ∧ t.mgt.sweep = false ∧
    t.ro? (key 0x2010 1) = crc32c (sweepBytes s) ∧ (copyDiffs s = [] → s.live (key 0x2010 4) ≠ 1 → t.ro? (key 0x2010 2) = 0) ∧
    t = { s with ro := t.ro, mgt := { s.mgt with sweep := false } }) ∧
  (∀ (s : State) (src : Source) (sub : Nat) (v : Word), MayWrite s src → sub = 2 ∨ sub = 4 ∨ sub = 5 → 0 < v.toNat →
    v.toNat ≤ 0x7F7FFFFF →
    let w := roundLs v.toNat
    let lo := if sub = 4 then w else s.shadow (key 0x7080 4)
    let hi := if sub = 5 then w else s.shadow (key 0x7080 5)
    (lo ≤ hi → ∃ t, exec (.cutLsWrite src sub v) s = .next (answered t src (fixedOp 0x7080 sub 5 v.toNat) 0) ∧
      t.shadow (key 0x7080 sub) = w ∧ t.mgt.live = s.mgt.live ∧
      (w ≠ v.toNat → t.ro? (key 0x7080 7) = min (s.ro? (key 0x7080 7) + 1) (entMax (key 0x7080 7)))) ∧
    (hi < lo → exec (.cutLsWrite src sub v) s = .next (answered s src (fixedOp 0x7080 sub 5 v.toNat) 4)) ∧
    w ≤ v.toNat ∧ (0x00800000 ≤ v.toNat → w % 2 ^ 23 = 0 ∧ v.toNat < w + 2 ^ 23) ∧
    (v.toNat < 0x00800000 → v.toNat < 2 * w ∧ ∃ n, w = 2 ^ n)) ∧
  (∀ (s : State) (src : Source) (sub : Nat) (v : Word), MayWrite s src → sub = 2 ∨ sub = 4 ∨ sub = 5 →
    v.toNat = 0 ∨ 0x7F800000 ≤ v.toNat →
    exec (.cutLsWrite src sub v) s = .next (answered s src (fixedOp 0x7080 sub 5 v.toNat) 4))

/-- The 10BASE-T1S segment (R335, R336): a beacon clears NO_BEACON; 100 ms without one while PLCA is enabled set it and are counted once; duplicate
address detection solicits the module's own address and sets ADDR_DUP by the answer; Neighbor Solicitations of that address and Echo Requests
are answered. -/
def Obligations.SegmentEventsAct : Prop :=
  (∀ s : State, s.mgt.phyOn = true → exec .plcaBeacon s = .next { s with mgt := { s.mgt with noBeacon := false } }) ∧
  (∀ s : State, s.mgt.phyOn = true → s.live (key 0x8100 1) = 1 → ∃ t, exec .beaconTimeout s = .next t ∧
    t = { s with ro := t.ro, mgt := { s.mgt with noBeacon := true } } ∧ (s.mgt.noBeacon = true → t.ro = s.ro) ∧
    (s.mgt.noBeacon = false → t.ro? (kT1s 3) = min (s.ro? (kT1s 3) + 1) (entMax (kT1s 3)))) ∧
  (∀ (s : State) (ans : Bool), s.mgt.phyOn = true → ∃ t, exec (.duplicateAddressDetection ans) s = .next t ∧
    t.out = s.out ++ [.solicit linkLocal] ∧ t = { s with ro := t.ro, out := t.out, mgt := { s.mgt with addrDup := ans } }) ∧
  (∀ (s : State) (peer : Nat) (bs : List Byte), s.mgt.phyOn = true → ctlUp s = true →
    (∃ t, exec (.icmpv6Request .echo peer bs) s = .next t ∧ t.out = s.out ++ [.icmp true peer bs] ∧ t = { s with ro := t.ro, out := t.out }) ∧
    (∃ t, exec (.icmpv6Request (.solicit linkLocal) peer bs) s = .next t ∧
      t.out = s.out ++ [.icmp false peer (beBytes 16 linkLocal ++ beBytes 6 Config.mac.toNat)] ∧ t = { s with ro := t.ro, out := t.out }) ∧
    (∀ a, a ≠ linkLocal → exec (.icmpv6Request (.solicit a) peer bs) s = .next s))

/-! ## Arithmetic and scale records -/

/-- FP32 results (R43, R63): an operation that gives a NaN gives the canonical one, whatever payloads came in, and none gives a subnormal; BF16
results hold the same; the canonical codes are those of the table of R43. -/
def Obligations.ResultsAreCanonical : Prop :=
  (∀ (a b c r : Word), r ∈ [(add32 a b).1, (sub32 a b).1, (mul32 a b).1, (div32 a b).1, (sqrt32 a).1, (fma32 a b c).1, (fnma32 a b c).1,
      (max32 a b).1, (min32 a b).1, neg32 a, abs32 a] →
    (isNaN32 r = true → r = 0x7FC00000) ∧ (bits r.toNat 30 23 = 0 → bits r.toNat 22 0 = 0)) ∧
  (∀ w : Word, (bits (toBf16 w).1 14 7 = 255 → bits (toBf16 w).1 6 0 ≠ 0 → (toBf16 w).1 = 0x7FC0) ∧
    (bits (toBf16 w).1 14 7 = 0 → bits (toBf16 w).1 6 0 = 0)) ∧
  nanCode .fp32 = 0x7FC00000 ∧ nanCode .bf16 = 0x7FC0 ∧ nanCode .e4m3 = 0x7F ∧ nanCode .e5m2 = 0x7E

/-- Tensor scale records (R47, R49): OPEN clears CUR_AMAX, EXC_COUNT and EXC_KIND, sets the exception place to its largest value and changes
no other bit; CLOSE takes the step and attempt over, discards the entries of an abandoned attempt, and adds CUR_AMAX to the history exactly
where EXC_COUNT is 0; in legacy scaling mode (R51) a gradient's scale is 1.0. -/
def Obligations.ScaleRecordsFollowProductions : Prop :=
  (∀ w : Nat, let r := recOpen w
    bits r 447 416 = 0 ∧ bits r 415 384 = 0 ∧ bits r 303 300 = 0 ∧ bits r 383 364 = 0xFFFFF ∧ bits r 363 344 = 0xFFFFF ∧
    ∀ i, i < 300 ∨ (303 < i ∧ i < 344) ∨ 447 < i → r.testBit i = w.testBit i) ∧
  (∀ (w st att : Nat) (unit : Bool), att < 16 →
    let r := recClose w st att unit
    let old := st % 65536 = bits w 319 304 ∧ att ≠ bits w 281 278
    let hd := if old then bits w 277 274 else bits w 290 287
    let hc := if old then bits w 273 269 else bits w 295 291
    let clean := bits w 415 384 = 0
    bits r 319 304 = st % 65536 ∧ bits r 281 278 = att ∧
    bits r 290 287 = (if clean then (hd + 1) % 16 else hd) ∧ bits r 295 291 = (if clean then min (hc + 1) 16 else hc) ∧
    (∀ i, i < 16 → histOf r i = if clean ∧ i = hd then bits w 447 416 else histOf w i) ∧
    (st % 65536 ≠ bits w 319 304 → bits r 277 274 = bits w 290 287 ∧ bits r 273 269 = bits w 295 291) ∧
    (unit = true → bits r 511 480 = 0x3F800000 ∧ bits r 479 448 = 0x3F800000))
end

