-- ==== Sys2Proof/Laws/Bits.lean ====
section
/-!
SUPPORT. Laws of bit fields: which bit of a number a field or its replacement reads, what a field holds after a replacement of itself or of
a disjoint field, and that the frame CRC has 16 bits.
-/

namespace Sys2Proof.Machine

/-- A bit of a field is the bit of the number, inside the field's width. -/
theorem testBit_bits (w m l i : Nat) : (bits w m l).testBit i = (decide (i < m + 1 - l) && w.testBit (l + i)) := by
  unfold bits
  rw [Nat.testBit_mod_two_pow, Nat.testBit_div_two_pow, Nat.add_comm i l]

/-- A field lies below two to its width. -/
theorem bits_lt (w m l : Nat) : bits w m l < 2 ^ (m + 1 - l) := Nat.mod_lt _ (Nat.two_pow_pos _)

/-- A number with a field replaced, as high part, field and low part. -/
theorem setBits_eq (w m l v : Nat) (h : l ≤ m) :
    setBits w m l v = 2 ^ l * (2 ^ (m + 1 - l) * (w / 2 ^ (m + 1)) + v % 2 ^ (m + 1 - l)) + w % 2 ^ l := by
  have hp : 2 ^ (m + 1) = 2 ^ l * 2 ^ (m + 1 - l) := by rw [← Nat.pow_add]; congr 1; omega
  have h1 := Nat.div_add_mod w (2 ^ l)
  have h2 := Nat.div_add_mod (w / 2 ^ l) (2 ^ (m + 1 - l))
  rw [Nat.div_div_eq_div_mul, ← hp] at h2
  unfold setBits bits
  have h3 : w - w / 2 ^ l % 2 ^ (m + 1 - l) * 2 ^ l = 2 ^ l * (2 ^ (m + 1 - l) * (w / 2 ^ (m + 1))) + w % 2 ^ l := by
    have : w = 2 ^ l * (2 ^ (m + 1 - l) * (w / 2 ^ (m + 1))) + w / 2 ^ l % 2 ^ (m + 1 - l) * 2 ^ l + w % 2 ^ l := by
      rw [Nat.mul_comm (w / 2 ^ l % 2 ^ (m + 1 - l)), ← Nat.mul_add, h2, h1]
    omega
  rw [h3, Nat.mul_add, Nat.mul_comm (v % 2 ^ (m + 1 - l))]
  omega

/-- A bit of a number with a field replaced: of the new value inside the field, of the number outside it. -/
theorem testBit_setBits (w m l v i : Nat) (h : l ≤ m) :
    (setBits w m l v).testBit i = if l ≤ i ∧ i ≤ m then v.testBit (i - l) else w.testBit i := by
  rw [setBits_eq w m l v h, Nat.testBit_two_pow_mul_add _ (Nat.mod_lt _ (Nat.two_pow_pos _))]
  by_cases hl : i < l
  · rw [if_pos hl, if_neg (by omega), Nat.testBit_mod_two_pow]; simp [hl]
  · rw [if_neg hl, Nat.testBit_two_pow_mul_add _ (Nat.mod_lt _ (Nat.two_pow_pos _))]
    by_cases hm : i ≤ m
    · rw [if_pos (by omega), if_pos ⟨by omega, hm⟩, Nat.testBit_mod_two_pow]
      simp only [Bool.and_eq_right_iff_imp, decide_eq_true_eq]
      omega
    · rw [if_neg (by omega), if_neg (by omega), Nat.testBit_div_two_pow]
      congr 1; omega

/-- A field reads what was put into it. -/
theorem bits_setBits_same (w m l v : Nat) (h : l ≤ m) : bits (setBits w m l v) m l = v % 2 ^ (m + 1 - l) := by
  refine Nat.eq_of_testBit_eq fun i => ?_
  rw [testBit_bits, testBit_setBits _ _ _ _ _ h, Nat.testBit_mod_two_pow]
  by_cases hi : i < m + 1 - l
  · rw [if_pos (by omega)]; congr 2; omega
  · simp [hi]

/-- A field disjoint from the replaced one reads as before. -/
theorem bits_setBits_other (w m l v n k : Nat) (h : l ≤ m) (hd : n < l ∨ m < k) : bits (setBits w m l v) n k = bits w n k := by
  refine Nat.eq_of_testBit_eq fun i => ?_
  rw [testBit_bits, testBit_bits, testBit_setBits _ _ _ _ _ h]
  by_cases hi : i < n + 1 - k
  · rw [if_neg (by omega)]
  · simp [hi]

/-- The later of two replacements of a field holds. -/
theorem setBits_setBits (w m l v x : Nat) (h : l ≤ m) : setBits (setBits w m l v) m l x = setBits w m l x := by
  refine Nat.eq_of_testBit_eq fun i => ?_
  simp only [testBit_setBits _ _ _ _ _ h]
  split <;> rfl

/-- One step of a CRC of a width keeps it below two to the width. -/
theorem crcBitL_lt {w poly : Nat} (hp : poly < 2 ^ w) (c : Nat) : crcBitL w poly c < 2 ^ w := by
  unfold crcBitL
  have hm : 2 * c % 2 ^ w < 2 ^ w := Nat.mod_lt _ (Nat.two_pow_pos _)
  split
  · exact Nat.xor_lt_two_pow hm hp
  · exact hm

/-- The frame CRC has 16 bits (R248). -/
theorem crc16_lt (bs : List Byte) : crc16 bs < 2 ^ 16 := by
  have go : ∀ c, c < 2 ^ 16 → bs.foldl (crcByteL 16 0x1021) c < 2 ^ 16 := by
    induction bs with
    | nil => exact fun c h => h
    | cons b bs ih => exact fun c _ => ih _ (crcBitL_lt (by decide) _)
  exact go _ (by decide)

end Sys2Proof.Machine
end

