-- ==== Sys2Proof/Laws/Frames.lean ====
section
/-!
SUPPORT. What each operation on State may change: laws of `Frame`, and for each operation one lemma that gives its list of parts.
-/

set_option autoImplicit true
set_option Elab.async false

namespace Sys2Proof.Machine

theorem Frame.refl (w : List Part) (s : State) : Frame w s s := by constructor <;> simp

theorem Frame.trans (g : Frame w t u) (h : Frame w s t) : Frame w s u where
  pending n := (g.pending n).trans (h.pending n)
  ticks n := (g.ticks n).trans (h.ticks n)
  evt n := (g.evt n).trans (h.evt n)
  free n := (g.free n).trans (h.free n)
  out n := (g.out n).trans (h.out n)
  pwr n := (g.pwr n).trans (h.pwr n)
  sec n := (g.sec n).trans (h.sec n)
  mgt n := (g.mgt n).trans (h.mgt n)
  ro n := (g.ro n).trans (h.ro n)
  log n := (g.log n).trans (h.log n)
  head n := (g.head n).trans (h.head n)
  ack n := (g.ack n).trans (h.ack n)
  dumps n := ⟨(g.dumps n).1.trans (h.dumps n).1, (g.dumps n).2.trans (h.dumps n).2⟩
  clap n := ⟨(g.clap n).1.trans (h.clap n).1, (g.clap n).2.1.trans (h.clap n).2.1, (g.clap n).2.2.trans (h.clap n).2.2⟩
  regs n := (g.regs n).trans (h.regs n)
  chip n := (g.chip n).trans (h.chip n)
  ucode n := ⟨(g.ucode n).1.trans (h.ucode n).1, (g.ucode n).2.1.trans (h.ucode n).2.1, (g.ucode n).2.2.1.trans (h.ucode n).2.2.1,
    (g.ucode n).2.2.2.1.trans (h.ucode n).2.2.2.1, (g.ucode n).2.2.2.2.1.trans (h.ucode n).2.2.2.2.1,
    (g.ucode n).2.2.2.2.2.trans (h.ucode n).2.2.2.2.2⟩
  pins n := ⟨(g.pins n).1.trans (h.pins n).1, (g.pins n).2.1.trans (h.pins n).2.1, (g.pins n).2.2.trans (h.pins n).2.2⟩
  doms n := (g.doms n).trans (h.doms n)
  ctxs n := (g.ctxs n).trans (h.ctxs n)
  ress n := (g.ress n).trans (h.ress n)
  msix n := (g.msix n).trans (h.msix n)
  heldBar n := (g.heldBar n).trans (h.heldBar n)
  progs n := (g.progs n).trans (h.progs n)
  steps n := (g.steps n).trans (h.steps n)
  segs n := (g.segs n).trans (h.segs n)
  blks n := (g.blks n).trans (h.blks n)
  sigs n := (g.sigs n).trans (h.sigs n)
  mem n := (g.mem n).trans (h.mem n)
  dirs n := (g.dirs n).trans (h.dirs n)
  binds n := (g.binds n).trans (h.binds n)
  back n := (g.back n).trans (h.back n)
  grds n := (g.grds n).trans (h.grds n)
  fab n := (g.fab n).trans (h.fab n)
  xchs n := (g.xchs n).trans (h.xchs n)
  days n := (g.days n).trans (h.days n)

/-- A frame with more parts in its list. -/
theorem Frame.mono (g : Frame v s t) (hv : v ⊆ w) : Frame w s t where
  pending n := g.pending (fun k => n (hv k))
  ticks n := g.ticks (fun k => n (hv k))
  evt n := g.evt (fun k => n (hv k))
  free n := g.free (fun k => n (hv k))
  out n := g.out (fun k => n (hv k))
  pwr n := g.pwr (fun k => n (hv k))
  sec n := g.sec (fun k => n (hv k))
  mgt n := g.mgt (fun k => n (hv k))
  ro n := g.ro (fun k => n (hv k))
  log n := g.log (fun k => n (hv k))
  head n := g.head (fun k => n (hv k))
  ack n := g.ack (fun k => n (hv k))
  dumps n := g.dumps (fun k => n (hv k))
  clap n := g.clap (fun k => n (hv k))
  regs n := g.regs (fun k => n (hv k))
  chip n := g.chip (fun k => n (hv k))
  ucode n := g.ucode (fun k => n (hv k))
  pins n := g.pins (fun k => n (hv k))
  doms n := g.doms (fun k => n (hv k))
  ctxs n := g.ctxs (fun k => n (hv k))
  ress n := g.ress (fun k => n (hv k))
  msix n := g.msix (fun k => n (hv k))
  heldBar n := g.heldBar (fun k => n (hv k))
  progs n := g.progs (fun k => n (hv k))
  steps n := g.steps (fun k => n (hv k))
  segs n := g.segs (fun k => n (hv k))
  blks n := g.blks (fun k => n (hv k))
  sigs n := g.sigs (fun k => n (hv k))
  mem n := g.mem (fun k => n (hv k))
  dirs n := g.dirs (fun k => n (hv k))
  binds n := g.binds (fun k => n (hv k))
  back n := g.back (fun k => n (hv k))
  grds n := g.grds (fun k => n (hv k))
  fab n := g.fab (fun k => n (hv k))
  xchs n := g.xchs (fun k => n (hv k))
  days n := g.days (fun k => n (hv k))

/-- An operation with a smaller list after others. -/
theorem Frame.after (g : Frame v t u) (h : Frame w s t) (hv : v ⊆ w := by decide) : Frame w s u := (g.mono hv).trans h

/-- A state made of `t` with other values in parts of `w`. -/
theorem Frame.put {t : State} {ti ev fr ou pw se mg ro fl cp pr st sg bl si me di bi ba gr fa xc da}
    (h : Frame w s t)
    (h_ticks : .ticks ∈ w ∨ ti = t.ticks := by first | exact .inl (by decide) | exact .inr rfl)
    (h_evt : .evt ∈ w ∨ ev = t.evt := by first | exact .inl (by decide) | exact .inr rfl)
    (h_free : .free ∈ w ∨ fr = t.free := by first | exact .inl (by decide) | exact .inr rfl)
    (h_out : .out ∈ w ∨ ou = t.out := by first | exact .inl (by decide) | exact .inr rfl)
    (h_pwr : .pwr ∈ w ∨ pw = t.pwr := by first | exact .inl (by decide) | exact .inr rfl)
    (h_sec : .sec ∈ w ∨ se = t.sec := by first | exact .inl (by decide) | exact .inr rfl)
    (h_mgt : .mgt ∈ w ∨ mg = t.mgt := by first | exact .inl (by decide) | exact .inr rfl)
    (h_ro : .ro ∈ w ∨ ro = t.ro := by first | exact .inl (by decide) | exact .inr rfl)
    (h_log : .log ∈ w ∨ fl.log = t.flt.log := by first | exact .inl (by decide) | exact .inr rfl)
    (h_head : .head ∈ w ∨ fl.head = t.flt.head := by first | exact .inl (by decide) | exact .inr rfl)
    (h_ack : .ack ∈ w ∨ fl.ack = t.flt.ack := by first | exact .inl (by decide) | exact .inr rfl)
    (h_dumps : .dumps ∈ w ∨ fl.dumps = t.flt.dumps ∧ fl.dumpOrder = t.flt.dumpOrder :=
      by first | exact .inl (by decide) | exact .inr ⟨rfl, rfl⟩)
    (h_clap : .clap ∈ w ∨ fl.clapSeq = t.flt.clapSeq ∧ fl.strike = t.flt.strike ∧ fl.clapOut = t.flt.clapOut :=
      by first | exact .inl (by decide) | exact .inr ⟨rfl, rfl, rfl⟩)
    (h_regs : .regs ∈ w ∨ fl.regs = t.flt.regs := by first | exact .inl (by decide) | exact .inr rfl)
    (h_chip : .chip ∈ w ∨ fl.chip = t.flt.chip := by first | exact .inl (by decide) | exact .inr rfl)
    (h_ucode : .ucode ∈ w ∨ fl.ustage = t.flt.ustage ∧ fl.usts = t.flt.usts ∧ fl.usel = t.flt.usel ∧ fl.uswap = t.flt.uswap ∧
      fl.ubank0 = t.flt.ubank0 ∧ fl.ubank1 = t.flt.ubank1 := by first | exact .inl (by decide) | exact .inr ⟨rfl, rfl, rfl, rfl, rfl, rfl⟩)
    (h_pins : .pins ∈ w ∨ cp.pcieRef = t.cp.pcieRef ∧ cp.perst = t.cp.perst ∧ cp.link = t.cp.link :=
      by first | exact .inl (by decide) | exact .inr ⟨rfl, rfl, rfl⟩)
    (h_doms : .doms ∈ w ∨ cp.doms = t.cp.doms := by first | exact .inl (by decide) | exact .inr rfl)
    (h_ctxs : .ctxs ∈ w ∨ cp.ctxs = t.cp.ctxs := by first | exact .inl (by decide) | exact .inr rfl)
    (h_ress : .ress ∈ w ∨ cp.ress = t.cp.ress := by first | exact .inl (by decide) | exact .inr rfl)
    (h_msix : .msix ∈ w ∨ cp.msix = t.cp.msix := by first | exact .inl (by decide) | exact .inr rfl)
    (h_heldBar : .heldBar ∈ w ∨ cp.heldBar = t.cp.heldBar := by first | exact .inl (by decide) | exact .inr rfl)
    (h_progs : .progs ∈ w ∨ pr = t.progs := by first | exact .inl (by decide) | exact .inr rfl)
    (h_steps : .steps ∈ w ∨ st = t.steps := by first | exact .inl (by decide) | exact .inr rfl)
    (h_segs : .segs ∈ w ∨ sg = t.segs := by first | exact .inl (by decide) | exact .inr rfl)
    (h_blks : .blks ∈ w ∨ bl = t.blks := by first | exact .inl (by decide) | exact .inr rfl)
    (h_sigs : .sigs ∈ w ∨ si = t.sigs := by first | exact .inl (by decide) | exact .inr rfl)
    (h_mem : .mem ∈ w ∨ me = t.mem := by first | exact .inl (by decide) | exact .inr rfl)
    (h_dirs : .dirs ∈ w ∨ di = t.dirs := by first | exact .inl (by decide) | exact .inr rfl)
    (h_binds : .binds ∈ w ∨ bi = t.binds := by first | exact .inl (by decide) | exact .inr rfl)
    (h_back : .back ∈ w ∨ ba = t.back := by first | exact .inl (by decide) | exact .inr rfl)
    (h_grds : .grds ∈ w ∨ gr = t.grds := by first | exact .inl (by decide) | exact .inr rfl)
    (h_fab : .fab ∈ w ∨ fa = t.fab := by first | exact .inl (by decide) | exact .inr rfl)
    (h_xchs : .xchs ∈ w ∨ xc = t.xchs := by first | exact .inl (by decide) | exact .inr rfl)
    (h_days : .days ∈ w ∨ da = t.days := by first | exact .inl (by decide) | exact .inr rfl) :
    Frame w s ⟨t.pending, ti, ev, fr, ou, pw, se, mg, ro, fl, cp, pr, st, sg, bl, si, me, di, bi, ba, gr, fa, xc, da⟩ :=
  Frame.trans (t := t) {
      pending := fun _ => rfl
      ticks := fun n => h_ticks.resolve_left n
      evt := fun n => h_evt.resolve_left n
      free := fun n => h_free.resolve_left n
      out := fun n => h_out.resolve_left n
      pwr := fun n => h_pwr.resolve_left n
      sec := fun n => h_sec.resolve_left n
      mgt := fun n => h_mgt.resolve_left n
      ro := fun n => h_ro.resolve_left n
      log := fun n => h_log.resolve_left n
      head := fun n => h_head.resolve_left n
      ack := fun n => h_ack.resolve_left n
      dumps := fun n => h_dumps.resolve_left n
      clap := fun n => h_clap.resolve_left n
      regs := fun n => h_regs.resolve_left n
      chip := fun n => h_chip.resolve_left n
      ucode := fun n => h_ucode.resolve_left n
      pins := fun n => h_pins.resolve_left n
      doms := fun n => h_doms.resolve_left n
      ctxs := fun n => h_ctxs.resolve_left n
      ress := fun n => h_ress.resolve_left n
      msix := fun n => h_msix.resolve_left n
      heldBar := fun n => h_heldBar.resolve_left n
      progs := fun n => h_progs.resolve_left n
      steps := fun n => h_steps.resolve_left n
      segs := fun n => h_segs.resolve_left n
      blks := fun n => h_blks.resolve_left n
      sigs := fun n => h_sigs.resolve_left n
      mem := fun n => h_mem.resolve_left n
      dirs := fun n => h_dirs.resolve_left n
      binds := fun n => h_binds.resolve_left n
      back := fun n => h_back.resolve_left n
      grds := fun n => h_grds.resolve_left n
      fab := fun n => h_fab.resolve_left n
      xchs := fun n => h_xchs.resolve_left n
      days := fun n => h_days.resolve_left n
    } h

theorem frame_ite {c : Prop} [Decidable c] (ha : Frame w s a) (hb : Frame w s b) : Frame w s (if c then a else b) := by split <;> assumption

theorem frame_ite_fst {α : Type} {c : Prop} [Decidable c] {a b : State × α} (ha : Frame w s a.1) (hb : Frame w s b.1) :
    Frame w s (if c then a else b).1 := by split <;> assumption

theorem frame_ite_snd {α : Type} {c : Prop} [Decidable c] {a b : α × State} (ha : Frame w s a.2) (hb : Frame w s b.2) :
    Frame w s (if c then a else b).2 := by split <;> assumption

theorem frame_ite_third {α β : Type} {c : Prop} [Decidable c] {a b : α × β × State} (ha : Frame w s a.2.2) (hb : Frame w s b.2.2) :
    Frame w s (if c then a else b).2.2 := by split <;> assumption

/-- What holds before a fold and is kept by each of its steps holds after it. -/
theorem foldl_inv {α β : Type} {P : β → Prop} {f : β → α → β} {xs : List α} {b : β} (hb : P b) (hf : ∀ b x, P b → P (f b x)) :
    P (xs.foldl f b) := by
  induction xs generalizing b with
  | nil => exact hb
  | cons x xs ih => exact ih (hf b x hb)

theorem frame_foldl {α : Type} {f : State → α → State} {xs : List α} {u : State} (hf : ∀ t x, Frame w t (f t x))
    (h : Frame w s u) : Frame w s (xs.foldl f u) := foldl_inv h (fun t x k => (hf t x).trans k)

theorem frame_foldl_fst {α β : Type} {f : State × β → α → State × β} {xs : List α} {y : State × β}
    (hf : ∀ t x, Frame w t.1 (f t x).1) (h : Frame w s y.1) : Frame w s (xs.foldl f y).1 :=
  foldl_inv (P := fun (y : State × β) => Frame w s y.1) h (fun t x k => (hf t x).trans k)

theorem frame_foldl_snd {α β : Type} {f : β × State → α → β × State} {xs : List α} {y : β × State}
    (hf : ∀ t x, Frame w t.2 (f t x).2) (h : Frame w s y.2) : Frame w s (xs.foldl f y).2 :=
  foldl_inv (P := fun (y : β × State) => Frame w s y.2) h (fun t x k => (hf t x).trans k)

theorem frame_foldl_third {α β γ : Type} {f : β × γ × State → α → β × γ × State} {xs : List α} {y : β × γ × State}
    (hf : ∀ t x, Frame w t.2.2 (f t x).2.2) (h : Frame w s y.2.2) : Frame w s (xs.foldl f y).2.2 :=
  foldl_inv (P := fun (y : β × γ × State) => Frame w s y.2.2) h (fun t x k => (hf t x).trans k)

/-- A state that agrees outside `w`, written out. -/
theorem Frame.eq (g : Frame w s t) : t =
    { pending := if .pending ∈ w then t.pending else s.pending
      ticks := if .ticks ∈ w then t.ticks else s.ticks
      evt := if .evt ∈ w then t.evt else s.evt
      free := if .free ∈ w then t.free else s.free
      out := if .out ∈ w then t.out else s.out
      pwr := if .pwr ∈ w then t.pwr else s.pwr
      sec := if .sec ∈ w then t.sec else s.sec
      mgt := if .mgt ∈ w then t.mgt else s.mgt
      ro := if .ro ∈ w then t.ro else s.ro
      flt := { log := if .log ∈ w then t.flt.log else s.flt.log
               head := if .head ∈ w then t.flt.head else s.flt.head
               ack := if .ack ∈ w then t.flt.ack else s.flt.ack
               dumps := if .dumps ∈ w then t.flt.dumps else s.flt.dumps
               dumpOrder := if .dumps ∈ w then t.flt.dumpOrder else s.flt.dumpOrder
               clapSeq := if .clap ∈ w then t.flt.clapSeq else s.flt.clapSeq
               strike := if .clap ∈ w then t.flt.strike else s.flt.strike
               clapOut := if .clap ∈ w then t.flt.clapOut else s.flt.clapOut
               regs := if .regs ∈ w then t.flt.regs else s.flt.regs
               chip := if .chip ∈ w then t.flt.chip else s.flt.chip
               ustage := if .ucode ∈ w then t.flt.ustage else s.flt.ustage
               usts := if .ucode ∈ w then t.flt.usts else s.flt.usts
               usel := if .ucode ∈ w then t.flt.usel else s.flt.usel
               uswap := if .ucode ∈ w then t.flt.uswap else s.flt.uswap
               ubank0 := if .ucode ∈ w then t.flt.ubank0 else s.flt.ubank0
               ubank1 := if .ucode ∈ w then t.flt.ubank1 else s.flt.ubank1 }
      cp := { pcieRef := if .pins ∈ w then t.cp.pcieRef else s.cp.pcieRef
              perst := if .pins ∈ w then t.cp.perst else s.cp.perst
              link := if .pins ∈ w then t.cp.link else s.cp.link
              doms := if .doms ∈ w then t.cp.doms else s.cp.doms
              ctxs := if .ctxs ∈ w then t.cp.ctxs else s.cp.ctxs
              ress := if .ress ∈ w then t.cp.ress else s.cp.ress
              msix := if .msix ∈ w then t.cp.msix else s.cp.msix
              heldBar := if .heldBar ∈ w then t.cp.heldBar else s.cp.heldBar }
      progs := if .progs ∈ w then t.progs else s.progs
      steps := if .steps ∈ w then t.steps else s.steps
      segs := if .segs ∈ w then t.segs else s.segs
      blks := if .blks ∈ w then t.blks else s.blks
      sigs := if .sigs ∈ w then t.sigs else s.sigs
      mem := if .mem ∈ w then t.mem else s.mem
      dirs := if .dirs ∈ w then t.dirs else s.dirs
      binds := if .binds ∈ w then t.binds else s.binds
      back := if .back ∈ w then t.back else s.back
      grds := if .grds ∈ w then t.grds else s.grds
      fab := if .fab ∈ w then t.fab else s.fab
      xchs := if .xchs ∈ w then t.xchs else s.xchs
      days := if .days ∈ w then t.days else s.days } := by
  have hs (p : Part) {α : Type} {a b : α} (h : p ∉ w → a = b) : a = if p ∈ w then a else b := by split <;> simp_all
  have hf : t.flt = _ := (Flt.mk.injEq ..).mpr ⟨hs .log g.log, hs .head g.head, hs .ack g.ack, hs .dumps fun n => (g.dumps n).1,
    hs .dumps fun n => (g.dumps n).2, hs .clap fun n => (g.clap n).1, hs .clap fun n => (g.clap n).2.1, hs .clap fun n => (g.clap n).2.2,
    hs .regs g.regs, hs .chip g.chip, hs .ucode fun n => (g.ucode n).1, hs .ucode fun n => (g.ucode n).2.1,
    hs .ucode fun n => (g.ucode n).2.2.1, hs .ucode fun n => (g.ucode n).2.2.2.1, hs .ucode fun n => (g.ucode n).2.2.2.2.1,
    hs .ucode fun n => (g.ucode n).2.2.2.2.2⟩
  have hc : t.cp = _ := (Cp.mk.injEq ..).mpr ⟨hs .pins fun n => (g.pins n).1, hs .pins fun n => (g.pins n).2.1,
    hs .pins fun n => (g.pins n).2.2, hs .doms g.doms, hs .ctxs g.ctxs, hs .ress g.ress, hs .msix g.msix, hs .heldBar g.heldBar⟩
  exact (State.mk.injEq ..).mpr ⟨hs .pending g.pending, hs .ticks g.ticks, hs .evt g.evt, hs .free g.free, hs .out g.out, hs .pwr g.pwr,
    hs .sec g.sec, hs .mgt g.mgt, hs .ro g.ro, hf, hc, hs .progs g.progs, hs .steps g.steps, hs .segs g.segs, hs .blks g.blks,
    hs .sigs g.sigs, hs .mem g.mem, hs .dirs g.dirs, hs .binds g.binds, hs .back g.back, hs .grds g.grds, hs .fab g.fab, hs .xchs g.xchs,
    hs .days g.days⟩

theorem Frame.get_dom (g : Frame w s t) (n : .doms ∉ w) (d : Nat) : t.dom d = s.dom d := by
  simp only [State.dom, g.doms n]

theorem Frame.get_ctx (g : Frame w s t) (n : .ctxs ∉ w) (k : Nat) : t.ctx k = s.ctx k := by
  simp only [State.ctx, g.ctxs n]

theorem Frame.get_reg (g : Frame w s t) (n : .regs ∉ w) (r : Nat) : t.reg r = s.reg r := by
  simp only [State.reg, g.regs n]

theorem Frame.get_dump (g : Frame w s t) (n : .dumps ∉ w) (i : Nat) : t.dump i = s.dump i := by
  simp only [State.dump, g.dumps n]

theorem Frame.get_prog (g : Frame w s t) (n : .progs ∉ w) (d : Nat) : t.prog d = s.prog d := by
  simp only [State.prog, g.progs n]

theorem Frame.get_stp (g : Frame w s t) (n : .steps ∉ w) (d : Nat) : t.stp d = s.stp d := by
  simp only [State.stp, g.steps n]

theorem Frame.get_blk (g : Frame w s t) (n : .blks ∉ w) (b : Nat) : t.blk b = s.blk b := by
  simp only [State.blk, g.blks n]

theorem Frame.get_dir (g : Frame w s t) (n : .dirs ∉ w) (p : Nat) : t.dir p = s.dir p := by
  simp only [State.dir, g.dirs n]

theorem Frame.get_bind (g : Frame w s t) (n : .binds ∉ w) (k : Nat) : t.bind k = s.bind k := by
  simp only [State.bind, g.binds n]

theorem Frame.get_grd (g : Frame w s t) (n : .grds ∉ w) (r : Nat) : t.grd r = s.grd r := by
  simp only [State.grd, g.grds n]

theorem Frame.get_port (g : Frame w s t) (n : .fab ∉ w) (p : Nat) : t.port p = s.port p := by
  simp only [State.port, g.fab n]

theorem Frame.get_xch (g : Frame w s t) (n : .xchs ∉ w) (d : Nat) : t.xch d = s.xch d := by
  simp only [State.xch, g.xchs n]

theorem Frame.get_day (g : Frame w s t) (n : .days ∉ w) (d : Nat) : t.day d = s.day d := by
  simp only [State.day, g.days n]

theorem Frame.get_live (g : Frame w s t) (n : .mgt ∉ w) (k : Nat) : t.live k = s.live k := by
  simp only [State.live, g.mgt n]

theorem Frame.get_shadow (g : Frame w s t) (n : .mgt ∉ w) (k : Nat) : t.shadow k = s.shadow k := by
  simp only [State.shadow, g.mgt n]

theorem Frame.get_ro (g : Frame w s t) (n : .ro ∉ w) (k : Nat) : t.ro? k = s.ro? k := by
  simp only [State.ro?, g.ro n]

theorem Frame.get_res (g : Frame w s t) (n : .ress ∉ w) (d k : Nat) : t.res d k = s.res d k := by
  simp only [State.res, g.ress n]

theorem Frame.get_seg (g : Frame w s t) (n : .segs ∉ w) (d k : Nat) : t.seg d k = s.seg d k := by
  simp only [State.seg, g.segs n]

theorem Frame.get_msix (g : Frame w s t) (n : .msix ∉ w) (f v : Nat) : t.msix f v = s.msix f v := by
  simp only [State.msix, g.msix n]

theorem Frame.get_app (g : Frame w s t) (n : .mgt ∉ w) (u k : Nat) : t.app u k = s.app u k := by
  simp only [State.app, g.mgt n]

theorem Frame.get_rd (g : Frame w s t) (n : .mem ∉ w) (a : Nat) : t.rd a = s.rd a := by
  simp only [State.rd, g.mem n]

/-! ## Operations of Ops -/

theorem State.setReg_frame : Frame [.regs] s (State.setReg s a b) := by
  unfold State.setReg
  repeat' first | with_reducible exact Frame.refl _ _ | extract_lets | with_reducible refine Frame.put ?_

theorem State.setDump_frame : Frame [.dumps] s (State.setDump s a b) := by
  unfold State.setDump
  repeat' first | with_reducible exact Frame.refl _ _ | extract_lets | with_reducible refine Frame.put ?_

theorem State.setDom_frame : Frame [.doms] s (State.setDom s a b) := by
  unfold State.setDom
  repeat' first | with_reducible exact Frame.refl _ _ | extract_lets | with_reducible refine Frame.put ?_

theorem State.setCtx_frame : Frame [.ctxs] s (State.setCtx s a b) := by
  unfold State.setCtx
  repeat' first | with_reducible exact Frame.refl _ _ | extract_lets | with_reducible refine Frame.put ?_

theorem State.setRes_frame : Frame [.ress] s (State.setRes s a b c) := by
  unfold State.setRes
  repeat' first | with_reducible exact Frame.refl _ _ | extract_lets | with_reducible refine Frame.put ?_

theorem State.setMsix_frame : Frame [.msix] s (State.setMsix s a b c) := by
  unfold State.setMsix
  repeat' first | with_reducible exact Frame.refl _ _ | extract_lets | with_reducible refine Frame.put ?_

theorem State.setProg_frame : Frame [.progs] s (State.setProg s a b) := by
  unfold State.setProg
  repeat' first | with_reducible exact Frame.refl _ _ | with_reducible refine Frame.put ?_

theorem State.setStp_frame : Frame [.steps] s (State.setStp s a b) := by
  unfold State.setStp
  repeat' first | with_reducible exact Frame.refl _ _ | with_reducible refine Frame.put ?_

theorem State.setSeg_frame : Frame [.segs] s (State.setSeg s a b c) := by
  unfold State.setSeg
  repeat' first | with_reducible exact Frame.refl _ _ | with_reducible refine Frame.put ?_

theorem State.setBlk_frame : Frame [.blks] s (State.setBlk s a b) := by
  unfold State.setBlk
  repeat' first | with_reducible exact Frame.refl _ _ | with_reducible refine Frame.put ?_

theorem State.setDir_frame : Frame [.dirs] s (State.setDir s a b) := by
  unfold State.setDir
  repeat' first | with_reducible exact Frame.refl _ _ | with_reducible refine Frame.put ?_

theorem State.setGrd_frame : Frame [.grds] s (State.setGrd s a b) := by
  unfold State.setGrd
  repeat' first | with_reducible exact Frame.refl _ _ | with_reducible refine Frame.put ?_

theorem State.setPort_frame : Frame [.fab] s (State.setPort s a b) := by
  unfold State.setPort
  repeat' first | with_reducible exact Frame.refl _ _ | extract_lets | with_reducible refine Frame.put ?_

theorem State.setXch_frame : Frame [.xchs] s (State.setXch s a b) := by
  unfold State.setXch
  repeat' first | with_reducible exact Frame.refl _ _ | with_reducible refine Frame.put ?_

theorem State.setDay_frame : Frame [.days] s (State.setDay s a b) := by
  unfold State.setDay
  repeat' first | with_reducible exact Frame.refl _ _ | with_reducible refine Frame.put ?_

theorem State.setHdr_frame : Frame [.progs] s (State.setHdr s a b c) := by
  unfold State.setHdr
  repeat' first | with_reducible exact Frame.refl _ _ | with_reducible apply Frame.after State.setProg_frame

theorem State.setBind_frame : Frame [.binds] s (State.setBind s a b) := by
  unfold State.setBind
  repeat' first | with_reducible exact Frame.refl _ _ | with_reducible refine Frame.put ?_

theorem State.delBind_frame : Frame [.binds] s (State.delBind s a) := by
  unfold State.delBind
  repeat' first | with_reducible exact Frame.refl _ _ | with_reducible refine Frame.put ?_

theorem State.emit_frame : Frame [.out] s (State.emit s a) := by
  unfold State.emit
  repeat' first | with_reducible exact Frame.refl _ _ | with_reducible refine Frame.put ?_

theorem State.setRo_frame : Frame [.ro] s (State.setRo s a b) := by
  unfold State.setRo
  repeat' first | with_reducible exact Frame.refl _ _ | with_reducible refine Frame.put ?_

theorem State.count_frame : Frame [.ro] s (State.count s a b) := by
  unfold State.count
  repeat' first | with_reducible exact Frame.refl _ _ | with_reducible apply Frame.after State.setRo_frame

theorem State.countIf_frame : Frame [.ro] s (State.countIf s a b) := by
  unfold State.countIf
  repeat' first | with_reducible exact Frame.refl _ _ | with_reducible apply Frame.after State.count_frame | with_reducible apply frame_ite

theorem State.wr_frame : Frame [.mem] s (State.wr s a b) := by
  unfold State.wr
  repeat' first | with_reducible exact Frame.refl _ _ | with_reducible refine Frame.put ?_

theorem State.wrBytes_frame : Frame [.mem, .back] s (State.wrBytes s a b) := by
  unfold State.wrBytes
  repeat' first | with_reducible exact Frame.refl _ _ | with_reducible refine Frame.put ?_

theorem State.wrNat_frame : Frame [.mem, .back] s (State.wrNat s a b c) := by
  unfold State.wrNat
  repeat' first | with_reducible exact Frame.refl _ _ | with_reducible apply Frame.after State.wrBytes_frame

theorem State.fresh_frame : Frame [.free] s (State.fresh s).2 := by
  unfold State.fresh
  repeat' first | with_reducible exact Frame.refl _ _ | dsimp only | with_reducible refine Frame.put ?_

theorem State.each_frame {α : Type} {s : State} {l : List α} {f : State → α → State} (hf : ∀ t x, Frame w t (f t x)) :
    Frame w s (State.each s l f) := frame_foldl hf (Frame.refl _ _)

/-! ## Operations of Faults -/

theorem holdBar_frame : Frame [.heldBar] s (holdBar s a) := by
  unfold holdBar
  repeat' first | with_reducible exact Frame.refl _ _ | extract_lets | with_reducible refine Frame.put ?_

theorem capture_frame : Frame [.ro, .blks] s (capture a b s c) := by
  unfold capture
  repeat' first
    | with_reducible exact Frame.refl _ _ | with_reducible apply Frame.after State.count_frame
    | with_reducible apply Frame.after State.setBlk_frame

theorem strike.doStrike_frame : Frame [.ro, .clap, .blks] s (strike.doStrike a s) := by
  unfold strike.doStrike
  repeat' first
    | with_reducible exact Frame.refl _ _ | with_reducible refine Frame.trans (State.each_frame (fun _ _ => ?_)) ?_
    | with_reducible apply Frame.after capture_frame | extract_lets | with_reducible refine Frame.put ?_

theorem strike_frame : Frame [.ro, .clap, .blks] s (strike s a) := by
  unfold strike
  repeat' first
    | with_reducible exact Frame.refl _ _ | with_reducible apply Frame.after State.count_frame
    | with_reducible apply Frame.after strike.doStrike_frame | with_reducible apply frame_ite | extract_lets | split

theorem logFault_frame : Frame [.ro, .log, .head] s (logFault s a) := by
  unfold logFault
  repeat' first
    | with_reducible exact Frame.refl _ _ | with_reducible apply Frame.after State.countIf_frame | extract_lets
    | with_reducible refine Frame.put ?_

theorem setRecord_frame : Frame [.log] s (setRecord s a b c d) := by
  unfold setRecord
  repeat' first | with_reducible exact Frame.refl _ _ | with_reducible apply frame_ite | extract_lets | with_reducible refine Frame.put ?_

theorem traceBurst_frame : Frame [.ro, .blks] s (traceBurst s a b c d) := by
  unfold traceBurst
  repeat' first
    | with_reducible exact Frame.refl _ _ | with_reducible apply Frame.after State.count_frame
    | with_reducible apply Frame.after State.setBlk_frame | with_reducible apply frame_ite | extract_lets | split

theorem drainTrace_frame : Frame [.blks] s (drainTrace s a) := by
  unfold drainTrace
  repeat' first | with_reducible exact Frame.refl _ _ | with_reducible apply Frame.after State.setBlk_frame

theorem traceItem_frame : Frame [.ro, .blks] s (traceItem s a b c d) := by
  unfold traceItem
  repeat' first
    | with_reducible exact Frame.refl _ _ | with_reducible apply Frame.after traceBurst_frame
    | with_reducible apply Frame.after drainTrace_frame

theorem countRunEvts_frame : Frame [.ro, .blks] s (countRunEvts s a b) := by
  unfold countRunEvts
  repeat' first
    | with_reducible exact Frame.refl _ _ | with_reducible refine Frame.trans (State.each_frame (fun _ _ => ?_)) ?_
    | with_reducible apply Frame.after State.setBlk_frame | with_reducible apply Frame.after State.count_frame

theorem stopItem_frame : Frame [.ro, .blks] s (stopItem a s b) := by
  unfold stopItem
  repeat' first
    | with_reducible exact Frame.refl _ _ | with_reducible apply Frame.after countRunEvts_frame
    | with_reducible apply Frame.after traceBurst_frame | with_reducible apply Frame.after State.count_frame
    | with_reducible apply Frame.after State.setBlk_frame | with_reducible apply frame_ite

theorem dropItemTx_frame : Frame [.fab] s (dropItemTx a s b) := by
  unfold dropItemTx
  repeat' first | with_reducible exact Frame.refl _ _ | with_reducible apply Frame.after State.setPort_frame

theorem stopBlock_frame : Frame [.ro, .blks, .fab] s (stopBlock s a) := by
  unfold stopBlock
  repeat' first
    | with_reducible exact Frame.refl _ _ | with_reducible apply Frame.after drainTrace_frame
    | with_reducible refine Frame.trans (State.each_frame (fun _ _ => ?_)) ?_ | with_reducible apply Frame.after dropItemTx_frame
    | with_reducible apply Frame.after stopItem_frame | with_reducible apply Frame.after State.setBlk_frame

theorem abortAttempt_frame : Frame [.ro, .steps, .blks, .fab] s (abortAttempt s a) := by
  unfold abortAttempt
  repeat' first
    | with_reducible exact Frame.refl _ _ | with_reducible refine Frame.trans (State.each_frame (fun _ _ => ?_)) ?_
    | with_reducible apply Frame.after stopBlock_frame | with_reducible apply Frame.after State.setStp_frame | with_reducible apply frame_ite
    | extract_lets | with_reducible refine Frame.put ?_

theorem killHomed_frame : Frame [.ctxs] s (killHomed a s) := by
  unfold killHomed
  repeat' first | with_reducible exact Frame.refl _ _ | extract_lets | dsimp only | with_reducible refine Frame.put ?_

theorem dailyAbandon_frame : Frame [.ro, .days] s (dailyAbandon s a) := by
  unfold dailyAbandon
  repeat' first
    | with_reducible exact Frame.refl _ _ | with_reducible apply Frame.after State.count_frame
    | with_reducible apply Frame.after State.setDay_frame | with_reducible apply frame_ite

theorem emptyGrader_frame : Frame [.ro, .grds] s (emptyGrader s a) := by
  unfold emptyGrader
  repeat' first
    | with_reducible exact Frame.refl _ _ | with_reducible apply Frame.after State.count_frame
    | with_reducible apply Frame.after State.setGrd_frame

theorem holdPorts_frame : Frame [.fab] s (holdPorts s a) := by
  unfold holdPorts
  repeat' first
    | with_reducible exact Frame.refl _ _ | with_reducible refine Frame.trans (State.each_frame (fun _ _ => ?_)) ?_
    | with_reducible apply Frame.after State.setPort_frame | with_reducible apply frame_ite

theorem killRegion_frame : Frame [.ro, .regs, .ctxs, .steps, .blks, .grds, .fab, .days] s (killRegion s a b c) := by
  unfold killRegion
  extract_lets _ s1
  have h1 : Frame [.ro, .regs, .ctxs, .steps, .blks, .grds, .fab, .days] s s1 := State.setReg_frame.mono (by decide)
  clear_value s1
  have h3 := State.each_frame (l := List.range 16) (f := dailyAbandon) (s := emptyGrader (killHomed a s1) a) (w := [.ro, .regs, .ctxs, .steps,
    .blks, .grds, .fab, .days]) (fun _ _ => dailyAbandon_frame.mono (by decide))
  exact (State.each_frame (fun _ _ => abortAttempt_frame.mono (by decide))).trans (h3.trans (emptyGrader_frame.after (killHomed_frame.after h1)))

theorem regionFault_frame : Frame [.ro, .log, .head, .clap, .regs, .ctxs, .steps, .blks, .grds, .fab, .days] s (regionFault s a b c) := by
  unfold regionFault
  repeat' first
    | with_reducible exact Frame.refl _ _ | with_reducible apply Frame.after State.count_frame
    | with_reducible apply Frame.after strike_frame | with_reducible apply Frame.after logFault_frame
    | with_reducible apply Frame.after killRegion_frame | with_reducible apply frame_ite

theorem chipFault_frame : Frame [.ro, .log, .head, .clap, .regs, .chip, .ctxs, .steps, .blks, .grds, .fab, .days] s (chipFault s a b c) := by
  unfold chipFault
  refine frame_ite (State.count_frame.mono (by decide)) ?_
  extract_lets aff s0 s1 n cuts s2 s3 s4
  have h0 : Frame [.ro, .log, .head, .clap, .regs, .chip, .ctxs, .steps, .blks, .grds, .fab, .days] s s0 := logFault_frame.mono (by decide)
  clear_value s0
  have h1 : Frame [.ro, .log, .head, .clap, .regs, .chip, .ctxs, .steps, .blks, .grds, .fab, .days] s s1 :=
    strike_frame.after (frame_ite h0 (strike_frame.after h0))
  clear_value s1
  have h2 : Frame [.ro, .log, .head, .clap, .regs, .chip, .ctxs, .steps, .blks, .grds, .fab, .days] s s2 :=
    (State.each_frame (fun _ _ => killHomed_frame.after (State.setReg_frame.after (frame_ite (Frame.refl _ _) (holdPorts_frame.mono (by decide)))))).trans h1
  clear_value s2
  have ha : Frame [.ro, .log, .head, .clap, .regs, .chip, .ctxs, .steps, .blks, .grds, .fab, .days] s2 (s2.each (List.range 4) emptyGrader) :=
    State.each_frame (fun _ _ => emptyGrader_frame.mono (by decide))
  have hb := (State.each_frame (l := List.range 16) (f := dailyAbandon) (w := [.ro, .log, .head, .clap, .regs, .chip, .ctxs, .steps, .blks, .grds,
    .fab, .days]) (s := s2.each (List.range 4) emptyGrader)
    (fun _ _ => dailyAbandon_frame.mono (by decide))).trans ha
  have h3 : Frame [.ro, .log, .head, .clap, .regs, .chip, .ctxs, .steps, .blks, .grds, .fab, .days] s s3 :=
    (State.each_frame (fun _ _ => abortAttempt_frame.mono (by decide))).trans (hb.trans h2)
  clear_value s3
  have h4 : Frame [.ro, .log, .head, .clap, .regs, .chip, .ctxs, .steps, .blks, .grds, .fab, .days] s s4 := State.count_frame.after h3
  clear_value s4
  exact Frame.put h4

/-! ## Operations of Clock -/

theorem wdtNext_frame : Frame [.blks] s (wdtNext s a b) := by
  unfold wdtNext
  repeat' first | with_reducible exact Frame.refl _ _ | with_reducible apply Frame.after State.setBlk_frame

theorem wdtTick_frame : Frame [.free, .blks] s (wdtTick a s b) := by
  unfold wdtTick
  repeat' first
    | with_reducible exact Frame.refl _ _ | with_reducible apply Frame.after State.fresh_frame
    | with_reducible apply Frame.after wdtNext_frame | with_reducible apply frame_ite

theorem idleTick_frame : Frame [.ticks, .free, .clap, .blks] s (idleTick s) := by
  unfold idleTick
  repeat' first
    | with_reducible exact Frame.refl _ _ | with_reducible refine Frame.trans (State.each_frame (fun _ _ => ?_)) ?_
    | with_reducible apply Frame.after wdtTick_frame | with_reducible apply frame_ite | extract_lets | with_reducible refine Frame.put ?_

/-! ## Operations of Takes -/

theorem loadCopies_frame : Frame [.mgt] s (loadCopies s a b) := by
  unfold loadCopies
  repeat' first
    | with_reducible exact Frame.refl _ _ | with_reducible refine Frame.trans (State.each_frame (fun _ _ => ?_)) ?_ | extract_lets
    | with_reducible refine Frame.put ?_

theorem loadUnit_frame : Frame [.mgt] s (loadUnit s a) := by
  unfold loadUnit
  repeat' first | with_reducible exact Frame.refl _ _ | with_reducible apply Frame.after loadCopies_frame

theorem loadGroup_frame : Frame [.mgt] s (loadGroup s a b) := by
  unfold loadGroup
  repeat' first | with_reducible exact Frame.refl _ _ | with_reducible apply Frame.after loadCopies_frame

theorem storeTake_frame : Frame [.mgt] s (storeTake s) := by
  unfold storeTake
  repeat' first | with_reducible exact Frame.refl _ _ | extract_lets | split | with_reducible refine Frame.put ?_

theorem makeTake_frame : Frame [.mgt, .ro] s (makeTake s a) := by
  unfold makeTake
  repeat' first
    | with_reducible exact Frame.refl _ _ | with_reducible apply Frame.after State.count_frame
    | with_reducible apply Frame.after storeTake_frame | extract_lets | with_reducible refine Frame.put ?_

theorem wakeBlk_frame : Frame [.blks] s (wakeBlk s a) := by
  unfold wakeBlk
  repeat' first | with_reducible exact Frame.refl _ _ | with_reducible apply Frame.after State.setBlk_frame | with_reducible apply frame_ite

theorem takeBank_frame : Frame [.blks] s (takeBank s a) := by
  unfold takeBank
  repeat' first | with_reducible exact Frame.refl _ _ | with_reducible apply Frame.after State.setBlk_frame

theorem cueBank_frame : Frame [.sec, .ucode, .blks] s (cueBank s a) := by
  unfold cueBank
  repeat' first
    | with_reducible exact Frame.refl _ _ | with_reducible refine Frame.trans (State.each_frame (fun _ _ => ?_)) ?_
    | with_reducible apply Frame.after takeBank_frame | with_reducible apply frame_ite | extract_lets | with_reducible refine Frame.put ?_

theorem cueLs_frame : Frame [.ro] t (cueLs s t a) := by
  unfold cueLs
  exact frame_ite (State.setRo_frame.after State.setRo_frame) (Frame.refl _ _)

theorem strikeCue_frame : Frame [.sec, .mgt, .ro, .ucode, .blks] s (strikeCue s a) := by
  unfold strikeCue
  repeat' first
    | with_reducible exact Frame.refl _ _ | with_reducible apply Frame.after makeTake_frame
    | with_reducible refine Frame.trans (State.each_frame (fun _ _ => ?_)) ?_ | with_reducible apply Frame.after cueLs_frame
    | with_reducible apply Frame.after State.count_frame | with_reducible apply Frame.after cueBank_frame
    | with_reducible apply Frame.after wakeBlk_frame | extract_lets | split | dsimp only | with_reducible refine Frame.put ?_

/-! ## Operations of Power -/

theorem dataLost_frame :
    Frame [.pwr, .sec, .pins, .doms, .ctxs, .ress, .msix, .heldBar, .progs, .steps, .segs, .blks, .sigs, .mem, .dirs, .binds, .back, .grds,
      .fab, .xchs, .days] s (dataLost s) := by
  unfold dataLost
  repeat' first | with_reducible exact Frame.refl _ _ | extract_lets | with_reducible refine Frame.put ?_

theorem coldOff_frame :
    Frame [.ticks, .free, .pwr, .sec, .mgt, .ro, .log, .head, .ack, .dumps, .clap, .regs, .chip, .ucode, .pins, .doms, .ctxs, .ress, .msix,
      .heldBar, .progs, .steps, .segs, .blks, .sigs, .mem, .dirs, .binds, .back, .grds, .fab, .xchs, .days] s (coldOff s) := by
  unfold coldOff
  repeat' first | with_reducible exact Frame.refl _ _ | extract_lets | with_reducible refine Frame.put ?_

theorem setTj_frame : Frame [.pwr] s (setTj s a b c d) := by
  unfold setTj
  repeat' first | with_reducible exact Frame.refl _ _ | extract_lets | with_reducible refine Frame.put ?_

theorem linkDown_frame : Frame [.sec, .pins] s (linkDown s) := by
  unfold linkDown
  repeat' first | with_reducible exact Frame.refl _ _ | extract_lets | with_reducible refine Frame.put ?_

theorem linkTrains_frame : Frame [.ro, .pins] s (linkTrains s a) := by
  unfold linkTrains
  repeat' first
    | with_reducible exact Frame.refl _ _ | with_reducible apply Frame.after State.countIf_frame | extract_lets
    | with_reducible refine Frame.put ?_

/-! ## Operations of Boot -/

theorem bootCell_frame : Frame [.ro, .blks] s (bootCell s a) := by
  unfold bootCell
  repeat' first
    | with_reducible exact Frame.refl _ _ | with_reducible apply Frame.after State.setRo_frame
    | with_reducible apply Frame.after State.setBlk_frame | with_reducible apply frame_ite

theorem bootCells_frame : Frame [.ro, .blks] s (bootCells s a) := by
  unfold bootCells
  repeat' first
    | with_reducible exact Frame.refl _ _ | with_reducible refine Frame.trans (State.each_frame (fun _ _ => ?_)) ?_
    | with_reducible apply Frame.after State.setRo_frame | with_reducible apply Frame.after State.setBlk_frame
    | with_reducible apply Frame.after bootCell_frame | with_reducible apply frame_ite

theorem setLock_frame : Frame [.pwr, .sec, .mgt] s (setLock s) := by
  unfold setLock
  repeat' first | with_reducible exact Frame.refl _ _ | extract_lets | split | with_reducible refine Frame.put ?_

theorem blocksOut_frame : Frame [.blks] s (blocksOut s a) := by
  unfold blocksOut
  repeat' first | with_reducible exact Frame.refl _ _ | with_reducible apply Frame.after State.setBlk_frame

theorem blocksOnBank_frame : Frame [.blks] s (blocksOnBank a s b) := by
  unfold blocksOnBank
  repeat' first | with_reducible exact Frame.refl _ _ | with_reducible apply Frame.after State.setBlk_frame

theorem bootFrom_frame : Frame [.sec, .mgt, .ro] s (bootFrom s c) := by
  unfold bootFrom
  extract_lets s1 _ s2
  have h1 : Frame [.sec, .mgt, .ro] s s1 := Frame.put (Frame.refl _ _)
  have h2 : Frame [.sec, .mgt, .ro] s s2 := Frame.put h1
  clear_value s1 s2
  exact frame_ite (State.setRo_frame.after ((State.each_frame (fun _ _ => loadUnit_frame.mono (by decide))).trans h2)) (Frame.put h1)

theorem linkAtRails_frame : Frame [.free, .ro, .pins] s (linkAtRails s) := by
  unfold linkAtRails
  extract_lets
  repeat' first
    | with_reducible exact Frame.refl _ _ | with_reducible apply Frame.after linkTrains_frame
    | with_reducible apply Frame.after State.fresh_frame | with_reducible apply frame_ite

theorem lanesOff_frame : Frame [.ro] s (lanesOff s a) := by
  unfold lanesOff
  exact State.each_frame (fun _ _ => frame_ite (Frame.refl _ _) (State.setRo_frame.mono (by decide)))

theorem startPort_frame : Frame [.ro, .fab] s (startPort s a) := by
  unfold startPort
  exact frame_ite (State.setPort_frame.mono (by decide)) (lanesOff_frame.after (State.setPort_frame.mono (by decide)))

/-! ## Operations of Security -/

theorem restartFw_frame : Frame [.sec, .mgt, .ro] s (restartFw s a) := by
  unfold restartFw
  repeat' first
    | with_reducible exact Frame.refl _ _ | with_reducible apply Frame.after State.count_frame | extract_lets
    | with_reducible refine Frame.put ?_

theorem endTrial_frame : Frame [.sec, .mgt, .ro, .log, .head] s (endTrial s) := by
  unfold endTrial
  repeat' first
    | with_reducible exact Frame.refl _ _ | with_reducible apply Frame.after restartFw_frame
    | with_reducible apply Frame.after logFault_frame | extract_lets | with_reducible refine Frame.put ?_

theorem fwVerify_frame : Frame [.sec] s (fwVerify s).2 := by
  unfold fwVerify
  repeat' first
    | with_reducible exact Frame.refl _ _ | with_reducible apply frame_ite_snd | extract_lets | dsimp only
    | with_reducible refine Frame.put ?_

theorem recoverySwitch_frame : Frame [.sec, .mgt, .ro] s (recoverySwitch s) := bootFrom_frame

theorem fwSwitch_frame : Frame [.sec, .mgt, .ro] s (fwSwitch s).2 := by
  unfold fwSwitch
  repeat' first
    | with_reducible exact Frame.refl _ _ | with_reducible apply Frame.after recoverySwitch_frame
    | with_reducible apply Frame.after restartFw_frame | with_reducible apply frame_ite_snd | extract_lets
    | with_reducible refine Frame.put ?_

theorem fwClear_frame : Frame [.sec] s (fwClear s).2 := by
  unfold fwClear
  repeat' first
    | with_reducible exact Frame.refl _ _ | with_reducible apply frame_ite_snd | extract_lets | dsimp only
    | with_reducible refine Frame.put ?_

theorem fwOperation_frame : Frame [.sec, .mgt, .ro] s (fwOperation s a).2 := by
  unfold fwOperation
  repeat' first
    | with_reducible exact Frame.refl _ _ | with_reducible apply Frame.after fwVerify_frame
    | with_reducible apply Frame.after fwSwitch_frame | with_reducible apply Frame.after fwClear_frame | with_reducible apply frame_ite_snd

theorem fwCommand_frame : Frame [.sec, .mgt, .ro] s (fwCommand s a).2 := by
  unfold fwCommand
  exact frame_ite_snd (Frame.put fwOperation_frame) fwOperation_frame

theorem bootLockWrite_frame : Frame [.pwr, .sec, .mgt] s (bootLockWrite s a).2 := by
  unfold bootLockWrite
  repeat' first | with_reducible exact Frame.refl _ _ | with_reducible apply Frame.after setLock_frame | with_reducible apply frame_ite_snd

theorem policyNext_frame : Frame [.sec] s (policyNext s a).2 := by
  unfold policyNext
  repeat' first
    | with_reducible exact Frame.refl _ _ | with_reducible apply frame_ite_snd | extract_lets | dsimp only
    | with_reducible refine Frame.put ?_

theorem ideControl_frame : Frame [.sec] s (ideControl s a).2 := by
  unfold ideControl
  repeat' first
    | with_reducible exact Frame.refl _ _ | with_reducible apply frame_ite_snd | extract_lets | dsimp only
    | with_reducible refine Frame.put ?_

theorem spdmReply_frame : Frame [.out] s (spdmReply s a b) := by
  unfold spdmReply
  repeat' first | with_reducible exact Frame.refl _ _ | with_reducible apply Frame.after State.emit_frame | with_reducible apply frame_ite

theorem spdmInvalid_frame : Frame [.out] s (spdmInvalid s) := by
  unfold spdmInvalid
  repeat' first | with_reducible exact Frame.refl _ _ | with_reducible apply Frame.after spdmReply_frame

theorem spdmNotReady_frame : Frame [.out] s (spdmNotReady s) := by
  unfold spdmNotReady
  repeat' first | with_reducible exact Frame.refl _ _ | with_reducible apply Frame.after spdmReply_frame

/-! ## Operations of Mgmt -/

theorem logAck_frame : Frame [.ack] s (logAck s a).2 := by
  unfold logAck
  repeat' first
    | with_reducible exact Frame.refl _ _ | with_reducible apply frame_ite_snd | extract_lets | dsimp only
    | with_reducible refine Frame.put ?_

theorem dumpRelease_frame : Frame [.dumps] s (dumpRelease s a b).2 := by
  unfold dumpRelease
  repeat' first
    | with_reducible exact Frame.refl _ _ | with_reducible apply Frame.after State.setDump_frame | with_reducible apply frame_ite_snd

theorem clapCommand_frame : Frame [.ro, .clap, .blks] s (clapCommand s a).2 := by
  unfold clapCommand
  repeat' first | with_reducible exact Frame.refl _ _ | with_reducible apply Frame.after strike_frame | with_reducible apply frame_ite_snd

theorem ucodeVerify_frame : Frame [.ucode] s (ucodeVerify s).2 := by
  unfold ucodeVerify
  repeat' first
    | with_reducible exact Frame.refl _ _ | with_reducible apply frame_ite_snd | extract_lets | dsimp only
    | with_reducible refine Frame.put ?_

theorem ucodeArm_frame : Frame [.ucode] s (ucodeArm s).2 := by
  unfold ucodeArm
  repeat' first
    | with_reducible exact Frame.refl _ _ | with_reducible apply frame_ite_snd | extract_lets | dsimp only
    | with_reducible refine Frame.put ?_

theorem ucodeRevert_frame : Frame [.ucode] s (ucodeRevert s).2 := by
  unfold ucodeRevert
  repeat' first
    | with_reducible exact Frame.refl _ _ | with_reducible apply frame_ite_snd | extract_lets | dsimp only
    | with_reducible refine Frame.put ?_

theorem ucodeCommand_frame : Frame [.ucode] s (ucodeCommand s a).2 := by
  unfold ucodeCommand
  repeat' first
    | with_reducible exact Frame.refl _ _ | with_reducible apply Frame.after ucodeVerify_frame
    | with_reducible apply Frame.after ucodeArm_frame | with_reducible apply Frame.after ucodeRevert_frame
    | with_reducible apply frame_ite_snd

theorem cueWrite_frame : Frame [.sec, .mgt, .ro, .ucode, .blks] s (cueWrite s a).2 := by
  unfold cueWrite
  repeat' first
    | with_reducible exact Frame.refl _ _ | with_reducible apply Frame.after strikeCue_frame | with_reducible apply frame_ite_snd

theorem takeRevert_frame : Frame [.sec, .mgt, .ro, .ucode, .blks] s (takeRevert s).2 := by
  unfold takeRevert
  repeat' first
    | with_reducible exact Frame.refl _ _ | with_reducible apply Frame.after State.count_frame
    | with_reducible apply Frame.after strikeCue_frame | with_reducible apply Frame.after storeTake_frame
    | with_reducible apply frame_ite_snd | extract_lets | with_reducible refine Frame.put ?_

theorem takeDiscard_frame : Frame [.mgt] s (takeDiscard s).2 := by
  unfold takeDiscard
  repeat' first | with_reducible exact Frame.refl _ _ | extract_lets | dsimp only | with_reducible refine Frame.put ?_

theorem takeDefaults_frame : Frame [.mgt] s (takeDefaults s).2 := by
  unfold takeDefaults
  repeat' first | with_reducible exact Frame.refl _ _ | extract_lets | dsimp only | with_reducible refine Frame.put ?_

theorem takeCommand_frame : Frame [.sec, .mgt, .ro, .ucode, .blks] s (takeCommand s a).2 := by
  unfold takeCommand
  repeat' first
    | with_reducible exact Frame.refl _ _ | with_reducible apply Frame.after takeRevert_frame
    | with_reducible apply Frame.after takeDiscard_frame | with_reducible apply Frame.after takeDefaults_frame
    | with_reducible apply frame_ite_snd

theorem shadowWrite_frame : Frame [.mgt] s (shadowWrite s a b) := by
  unfold shadowWrite
  repeat' first | with_reducible exact Frame.refl _ _ | extract_lets | split | with_reducible refine Frame.put ?_

theorem lsWrite_frame : Frame [.mgt, .ro] s (lsWrite s a b c).2 := by
  unfold lsWrite
  repeat' first
    | with_reducible exact Frame.refl _ _ | with_reducible apply Frame.after State.countIf_frame
    | with_reducible apply Frame.after shadowWrite_frame | with_reducible apply frame_ite_snd

theorem writeFixed_frame : Frame [.pwr, .sec, .mgt, .ro, .ack, .dumps, .clap, .ucode, .blks] s (writeFixed s a b c d).2 := by
  unfold writeFixed
  repeat' first
    | with_reducible exact Frame.refl _ _ | with_reducible apply Frame.after cueWrite_frame
    | with_reducible apply Frame.after takeCommand_frame | with_reducible apply Frame.after clapCommand_frame
    | with_reducible apply Frame.after logAck_frame | with_reducible apply Frame.after dumpRelease_frame
    | with_reducible apply Frame.after ucodeCommand_frame | with_reducible apply Frame.after bootLockWrite_frame
    | with_reducible apply Frame.after fwCommand_frame | with_reducible apply Frame.after ideControl_frame
    | with_reducible apply Frame.after policyNext_frame | with_reducible apply Frame.after lsWrite_frame
    | with_reducible apply Frame.after shadowWrite_frame | with_reducible apply frame_ite_snd | extract_lets | dsimp only
    | with_reducible refine Frame.put ?_

theorem blobStore_frame : Frame [.sec, .ucode] s (blobStore s a b c) := by
  unfold blobStore
  repeat' first
    | with_reducible exact Frame.refl _ _ | with_reducible apply frame_ite | extract_lets | split | with_reducible refine Frame.put ?_

theorem writeBlob_frame : Frame [.sec, .ucode] s (writeBlob s a b c d).2 := by
  unfold writeBlob
  repeat' first
    | with_reducible exact Frame.refl _ _ | with_reducible apply Frame.after blobStore_frame | with_reducible apply frame_ite_snd

theorem writeOp_frame : Frame [.pwr, .sec, .mgt, .ro, .ack, .dumps, .clap, .ucode, .blks] s (writeOp s a b c d e).2 := by
  unfold writeOp
  repeat' first
    | with_reducible exact Frame.refl _ _ | with_reducible apply Frame.after writeBlob_frame
    | with_reducible apply Frame.after writeFixed_frame | with_reducible apply frame_ite_snd

theorem dictOp_frame : Frame [.pwr, .sec, .mgt, .ro, .ack, .dumps, .clap, .ucode, .blks] s (dictOp s a b c).2.2 := by
  unfold dictOp
  repeat' first
    | with_reducible exact Frame.refl _ _ | with_reducible apply Frame.after State.count_frame
    | with_reducible apply Frame.after writeOp_frame | with_reducible apply frame_ite_third | extract_lets | split

theorem dictOpCounted_frame : Frame [.pwr, .sec, .mgt, .ro, .ack, .dumps, .clap, .ucode, .blks] s (dictOpCounted s a b c).2.2 := by
  unfold dictOpCounted
  repeat' first
    | with_reducible exact Frame.refl _ _ | with_reducible apply Frame.after dictOp_frame
    | with_reducible apply Frame.after State.countIf_frame

/-! ## Operations of Dictionary -/

theorem signalMsix_frame : Frame [.out, .msix] s (signalMsix s a b) := by
  unfold signalMsix
  repeat' first
    | with_reducible exact Frame.refl _ _ | with_reducible apply Frame.after State.setMsix_frame
    | with_reducible apply Frame.after State.emit_frame | with_reducible apply frame_ite

theorem runRaw_frame : Frame [.pwr, .sec, .mgt, .ro, .ack, .dumps, .clap, .ucode, .blks] s (runRaw s a b).2 := by
  unfold runRaw
  repeat' first
    | with_reducible exact Frame.refl _ _ | with_reducible apply Frame.after State.countIf_frame
    | with_reducible apply Frame.after dictOpCounted_frame | split

theorem runOps_frame : Frame [.pwr, .sec, .mgt, .ro, .ack, .dumps, .clap, .ucode, .blks] s (runOps a b s).2 := by
  induction b generalizing s with
  | nil => exact Frame.refl _ _
  | cons o xs ih => exact ih.trans (runRaw_frame.mono (by decide))

theorem runMessage_frame : Frame [.pwr, .sec, .mgt, .ro, .ack, .dumps, .clap, .ucode, .blks] s (runMessage s a b).2 := by
  unfold runMessage
  repeat' first
    | with_reducible exact Frame.refl _ _ | with_reducible apply Frame.after runOps_frame | with_reducible apply frame_ite_snd
    | extract_lets | split

theorem opRow_frame : Frame [.out, .pwr, .sec, .mgt, .ro, .ack, .dumps, .clap, .ucode, .blks] s (opRow s a b c d) := by
  unfold opRow
  repeat' first
    | with_reducible exact Frame.refl _ _ | with_reducible apply Frame.after dictOpCounted_frame
    | with_reducible apply Frame.after State.emit_frame | with_reducible apply frame_ite

theorem answerDatagram_frame : Frame [.out, .pwr, .sec, .mgt, .ro, .ack, .dumps, .clap, .ucode, .blks] s (answerDatagram s a) := by
  unfold answerDatagram
  repeat' first
    | with_reducible exact Frame.refl _ _ | with_reducible apply Frame.after State.count_frame
    | with_reducible apply Frame.after runMessage_frame | with_reducible apply Frame.after State.emit_frame | extract_lets | split
    | dsimp only | with_reducible refine Frame.put ?_

theorem t1sMessage_frame : Frame [.out, .pwr, .sec, .mgt, .ro, .ack, .dumps, .clap, .ucode, .blks] s (t1sMessage s a) := by
  unfold t1sMessage
  repeat' first
    | with_reducible exact Frame.refl _ _ | with_reducible apply Frame.after State.count_frame
    | with_reducible apply Frame.after answerDatagram_frame | with_reducible apply frame_ite | extract_lets
    | with_reducible refine Frame.put ?_

theorem answerQueue_frame : Frame [.out, .pwr, .sec, .mgt, .ro, .ack, .dumps, .clap, .ucode, .blks] s (answerQueue s) := by
  unfold answerQueue
  repeat' first
    | with_reducible exact Frame.refl _ _ | with_reducible apply Frame.after answerDatagram_frame | with_reducible apply frame_ite
    | extract_lets
    | with_reducible refine frame_foldl (fun _ _ => ?_) ?_ | with_reducible refine Frame.put ?_

theorem mailboxMessage_frame : Frame [.out, .pwr, .sec, .mgt, .ro, .ack, .dumps, .clap, .ucode, .msix, .blks] s (mailboxMessage s) := by
  unfold mailboxMessage
  repeat' first
    | with_reducible exact Frame.refl _ _ | with_reducible apply Frame.after runMessage_frame
    | with_reducible apply Frame.after State.count_frame | with_reducible apply Frame.after signalMsix_frame
    | with_reducible apply frame_ite | extract_lets | split | with_reducible refine Frame.put ?_

theorem writeRow_frame : Frame [.out, .pwr, .sec, .mgt, .ro, .ack, .dumps, .clap, .ucode, .blks] s (writeRow s a b c d e) := by
  unfold writeRow
  repeat' first | with_reducible exact Frame.refl _ _ | with_reducible apply Frame.after opRow_frame

theorem mbCtl_frame : Frame [.mgt, .ro] s (mbCtl a s) := by
  unfold mbCtl
  repeat' first
    | with_reducible exact Frame.refl _ _ | with_reducible apply Frame.after State.count_frame | with_reducible apply frame_ite
    | extract_lets | split | with_reducible refine Frame.put ?_

theorem nextTakeWrite_frame : Frame [.mgt] s (nextTakeWrite s a) := by
  unfold nextTakeWrite
  repeat' first
    | with_reducible exact Frame.refl _ _ | with_reducible apply Frame.after storeTake_frame | with_reducible apply frame_ite | extract_lets
    | with_reducible refine Frame.put ?_

/-! ## Operations of Control -/

theorem ctxError_frame : Frame [.ro, .clap, .ctxs, .blks] s (ctxError s a b) := by
  unfold ctxError
  repeat' first
    | with_reducible exact Frame.refl _ _ | with_reducible apply Frame.after strike_frame
    | with_reducible apply Frame.after State.count_frame | with_reducible apply Frame.after State.setCtx_frame
    | with_reducible apply frame_ite

theorem barDrop_frame : Frame [.ro] s (barDrop s) := by
  unfold barDrop
  repeat' first | with_reducible exact Frame.refl _ _ | with_reducible apply Frame.after State.count_frame

theorem onQueue_frame (hf : ∀ t k, Frame w t (f t k)) (hw : [.ro] ⊆ w := by decide) : Frame w s (onQueue s q f) := by
  unfold onQueue
  split
  · exact hf _ _
  · exact barDrop_frame.mono hw

theorem atBar_frame (hf : ∀ t, Frame w t (f t)) (hw : [.heldBar] ⊆ w := by decide) : Frame w s (atBar s i f) := by
  unfold atBar
  exact frame_ite (Frame.refl _ _) (frame_ite (holdBar_frame.mono hw) (hf _))

theorem sqDb_frame : Frame [.ro, .clap, .ctxs, .blks] s (sqDb a b s) := by
  unfold sqDb
  repeat' first
    | with_reducible exact Frame.refl _ _ | with_reducible refine Frame.trans (onQueue_frame (fun _ _ => ?_)) ?_
    | with_reducible apply Frame.after State.setCtx_frame | with_reducible apply Frame.after ctxError_frame | with_reducible apply frame_ite

theorem sqBaseWrite_frame : Frame [.ro, .ctxs] s (sqBaseWrite a b c s) := by
  unfold sqBaseWrite
  repeat' first
    | with_reducible exact Frame.refl _ _ | with_reducible refine Frame.trans (onQueue_frame (fun _ _ => ?_)) ?_
    | with_reducible apply Frame.after barDrop_frame | with_reducible apply Frame.after State.setCtx_frame | with_reducible apply frame_ite

theorem putRecord_frame : Frame [.out, .ctxs] s (putRecord s a b) := by
  unfold putRecord
  repeat' first
    | with_reducible exact Frame.refl _ _ | with_reducible apply Frame.after State.emit_frame
    | with_reducible apply Frame.after State.setCtx_frame

theorem coalesce_frame : Frame [.out, .ctxs, .msix] s (coalesce s a) := by
  unfold coalesce
  repeat' first
    | with_reducible exact Frame.refl _ _ | with_reducible apply Frame.after signalMsix_frame
    | with_reducible apply Frame.after State.setCtx_frame | with_reducible apply frame_ite

theorem writeNotice_frame : Frame [.free, .out, .ro, .clap, .ctxs, .msix, .blks] s (writeNotice s a) := by
  unfold writeNotice
  repeat' first
    | with_reducible exact Frame.refl _ _ | with_reducible apply Frame.after State.setCtx_frame
    | with_reducible apply Frame.after ctxError_frame | with_reducible apply Frame.after State.count_frame
    | with_reducible exact State.fresh_frame.mono (by decide)
    | with_reducible apply Frame.after coalesce_frame | with_reducible apply Frame.after putRecord_frame | with_reducible apply frame_ite
    | extract_lets | split

theorem cqDb_frame : Frame [.free, .out, .ro, .clap, .ctxs, .msix, .blks] s (cqDb a b s) := by
  unfold cqDb
  repeat' first
    | with_reducible exact Frame.refl _ _ | with_reducible refine Frame.trans (onQueue_frame (fun _ _ => ?_)) ?_
    | with_reducible apply Frame.after writeNotice_frame | with_reducible apply Frame.after State.setCtx_frame

theorem qCtl_frame : Frame [.ro, .clap, .ctxs, .blks] s (qCtl a b s) := by
  unfold qCtl
  repeat' first
    | with_reducible exact Frame.refl _ _ | with_reducible refine Frame.trans (onQueue_frame (fun _ _ => ?_)) ?_
    | with_reducible apply Frame.after barDrop_frame | with_reducible apply Frame.after State.setCtx_frame
    | with_reducible apply Frame.after ctxError_frame | with_reducible apply frame_ite

theorem msixWrite_frame : Frame [.out, .msix] s (msixWrite s a b c d) := by
  unfold msixWrite
  repeat' first
    | with_reducible exact Frame.refl _ _ | with_reducible apply Frame.after State.emit_frame
    | with_reducible apply Frame.after State.setMsix_frame | with_reducible apply frame_ite

theorem bar2Write_frame : Frame [.mgt, .ro] s (bar2Write s a b c) := by
  unfold bar2Write
  repeat' first
    | with_reducible exact Frame.refl _ _ | with_reducible apply Frame.after State.count_frame
    | with_reducible apply Frame.after mbCtl_frame | with_reducible apply frame_ite
    | extract_lets | with_reducible refine Frame.put ?_

theorem blockWrite_frame : Frame [.ro, .clap, .ctxs, .blks] s (blockWrite a b c d s) := by
  unfold blockWrite
  repeat' first
    | with_reducible exact Frame.refl _ _ | with_reducible apply Frame.after sqBaseWrite_frame
    | with_reducible apply Frame.after qCtl_frame | with_reducible apply Frame.after barDrop_frame | with_reducible apply frame_ite

theorem bellWrite_frame : Frame [.free, .out, .ro, .clap, .ctxs, .msix, .blks] s (bellWrite a b c d s) := by
  unfold bellWrite
  repeat' first
    | with_reducible exact Frame.refl _ _ | with_reducible apply Frame.after sqDb_frame | with_reducible apply Frame.after cqDb_frame
    | with_reducible apply Frame.after barDrop_frame | with_reducible apply frame_ite

theorem windowWrite_frame : Frame [.free, .out, .ro, .clap, .ctxs, .msix, .blks] s (windowWrite a b c d s) := by
  unfold windowWrite
  repeat' first
    | with_reducible exact Frame.refl _ _ | with_reducible apply Frame.after blockWrite_frame
    | with_reducible apply Frame.after bellWrite_frame | with_reducible apply Frame.after barDrop_frame | with_reducible apply frame_ite

theorem barWrite_frame : Frame [.free, .out, .mgt, .ro, .clap, .ctxs, .msix, .blks] s (barWrite s a b c d) := by
  unfold barWrite
  repeat' first
    | with_reducible exact Frame.refl _ _ | with_reducible apply Frame.after bar2Write_frame
    | with_reducible apply Frame.after windowWrite_frame | with_reducible apply Frame.after blockWrite_frame
    | with_reducible apply Frame.after bellWrite_frame
    | with_reducible apply Frame.after msixWrite_frame | with_reducible apply Frame.after barDrop_frame | with_reducible apply frame_ite

theorem refuse_frame : Frame [.ctxs] s (refuse s a b c) := by
  unfold refuse
  repeat' first | with_reducible exact Frame.refl _ _ | with_reducible apply Frame.after State.setCtx_frame

theorem grant_frame : Frame [.ro, .doms, .ctxs, .ress] s (grant s a b) := by
  unfold grant
  repeat' first
    | with_reducible exact Frame.refl _ _ | with_reducible apply Frame.after State.setCtx_frame
    | with_reducible apply Frame.after State.setDom_frame | with_reducible apply Frame.after State.setRes_frame
    | with_reducible apply Frame.after State.count_frame | with_reducible apply frame_ite

theorem deferCmd_frame : Frame [.free, .out, .ro, .clap, .doms, .ctxs, .msix, .blks] s (deferCmd s a b c) := by
  unfold deferCmd
  repeat' first
    | with_reducible exact Frame.refl _ _ | with_reducible apply Frame.after State.setCtx_frame
    | with_reducible apply Frame.after State.count_frame | with_reducible apply Frame.after State.setDom_frame
    | with_reducible apply Frame.after writeNotice_frame

theorem runCommand_frame {x : CmdSpec} (hx : ∀ t k, Frame w t (x.run t k)) (hw : [.free, .out, .ro, .clap, .doms, .ctxs, .ress, .msix,
  .blks] ⊆ w := by decide) :
    Frame w s (runCommand s d q desc x) := by
  have hr : ∀ k c r, Frame w s (refuse s k c r) := fun _ _ _ => refuse_frame.mono (List.Subset.trans (by decide) hw)
  have hd : ∀ k c b, Frame w s (deferCmd s k c b) := fun _ _ _ => deferCmd_frame.mono (List.Subset.trans (by decide) hw)
  have he : ∀ k n, Frame w s (ctxError s k n) := fun _ _ => ctxError_frame.mono (List.Subset.trans (by decide) hw)
  unfold runCommand
  split
  · exact Frame.refl _ _
  · dsimp only
    refine frame_ite (Frame.refl _ _) (frame_ite (he _ _) (frame_ite (frame_ite (Frame.refl _ _) (hr _ _ _)) (frame_ite (hr _ _ _)
      (frame_ite (hr _ _ _) ?_))))
    split
    · exact hr _ _ _
    · exact frame_ite (hd _ _ _) (frame_ite (hd _ _ _) (frame_ite (Frame.refl _ _)
        ((hx _ _).trans (grant_frame.mono (List.Subset.trans (by decide) hw)))))

theorem modCmd_frame : Frame [.ctxs] s (modCmd s a b) := by
  unfold modCmd
  repeat' first | with_reducible exact Frame.refl _ _ | with_reducible apply Frame.after State.setCtx_frame | extract_lets | split

theorem publish_frame : Frame [.ress] s (publish s a b c) := by
  unfold publish
  repeat' first | with_reducible exact Frame.refl _ _ | with_reducible apply Frame.after State.setRes_frame | with_reducible apply frame_ite

theorem returnCredits_frame : Frame [.doms] s (returnCredits s a) := by
  unfold returnCredits
  repeat' first | with_reducible exact Frame.refl _ _ | with_reducible apply Frame.after State.setDom_frame | with_reducible apply frame_ite

theorem closeMuted_frame : Frame [.ro, .doms, .ctxs, .ress] s (closeMuted s a b) := by
  unfold closeMuted
  repeat' first
    | with_reducible exact Frame.refl _ _ | with_reducible apply Frame.after returnCredits_frame
    | with_reducible apply Frame.after publish_frame | with_reducible apply Frame.after State.countIf_frame
    | with_reducible apply Frame.after State.count_frame | with_reducible apply Frame.after State.setCtx_frame

theorem endCmd_frame : Frame [.ro, .doms, .ctxs, .ress] s (endCmd s a b c d) := by
  unfold endCmd
  repeat' first
    | with_reducible exact Frame.refl _ _ | with_reducible apply Frame.after closeMuted_frame
    | with_reducible apply Frame.after State.setCtx_frame | with_reducible apply frame_ite | extract_lets | split

theorem complete_frame : Frame [.out, .ro, .clap, .doms, .ctxs, .ress, .msix, .blks] s (complete s a b c) := by
  unfold complete
  repeat' first
    | with_reducible exact Frame.refl _ _ | with_reducible apply Frame.after publish_frame
    | with_reducible apply Frame.after State.setCtx_frame | with_reducible apply Frame.after State.countIf_frame
    | with_reducible apply Frame.after returnCredits_frame | with_reducible apply Frame.after State.count_frame
    | with_reducible apply Frame.after coalesce_frame | with_reducible apply Frame.after putRecord_frame
    | with_reducible apply Frame.after ctxError_frame | with_reducible apply Frame.after strike_frame | with_reducible apply frame_ite

theorem mapCtxs_frame : Frame [.ctxs] s (mapCtxs s a b) := by
  unfold mapCtxs
  repeat' first
    | with_reducible exact Frame.refl _ _ | with_reducible refine Frame.trans (State.each_frame (fun _ _ => ?_)) ?_
    | with_reducible apply Frame.after State.setCtx_frame

theorem dropBlock_frame : Frame [.ro, .blks] s (dropBlock a s b) := by
  unfold dropBlock
  exact frame_ite (State.setBlk_frame.after (State.each_frame (fun _ _ => countRunEvts_frame))) (Frame.refl _ _)

theorem dropPort_frame : Frame [.fab] s (dropPort a s b) := by
  unfold dropPort
  repeat' first | with_reducible exact Frame.refl _ _ | with_reducible apply Frame.after State.setPort_frame

theorem dropHeld_frame : Frame [.back] s (dropHeld s a) := by
  unfold dropHeld
  repeat' first | with_reducible exact Frame.refl _ _ | extract_lets | with_reducible refine Frame.put ?_

theorem quarHeld_frame : Frame [.ro, .back] s (quarHeld s a) := by
  unfold quarHeld
  repeat' first
    | with_reducible exact Frame.refl _ _ | with_reducible apply Frame.after State.count_frame
    | with_reducible apply Frame.after dropHeld_frame

theorem dropDaily_frame : Frame [.days] s (dropDaily s a) := by
  unfold dropDaily
  exact State.setDay_frame

theorem closeMutes_frame : Frame [.ro, .doms, .ctxs, .ress] s (closeMutes s a) := by
  unfold closeMutes
  repeat' first
    | with_reducible exact Frame.refl _ _ | with_reducible refine Frame.trans (State.each_frame (fun _ _ => ?_)) ?_
    | with_reducible apply Frame.after closeMuted_frame | with_reducible apply frame_ite | extract_lets | split

theorem teardown_frame : Frame [.ro, .doms, .ctxs, .ress, .steps, .blks, .back, .grds, .fab, .xchs, .days] s (teardown s a) := by
  unfold teardown
  split
  · exact Frame.refl _ _
  · extract_lets st s0 s1 _ s2 _ s3 s4 s5
    have h0 : Frame [.ro, .doms, .ctxs, .ress, .steps, .blks, .back, .grds, .fab, .xchs, .days] s s0 :=
      frame_ite (Frame.refl _ _) (modCmd_frame.mono (by decide))
    clear_value s0
    have h2 : Frame [.ro, .doms, .ctxs, .ress, .steps, .blks, .back, .grds, .fab, .xchs, .days] s s2 := State.setDom_frame.after
      (closeMutes_frame.after (mapCtxs_frame.after h0))
    clear_value s2
    have h3 : Frame [.ro, .doms, .ctxs, .ress, .steps, .blks, .back, .grds, .fab, .xchs, .days] s s3 :=
      (State.each_frame (fun _ _ => dropBlock_frame.mono (by decide))).trans (State.setStp_frame.after h2)
    clear_value s3
    have h4 : Frame [.ro, .doms, .ctxs, .ress, .steps, .blks, .back, .grds, .fab, .xchs, .days] s s4 :=
      (State.each_frame (fun _ _ => dropPort_frame.mono (by decide))).trans h3
    clear_value s4
    have h5 : Frame [.ro, .doms, .ctxs, .ress, .steps, .blks, .back, .grds, .fab, .xchs, .days] s s5 :=
      quarHeld_frame.after (dropDaily_frame.after h4)
    clear_value s5
    exact Frame.put h5

theorem adminDone_frame : Frame [.ro, .doms, .ctxs, .ress] s (adminDone s a b) := by
  unfold adminDone
  repeat' first | with_reducible exact Frame.refl _ _ | with_reducible apply Frame.after endCmd_frame

theorem runAdmin_frame (hf : ∀ t, Frame w t (f t).2.1) (hw : [.ro, .clap, .ctxs, .blks] ⊆ w := by decide) : Frame w s (runAdmin s a b f) :=
  by
  have hr : ∀ k c r, Frame w s (refuse s k c r) := fun _ _ _ => refuse_frame.mono (List.Subset.trans (by decide) hw)
  have he : ∀ k n, Frame w s (ctxError s k n) := fun _ _ => ctxError_frame.mono (List.Subset.trans (by decide) hw)
  unfold runAdmin
  dsimp only
  refine frame_ite (Frame.refl _ _) (frame_ite (he _ _) (frame_ite (frame_ite (Frame.refl _ _) (hr _ _ _)) (frame_ite (hr _ _ _)
    (frame_ite (hr _ _ _) ?_))))
  exact State.count_frame.after (State.setCtx_frame.after (hf s) (List.Subset.trans (by decide) hw)) (List.Subset.trans (by decide) hw)

theorem stopExport_frame : Frame [.fab] s (stopExport a s b) := by
  unfold stopExport
  repeat' first | with_reducible exact Frame.refl _ _ | with_reducible apply Frame.after State.setPort_frame | extract_lets | split

theorem perstCmd_frame : Frame [.ro, .doms, .ctxs, .ress, .fab, .days] s (perstCmd s a) := by
  unfold perstCmd
  repeat' first
    | with_reducible exact Frame.refl _ _ | with_reducible apply Frame.after closeMuted_frame
    | with_reducible apply Frame.after State.setCtx_frame | with_reducible refine Frame.trans (State.each_frame (fun _ _ => ?_)) ?_
    | with_reducible apply Frame.after stopExport_frame | with_reducible apply Frame.after State.setDay_frame
    | with_reducible apply frame_ite | extract_lets | split

theorem flrMsix_frame : Frame [.msix] s (flrMsix s a) := by
  unfold flrMsix
  repeat' first | with_reducible exact Frame.refl _ _ | extract_lets | with_reducible refine Frame.put ?_

theorem flrDom_frame : Frame [.ro, .doms, .ctxs, .ress, .steps, .blks, .back, .grds, .fab, .xchs, .days] s (flrDom s a) := by
  unfold flrDom
  repeat' first
    | with_reducible exact Frame.refl _ _ | with_reducible apply Frame.after mapCtxs_frame | with_reducible apply Frame.after teardown_frame
    | with_reducible apply frame_ite

/-! ## Operations of Memory -/

theorem boundEvt_frame : Frame [.ro, .blks] s (boundEvt s a b) := by
  unfold boundEvt
  repeat' first
    | with_reducible exact Frame.refl _ _ | with_reducible apply Frame.after State.count_frame
    | with_reducible apply Frame.after State.setBlk_frame | with_reducible apply frame_ite

theorem slotOp_frame : Frame [.mem, .back] s (slotOp s a b) := by
  unfold slotOp
  repeat' first | with_reducible exact Frame.refl _ _ | with_reducible apply Frame.after State.wrBytes_frame

theorem slotOps_frame : Frame [.mem, .back] s (slotOps s a b) := by
  unfold slotOps
  repeat' first
    | with_reducible exact Frame.refl _ _ | with_reducible apply Frame.after slotOp_frame | split
    | with_reducible refine frame_foldl (fun _ _ => ?_) ?_

theorem zeroRange_frame : Frame [.mem, .back] s (zeroRange s a b) := by
  unfold zeroRange
  repeat' first | with_reducible exact Frame.refl _ _ | with_reducible refine Frame.put ?_

theorem anomaly_frame : Frame [.ro, .blks] s (anomaly s a) := by
  unfold anomaly
  repeat' first
    | with_reducible exact Frame.refl _ _ | with_reducible apply Frame.after State.count_frame
    | with_reducible apply Frame.after State.setBlk_frame

theorem depositDone_frame : Frame [.blks, .binds] s (depositDone s a) := by
  unfold depositDone
  repeat' first
    | with_reducible exact Frame.refl _ _ | with_reducible apply Frame.after State.setBlk_frame
    | with_reducible apply Frame.after State.setBind_frame | with_reducible apply frame_ite | extract_lets | split

theorem unready_frame : Frame [.blks] s (unready s a) := by
  unfold unready
  repeat' first | with_reducible exact Frame.refl _ _ | with_reducible apply Frame.after State.setBlk_frame

theorem countDeposit_frame : Frame [.blks, .binds] s (countDeposit s a) := by
  unfold countDeposit
  repeat' first | with_reducible exact Frame.refl _ _ | with_reducible apply Frame.after depositDone_frame | with_reducible apply frame_ite

theorem onBound_frame : Frame [.ro, .blks, .mem, .binds, .back] s (onBound s a b) := by
  unfold onBound
  repeat' first
    | with_reducible exact Frame.refl _ _ | with_reducible apply Frame.after slotOps_frame | with_reducible apply Frame.after anomaly_frame
    | with_reducible apply Frame.after countDeposit_frame | with_reducible apply Frame.after zeroRange_frame
    | with_reducible apply Frame.after State.setBind_frame | with_reducible apply Frame.after unready_frame
    | with_reducible apply Frame.after State.count_frame | with_reducible apply frame_ite | extract_lets | split

theorem markSpl_frame : Frame [.ctxs] s (markSpl s a) := by
  unfold markSpl
  repeat' first | with_reducible exact Frame.refl _ _ | with_reducible apply Frame.after modCmd_frame | with_reducible apply frame_ite

theorem holdSlot_frame : Frame [.back] s (holdSlot s a) := by
  unfold holdSlot
  repeat' first | with_reducible exact Frame.refl _ _ | extract_lets | with_reducible refine Frame.put ?_

theorem slotWrite_frame : Frame [.ro, .ctxs, .blks, .mem, .binds, .back] s (slotWrite s a) := by
  unfold slotWrite
  repeat' first
    | with_reducible exact Frame.refl _ _ | with_reducible apply Frame.after holdSlot_frame | with_reducible apply Frame.after onBound_frame
    | with_reducible apply Frame.after slotOps_frame | with_reducible apply Frame.after State.setBind_frame
    | with_reducible apply Frame.after countDeposit_frame | with_reducible apply Frame.after markSpl_frame
    | with_reducible apply Frame.after State.count_frame | with_reducible apply frame_ite | extract_lets | split

theorem postOwed_frame : Frame [.sigs, .back] s (postOwed s) := by
  unfold postOwed
  repeat' first | with_reducible exact Frame.refl _ _ | extract_lets | with_reducible refine Frame.put ?_

theorem releaseHeld_frame (hf : ∀ t x, Frame w t (f t x)) (hw : [.sigs, .back] ⊆ w := by decide) : Frame w s (releaseHeld s a f) :=
  postOwed_frame.after (frame_foldl hf ((Frame.put (w := [.sigs, .back]) (Frame.refl _ _)).mono hw)) (List.Subset.trans (by decide) hw)

theorem unbind_frame : Frame [.blks, .binds] s (unbind s a) := by
  unfold unbind
  repeat' first
    | with_reducible exact Frame.refl _ _ | with_reducible apply Frame.after State.delBind_frame
    | with_reducible apply Frame.after unready_frame

theorem consumeLine_frame : Frame [.blks, .mem, .binds, .back] s (consumeLine s a b).2 := by
  unfold consumeLine
  repeat' first
    | with_reducible exact Frame.refl _ _ | with_reducible apply Frame.after zeroRange_frame | with_reducible apply Frame.after unbind_frame
    | with_reducible apply Frame.after State.setBind_frame | with_reducible apply frame_ite | split

theorem consumeSlot_frame : Frame [.blks, .mem, .binds, .back] s (consumeSlot s a).2 := by
  unfold consumeSlot
  repeat' first
    | with_reducible exact Frame.refl _ _ | with_reducible apply Frame.after unbind_frame | with_reducible apply Frame.after zeroRange_frame
    | split

theorem stLine_frame : Frame [.ro, .ctxs, .blks, .mem, .binds, .back] s (stLine a b c s d) := by
  unfold stLine
  repeat' first
    | with_reducible exact Frame.refl _ _ | with_reducible apply Frame.after boundEvt_frame
    | with_reducible apply Frame.after State.wrBytes_frame | with_reducible apply Frame.after slotWrite_frame | split

theorem stBytes_frame : Frame [.ro, .ctxs, .blks, .mem, .binds, .back] s (stBytes s a b c d e) := by
  unfold stBytes
  repeat' first
    | with_reducible exact Frame.refl _ _ | with_reducible apply Frame.after stLine_frame
    | with_reducible refine frame_foldl (fun _ _ => ?_) ?_

theorem depositAdds_frame : Frame [.ro, .ctxs, .blks, .mem, .binds, .back] s (depositAdds s a b c d e f g h) := by
  unfold depositAdds
  repeat' first
    | with_reducible exact Frame.refl _ _ | with_reducible apply Frame.after slotWrite_frame
    | with_reducible apply Frame.after boundEvt_frame | with_reducible refine frame_foldl (fun _ _ => ?_) ?_

theorem depositAll_frame : Frame [.ro, .ctxs, .blks, .mem, .binds, .back] s (depositAll s a b c d e f g) := by
  unfold depositAll
  repeat' first | with_reducible exact Frame.refl _ _ | with_reducible apply Frame.after depositAdds_frame

theorem modRec_frame : Frame [.ro, .ctxs, .blks, .mem, .binds, .back] s (modRec s a b c d) := by
  unfold modRec
  repeat' first
    | with_reducible exact Frame.refl _ _ | with_reducible apply Frame.after stBytes_frame | with_reducible apply Frame.after boundEvt_frame

theorem setNonfin_frame : Frame [.blks] s (setNonfin s a b) := by
  unfold setNonfin
  repeat' first | with_reducible exact Frame.refl _ _ | with_reducible apply Frame.after State.setBlk_frame | with_reducible apply frame_ite

theorem updRecord_frame : Frame [.ro, .ctxs, .blks, .mem, .binds, .back] s (updRecord s a b c d e) := by
  unfold updRecord
  repeat' first | with_reducible exact Frame.refl _ _ | with_reducible apply Frame.after modRec_frame

theorem payOwed_frame : Frame [.ro, .ctxs, .blks, .mem, .binds, .back] s (payOwed s a b c) := by
  unfold payOwed
  repeat' first
    | with_reducible exact Frame.refl _ _ | with_reducible apply Frame.after setNonfin_frame
    | with_reducible apply Frame.after updRecord_frame | with_reducible apply Frame.after stBytes_frame | extract_lets | split
    | with_reducible refine frame_foldl (fun _ _ => ?_) ?_

/-! ## Operations of Load -/

theorem writeReels_frame : Frame [.mem, .back] s (writeReels s a b) := by
  unfold writeReels
  repeat' first
    | with_reducible exact Frame.refl _ _ | with_reducible apply Frame.after State.wrBytes_frame
    | with_reducible apply Frame.after zeroRange_frame

theorem placePage_frame (e : placePage s a b = some u) : Frame [.ro, .dirs] s u := by
  unfold placePage at e
  dsimp only at e
  split at e
  · cases e; exact State.setDir_frame.mono (by decide)
  · split at e
    · cases e; exact State.count_frame.after (State.setDir_frame.mono (by decide))
    · cases e

theorem placePages_frame (e : placePages s a b = some u) : Frame [.ro, .dirs] s u := by
  unfold placePages at e
  refine foldl_inv (P := fun o => ∀ t, o = some t → Frame [.ro, .dirs] s t) (fun t et => by cases et; exact Frame.refl _ _)
    (fun o r ho t et => ?_) u e
  obtain ⟨v, hv, et⟩ := Option.bind_eq_some_iff.1 et
  exact (placePage_frame et).after (ho v hv)

theorem placeSeg_frame (e : placeSeg s a b c = .ok u) : Frame [.ro, .segs] s u := by
  unfold placeSeg at e
  extract_lets at e
  repeat' split at e
  all_goals first
    | (cases e; done)
    | (cases e; exact Frame.refl _ _)
    | (cases e; exact State.setSeg_frame.mono (by decide))
    | (cases e; exact State.count_frame.after (State.setSeg_frame.mono (by decide)))

theorem placeSegs_frame (e : placeSegs s a b = .ok u) : Frame [.ro, .segs] s u := by
  unfold placeSegs at e
  refine foldl_inv (P := fun (o : Except Nat State) => ∀ t, o = .ok t → Frame [.ro, .segs] s t)
    (fun t et => by cases et; exact Frame.refl _ _) (fun o r ho t et => ?_) u e
  split at et
  · exact (placeSeg_frame et).after (ho _ rfl)
  · cases et

theorem bindProblems_frame : Frame [.grds] s (bindProblems s a b) := by
  unfold bindProblems
  repeat' first
    | with_reducible exact Frame.refl _ _ | with_reducible apply Frame.after State.setGrd_frame | extract_lets | split
    | with_reducible refine frame_foldl (fun _ _ => ?_) ?_

theorem writePages_frame : Frame [.mem, .back] s (writePages s a) := by
  unfold writePages
  repeat' first
    | with_reducible exact Frame.refl _ _ | with_reducible apply Frame.after zeroRange_frame
    | with_reducible apply Frame.after writeReels_frame | extract_lets | with_reducible refine frame_foldl (fun _ _ => ?_) ?_

theorem placeImage_frame (e : placeImage s a b = .ok u) : Frame [.ro, .segs, .dirs, .grds] s u := by
  unfold placeImage at e
  repeat' (split at e)
  all_goals first
    | (cases e; exact bindProblems_frame.after ((placeSegs_frame ‹_›).after ((placePages_frame ‹_›).mono (by decide))))
    | cases e

theorem installImage_frame : Frame [.doms, .progs, .blks, .mem, .back] s (installImage s a b c) := by
  unfold installImage
  repeat' first
    | with_reducible exact Frame.refl _ _ | with_reducible apply Frame.after writePages_frame
    | with_reducible apply Frame.after State.setDom_frame | with_reducible apply Frame.after State.setProg_frame
    | with_reducible refine Frame.trans (State.each_frame (fun _ _ => ?_)) ?_ | with_reducible apply Frame.after State.setBlk_frame

theorem loadProgram_frame : Frame [.ro, .doms, .ctxs, .ress, .progs, .segs, .blks, .mem, .dirs, .back, .grds] s (loadProgram s a b c) := by
  unfold loadProgram
  repeat' first
    | with_reducible exact Frame.refl _ _ | with_reducible apply Frame.after endCmd_frame | with_reducible apply Frame.after modCmd_frame
    | with_reducible refine Frame.after (placeImage_frame (by assumption)) ?_ | with_reducible apply Frame.after installImage_frame
    | extract_lets | split

theorem dropBinds_frame : Frame [.blks, .mem, .binds, .back] s (dropBinds s a) := by
  unfold dropBinds
  repeat' first
    | with_reducible exact Frame.refl _ _ | with_reducible apply Frame.after unbind_frame | with_reducible apply Frame.after zeroRange_frame
    | with_reducible refine frame_foldl (fun _ _ => ?_) ?_

theorem unloadProgram_frame : Frame [.ro, .progs, .steps, .segs, .blks, .mem, .dirs, .binds, .back, .grds, .xchs] s (unloadProgram s a) := by
  unfold unloadProgram
  repeat' first
    | with_reducible exact Frame.refl _ _ | with_reducible apply Frame.after dropHeld_frame
    | with_reducible apply Frame.after State.count_frame | with_reducible apply Frame.after dropBinds_frame | extract_lets
    | with_reducible refine Frame.put ?_

theorem lastRecord_frame : Frame [.out, .ro, .clap, .doms, .ctxs, .ress, .msix, .blks] s (lastRecord l s a) := by
  unfold lastRecord
  repeat' first
    | with_reducible exact Frame.refl _ _ | with_reducible apply Frame.after complete_frame
    | with_reducible apply Frame.after closeMuted_frame | with_reducible apply frame_ite | split

/-! ## Operations of MemUnit -/

theorem containFault_frame : Frame [.ro] s (containFault s a) := by
  unfold containFault
  repeat' first | with_reducible exact Frame.refl _ _ | with_reducible apply Frame.after State.count_frame | with_reducible apply frame_ite

theorem setCh_frame : Frame [.ro] s (setCh a b s) := by
  unfold setCh
  repeat' first | with_reducible exact Frame.refl _ _ | with_reducible apply Frame.after State.setRo_frame

theorem setPkg_frame : Frame [.ro] s (setPkg s a b) := by
  unfold setPkg
  repeat' first
    | with_reducible exact Frame.refl _ _ | with_reducible refine Frame.trans (State.each_frame (fun _ _ => ?_)) ?_
    | with_reducible apply Frame.after setCh_frame

theorem setResult_frame : Frame [.ro] s (setResult s a) := by
  unfold setResult
  repeat' first | with_reducible exact Frame.refl _ _ | with_reducible apply Frame.after State.setRo_frame

theorem endOp_frame : Frame [.ro, .back] s (endOp s a b) := by
  unfold endOp
  repeat' first
    | with_reducible exact Frame.refl _ _ | with_reducible apply Frame.after setResult_frame | with_reducible apply frame_ite | extract_lets
    | with_reducible refine Frame.put ?_

theorem emptyPkg_frame : Frame [.ro, .back] s (emptyPkg s a) := by
  unfold emptyPkg
  repeat' first
    | with_reducible exact Frame.refl _ _ | with_reducible apply Frame.after setPkg_frame | extract_lets
    | with_reducible refine Frame.put ?_

theorem unreport_frame : Frame [.back] s (unreport s) := by
  unfold unreport
  repeat' first | with_reducible exact Frame.refl _ _ | extract_lets | with_reducible refine Frame.put ?_

theorem applyChannel_frame : Frame [.ro, .back] s (applyChannel s a b) := by
  unfold applyChannel
  repeat' first
    | with_reducible exact Frame.refl _ _ | with_reducible apply Frame.after unreport_frame
    | with_reducible apply Frame.after setResult_frame | with_reducible apply Frame.after emptyPkg_frame | with_reducible apply frame_ite
    | extract_lets | split | with_reducible refine Frame.put ?_

theorem autoRetire_frame : Frame [.ro, .back] s (autoRetire s a) := by
  unfold autoRetire
  repeat' first
    | with_reducible exact Frame.refl _ _ | with_reducible apply Frame.after emptyPkg_frame | with_reducible apply Frame.after setCh_frame
    | with_reducible apply frame_ite

theorem runChannel_frame : Frame [.mgt, .ro, .back] s (runChannel a b s) := by
  unfold runChannel
  repeat' first
    | with_reducible exact Frame.refl _ _ | with_reducible apply Frame.after applyChannel_frame | with_reducible apply frame_ite
    | extract_lets | split | with_reducible refine Frame.put ?_

theorem linkCe_frame : Frame [.ro, .back] s (linkCe s a) := by
  unfold linkCe
  repeat' first
    | with_reducible exact Frame.refl _ _ | with_reducible apply Frame.after State.count_frame
    | with_reducible apply Frame.after autoRetire_frame | with_reducible apply frame_ite | extract_lets | with_reducible refine Frame.put ?_

theorem tearLost_frame : Frame [.ro, .doms, .ctxs, .ress, .steps, .blks, .back, .grds, .fab, .xchs, .days] s (tearLost s a) := by
  unfold tearLost
  repeat' first
    | with_reducible exact Frame.refl _ _ | with_reducible apply Frame.after teardown_frame | with_reducible apply Frame.after mapCtxs_frame
    | with_reducible apply Frame.after closeMutes_frame
    | with_reducible apply frame_ite

theorem failPackage_frame : Frame [.ro, .log, .head, .doms, .ctxs, .ress, .steps, .blks, .back, .grds, .fab, .xchs, .days]
    s (failPackage s a) := by
  unfold failPackage
  repeat' first
    | with_reducible exact Frame.refl _ _ | with_reducible apply Frame.after endOp_frame | with_reducible apply Frame.after setPkg_frame
    | with_reducible refine Frame.trans (State.each_frame (fun _ _ => ?_)) ?_ | with_reducible apply Frame.after logFault_frame
    | with_reducible apply Frame.after tearLost_frame | extract_lets | split | with_reducible refine Frame.put ?_

theorem clearSuspect_frame : Frame [.back] s (clearSuspect s a) := by
  unfold clearSuspect
  repeat' first | with_reducible exact Frame.refl _ _ | with_reducible apply frame_ite | extract_lets | with_reducible refine Frame.put ?_

theorem sliceFault_frame : Frame [.ro, .log, .head, .clap, .regs, .ctxs, .steps, .blks, .grds, .fab, .days] s (sliceFault s a b) := by
  unfold sliceFault
  repeat' first
    | with_reducible exact Frame.refl _ _ | with_reducible apply Frame.after containFault_frame
    | with_reducible apply Frame.after regionFault_frame | with_reducible apply Frame.after State.count_frame
    | with_reducible apply frame_ite

theorem poisonFault_frame : Frame [.ro, .log, .head, .clap, .regs, .ctxs, .steps, .blks, .grds, .fab, .days] s (poisonFault s a) := by
  unfold poisonFault
  repeat' first
    | with_reducible exact Frame.refl _ _ | with_reducible apply Frame.after sliceFault_frame
    | with_reducible apply Frame.after State.count_frame

theorem guardReads_frame (h1 : Frame w z s) (h : Frame w z t) (hw : [.ro, .log, .head, .clap, .regs, .ctxs, .steps, .blks, .grds, .fab,
  .days] ⊆ w := by decide) : Frame w z (guardReads s d rs t) := by
  unfold guardReads
  split
  · exact poisonFault_frame.after h1 hw
  · exact h

theorem guardPhys_frame (h1 : Frame w z s) (h : Frame w z t) (hw : [.ro, .log, .head, .clap, .regs, .ctxs, .steps, .blks, .grds, .fab,
  .days] ⊆ w := by decide) : Frame w z (guardPhys s  rs t) := by
  unfold guardPhys
  split
  · exact poisonFault_frame.after h1 hw
  · exact h

/-! ## Operations of Sequencer -/

theorem progress_frame : Frame [.blks] s (progress s a) := by
  unfold progress
  repeat' first | with_reducible exact Frame.refl _ _ | with_reducible apply Frame.after State.setBlk_frame

theorem markReady_frame : Frame [.evt, .blks] s (markReady s a) := by
  unfold markReady
  repeat' first
    | with_reducible exact Frame.refl _ _ | with_reducible apply Frame.after State.setBlk_frame | with_reducible apply frame_ite
    | extract_lets | with_reducible refine Frame.put ?_

theorem signalBlock_frame : Frame [.evt, .ro, .blks] s (signalBlock s a) := by
  unfold signalBlock
  repeat' first
    | with_reducible exact Frame.refl _ _ | with_reducible apply Frame.after State.count_frame
    | with_reducible apply Frame.after progress_frame | with_reducible apply Frame.after markReady_frame
    | with_reducible apply Frame.after State.setBlk_frame | extract_lets | split

theorem holdDec_frame : Frame [.progs] s (holdDec s a b) := by
  unfold holdDec
  repeat' first | with_reducible exact Frame.refl _ _ | with_reducible apply Frame.after State.setHdr_frame | with_reducible apply frame_ite

theorem openBuf_frame : Frame [.ro, .log, .head, .clap, .regs, .ctxs, .steps, .blks, .mem, .binds, .back, .grds, .fab, .days]
    s (openBuf a s b) := by
  unfold openBuf
  repeat' first
    | with_reducible exact Frame.refl _ _ | with_reducible refine guardReads_frame ?_ ?_ ?_ | with_reducible apply Frame.after modRec_frame
    | decide | extract_lets | split

theorem holdAdds_frame : Frame [.progs] s (holdAdds a b s c) := by
  unfold holdAdds
  repeat' first
    | with_reducible exact Frame.refl _ _ | with_reducible apply Frame.after State.setHdr_frame | extract_lets
    | with_reducible refine frame_foldl (fun _ _ => ?_) ?_

theorem startBlock_frame : Frame [.blks] s (startBlock a b c d s e) := by
  unfold startBlock
  repeat' first
    | with_reducible exact Frame.refl _ _ | with_reducible apply Frame.after wakeBlk_frame | with_reducible apply Frame.after takeBank_frame
    | with_reducible apply Frame.after State.setBlk_frame | with_reducible apply frame_ite

theorem startAttempt_frame : Frame [.ro, .log, .head, .clap, .regs, .ctxs, .progs, .steps, .blks, .mem, .binds, .back, .grds, .fab, .days]
    s (startAttempt s a b) := by
  unfold startAttempt
  repeat' first
    | with_reducible exact Frame.refl _ _ | with_reducible apply Frame.after State.setStp_frame
    | with_reducible apply Frame.after startBlock_frame | with_reducible apply Frame.after holdAdds_frame
    | with_reducible apply Frame.after openBuf_frame | extract_lets | with_reducible refine frame_foldl (fun _ _ => ?_) ?_

theorem dispatchStep_frame : Frame [.ro, .log, .head, .clap, .regs, .ctxs, .progs, .steps, .blks, .mem, .binds, .back, .grds, .fab, .days]
    s (dispatchStep s a b c) := by
  unfold dispatchStep
  repeat' first
    | with_reducible exact Frame.refl _ _ | with_reducible apply Frame.after State.setRo_frame
    | with_reducible apply Frame.after State.setStp_frame | with_reducible apply Frame.after startAttempt_frame
    | with_reducible apply Frame.after State.setProg_frame

theorem finishItem_frame : Frame [.ro, .progs, .blks, .sigs] s (finishItem s a b c d) := by
  unfold finishItem
  repeat' first
    | with_reducible exact Frame.refl _ _ | with_reducible apply Frame.after State.setBlk_frame
    | with_reducible apply Frame.after holdDec_frame | with_reducible apply Frame.after State.count_frame | extract_lets
    | with_reducible refine Frame.put ?_

theorem unrunItem_frame : Frame [.ro, .progs, .blks, .sigs] s (unrunItem s a b c d) := by
  unfold unrunItem
  repeat' first
    | with_reducible exact Frame.refl _ _ | with_reducible apply Frame.after finishItem_frame
    | with_reducible apply Frame.after traceBurst_frame

theorem unrunVariants_frame : Frame [.ro, .progs, .blks, .sigs] s (unrunVariants a s b) := by
  unfold unrunVariants
  repeat' first
    | with_reducible exact Frame.refl _ _ | with_reducible apply Frame.after State.count_frame
    | with_reducible apply Frame.after unrunItem_frame | with_reducible apply frame_ite | extract_lets | split
    | with_reducible refine frame_foldl (fun _ _ => ?_) ?_

theorem startItem_frame (hf : ∀ t i x, Frame w t (f t i x)) (hw : [.ro, .blks] ⊆ w := by decide) : Frame w s (startItem s a b p f) := by
  have h1 : ∀ i v, Frame w s ((traceItem s a b i 1).setBlk a v) := fun _ _ =>
    (State.setBlk_frame.after (traceItem_frame.mono (by decide))).mono hw
  unfold startItem
  refine frame_ite (Frame.refl _ _) ?_
  split
  · exact Frame.refl _ _
  split
  · exact Frame.refl _ _
  · exact frame_ite ((hf _ _ _).trans (h1 _ _)) (Frame.refl _ _)

theorem doRecord_frame :
    Frame [.ro, .log, .head, .clap, .regs, .ctxs, .steps, .blks, .mem, .binds, .back, .grds, .fab, .days] s (doRecord a b s c d) := by
  unfold doRecord
  repeat' first
    | with_reducible exact Frame.refl _ _ | with_reducible refine guardReads_frame ?_ ?_ ?_ | with_reducible apply Frame.after modRec_frame
    | decide | extract_lets | split | with_reducible refine frame_foldl (fun _ _ => ?_) ?_

/-! ## Operations of Operands -/

theorem stScale_frame : Frame [.mem, .back] s (stScale s a b c d) := by
  unfold stScale
  repeat' first
    | with_reducible exact Frame.refl _ _ | with_reducible apply Frame.after State.wrBytes_frame | with_reducible apply frame_ite

theorem stScales_frame : Frame [.mem, .back] s (stScales s a b c d) := by
  unfold stScales
  repeat' first
    | with_reducible exact Frame.refl _ _ | with_reducible apply Frame.after stScale_frame
    | with_reducible refine frame_foldl (fun _ _ => ?_) ?_

/-! ## Operations of Flags -/

theorem setSts_frame : Frame [.blks] s (setSts s a b c d) := by
  unfold setSts
  repeat' first | with_reducible exact Frame.refl _ _ | with_reducible apply Frame.after State.setBlk_frame

theorem countEvts_frame : Frame [.ro] s (countEvts s a) := by
  unfold countEvts
  repeat' first
    | with_reducible exact Frame.refl _ _ | with_reducible refine Frame.trans (State.each_frame (fun _ _ => ?_)) ?_
    | with_reducible apply Frame.after State.count_frame

theorem oweItem_frame : Frame [.blks] s (oweItem s a b c d e) := by
  unfold oweItem
  repeat' first | with_reducible exact Frame.refl _ _ | with_reducible apply Frame.after State.setBlk_frame

theorem touchItem_frame : Frame [.blks] s (touchItem s a b c) := by
  unfold touchItem
  repeat' first | with_reducible exact Frame.refl _ _ | with_reducible apply Frame.after State.setBlk_frame

theorem applyMemEvents_frame : Frame [.ro, .back] s (applyMemEvents s a) := by
  unfold applyMemEvents
  repeat' first
    | with_reducible exact Frame.refl _ _ | with_reducible refine Frame.trans (State.each_frame (fun _ _ => ?_)) ?_
    | with_reducible apply Frame.after State.count_frame | with_reducible apply Frame.after linkCe_frame

theorem applyArrPerf_frame : Frame [.ro] s (applyArrPerf s a b) := by
  unfold applyArrPerf
  repeat' first | with_reducible exact Frame.refl _ _ | with_reducible apply Frame.after State.count_frame

theorem applyVecPerf_frame : Frame [.ro] s (applyVecPerf s a b) := by
  unfold applyVecPerf
  repeat' first | with_reducible exact Frame.refl _ _ | with_reducible apply Frame.after State.count_frame

theorem runOnce_frame (hf : ∀ t, Frame w t (f t)) (hw : [.blks] ⊆ w := by decide) : Frame w s (runOnce s a b c f) := by
  unfold runOnce
  exact frame_ite (State.setBlk_frame.mono hw) (hf s)

theorem countTile_frame : Frame [.blks] s (countTile s a b) := by
  unfold countTile
  repeat' first | with_reducible exact Frame.refl _ _ | with_reducible apply Frame.after State.setBlk_frame

/-! ## Operations of Chain -/

theorem writeLine_frame : Frame [.ro, .ctxs, .blks, .mem, .binds, .back] y.1 (writeLine a b c d y e).1 := by
  unfold writeLine
  repeat' first
    | with_reducible exact Frame.refl _ _ | with_reducible apply Frame.after stScales_frame | with_reducible apply Frame.after stBytes_frame
    | with_reducible apply frame_ite_fst

theorem depositItem_frame : Frame [.ro, .ctxs, .blks, .mem, .binds, .back] s (depositItem s a b c d e) := by
  unfold depositItem
  repeat' first | with_reducible exact Frame.refl _ _ | with_reducible apply Frame.after depositAll_frame

/-- A chain run. -/
theorem runChain_frame : Frame [.ro, .ctxs, .blks, .mem, .binds, .back] s (runChain s b pos dom src c tile).st := by
  unfold runChain
  dsimp only
  refine setSts_frame.after (frame_ite ?_ (stBytes_frame.after ?_))
  all_goals exact frame_foldl_fst (fun _ _ => writeLine_frame.mono (by decide)) (boundEvt_frame.mono (by decide))

theorem chainWork_frame : Frame [.ro, .ctxs, .blks, .mem, .binds, .back] s (chainWork a b c d s) := by
  unfold chainWork
  exact oweItem_frame.after (frame_ite (depositItem_frame.after (runChain_frame.mono (by decide)))
    (touchItem_frame.after (depositItem_frame.after (runChain_frame.mono (by decide)))))

theorem doChain_frame : Frame [.ro, .log, .head, .clap, .regs, .ctxs, .steps, .blks, .mem, .binds, .back, .grds, .fab,
  .days] s (doChain a b c s d e) := by
  unfold doChain
  have h1 : Frame [.ro, .log, .head, .clap, .regs, .ctxs, .steps, .blks, .mem, .binds, .back, .grds, .fab,
    .days] s (runOnce s a b d (chainWork a b d e)) := runOnce_frame (fun _ => chainWork_frame.mono (by decide))
  exact guardReads_frame (Frame.refl _ _) (guardPhys_frame (Frame.refl _ _) (applyMemEvents_frame.after (applyVecPerf_frame.after h1)))

/-! ## Operations of Tile -/

theorem writeDrain_frame : Frame [.ro, .ctxs, .blks, .mem, .binds, .back] y.1 (writeDrain a b c y d).1 := by
  unfold writeDrain
  repeat' first
    | with_reducible exact Frame.refl _ _ | with_reducible apply Frame.after stBytes_frame | with_reducible apply Frame.after stScale_frame
    | with_reducible apply frame_ite_fst | extract_lets | with_reducible refine frame_foldl (fun _ _ => ?_) ?_

theorem mapIssue_frame : Frame [.ro, .ctxs, .blks, .mem, .binds, .back] s (mapIssue s a b c) := by
  unfold mapIssue
  repeat' first
    | with_reducible exact Frame.refl _ _ | with_reducible apply Frame.after stBytes_frame | with_reducible apply Frame.after boundEvt_frame

theorem mapDrain_frame : Frame [.ro, .ctxs, .blks, .mem, .binds, .back] s (mapDrain a b c d e s x) := by
  unfold mapDrain
  repeat' first
    | with_reducible exact Frame.refl _ _ | with_reducible apply Frame.after stBytes_frame
    | with_reducible apply Frame.after State.countIf_frame | with_reducible apply Frame.after State.count_frame
    | with_reducible apply Frame.after boundEvt_frame | with_reducible apply frame_ite

theorem holdArrays_frame : Frame [.blks] s (holdArrays s a b c n d e) := by
  unfold holdArrays
  repeat' first | with_reducible exact Frame.refl _ _ | with_reducible apply Frame.after State.setBlk_frame

theorem runTileOnce_frame (hf : ∀ t, Frame w t (f t)) (hw : [.blks] ⊆ w := by decide) : Frame w s (runTileOnce s a b c f) := by
  unfold runTileOnce
  exact frame_ite (countTile_frame.after (runOnce_frame hf hw) hw) (hf s)

/-- A tile operation run. -/
theorem runTile_frame : Frame [.ro, .ctxs, .blks, .mem, .binds, .back] s (runTile s b pos dom src t fed).st := by
  unfold runTile
  dsimp only
  refine countTile_frame.after (setSts_frame.after (setNonfin_frame.after (frame_ite ?_ (updRecord_frame.after ?_))))
  all_goals
    refine frame_ite (frame_foldl (fun _ _ => mapDrain_frame.mono (by decide)) ?_) ?_
  all_goals
    refine frame_foldl_fst (fun _ _ => writeDrain_frame.mono (by decide)) (frame_ite (mapIssue_frame.after ?_) ?_)
  all_goals exact boundEvt_frame.after (frame_ite (Frame.refl _ _) (holdArrays_frame.mono (by decide)))

theorem tileWork_frame : Frame [.ro, .ctxs, .blks, .mem, .binds, .back] s (tileWork a b c d s) := by
  unfold tileWork
  exact oweItem_frame.after (touchItem_frame.after (depositItem_frame.after (runTile_frame.mono (by decide))))

theorem doTile_frame : Frame [.ro, .log, .head, .clap, .regs, .ctxs, .steps, .blks, .mem, .binds, .back, .grds, .fab,
  .days] s (doTile a b c s d e) := by
  unfold doTile
  have h1 : Frame [.ro, .log, .head, .clap, .regs, .ctxs, .steps, .blks, .mem, .binds, .back, .grds, .fab,
    .days] s (runTileOnce s a b d (tileWork a b d e)) := runTileOnce_frame (fun _ => tileWork_frame.mono (by decide))
  exact guardReads_frame (Frame.refl _ _) (guardPhys_frame (Frame.refl _ _) (applyMemEvents_frame.after (applyArrPerf_frame.after h1)))

theorem tileVecWork_frame : Frame [.ro, .ctxs, .blks, .mem, .binds, .back] s (tileVecWork a b c d s) := by
  unfold tileVecWork
  exact oweItem_frame.after (touchItem_frame.after (depositItem_frame.after (runTile_frame.after (runChain_frame.mono (by decide)))))

theorem doTileVec_frame : Frame [.ro, .log, .head, .clap, .regs, .ctxs, .steps, .blks, .mem, .binds, .back, .grds, .fab,
  .days] s (doTileVec a b c s d e) := by
  unfold doTileVec
  have h1 : Frame [.ro, .log, .head, .clap, .regs, .ctxs, .steps, .blks, .mem, .binds, .back, .grds, .fab,
    .days] s (runTileOnce s a b d (tileVecWork a b d e)) := runTileOnce_frame (fun _ => tileVecWork_frame.mono (by decide))
  exact guardReads_frame (Frame.refl _ _)
    (guardPhys_frame (Frame.refl _ _) (applyMemEvents_frame.after (applyArrPerf_frame.after (applyVecPerf_frame.after h1))))

/-! ## Operations of Cutter -/

theorem writeReel_frame : Frame [.mem, .back] s (writeReel s a b c) := by
  unfold writeReel
  repeat' first | with_reducible exact Frame.refl _ _ | with_reducible apply Frame.after State.wrBytes_frame

theorem setPageState_frame : Frame [.days] s (setPageState s a b c) := by
  unfold setPageState
  repeat' first | with_reducible exact Frame.refl _ _ | with_reducible apply Frame.after State.setDay_frame

theorem dailyAside_frame : Frame [.ro, .ctxs, .blks, .mem, .binds, .back, .days] s (dailyAside s a b) := by
  unfold dailyAside
  repeat' first
    | with_reducible exact Frame.refl _ _ | with_reducible apply Frame.after stBytes_frame
    | with_reducible apply Frame.after State.count_frame | with_reducible apply Frame.after setPageState_frame
    | with_reducible apply frame_ite

theorem emitBlock_frame : Frame [.ro, .ctxs, .blks, .mem, .binds, .back] y.1 (emitBlock a b c d e f g h i y j).1 := by
  unfold emitBlock
  repeat' first
    | with_reducible exact Frame.refl _ _ | with_reducible apply Frame.after stBytes_frame | with_reducible apply Frame.after stScale_frame
    | extract_lets | split | with_reducible refine frame_foldl (fun _ _ => ?_) ?_

theorem emitPage_frame : Frame [.ro, .ctxs, .blks, .mem, .binds, .back] s (emitPage s a b c d e f g).1 := by
  unfold emitPage
  repeat' first
    | with_reducible exact Frame.refl _ _ | with_reducible apply Frame.after emitBlock_frame
    | with_reducible apply Frame.after updRecord_frame | extract_lets | split | with_reducible refine frame_foldl_fst (fun _ _ => ?_) ?_

theorem emitStep_frame : Frame [.ro, .ctxs, .blks, .mem, .binds, .back] s (emitStep s a b c d e) := by
  unfold emitStep
  repeat' first
    | with_reducible exact Frame.refl _ _ | with_reducible apply Frame.after emitPage_frame
    | with_reducible apply Frame.after setNonfin_frame

theorem setEpend_frame : Frame [.progs] s (setEpend s a b) := by
  unfold setEpend
  repeat' first | with_reducible exact Frame.refl _ _ | with_reducible apply Frame.after State.setHdr_frame

theorem doSurvey_frame :
    Frame [.ro, .log, .head, .clap, .regs, .ctxs, .steps, .blks, .mem, .binds, .back, .grds, .fab, .days] s (doSurvey a s b c) := by
  unfold doSurvey
  repeat' first
    | with_reducible exact Frame.refl _ _ | with_reducible refine guardReads_frame ?_ ?_ ?_ | with_reducible apply Frame.after stBytes_frame
    | with_reducible apply Frame.after boundEvt_frame | decide

theorem cutItem_frame (hf : ∀ t i x, Frame w t (f t i x)) (hw : [.ro, .progs, .blks, .sigs] ⊆ w :=
  by decide) : Frame w s (cutItem s a b p f) := by
  have h1 : ∀ i it, Frame w s (unrunItem (drainTrace s a) a 16 i it) := fun _ _ =>
    (unrunItem_frame.after (drainTrace_frame.mono (by decide)) : Frame [.ro, .progs, .blks, .sigs] _ _).mono hw
  unfold cutItem
  dsimp only
  split
  · split
    · exact frame_ite (h1 _ _) (startItem_frame hf (List.Subset.trans (by decide) hw))
    · exact Frame.refl _ _
  · exact Frame.refl _ _

theorem setPass_frame : Frame [.blks] s (setPass s a b) := by
  unfold setPass
  repeat' first | with_reducible exact Frame.refl _ _ | with_reducible apply Frame.after State.setBlk_frame

theorem passEnd_frame : Frame [.progs, .blks] s (passEnd s a) := by
  unfold passEnd
  repeat' first
    | with_reducible exact Frame.refl _ _ | with_reducible apply Frame.after setPass_frame | with_reducible apply Frame.after setEpend_frame
    | with_reducible apply frame_ite | extract_lets | split

theorem doPass_frame : Frame [.ro, .log, .head, .clap, .regs, .ctxs, .progs, .steps, .blks, .grds, .fab, .days] s (doPass a s b c) := by
  unfold doPass
  repeat' first
    | with_reducible exact Frame.refl _ _ | with_reducible apply Frame.after State.setBlk_frame
    | with_reducible apply Frame.after State.setStp_frame | with_reducible apply Frame.after passEnd_frame
    | with_reducible apply Frame.after State.countIf_frame | with_reducible apply Frame.after boundEvt_frame
    | with_reducible refine guardReads_frame ?_ ?_ ?_ | decide | extract_lets | with_reducible apply frame_ite

theorem writeDin_frame : Frame [.ro, .ctxs, .blks, .mem, .binds, .back] s (writeDin s a b c d e f) := by
  unfold writeDin
  repeat' first | with_reducible exact Frame.refl _ _ | with_reducible apply Frame.after stBytes_frame

theorem passPage_frame : Frame [.ro, .ctxs, .blks, .mem, .dirs, .binds, .back, .days] s (passPage s a b c d e f g) := by
  unfold passPage
  repeat' first
    | with_reducible exact Frame.refl _ _ | with_reducible apply Frame.after dailyAside_frame
    | with_reducible apply Frame.after State.setBlk_frame | with_reducible apply Frame.after setNonfin_frame
    | with_reducible apply Frame.after writeReel_frame | with_reducible apply Frame.after writeDin_frame
    | with_reducible apply Frame.after State.count_frame | with_reducible apply Frame.after State.setDir_frame
    | with_reducible apply frame_ite

theorem passFrozen_frame : Frame [.ro, .ctxs, .blks, .mem, .binds, .back] s (passFrozen s a b c d e f) := by
  unfold passFrozen
  repeat' first
    | with_reducible exact Frame.refl _ _ | with_reducible apply Frame.after writeDin_frame
    | with_reducible apply Frame.after State.count_frame | with_reducible apply frame_ite

theorem passEmit_frame : Frame [.ro, .ctxs, .blks, .mem, .binds, .back] s (passEmit s a b c d e f) := by
  unfold passEmit
  repeat' first
    | with_reducible exact Frame.refl _ _ | with_reducible apply Frame.after setPass_frame | with_reducible apply Frame.after emitStep_frame
    | with_reducible apply frame_ite

theorem takeSlot_frame : Frame [.ro, .ctxs, .progs, .blks, .mem, .dirs, .binds, .back, .days] s (takeSlot s a b c d) := by
  unfold takeSlot
  repeat' first
    | with_reducible exact Frame.refl _ _ | with_reducible apply Frame.after setPass_frame
    | with_reducible apply Frame.after consumeSlot_frame | with_reducible apply Frame.after State.setBlk_frame
    | with_reducible apply Frame.after passFrozen_frame | with_reducible apply Frame.after passPage_frame
    | with_reducible apply Frame.after markSpl_frame | with_reducible apply Frame.after passEnd_frame
    | with_reducible apply Frame.after passEmit_frame | with_reducible apply frame_ite

theorem takeGuarded_frame :
    Frame [.ro, .log, .head, .clap, .regs, .ctxs, .progs, .steps, .blks, .mem, .dirs, .binds, .back, .grds, .fab,
      .days] s (takeGuarded s a b c d) := by
  unfold takeGuarded
  repeat' first
    | with_reducible exact Frame.refl _ _ | with_reducible apply Frame.after takeSlot_frame
    | with_reducible refine guardReads_frame ?_ ?_ ?_ | with_reducible refine guardPhys_frame ?_ ?_ ?_ | decide
    | with_reducible apply frame_ite

theorem holdDir_frame : Frame [.blks] s (holdDir s a b c d) := by
  unfold holdDir
  repeat' first | with_reducible exact Frame.refl _ _ | with_reducible apply Frame.after State.setBlk_frame

theorem dirTile_frame : Frame [.ro, .ctxs, .blks, .mem, .binds, .back] s (dirTile a b c d e f s g) := by
  unfold dirTile
  repeat' first
    | with_reducible exact Frame.refl _ _ | with_reducible apply Frame.after holdDir_frame
    | with_reducible apply Frame.after setNonfin_frame | with_reducible apply Frame.after stBytes_frame
    | with_reducible apply Frame.after boundEvt_frame | with_reducible apply Frame.after countEvts_frame
    | with_reducible apply Frame.after setSts_frame | with_reducible apply Frame.after State.count_frame
    | with_reducible apply Frame.after countTile_frame

theorem doDir_frame :
    Frame [.ro, .log, .head, .clap, .regs, .ctxs, .steps, .blks, .mem, .binds, .back, .grds, .fab, .days] s (doDir a b c s d e) := by
  unfold doDir
  repeat' first
    | with_reducible exact Frame.refl _ _ | with_reducible apply Frame.after dirTile_frame | with_reducible refine guardReads_frame ?_ ?_ ?_
    | with_reducible apply Frame.after applyMemEvents_frame | with_reducible apply Frame.after applyArrPerf_frame | decide | extract_lets
    | split | with_reducible refine frame_foldl (fun _ _ => ?_) ?_

theorem finishPage_frame : Frame [.ro, .ctxs, .blks, .mem, .binds, .back, .days] s (finishPage s a b c d) := by
  unfold finishPage
  repeat' first
    | with_reducible exact Frame.refl _ _ | with_reducible apply Frame.after dailyAside_frame
    | with_reducible apply Frame.after boundEvt_frame | with_reducible apply Frame.after State.countIf_frame
    | with_reducible apply Frame.after setNonfin_frame | with_reducible apply Frame.after writeReel_frame

theorem finishSlot_frame :
    Frame [.ro, .log, .head, .clap, .regs, .ctxs, .steps, .blks, .mem, .binds, .back, .grds, .fab, .days] s (finishSlot a s b) := by
  unfold finishSlot
  repeat' first
    | with_reducible exact Frame.refl _ _ | with_reducible apply Frame.after setPass_frame
    | with_reducible apply Frame.after poisonFault_frame | with_reducible apply Frame.after finishPage_frame
    | with_reducible apply Frame.after emitStep_frame | with_reducible apply frame_ite | extract_lets | split

theorem finishRun_frame :
    Frame [.ro, .log, .head, .clap, .regs, .ctxs, .progs, .steps, .blks, .mem, .binds, .back, .grds, .fab, .days] s (finishRun s a) := by
  unfold finishRun
  repeat' first
    | with_reducible exact Frame.refl _ _ | with_reducible apply Frame.after passEnd_frame
    | with_reducible apply Frame.after finishSlot_frame | extract_lets | split | with_reducible refine frame_foldl (fun _ _ => ?_) ?_

theorem doFinish_frame :
    Frame [.ro, .log, .head, .clap, .regs, .ctxs, .progs, .steps, .blks, .mem, .binds, .back, .grds, .fab, .days] s (doFinish a b s c d) := by
  unfold doFinish
  repeat' first
    | with_reducible exact Frame.refl _ _ | with_reducible apply Frame.after finishRun_frame
    | with_reducible apply Frame.after setPass_frame | with_reducible apply Frame.after applyMemEvents_frame

theorem passResume_frame :
    Frame [.ro, .log, .head, .clap, .regs, .ctxs, .progs, .steps, .blks, .mem, .binds, .back, .grds, .fab, .days] s (passResume s a b c) := by
  unfold passResume
  repeat' first
    | with_reducible exact Frame.refl _ _ | with_reducible apply Frame.after setPass_frame
    | with_reducible apply Frame.after finishRun_frame | with_reducible apply Frame.after passEnd_frame | with_reducible apply frame_ite

theorem passStreamEnd_frame :
    Frame [.ro, .log, .head, .clap, .regs, .ctxs, .progs, .steps, .blks, .mem, .binds, .back, .grds, .fab, .days] s (passStreamEnd s a b) := by
  unfold passStreamEnd
  repeat' first
    | with_reducible exact Frame.refl _ _ | with_reducible apply Frame.after passResume_frame
    | with_reducible apply Frame.after setPageState_frame | with_reducible apply Frame.after State.count_frame
    | with_reducible apply frame_ite | extract_lets | split

theorem moveBegin_frame : Frame [.dirs, .back] s (moveBegin s a b) := by
  unfold moveBegin
  repeat' first
    | with_reducible exact Frame.refl _ _ | with_reducible apply Frame.after State.setDir_frame | with_reducible apply frame_ite
    | extract_lets | with_reducible refine Frame.put ?_

theorem moveEnd_frame : Frame [.ro, .log, .head, .clap, .regs, .ctxs, .steps, .blks, .mem, .dirs, .back, .grds, .fab, .days]
    s (moveEnd s a b) := by
  unfold moveEnd
  repeat' first
    | with_reducible exact Frame.refl _ _ | with_reducible apply Frame.after State.setDir_frame
    | with_reducible apply Frame.after applyMemEvents_frame | with_reducible apply Frame.after State.wrBytes_frame
    | with_reducible refine guardPhys_frame ?_ ?_ ?_ | decide | extract_lets | split | with_reducible refine Frame.put ?_

/-! ## Operations of Runs -/

theorem countRun_frame : Frame [.ro] s (countRun s a b c) := by
  unfold countRun
  repeat' first | with_reducible exact Frame.refl _ _ | with_reducible apply Frame.after State.count_frame | with_reducible apply frame_ite

theorem settleItem_frame : Frame [.ro, .ctxs, .blks, .mem, .binds, .back] s (settleItem s a b c) := by
  unfold settleItem
  repeat' first
    | with_reducible exact Frame.refl _ _ | with_reducible apply Frame.after countRunEvts_frame
    | with_reducible apply Frame.after payOwed_frame | extract_lets | split

theorem blockOut_frame : Frame [.ro, .log, .head, .clap, .regs, .ctxs, .steps, .blks, .grds, .fab, .days] s (blockOut s a b) := by
  unfold blockOut
  repeat' first
    | with_reducible exact Frame.refl _ _ | with_reducible apply Frame.after State.setBlk_frame
    | with_reducible apply Frame.after regionFault_frame | with_reducible apply Frame.after logFault_frame

theorem retireCell_frame : Frame [.ro, .log, .head, .clap, .regs, .ctxs, .steps, .blks, .grds, .fab, .days] s (retireCell s a b c d) := by
  unfold retireCell
  repeat' first
    | with_reducible exact Frame.refl _ _ | with_reducible apply Frame.after State.count_frame
    | with_reducible apply Frame.after strike_frame | with_reducible apply Frame.after State.setBlk_frame
    | with_reducible apply Frame.after blockOut_frame | with_reducible apply frame_ite

theorem reissueDir_frame : Frame [.ro, .blks] s (reissueDir s a b) := by
  unfold reissueDir
  repeat' first
    | with_reducible exact Frame.refl _ _ | with_reducible apply Frame.after countTile_frame
    | with_reducible apply Frame.after countEvts_frame

theorem reissue_frame : Frame [.evt, .ro, .blks] s (reissue a b c s d) := by
  unfold reissue
  repeat' first
    | with_reducible exact Frame.refl _ _ | with_reducible apply Frame.after reissueDir_frame
    | with_reducible apply Frame.after countEvts_frame | with_reducible apply Frame.after State.setBlk_frame
    | with_reducible apply frame_ite | extract_lets | with_reducible refine Frame.put ?_

theorem execParityError.again_frame : Frame [.evt, .ro, .log, .head, .blks] s (execParityError.again a b c s d e f g) := by
  unfold execParityError.again
  repeat' first
    | with_reducible exact Frame.refl _ _ | with_reducible apply Frame.after reissue_frame
    | with_reducible apply Frame.after State.setBlk_frame | with_reducible apply Frame.after State.count_frame
    | with_reducible apply Frame.after logFault_frame

/-! ## Operations of Fabric -/

theorem enqueue_frame : Frame [.ro, .fab] s (enqueue s a b c d) := by
  unfold enqueue
  repeat' first
    | with_reducible exact Frame.refl _ _ | with_reducible apply Frame.after State.count_frame
    | with_reducible apply Frame.after State.setPort_frame | with_reducible apply frame_ite

theorem originate_frame : Frame [.ro, .fab] s (originate s a b c) := by
  unfold originate
  repeat' first
    | with_reducible exact Frame.refl _ _ | with_reducible apply Frame.after State.count_frame
    | with_reducible apply Frame.after enqueue_frame | split

theorem toNeighbour_frame : Frame [.ro, .fab] s (toNeighbour s a b c) := by
  unfold toNeighbour
  repeat' first | with_reducible exact Frame.refl _ _ | with_reducible apply Frame.after enqueue_frame

theorem emitFrame_frame : Frame [.out, .fab] s (emitFrame s a b c d e) := by
  unfold emitFrame
  repeat' first
    | with_reducible exact Frame.refl _ _ | with_reducible apply Frame.after State.setPort_frame
    | with_reducible apply Frame.after State.emit_frame

theorem sendControl_frame : Frame [.out, .fab] s (sendControl s a) := by
  unfold sendControl
  repeat' first | with_reducible exact Frame.refl _ _ | with_reducible apply Frame.after emitFrame_frame

theorem holdFrame_frame : Frame [.out] s (holdFrame s a) := by
  unfold holdFrame
  repeat' first | with_reducible exact Frame.refl _ _ | with_reducible apply Frame.after State.emit_frame

theorem returnCredit_frame : Frame [.out, .fab] s (returnCredit s a b) := by
  unfold returnCredit
  repeat' first
    | with_reducible exact Frame.refl _ _ | with_reducible apply Frame.after sendControl_frame | with_reducible apply frame_ite
    | extract_lets | with_reducible refine frame_foldl (fun _ _ => ?_) ?_

theorem takeRx_frame : Frame [.out, .fab] s (takeRx s a b c) := by
  unfold takeRx
  repeat' first
    | with_reducible exact Frame.refl _ _ | with_reducible apply Frame.after returnCredit_frame
    | with_reducible apply Frame.after State.setPort_frame | extract_lets | split

theorem sendFrame_frame : Frame [.out, .fab] s (sendFrame a n s b) := by
  unfold sendFrame
  repeat' first
    | with_reducible exact Frame.refl _ _ | with_reducible apply Frame.after emitFrame_frame
    | with_reducible apply Frame.after State.setPort_frame

theorem markFbp_frame : Frame [.ctxs] s (markFbp a s b) := by
  unfold markFbp
  repeat' first
    | with_reducible exact Frame.refl _ _ | with_reducible apply Frame.after modCmd_frame | with_reducible apply frame_ite | extract_lets
    | split

theorem exportEnd_frame : Frame [.ro, .doms, .ctxs, .ress] s (exportEnd s a) := by
  unfold exportEnd
  repeat' first | with_reducible exact Frame.refl _ _ | with_reducible apply Frame.after endCmd_frame | with_reducible apply frame_ite

theorem sentBy_frame : Frame [.blks] s (sentBy s a) := by
  unfold sentBy
  repeat' first | with_reducible exact Frame.refl _ _ | with_reducible apply Frame.after progress_frame | with_reducible apply frame_ite

theorem portFault_frame : Frame [.ro, .log, .head, .clap, .regs, .ctxs, .steps, .blks, .grds, .fab, .days] s (portFault s a b) := by
  unfold portFault
  repeat' first | with_reducible exact Frame.refl _ _ | with_reducible apply Frame.after regionFault_frame

theorem retransmit_frame : Frame [.out, .ro, .log, .head, .clap, .regs, .ctxs, .steps, .blks, .grds, .fab, .days] s (retransmit s a) := by
  unfold retransmit
  repeat' first
    | with_reducible exact Frame.refl _ _ | with_reducible apply Frame.after State.count_frame
    | with_reducible apply Frame.after State.setPort_frame | with_reducible apply Frame.after portFault_frame
    | with_reducible apply Frame.after emitFrame_frame | with_reducible apply frame_ite | extract_lets
    | with_reducible refine frame_foldl (fun _ _ => ?_) ?_

theorem arrive.free_frame : Frame [.out, .fab] s (arrive.free a b s) := by
  unfold arrive.free
  repeat' first
    | with_reducible exact Frame.refl _ _ | with_reducible apply Frame.after returnCredit_frame
    | with_reducible apply Frame.after State.setPort_frame

theorem arrive_frame : Frame [.out, .ro, .fab] s (arrive s a b) := by
  unfold arrive
  repeat' first
    | with_reducible exact Frame.refl _ _ | with_reducible apply Frame.after State.count_frame
    | with_reducible apply Frame.after arrive.free_frame | with_reducible apply Frame.after State.setPort_frame
    | with_reducible apply frame_ite

theorem onFlit_frame : Frame [.out, .ro, .fab] s (onFlit a s b) := by
  unfold onFlit
  dsimp only
  split
  · exact Frame.refl _ _
  · exact frame_ite (arrive_frame.after (State.setPort_frame.mono (by decide))) (State.setPort_frame.mono (by decide))

theorem laneResult_frame : Frame [.ro] s (laneResult s a) := by
  unfold laneResult
  repeat' first | with_reducible exact Frame.refl _ _ | with_reducible apply Frame.after State.setRo_frame

theorem laneCut_frame : Frame [.ro, .fab] s (laneCut s a) := by
  unfold laneCut
  repeat' first
    | with_reducible exact Frame.refl _ _ | with_reducible apply Frame.after State.setPort_frame
    | with_reducible apply Frame.after laneResult_frame | with_reducible apply Frame.after State.setRo_frame | with_reducible apply frame_ite
    | extract_lets | split | with_reducible refine Frame.put ?_

theorem resync_frame : Frame [.ro, .fab] s (resync s a) := by
  unfold resync
  repeat' first
    | with_reducible apply Frame.after laneCut_frame
    | with_reducible exact Frame.refl _ _ | with_reducible apply Frame.after State.count_frame
    | with_reducible apply Frame.after State.setPort_frame

theorem enterHold_frame : Frame [.fab] s (enterHold s a) := by
  unfold enterHold
  repeat' first
    | with_reducible exact Frame.refl _ _ | with_reducible apply Frame.after State.setPort_frame | with_reducible apply frame_ite

theorem onAck_frame : Frame [.out, .ro, .log, .head, .clap, .regs, .ctxs, .steps, .blks, .grds, .fab, .days] s (onAck s a b) := by
  unfold onAck
  repeat' first
    | with_reducible exact Frame.refl _ _ | with_reducible apply Frame.after State.setPort_frame
    | with_reducible apply Frame.after retransmit_frame | with_reducible apply frame_ite

theorem onFrame_frame : Frame [.out, .ro, .log, .head, .clap, .regs, .ctxs, .steps, .blks, .grds, .fab, .days] s (onFrame s a b) := by
  unfold onFrame
  repeat' first
    | with_reducible exact Frame.refl _ _ | with_reducible apply Frame.after State.setPort_frame
    | with_reducible apply Frame.after onAck_frame | with_reducible apply Frame.after State.count_frame
    | with_reducible apply Frame.after onFlit_frame | extract_lets | with_reducible refine frame_foldl (fun _ _ => ?_) ?_

theorem followLane_frame : Frame [.fab] s (followLane s a b) := by
  unfold followLane
  repeat' first
    | with_reducible exact Frame.refl _ _ | with_reducible apply Frame.after State.setPort_frame | with_reducible apply frame_ite

theorem goodFrame_frame : Frame [.out, .ro, .log, .head, .clap, .regs, .ctxs, .steps, .blks, .grds, .fab, .days] s (goodFrame s a b) := by
  unfold goodFrame
  repeat' first
    | with_reducible exact Frame.refl _ _ | with_reducible apply Frame.after enterHold_frame
    | with_reducible apply Frame.after sendControl_frame | with_reducible apply Frame.after resync_frame
    | with_reducible apply Frame.after onFrame_frame | with_reducible apply Frame.after followLane_frame
    | with_reducible apply Frame.after State.setPort_frame | with_reducible apply frame_ite

theorem badFrame_frame : Frame [.out, .fab] s (badFrame s a) := by
  unfold badFrame
  repeat' first
    | with_reducible exact Frame.refl _ _ | with_reducible apply Frame.after sendControl_frame
    | with_reducible apply Frame.after State.setPort_frame

theorem announce_frame : Frame [.out, .fab] s (announce s a b c) := by
  unfold announce
  repeat' first
    | with_reducible exact Frame.refl _ _ | with_reducible apply Frame.after sendControl_frame
    | with_reducible apply Frame.after State.setPort_frame

theorem laneCommand_frame : Frame [.out, .mgt, .ro, .fab] s (laneCommand s a b) := by
  unfold laneCommand
  repeat' first
    | with_reducible exact Frame.refl _ _ | with_reducible apply Frame.after laneResult_frame
    | with_reducible apply Frame.after announce_frame | with_reducible apply frame_ite | extract_lets | split | dsimp only
    | with_reducible refine Frame.put ?_

theorem countDown_frame : Frame [.out, .fab] s (countDown s a) := by
  unfold countDown
  repeat' first
    | with_reducible exact Frame.refl _ _ | with_reducible apply Frame.after sendControl_frame
    | with_reducible refine frame_foldl (fun _ _ => ?_) ?_

theorem endLane_frame : Frame [.fab] s (endLane s a) := by
  unfold endLane
  repeat' first
    | with_reducible exact Frame.refl _ _ | with_reducible apply frame_ite | extract_lets | split | with_reducible refine Frame.put ?_

theorem switchLane_frame : Frame [.ro, .fab] s (switchLane s a b c) := by
  unfold switchLane
  repeat' first
    | with_reducible exact Frame.refl _ _ | with_reducible apply Frame.after State.setPort_frame
    | with_reducible apply Frame.after endLane_frame | with_reducible apply Frame.after laneResult_frame
    | with_reducible apply Frame.after State.setRo_frame | with_reducible apply frame_ite | extract_lets | split

theorem dropQueue_frame : Frame [.ro, .doms, .ctxs, .ress, .fab] s (dropQueue s a) := by
  unfold dropQueue
  repeat' first
    | with_reducible exact Frame.refl _ _ | with_reducible apply Frame.after exportEnd_frame
    | with_reducible apply Frame.after State.count_frame | with_reducible apply Frame.after State.setPort_frame | extract_lets
    | with_reducible refine frame_foldl (fun _ _ => ?_) ?_

/-! ## Operations of Transfers -/

theorem postSignal_frame : Frame [.sigs, .back] s (postSignal s a) := by
  unfold postSignal
  repeat' first | with_reducible exact Frame.refl _ _ | with_reducible apply frame_ite | extract_lets | with_reducible refine Frame.put ?_

theorem fabricAdds_frame : Frame [.ro, .log, .head, .clap, .regs, .ctxs, .steps, .blks, .mem, .binds, .back, .grds, .fab, .days]
    s (fabricAdds s a b c d e f g) := by
  unfold fabricAdds
  exact guardReads_frame (Frame.refl _ _) (depositAdds_frame.mono (by decide))

theorem storedBy_frame : Frame [.blks] s (storedBy s a) := by
  unfold storedBy
  repeat' first
    | with_reducible exact Frame.refl _ _ | with_reducible apply Frame.after progress_frame | with_reducible apply frame_ite | split

theorem performPacket_frame : Frame [.ro, .log, .head, .clap, .regs, .ctxs, .steps, .blks, .sigs, .mem, .binds, .back, .grds, .fab, .days]
    s (performPacket s a) := by
  unfold performPacket
  repeat' first
    | with_reducible exact Frame.refl _ _ | with_reducible apply Frame.after stBytes_frame
    | with_reducible apply Frame.after fabricAdds_frame | with_reducible apply Frame.after postSignal_frame
    | with_reducible apply Frame.after storedBy_frame | with_reducible apply frame_ite

theorem onPacket_frame (hf : ∀ t k, Frame w t (f t k)) (hw : [.out, .ro, .fab] ⊆ w := by decide) : Frame w s (onPacket s a b c f) := by
  have h1 : ∀ p c n, Frame w s (takeRx s p c n) := fun _ _ _ => takeRx_frame.mono (List.Subset.trans (by decide) hw)
  have h2 : ∀ p c n k, Frame w s ((takeRx s p c n).count k 1) :=
    fun _ _ _ _ => State.count_frame.after (h1 _ _ _) (List.Subset.trans (by decide) hw)
  unfold onPacket
  refine frame_ite (Frame.refl _ _) ?_
  split
  · exact Frame.refl _ _
  · exact frame_ite (Frame.refl _ _) (frame_ite ((hf _ _).trans (h1 _ _ _)) (h2 _ _ _ _))

theorem consumeRange_frame : Frame [.blks, .mem, .binds, .back] s (consumeRange s a b c).2.2 := by
  unfold consumeRange
  refine frame_foldl_third (fun r x => ?_) (Frame.refl _ _)
  split
  · exact consumeLine_frame.mono (by decide)
  · exact Frame.refl _ _

theorem readSource_frame : Frame [.ro, .blks, .mem, .binds, .back] s (readSource s a b c).2 := by
  unfold readSource
  repeat' first
    | with_reducible exact Frame.refl _ _ | with_reducible apply Frame.after consumeRange_frame
    | with_reducible apply Frame.after boundEvt_frame | with_reducible apply frame_ite_snd

theorem markXfer_frame : Frame [.steps] s (markXfer s a) := by
  unfold markXfer
  repeat' first | with_reducible exact Frame.refl _ _ | with_reducible apply Frame.after State.setStp_frame

theorem sendPackets_frame : Frame [.ro, .log, .head, .clap, .regs, .ctxs, .steps, .blks, .sigs, .mem, .binds, .back, .grds, .fab, .days]
    s (sendPackets s a b c) := by
  unfold sendPackets
  repeat' first
    | with_reducible exact Frame.refl _ _ | with_reducible apply Frame.after performPacket_frame
    | with_reducible apply Frame.after originate_frame | extract_lets | split | with_reducible refine frame_foldl (fun _ _ => ?_) ?_

theorem doXfer_frame :
    Frame [.ro, .log, .head, .clap, .regs, .ctxs, .steps, .blks, .sigs, .mem, .binds, .back, .grds, .fab, .days] s (doXfer a s b c) := by
  unfold doXfer
  repeat' first
    | with_reducible exact Frame.refl _ _ | with_reducible apply Frame.after readSource_frame
    | with_reducible refine guardReads_frame ?_ ?_ ?_ | with_reducible apply Frame.after sendPackets_frame
    | with_reducible apply Frame.after markXfer_frame | decide | with_reducible apply frame_ite_snd

theorem domNonfin_frame : Frame [.blks] s (domNonfin s a) := by
  unfold domNonfin
  repeat' first | with_reducible exact Frame.refl _ _ | with_reducible apply Frame.after setNonfin_frame

theorem atRoot_frame : Frame [.ro, .log, .head, .clap, .regs, .ctxs, .steps, .blks, .sigs, .mem, .binds, .back, .grds, .fab, .days]
    s (atRoot s a b) := by
  unfold atRoot
  repeat' first
    | with_reducible exact Frame.refl _ _ | with_reducible apply Frame.after postSignal_frame
    | with_reducible apply Frame.after fabricAdds_frame | with_reducible apply Frame.after toNeighbour_frame
    | with_reducible apply frame_ite | extract_lets | with_reducible refine frame_foldl (fun _ _ => ?_) ?_

theorem chunkDone_frame : Frame [.ro, .log, .head, .clap, .regs, .ctxs, .steps, .blks, .sigs, .mem, .binds, .back, .grds, .fab, .days]
    s (chunkDone s a b) := by
  unfold chunkDone
  repeat' first
    | with_reducible exact Frame.refl _ _ | with_reducible apply Frame.after toNeighbour_frame
    | with_reducible apply Frame.after atRoot_frame | extract_lets | split | with_reducible refine Frame.put ?_

theorem combRun_frame : Frame [.ro, .log, .head, .clap, .regs, .ctxs, .steps, .blks, .sigs, .mem, .binds, .back, .grds, .fab, .days]
    s (combRun a s) := by
  induction a generalizing s with
  | zero => exact Frame.refl _ _
  | succ n ih =>
    unfold combRun
    split
    · exact Frame.refl _ _
    · exact ih.trans (chunkDone_frame.after (Frame.put (Frame.refl _ _)))

theorem ownTree_frame : Frame [.ro, .log, .head, .clap, .regs, .ctxs, .steps, .blks, .sigs, .mem, .binds, .back, .grds, .fab, .days]
    s (ownTree s a b c) := by
  unfold ownTree
  exact guardReads_frame (Frame.refl _ _) (postSignal_frame.after (depositAdds_frame.mono (by decide)))

theorem doTree_frame :
    Frame [.ro, .log, .head, .clap, .regs, .ctxs, .steps, .blks, .sigs, .mem, .binds, .back, .grds, .fab, .days] s (doTree a s b c) := by
  unfold doTree
  repeat' first
    | with_reducible exact Frame.refl _ _ | with_reducible apply Frame.after readSource_frame
    | with_reducible apply Frame.after markXfer_frame | with_reducible refine guardReads_frame ?_ ?_ ?_
    | with_reducible apply Frame.after ownTree_frame | with_reducible apply Frame.after chunkDone_frame
    | with_reducible apply Frame.after combRun_frame | decide | with_reducible apply frame_ite | extract_lets | split
    | with_reducible refine frame_foldl (fun _ _ => ?_) ?_ | with_reducible refine Frame.put ?_

theorem tupInto_frame : Frame [.ro, .log, .head, .clap, .regs, .ctxs, .steps, .blks, .sigs, .mem, .binds, .back, .grds, .fab, .days]
    s (tupInto s a b c) := by
  unfold tupInto
  repeat' first
    | with_reducible exact Frame.refl _ _ | with_reducible apply Frame.after combRun_frame | extract_lets
    | with_reducible refine Frame.put ?_

theorem onCombine_frame (hf : ∀ t k, Frame w t (f t k)) (hw : [.out, .ro, .fab] ⊆ w := by decide) : Frame w s (onCombine s a p f) := by
  have h1 : ∀ p c n, Frame w s (takeRx s p c n) := fun _ _ _ => takeRx_frame.mono (List.Subset.trans (by decide) hw)
  have h2 : ∀ p c n k, Frame w s ((takeRx s p c n).count k 1) :=
    fun _ _ _ _ => State.count_frame.after (h1 _ _ _) (List.Subset.trans (by decide) hw)
  unfold onCombine
  refine frame_ite (Frame.refl _ _) ?_
  split
  · exact Frame.refl _ _
  · exact frame_ite ((hf _ _).trans (h1 _ _ _)) (h2 _ _ _ _)

theorem dropTups_frame : Frame [.out, .ro, .fab] s (dropTups a b s c) := by
  unfold dropTups
  repeat' first
    | with_reducible exact Frame.refl _ _ | with_reducible apply Frame.after State.count_frame
    | with_reducible apply Frame.after takeRx_frame | extract_lets | split | with_reducible refine frame_foldl (fun _ _ => ?_) ?_

/-! ## Operations of Commit -/

theorem dropOrphans_frame : Frame [.ro, .blks, .mem, .binds, .back] s (dropOrphans s a) := by
  unfold dropOrphans
  repeat' first
    | with_reducible exact Frame.refl _ _ | with_reducible apply Frame.after State.count_frame
    | with_reducible apply Frame.after setNonfin_frame | with_reducible apply Frame.after unbind_frame
    | with_reducible apply Frame.after zeroRange_frame | with_reducible refine frame_foldl (fun _ _ => ?_) ?_

theorem reportBlock_frame : Frame [.ro, .steps, .blks, .mem, .binds, .back] s (reportBlock s a) := by
  unfold reportBlock
  repeat' first
    | with_reducible exact Frame.refl _ _ | with_reducible apply Frame.after dropOrphans_frame
    | with_reducible apply Frame.after State.setBlk_frame | with_reducible apply Frame.after State.setStp_frame

theorem awaitBlocks_frame : Frame [.blks] s (awaitBlocks s a) := by
  unfold awaitBlocks
  repeat' first
    | with_reducible exact Frame.refl _ _ | with_reducible apply Frame.after State.setBlk_frame
    | with_reducible refine frame_foldl (fun _ _ => ?_) ?_

theorem clipPage_frame : Frame [.ro, .ctxs, .blks, .mem, .binds, .back, .days] s (clipPage a b s c) := by
  unfold clipPage
  repeat' first
    | with_reducible exact Frame.refl _ _ | with_reducible apply Frame.after dailyAside_frame
    | with_reducible apply Frame.after State.count_frame | with_reducible apply Frame.after writeReel_frame

theorem clipLayer_frame : Frame [.ro, .ctxs, .blks, .mem, .binds, .back, .days] s (clipLayer a b c s d) := by
  unfold clipLayer
  repeat' first
    | with_reducible exact Frame.refl _ _ | with_reducible apply Frame.after clipPage_frame
    | with_reducible apply Frame.after emitPage_frame | with_reducible apply frame_ite | extract_lets | split
    | with_reducible refine frame_foldl (fun _ _ => ?_) ?_

theorem clipBlock_frame : Frame [.ro, .log, .head, .clap, .regs, .ctxs, .steps, .blks, .mem, .binds, .back, .grds, .fab, .days]
    s (clipBlock a b s c) := by
  unfold clipBlock
  repeat' first
    | with_reducible exact Frame.refl _ _ | with_reducible apply Frame.after clipLayer_frame
    | with_reducible refine guardReads_frame ?_ ?_ ?_ | with_reducible refine guardPhys_frame ?_ ?_ ?_ | decide
    | with_reducible apply Frame.after State.count_frame | with_reducible apply Frame.after State.setStp_frame
    | with_reducible apply frame_ite | extract_lets | with_reducible refine frame_foldl (fun _ _ => ?_) ?_

theorem applySigs_frame : Frame [.ro, .steps] s (applySigs s a b c x) := by
  unfold applySigs
  repeat' first
    | with_reducible exact Frame.refl _ _ | with_reducible apply Frame.after State.count_frame
    | with_reducible apply Frame.after State.setRo_frame | with_reducible apply Frame.after State.setStp_frame
    | with_reducible apply frame_ite | extract_lets | with_reducible refine frame_foldl (fun _ _ => ?_) ?_

theorem walkPage_frame : Frame [.ro, .dirs] s (walkPage a b c s d) := by
  unfold walkPage
  repeat' first
    | with_reducible exact Frame.refl _ _ | with_reducible apply Frame.after State.count_frame
    | with_reducible apply Frame.after State.setDir_frame | with_reducible apply frame_ite

theorem walkBlock_frame : Frame [.ro, .steps, .dirs] s (walkBlock a s b) := by
  unfold walkBlock
  repeat' first
    | with_reducible exact Frame.refl _ _ | with_reducible apply Frame.after walkPage_frame
    | with_reducible apply Frame.after State.setStp_frame | extract_lets | with_reducible refine frame_foldl (fun _ _ => ?_) ?_

theorem headerToken_frame : Frame [.ro, .ctxs, .progs, .blks, .mem, .binds, .back] s (headerToken a s b) := by
  unfold headerToken
  repeat' first
    | with_reducible exact Frame.refl _ _ | with_reducible apply Frame.after modRec_frame
    | with_reducible apply Frame.after State.setHdr_frame | with_reducible apply frame_ite | extract_lets | split

theorem factorToken_frame : Frame [.ro, .ctxs, .blks, .mem, .binds, .back] s (factorToken a s b) := by
  unfold factorToken
  repeat' first
    | with_reducible exact Frame.refl _ _ | with_reducible apply Frame.after State.countIf_frame
    | with_reducible apply Frame.after stBytes_frame | with_reducible apply frame_ite

theorem slotToken_frame : Frame [.ro, .ctxs, .blks, .mem, .binds, .back, .grds] s (slotToken a b s c) := by
  unfold slotToken
  repeat' first
    | with_reducible exact Frame.refl _ _ | with_reducible apply Frame.after stBytes_frame
    | with_reducible apply Frame.after State.setGrd_frame | with_reducible apply Frame.after State.countIf_frame | extract_lets | split

theorem graderToken_frame : Frame [.ro, .ctxs, .blks, .mem, .binds, .back, .grds] s (graderToken a b s c) := by
  unfold graderToken
  repeat' first
    | with_reducible exact Frame.refl _ _ | with_reducible apply Frame.after slotToken_frame
    | with_reducible refine frame_foldl (fun _ _ => ?_) ?_

theorem lossToken_frame : Frame [.ro] s (lossToken s a) := by
  unfold lossToken
  repeat' first | with_reducible exact Frame.refl _ _ | with_reducible apply Frame.after State.setRo_frame | with_reducible apply frame_ite

theorem applyFreeze_frame : Frame [.dirs] s (applyFreeze s a b) := by
  unfold applyFreeze
  repeat' first
    | with_reducible exact Frame.refl _ _ | with_reducible apply Frame.after State.setDir_frame | with_reducible apply frame_ite
    | extract_lets | with_reducible refine frame_foldl (fun _ _ => ?_) ?_

theorem freezeToken_frame : Frame [.ro, .doms, .ctxs, .ress, .dirs] s (freezeToken s a) := by
  unfold freezeToken
  repeat' first
    | with_reducible exact Frame.refl _ _ | with_reducible apply Frame.after endCmd_frame
    | with_reducible apply Frame.after applyFreeze_frame | with_reducible refine frame_foldl (fun _ _ => ?_) ?_

theorem dailyToken_frame : Frame [.ro, .days] s (dailyToken s a b) := by
  unfold dailyToken
  repeat' first
    | with_reducible exact Frame.refl _ _ | with_reducible apply Frame.after State.count_frame
    | with_reducible apply Frame.after State.setDay_frame | with_reducible apply frame_ite

theorem idleBlocks_frame : Frame [.blks] s (idleBlocks s a) := by
  unfold idleBlocks
  repeat' first
    | with_reducible exact Frame.refl _ _ | with_reducible apply Frame.after State.setBlk_frame
    | with_reducible refine frame_foldl (fun _ _ => ?_) ?_

theorem finishStep_frame :
    Frame [.out, .ro, .doms, .ctxs, .ress, .progs, .steps, .blks, .mem, .dirs, .binds, .back, .grds, .fab, .days] s (finishStep s a) := by
  unfold finishStep
  repeat' first
    | with_reducible exact Frame.refl _ _ | with_reducible apply Frame.after headerToken_frame
    | with_reducible apply Frame.after factorToken_frame | with_reducible apply Frame.after graderToken_frame
    | with_reducible apply Frame.after lossToken_frame | with_reducible apply Frame.after freezeToken_frame
    | with_reducible apply Frame.after clearSuspect_frame | with_reducible apply Frame.after dailyToken_frame
    | with_reducible apply Frame.after dropTups_frame | with_reducible apply Frame.after State.setDom_frame
    | with_reducible apply Frame.after modCmd_frame | with_reducible apply Frame.after idleBlocks_frame
    | with_reducible apply Frame.after endCmd_frame | with_reducible apply Frame.after State.setStp_frame | extract_lets | split
    | with_reducible refine frame_foldl (fun _ _ => ?_) ?_

theorem tryFinish_frame :
    Frame [.out, .ro, .log, .head, .clap, .regs, .doms, .ctxs, .ress, .progs, .steps, .blks, .mem, .dirs, .binds, .back, .grds, .fab, .days]
        s (tryFinish s a) := by
  unfold tryFinish
  repeat' first
    | with_reducible exact Frame.refl _ _ | with_reducible refine guardReads_frame ?_ ?_ ?_ | decide
    | with_reducible apply Frame.after finishStep_frame | with_reducible apply frame_ite

theorem token_frame :
    Frame [.out, .ro, .log, .head, .clap, .regs, .doms, .ctxs, .ress, .progs, .steps, .blks, .mem, .dirs, .binds, .back, .grds, .fab, .days]
        s (token s a b) := by
  unfold token
  repeat' first
    | with_reducible exact Frame.refl _ _ | with_reducible apply Frame.after State.setStp_frame
    | with_reducible apply Frame.after State.setRo_frame | with_reducible apply Frame.after tryFinish_frame
    | with_reducible apply Frame.after walkBlock_frame | extract_lets | with_reducible refine frame_foldl (fun _ _ => ?_) ?_

theorem decide'_frame :
    Frame [.out, .ro, .log, .head, .clap, .regs, .doms, .ctxs, .ress, .progs, .steps, .blks, .mem, .dirs, .binds, .back, .grds, .fab, .days]
        s (decide' s a b c) := by
  unfold decide'
  repeat' first
    | with_reducible exact Frame.refl _ _ | with_reducible apply Frame.after State.setRo_frame
    | with_reducible apply Frame.after State.setStp_frame | with_reducible apply Frame.after token_frame
    | with_reducible apply Frame.after clipBlock_frame | with_reducible apply frame_ite | extract_lets | split
    | with_reducible refine frame_foldl (fun _ _ => ?_) ?_

/-! ## Operations of Exchange -/

theorem xArrived_frame : Frame [.ro, .xchs] s (xArrived s a) := by
  unfold xArrived
  repeat' first
    | with_reducible exact Frame.refl _ _ | with_reducible apply Frame.after State.count_frame
    | with_reducible apply Frame.after State.setXch_frame

theorem useNorm_frame :
    Frame [.out, .ro, .log, .head, .clap, .regs, .doms, .ctxs, .ress, .progs, .steps, .blks, .mem, .dirs, .binds, .back, .grds, .fab, .xchs,
        .days] s (useNorm s a) :=
      by
  unfold useNorm
  repeat' first
    | with_reducible exact Frame.refl _ _ | with_reducible apply Frame.after decide'_frame | with_reducible apply Frame.after xArrived_frame
    | with_reducible apply frame_ite | split

theorem useSig_frame :
    Frame [.out, .ro, .log, .head, .clap, .regs, .doms, .ctxs, .ress, .progs, .steps, .blks, .mem, .dirs, .binds, .back, .grds, .fab, .xchs,
        .days] s (useSig s a) :=
      by
  unfold useSig
  repeat' first
    | with_reducible exact Frame.refl _ _ | with_reducible apply Frame.after token_frame | with_reducible apply Frame.after applySigs_frame
    | with_reducible apply Frame.after xArrived_frame | with_reducible apply frame_ite | extract_lets | split

theorem xResult_frame :
    Frame [.out, .ro, .log, .head, .clap, .regs, .doms, .ctxs, .ress, .progs, .steps, .blks, .mem, .dirs, .binds, .back, .grds, .fab, .xchs,
        .days] s (xResult s a b c d) := by
  unfold xResult
  repeat' first
    | with_reducible exact Frame.refl _ _ | with_reducible apply Frame.after toNeighbour_frame
    | with_reducible apply Frame.after State.setXch_frame | with_reducible apply Frame.after useNorm_frame
    | with_reducible apply Frame.after useSig_frame | with_reducible apply frame_ite | extract_lets | split
    | with_reducible refine frame_foldl (fun _ _ => ?_) ?_

theorem xRun_frame :
    Frame [.out, .ro, .log, .head, .clap, .regs, .doms, .ctxs, .ress, .progs, .steps, .blks, .mem, .dirs, .binds, .back, .grds, .fab, .xchs,
        .days] s (xRun s a b) :=
      by
  unfold xRun
  repeat' first
    | with_reducible exact Frame.refl _ _ | with_reducible apply Frame.after State.setXch_frame
    | with_reducible apply Frame.after toNeighbour_frame | with_reducible apply Frame.after xResult_frame | with_reducible apply frame_ite
    | extract_lets | split

theorem xOwn_frame :
    Frame [.out, .ro, .log, .head, .clap, .regs, .doms, .ctxs, .ress, .progs, .steps, .blks, .mem, .dirs, .binds, .back, .grds, .fab, .xchs,
        .days] s (xOwn s a b c) := by
  unfold xOwn
  repeat' first
    | with_reducible exact Frame.refl _ _ | with_reducible apply Frame.after State.count_frame | with_reducible apply Frame.after xRun_frame
    | with_reducible apply Frame.after State.setXch_frame | with_reducible apply frame_ite | extract_lets | split

theorem enterSig_frame :
    Frame [.out, .ro, .log, .head, .clap, .regs, .doms, .ctxs, .ress, .progs, .steps, .blks, .mem, .dirs, .binds, .back, .grds, .fab, .xchs,
        .days] s (enterSig s a) := by
  unfold enterSig
  repeat' first
    | with_reducible exact Frame.refl _ _ | with_reducible refine guardPhys_frame ?_ ?_ ?_ | decide | with_reducible apply Frame.after token_frame | with_reducible apply Frame.after applySigs_frame
    | with_reducible apply Frame.after useSig_frame | with_reducible apply Frame.after xOwn_frame | extract_lets | split

theorem afterNorm_frame :
    Frame [.out, .ro, .log, .head, .clap, .regs, .doms, .ctxs, .ress, .progs, .steps, .blks, .mem, .dirs, .binds, .back, .grds, .fab, .xchs,
        .days] s (afterNorm s a) := by
  unfold afterNorm
  repeat' first | with_reducible exact Frame.refl _ _ | with_reducible apply Frame.after enterSig_frame | with_reducible apply frame_ite

theorem enterNorm_frame :
    Frame [.out, .ro, .log, .head, .clap, .regs, .doms, .ctxs, .ress, .progs, .steps, .blks, .mem, .dirs, .binds, .back, .grds, .fab, .xchs,
        .days] s (enterNorm s a) := by
  unfold enterNorm
  repeat' first
    | with_reducible exact Frame.refl _ _ | with_reducible apply Frame.after awaitBlocks_frame
    | with_reducible apply Frame.after State.setStp_frame | with_reducible apply Frame.after afterNorm_frame
    | with_reducible apply Frame.after decide'_frame | with_reducible apply Frame.after useNorm_frame
    | with_reducible apply Frame.after xOwn_frame | extract_lets | split

theorem xChild_frame :
    Frame [.out, .ro, .log, .head, .clap, .regs, .doms, .ctxs, .ress, .progs, .steps, .blks, .mem, .dirs, .binds, .back, .grds, .fab, .xchs,
        .days] s (xChild a s b) := by
  unfold xChild
  repeat' first
    | with_reducible exact Frame.refl _ _ | with_reducible apply Frame.after State.count_frame
    | with_reducible apply Frame.after afterNorm_frame | with_reducible apply Frame.after xRun_frame
    | with_reducible apply Frame.after State.setXch_frame | with_reducible apply frame_ite | extract_lets | split

theorem xParent_frame :
    Frame [.out, .ro, .log, .head, .clap, .regs, .doms, .ctxs, .ress, .progs, .steps, .blks, .mem, .dirs, .binds, .back, .grds, .fab, .xchs,
        .days] s (xParent s a) :=
      by
  unfold xParent
  repeat' first
    | with_reducible exact Frame.refl _ _ | with_reducible apply Frame.after afterNorm_frame
    | with_reducible apply Frame.after xResult_frame

/-! ## Operations of Grader -/

theorem setSlot_frame : Frame [.grds] s (setSlot s a b c) := by
  unfold setSlot
  repeat' first | with_reducible exact Frame.refl _ _ | with_reducible apply Frame.after State.setGrd_frame

theorem feedStart_frame : Frame [.ro, .ctxs, .blks, .mem, .binds, .back, .grds] s (feedStart s a b c) := by
  unfold feedStart
  repeat' first
    | with_reducible exact Frame.refl _ _ | with_reducible apply Frame.after stBytes_frame | with_reducible apply Frame.after setSlot_frame

theorem solveAccept_frame : Frame [.evt, .grds] s (solveAccept s a b c) := by
  unfold solveAccept
  repeat' first
    | with_reducible exact Frame.refl _ _ | with_reducible apply Frame.after setSlot_frame | extract_lets
    | with_reducible refine Frame.put ?_

theorem grdIgnored_frame : Frame [.ro] s (grdIgnored s a) := by
  unfold grdIgnored
  repeat' first | with_reducible exact Frame.refl _ _ | with_reducible apply Frame.after State.count_frame

theorem reqFeed_frame : Frame [.ro, .ctxs, .blks, .mem, .binds, .back, .grds] s (reqFeed s a b c) := by
  unfold reqFeed
  repeat' first
    | with_reducible exact Frame.refl _ _ | with_reducible apply Frame.after setSlot_frame
    | with_reducible apply Frame.after grdIgnored_frame | with_reducible apply Frame.after feedStart_frame | with_reducible apply frame_ite

theorem reqSolve_frame : Frame [.evt, .ro, .grds] s (reqSolve s a b c) := by
  unfold reqSolve
  repeat' first
    | with_reducible exact Frame.refl _ _ | with_reducible apply Frame.after setSlot_frame
    | with_reducible apply Frame.after grdIgnored_frame | with_reducible apply Frame.after solveAccept_frame
    | with_reducible apply frame_ite

theorem reqCold_frame : Frame [.grds] s (reqCold s a b c) := by
  unfold reqCold
  repeat' first | with_reducible exact Frame.refl _ _ | with_reducible apply Frame.after setSlot_frame

theorem grdRequest_frame : Frame [.evt, .ro, .ctxs, .blks, .mem, .binds, .back, .grds] s (grdRequest s a b c) := by
  unfold grdRequest
  repeat' first
    | with_reducible exact Frame.refl _ _ | with_reducible apply Frame.after State.count_frame
    | with_reducible apply Frame.after reqFeed_frame | with_reducible apply Frame.after reqSolve_frame
    | with_reducible apply Frame.after reqCold_frame | with_reducible apply frame_ite | extract_lets | split

theorem doGrd_frame : Frame [.evt, .ro, .ctxs, .blks, .mem, .binds, .back, .grds] s (doGrd a b s c d) := by
  unfold doGrd
  repeat' first | with_reducible exact Frame.refl _ _ | with_reducible apply Frame.after grdRequest_frame

theorem feedTile_frame : Frame [.ro, .ctxs, .blks, .mem, .binds, .back] s (feedTile a b c d s e) := by
  unfold feedTile
  repeat' first
    | with_reducible exact Frame.refl _ _ | with_reducible apply Frame.after stBytes_frame
    | with_reducible apply Frame.after State.count_frame | with_reducible apply frame_ite

theorem feedSlot_frame : Frame [.ro, .ctxs, .blks, .mem, .binds, .back] s (feedSlot a b s c) := by
  unfold feedSlot
  repeat' first
    | with_reducible exact Frame.refl _ _ | with_reducible apply Frame.after feedTile_frame | extract_lets
    | with_reducible refine frame_foldl (fun _ _ => ?_) ?_

theorem graderCue_frame : Frame [.grds] s (graderCue s a b) := by
  unfold graderCue
  repeat' first | with_reducible exact Frame.refl _ _ | with_reducible apply Frame.after State.setGrd_frame | with_reducible apply frame_ite

theorem largestResid_frame : Frame [.free] s (largestResid s a).2 := by
  unfold largestResid
  repeat' first | with_reducible exact Frame.refl _ _ | with_reducible apply Frame.after State.fresh_frame | split

theorem writeResult_frame : Frame [.ro, .ctxs, .blks, .mem, .binds, .back] y.1 (writeResult a b c y d).1 := by
  unfold writeResult
  repeat' first | with_reducible exact Frame.refl _ _ | with_reducible apply Frame.after stBytes_frame

theorem carryBlock_frame : Frame [.ro, .ctxs, .blks, .mem, .binds, .back] s (carryBlock a b c s d) := by
  unfold carryBlock
  repeat' first | with_reducible exact Frame.refl _ _ | with_reducible apply Frame.after stBytes_frame

theorem countBlocks_frame : Frame [.ro] s (countBlocks s a b) := by
  unfold countBlocks
  repeat' first | with_reducible exact Frame.refl _ _ | with_reducible apply Frame.after State.count_frame

theorem solveEnd_frame : Frame [.evt, .ro, .ctxs, .blks, .mem, .binds, .back, .grds] s (solveEnd s a b c d) := by
  unfold solveEnd
  repeat' first
    | with_reducible exact Frame.refl _ _ | with_reducible apply Frame.after State.setGrd_frame
    | with_reducible apply Frame.after setSlot_frame | with_reducible apply Frame.after solveAccept_frame
    | with_reducible apply Frame.after feedStart_frame | with_reducible apply frame_ite

theorem solveFinish_frame : Frame [.evt, .free, .ro, .ctxs, .blks, .mem, .binds, .back, .grds] s (solveFinish s a b c d e f g) := by
  unfold solveFinish
  repeat' first
    | with_reducible exact Frame.refl _ _ | with_reducible apply Frame.after countBlocks_frame
    | with_reducible apply Frame.after solveEnd_frame | with_reducible apply Frame.after State.count_frame
    | with_reducible apply Frame.after writeResult_frame | with_reducible apply Frame.after carryBlock_frame
    | with_reducible apply Frame.after largestResid_frame | with_reducible apply frame_ite | extract_lets
    | with_reducible refine frame_foldl (fun _ _ => ?_) ?_ | with_reducible refine frame_foldl_fst (fun _ _ => ?_) ?_

theorem solvePerf_frame : Frame [.ro, .back] s (solvePerf s a b c d) := by
  unfold solvePerf
  repeat' first
    | with_reducible exact Frame.refl _ _ | with_reducible apply Frame.after applyMemEvents_frame
    | with_reducible apply Frame.after State.count_frame

/-! ## Operations of Dailies -/

theorem sendDaily_frame (hf : ∀ t k, Frame w t (f t k)) (hw : [.ro, .fab] ⊆ w := by decide) : Frame w s (sendDaily f a b s c) := by
  unfold sendDaily
  split
  · exact hf _ _
  · exact originate_frame.mono (List.Subset.trans (by decide) hw)

theorem dailyStore_frame : Frame [.ro, .ctxs, .blks, .mem, .binds, .back, .days] s (dailyStore s a) := by
  unfold dailyStore
  repeat' first
    | with_reducible exact Frame.refl _ _ | with_reducible apply Frame.after stBytes_frame
    | with_reducible apply Frame.after State.setDay_frame

theorem dailyClose_frame : Frame [.ro, .days] s (dailyClose s a) := by
  unfold dailyClose
  repeat' first
    | with_reducible exact Frame.refl _ _ | with_reducible apply Frame.after State.setRo_frame
    | with_reducible apply Frame.after State.setDay_frame | with_reducible apply frame_ite

theorem streamDone_frame : Frame [.days] s (streamDone s a b) := by
  unfold streamDone
  repeat' first
    | with_reducible exact Frame.refl _ _ | with_reducible apply Frame.after setPageState_frame
    | with_reducible refine frame_foldl (fun _ _ => ?_) ?_

theorem importEmit_frame : Frame [.ro, .ctxs, .blks, .mem, .binds, .back] s (importEmit s a b) := by
  unfold importEmit
  repeat' first | with_reducible exact Frame.refl _ _ | with_reducible apply Frame.after emitPage_frame | extract_lets | split

theorem impPut_frame : Frame [.ro, .doms, .ctxs, .ress, .days] s (impPut s a b) := by
  unfold impPut
  repeat' first
    | with_reducible exact Frame.refl _ _ | with_reducible apply Frame.after endCmd_frame
    | with_reducible apply Frame.after State.setDay_frame | with_reducible apply frame_ite

theorem impRefuse_frame : Frame [.ro, .doms, .ctxs, .ress, .days] s (impRefuse s a b) := by
  unfold impRefuse
  repeat' first
    | with_reducible exact Frame.refl _ _ | with_reducible apply Frame.after endCmd_frame
    | with_reducible apply Frame.after State.setDay_frame

theorem importWrite_frame : Frame [.ro, .log, .head, .clap, .regs, .doms, .ctxs, .ress, .steps, .blks, .mem, .dirs, .binds, .back, .grds, .fab,
    .days] s (importWrite s a b) := by
  unfold importWrite
  repeat' first
    | with_reducible exact Frame.refl _ _ | with_reducible refine guardReads_frame ?_ ?_ ?_ | with_reducible refine guardPhys_frame ?_ ?_ ?_
    | decide | extract_lets | with_reducible apply Frame.after State.wrBytes_frame
    | with_reducible apply Frame.after importEmit_frame | with_reducible apply Frame.after State.setDir_frame
    | with_reducible apply Frame.after impPut_frame | with_reducible apply frame_ite

theorem onImport_frame (hf : ∀ t i, Frame w t (f t i)) (hw : [.ro, .doms, .ctxs, .ress, .days] ⊆ w :=
  by decide) : Frame w s (onImport p s a f) := by
  have h1 : ∀ k n, Frame w s (s.count k n) := fun _ _ => State.count_frame.mono (List.Subset.trans (by decide) hw)
  unfold onImport
  split
  · exact h1 _ _
  · exact frame_ite (impRefuse_frame.after (h1 _ _) (List.Subset.trans (by decide) hw)) (hf _ _)

theorem importPage_frame : Frame [.ro, .log, .head, .clap, .regs, .doms, .ctxs, .ress, .steps, .blks, .mem, .dirs, .binds, .back, .grds, .fab,
    .days] s (importPage a s b) := by
  unfold importPage
  repeat' first
    | with_reducible exact Frame.refl _ _ | with_reducible refine Frame.trans (onImport_frame (fun _ _ => ?_)) ?_
    | with_reducible apply Frame.after importWrite_frame | with_reducible apply Frame.after State.count_frame
    | with_reducible apply frame_ite

theorem importClose_frame : Frame [.ro, .doms, .ctxs, .ress, .days] s (importClose a s b) := by
  unfold importClose
  repeat' first
    | with_reducible exact Frame.refl _ _ | with_reducible refine Frame.trans (onImport_frame (fun _ _ => ?_)) ?_
    | with_reducible apply Frame.after impPut_frame

/-! ## Operations of Commands -/

theorem importHere_frame : Frame [.ro, .log, .head, .clap, .regs, .doms, .ctxs, .ress, .steps, .blks, .mem, .dirs, .binds, .back, .grds, .fab,
    .days] s (importHere s a) := by
  unfold importHere
  repeat' first
    | with_reducible exact Frame.refl _ _ | with_reducible apply Frame.after importClose_frame
    | with_reducible apply Frame.after importPage_frame | with_reducible apply frame_ite

theorem startExport_frame :
    Frame [.ro, .log, .head, .clap, .regs, .doms, .ctxs, .ress, .steps, .blks, .mem, .dirs, .binds, .back, .grds, .fab,
      .days] s (startExport s a b c) := by
  unfold startExport
  repeat' first
    | with_reducible exact Frame.refl _ _ | with_reducible refine Frame.trans (sendDaily_frame (fun _ _ => ?_)) ?_
    | with_reducible apply Frame.after importHere_frame | with_reducible refine guardPhys_frame ?_ ?_ ?_
    | with_reducible refine guardReads_frame ?_ ?_ ?_ | with_reducible apply Frame.after boundEvt_frame
    | with_reducible apply Frame.after endCmd_frame | decide | with_reducible apply frame_ite | extract_lets
    | with_reducible refine frame_foldl (fun _ _ => ?_) ?_

theorem armImport_frame : Frame [.days] s (armImport s a b c) := by
  unfold armImport
  repeat' first | with_reducible exact Frame.refl _ _ | with_reducible apply Frame.after State.setDay_frame

/-! What each command of a domain does when it runs. -/

theorem specProgLoad_frame : Frame [.ro, .doms, .ctxs, .ress, .progs, .segs, .blks, .mem, .dirs, .back,
  .grds] s ((specProgLoad a b c).run s k) := loadProgram_frame.mono (by decide)

theorem specProgUnload_frame : Frame [.ro, .doms, .ctxs, .ress, .progs, .steps, .segs, .blks, .mem, .dirs, .binds, .back, .grds, .xchs]
    s ((specProgUnload a).run s k) :=
  endCmd_frame.after (unloadProgram_frame.mono (by decide))

theorem specStep_frame : Frame [.ro, .log, .head, .clap, .regs, .ctxs, .progs, .steps, .blks, .mem, .binds, .back, .grds, .fab, .days]
    s ((specStep a b).run s k) :=
  dispatchStep_frame.mono (by decide)

theorem specCopy_frame : Frame [.ro, .log, .head, .clap, .regs, .doms, .ctxs, .ress, .steps, .blks, .mem, .binds, .back, .grds, .fab,
  .days] s ((specCopy a b).run s k) :=
  guardReads_frame (Frame.refl _ _) (endCmd_frame.after (stBytes_frame.mono (by decide)))

theorem specHostWrite_frame : Frame [.ro, .doms, .ctxs, .ress, .blks, .mem, .binds, .back] s ((specHostWrite a b c).run s k) := by
  unfold specHostWrite
  dsimp only
  split
  · exact endCmd_frame.after (stBytes_frame.mono (by decide))
  · exact endCmd_frame.mono (by decide)

theorem specHostRead_frame : Frame [.out, .ro, .log, .head, .clap, .regs, .doms, .ctxs, .ress, .steps, .blks, .grds, .fab,
  .days] s ((specHostRead a b c).run s k) := by
  unfold specHostRead
  dsimp only
  split
  · exact guardReads_frame (Frame.refl _ _) (endCmd_frame.after (State.emit_frame.mono (by decide)))
  · exact endCmd_frame.mono (by decide)

theorem specExport_frame : Frame [.ro, .log, .head, .clap, .regs, .doms, .ctxs, .ress, .steps, .blks, .mem, .dirs, .binds, .back, .grds, .fab,
  .days] s ((specExport a b).run s k) := startExport_frame.mono (by decide)

theorem specImportArm_frame : Frame [.days] s ((specImportArm a b).run s k) := armImport_frame.mono (by decide)

theorem specFreeze_frame : Frame [.ro, .doms, .ctxs, .ress, .dirs] s ((specFreeze a b).run s k) := by
  unfold specFreeze
  exact frame_ite (Frame.refl _ _) (endCmd_frame.after (applyFreeze_frame.mono (by decide)))

theorem specGrade_frame : Frame [.evt, .ro, .doms, .ctxs, .ress, .blks, .mem, .binds, .back, .grds] s ((specGrade a b).run s k) :=
  endCmd_frame.after (grdRequest_frame.mono (by decide))

theorem specFence_frame : Frame [.ro, .doms, .ctxs, .ress] s (specFence.run s k) := endCmd_frame.mono (by decide)

theorem specOf_frame : Frame [.evt, .out, .ro, .log, .head, .clap, .regs, .doms, .ctxs, .ress, .progs, .steps, .segs, .blks, .mem, .dirs,
  .binds, .back, .grds, .fab, .xchs, .days] s ((specOf d desc pay).run s k) := by
  unfold specOf
  split
  · exact specProgLoad_frame.mono (by decide)
  · exact specProgUnload_frame.mono (by decide)
  · exact specStep_frame.mono (by decide)
  · exact specCopy_frame.mono (by decide)
  · exact specHostWrite_frame.mono (by decide)
  · exact specHostRead_frame.mono (by decide)
  · exact specExport_frame.mono (by decide)
  · exact specImportArm_frame.mono (by decide)
  · exact specFreeze_frame.mono (by decide)
  · exact specGrade_frame.mono (by decide)
  · exact specFence_frame.mono (by decide)

theorem admitDeferred_frame : Frame [.evt, .out, .ro, .log, .head, .clap, .regs, .doms, .ctxs, .ress, .progs, .steps, .segs, .blks, .mem,
  .dirs, .binds, .back, .grds, .fab, .xchs, .days] s (admitDeferred s a b c) := by
  unfold admitDeferred
  refine frame_ite (refuse_frame.mono (by decide)) ?_
  split
  · exact refuse_frame.mono (by decide)
  · exact specOf_frame.after (grant_frame.mono (by decide))

/-! ## Operations of Cues -/

theorem restartPort_frame : Frame [.ro, .doms, .ctxs, .ress, .fab] s (restartPort s a) := by
  unfold restartPort
  repeat' first
    | with_reducible exact Frame.refl _ _ | with_reducible apply Frame.after startPort_frame
    | with_reducible apply Frame.after dropQueue_frame | with_reducible apply Frame.after laneCut_frame | with_reducible apply frame_ite

theorem onApply.keepGate_frame : Frame [.blks] s (onApply.keepGate a s b) := by
  unfold onApply.keepGate
  repeat' first | with_reducible exact Frame.refl _ _ | with_reducible apply Frame.after State.setBlk_frame | with_reducible apply frame_ite

theorem onApply_frame : Frame [.mgt, .ro, .doms, .ctxs, .ress, .blks, .fab] t (onApply s t a b) := by
  unfold onApply
  refine frame_ite (frame_ite (State.each_frame (fun _ _ => frame_ite (restartPort_frame.mono (by decide)) (Frame.refl _ _))) (Frame.refl _ _))
    (frame_ite (frame_ite (Frame.put (Frame.refl _ _)) (Frame.refl _ _)) (frame_ite (frame_ite ?_ (Frame.refl _ _)) (Frame.refl _ _)))
  exact frame_foldl (fun _ _ => onApply.keepGate_frame.mono (by decide)) (Frame.refl _ _)

/-! ## Operations of Recovery -/

theorem unitHang_frame : Frame [.ro, .log, .head, .clap, .regs, .ctxs, .steps, .blks, .grds, .fab, .days] s (unitHang s a b) := by
  unfold unitHang
  repeat' first
    | with_reducible exact Frame.refl _ _ | with_reducible apply Frame.after containFault_frame
    | with_reducible apply Frame.after regionFault_frame | with_reducible apply frame_ite

theorem sendHold_frame : Frame [.out] s (sendHold s a) := by
  unfold sendHold
  repeat' first
    | with_reducible exact Frame.refl _ _ | with_reducible apply Frame.after holdFrame_frame | with_reducible apply frame_ite
    | with_reducible refine frame_foldl (fun _ _ => ?_) ?_

theorem chipReset_frame : Frame [.out, .ro, .log, .head, .clap, .regs, .chip, .ctxs, .steps, .blks, .grds, .fab, .days]
    s (chipReset s a b c) := by
  unfold chipReset
  repeat' first
    | with_reducible exact Frame.refl _ _ | with_reducible apply Frame.after State.count_frame
    | with_reducible apply Frame.after sendHold_frame | with_reducible apply Frame.after chipFault_frame | with_reducible apply frame_ite
    | extract_lets | with_reducible refine frame_foldl (fun _ _ => ?_) ?_

theorem dumpSection_frame : Frame [.free] s (dumpSection a b s).2 := by
  unfold dumpSection
  repeat' first
    | with_reducible exact Frame.refl _ _ | with_reducible apply Frame.after State.fresh_frame | with_reducible apply frame_ite_snd

theorem dumpBytes_frame : Frame [.free] s (dumpBytes s a b).2 := by
  unfold dumpBytes
  repeat' first
    | with_reducible exact Frame.refl _ _ | with_reducible apply Frame.after dumpSection_frame | extract_lets
    | with_reducible refine frame_foldl_snd (fun _ _ => ?_) ?_

theorem emptyPools_frame : Frame [.mem, .binds, .back] s (emptyPools s a) := by
  unfold emptyPools
  repeat' first
    | with_reducible exact Frame.refl _ _ | with_reducible apply Frame.after dropHeld_frame | extract_lets
    | with_reducible refine Frame.put ?_

theorem emptyAlus_frame : Frame [.fab, .xchs] s (emptyAlus s a) := by
  unfold emptyAlus
  repeat' first | with_reducible exact Frame.refl _ _ | extract_lets | with_reducible refine Frame.put ?_

theorem linkReset_frame : Frame [.out, .ro, .fab] s (linkReset s a) := by
  unfold linkReset
  extract_lets s1 _ _ s2
  have h1 : Frame [.out, .ro, .fab] s s1 := laneCut_frame.mono (by decide)
  have h2 : Frame [.out, .ro, .fab] s s2 := State.setPort_frame.after h1
  clear_value s1 s2
  exact frame_ite h2 (emitFrame_frame.after h2)

theorem applyLayout_frame : Frame [.ro] s (applyLayout s a) := by
  unfold applyLayout
  exact State.setRo_frame

theorem settle_frame :
    Frame [.out, .ro, .log, .head, .clap, .regs, .doms, .ctxs, .ress, .progs, .steps, .blks, .mem, .dirs, .binds, .back, .grds, .fab, .xchs,
        .days] s (settle a s b) := by
  unfold settle
  repeat' first
    | with_reducible exact Frame.refl _ _ | with_reducible apply Frame.after clipBlock_frame
    | with_reducible apply Frame.after tryFinish_frame | with_reducible apply Frame.after walkBlock_frame
    | with_reducible apply Frame.after afterNorm_frame | with_reducible apply frame_ite
    | extract_lets | with_reducible refine frame_foldl (fun _ _ => ?_) ?_

theorem loadRegion_frame : Frame [.mgt, .ro, .doms, .ctxs, .ress, .blks, .fab] s (loadRegion s a b) := by
  unfold loadRegion
  extract_lets s1 _ s2
  have h1 : Frame [.mgt, .ro, .doms, .ctxs, .ress, .blks, .fab] s s1 := State.each_frame (fun _ _ => loadCopies_frame.mono (by decide))
  clear_value s1
  have h2 : Frame [.mgt, .ro, .doms, .ctxs, .ress, .blks, .fab] s s2 := Frame.put h1
  clear_value s2
  exact onApply_frame.after h2

theorem dropMoves_frame : Frame [.dirs, .back] s (dropMoves s a) := by
  unfold dropMoves
  repeat' first
    | with_reducible exact Frame.refl _ _ | with_reducible refine Frame.trans (State.each_frame (fun _ _ => ?_)) ?_
    | with_reducible apply Frame.after State.setDir_frame | extract_lets | with_reducible refine Frame.put ?_

theorem regionUp_frame :
    Frame [.out, .mgt, .ro, .regs, .doms, .ctxs, .ress, .blks, .mem, .dirs, .binds, .back, .fab, .xchs] s (regionUp s a) := by
  unfold regionUp
  repeat' first
    | with_reducible exact Frame.refl _ _ | with_reducible apply Frame.after takeBank_frame
    | with_reducible apply Frame.after State.setBlk_frame | with_reducible apply Frame.after emptyAlus_frame
    | with_reducible apply Frame.after emptyPools_frame | with_reducible apply Frame.after dropMoves_frame
    | with_reducible apply Frame.after linkReset_frame | with_reducible apply Frame.after State.setReg_frame
    | with_reducible apply Frame.after loadRegion_frame | with_reducible apply Frame.after applyLayout_frame
    | with_reducible apply frame_ite | extract_lets | with_reducible refine frame_foldl (fun _ _ => ?_) ?_

theorem faultTeardown_frame : Frame [.ro, .log, .head, .doms, .ctxs, .ress, .steps, .blks, .back, .grds, .fab, .xchs, .days]
    s (faultTeardown s a b) := by
  unfold faultTeardown
  repeat' first
    | with_reducible exact Frame.refl _ _ | with_reducible apply Frame.after teardown_frame
    | with_reducible apply Frame.after State.count_frame | with_reducible apply Frame.after logFault_frame

theorem clearHolds_frame : Frame [.progs] s (clearHolds s a) := by
  unfold clearHolds
  repeat' first
    | with_reducible exact Frame.refl _ _ | with_reducible apply Frame.after State.setHdr_frame
    | with_reducible refine frame_foldl (fun _ _ => ?_) ?_

theorem restartStep_frame : Frame [.ro, .log, .head, .clap, .regs, .ctxs, .progs, .steps, .blks, .mem, .binds, .back, .grds, .fab, .days]
    s (restartStep s a) := by
  unfold restartStep
  repeat' first
    | with_reducible exact Frame.refl _ _ | with_reducible apply Frame.after State.setStp_frame
    | with_reducible apply Frame.after startAttempt_frame | with_reducible apply Frame.after clearHolds_frame
    | with_reducible apply Frame.after State.count_frame | with_reducible apply Frame.after domNonfin_frame | with_reducible apply frame_ite

theorem refuseStep_frame : Frame [.out, .ro, .doms, .ctxs, .ress, .steps, .blks, .fab] s (refuseStep s a) := by
  unfold refuseStep
  repeat' first
    | with_reducible exact Frame.refl _ _ | with_reducible apply Frame.after modCmd_frame | with_reducible apply Frame.after dropBlock_frame
    | with_reducible apply Frame.after dropTups_frame
    | with_reducible apply Frame.after endCmd_frame | with_reducible apply Frame.after State.setStp_frame | extract_lets
    | with_reducible refine frame_foldl (fun _ _ => ?_) ?_

theorem replayStep_frame :
    Frame [.out, .ro, .log, .head, .clap, .regs, .doms, .ctxs, .ress, .progs, .steps, .blks, .mem, .binds, .back, .grds, .fab, .xchs, .days]
        s (replayStep s a) := by
  unfold replayStep
  repeat' first
    | with_reducible exact Frame.refl _ _ | with_reducible apply Frame.after refuseStep_frame
    | with_reducible apply Frame.after faultTeardown_frame | with_reducible apply Frame.after restartStep_frame
    | with_reducible apply frame_ite

theorem reissueCmd_frame : Frame [.evt, .out, .ro, .log, .head, .clap, .regs, .doms, .ctxs, .ress, .progs, .steps, .segs, .blks, .mem,
  .dirs, .binds, .back, .grds, .fab, .xchs, .days] s (reissueCmd s a) := by
  unfold reissueCmd
  exact frame_ite (startExport_frame.after (frame_foldl (fun _ _ => State.setPort_frame.mono (by decide)) (Frame.refl _ _)))
    (frame_ite (armImport_frame.mono (by decide)) (frame_ite (specFreeze_frame.mono (by decide)) (Frame.refl _ _)))

theorem replayDom_frame :
    Frame [.evt, .out, .ro, .log, .head, .clap, .regs, .doms, .ctxs, .ress, .progs, .steps, .segs, .blks, .mem, .dirs, .binds, .back,
      .grds, .fab, .xchs, .days] s (replayDom a s b) := by
  unfold replayDom
  repeat' first
    | with_reducible exact Frame.refl _ _ | with_reducible apply Frame.after faultTeardown_frame
    | with_reducible apply Frame.after replayStep_frame | with_reducible apply Frame.after reissueCmd_frame | with_reducible apply frame_ite
    | extract_lets | with_reducible refine frame_foldl (fun _ _ => ?_) ?_

theorem resumeCtxs_frame : Frame [.ctxs] s (resumeCtxs s a) := by
  unfold resumeCtxs
  repeat' first | with_reducible exact Frame.refl _ _ | extract_lets | with_reducible refine Frame.put ?_

theorem replay_frame :
    Frame [.evt, .out, .ro, .log, .head, .clap, .regs, .doms, .ctxs, .ress, .progs, .steps, .segs, .blks, .mem, .dirs, .binds, .back,
      .grds, .fab, .xchs, .days] s (replay s a b c) := by
  unfold replay
  repeat' first
    | with_reducible exact Frame.refl _ _ | with_reducible apply Frame.after replayDom_frame | with_reducible apply Frame.after settle_frame
    | extract_lets | with_reducible refine frame_foldl (fun _ _ => ?_) ?_

theorem applyHeld_frame : Frame [.free, .out, .mgt, .ro, .clap, .ctxs, .msix, .blks] s (applyHeld s a) := by
  unfold applyHeld
  repeat' first
    | with_reducible exact Frame.refl _ _ | with_reducible apply Frame.after sqDb_frame | with_reducible apply Frame.after cqDb_frame
    | with_reducible apply Frame.after sqBaseWrite_frame | with_reducible apply Frame.after qCtl_frame
    | with_reducible apply Frame.after barWrite_frame | with_reducible apply Frame.after mbCtl_frame | split

theorem applyAllHeld_frame : Frame [.free, .out, .mgt, .ro, .clap, .ctxs, .msix, .heldBar, .blks] s (applyAllHeld s) := by
  unfold applyAllHeld
  repeat' first
    | with_reducible exact Frame.refl _ _ | with_reducible apply Frame.after applyHeld_frame | extract_lets
    | with_reducible refine frame_foldl (fun _ _ => ?_) ?_ | with_reducible refine Frame.put ?_

theorem regionCmd_frame (hf : ∀ t, Frame w t (f t)) (hw : [.mgt, .ro] ⊆ w := by decide) : Frame w s (regionCmd s a b v f) := by
  have h1 : Frame w s { s with mgt := { s.mgt with cmdPend := s.mgt.cmdPend.erase (kRegCmd a, b) } } :=
    (Frame.put (w := [.mgt, .ro] ) (Frame.refl _ _)).mono hw
  unfold regionCmd
  exact frame_ite (Frame.refl _ _) (frame_ite ((hf _).trans h1) (State.count_frame.after h1 (List.Subset.trans (by decide) hw)))

theorem goOffline_frame : Frame [.out, .ro, .regs] s (goOffline s a) := by
  unfold goOffline
  repeat' first
    | with_reducible exact Frame.refl _ _ | with_reducible apply Frame.after sendHold_frame
    | with_reducible apply Frame.after State.count_frame | with_reducible apply Frame.after State.setReg_frame

end Sys2Proof.Machine
end

