-- ==== Sys2Proof/Laws/Sparse.lean ====
section
/-!
SUPPORT. Laws of sparse lists: a key reads what was written to it, other keys read as before, every write keeps the canonical form.
-/

namespace Sys2Proof.Machine

variable {α : Type} {dflt : Nat → α}

theorem spGet_put_same (l : Sparse α) (k : Nat) (v : α) : spGet dflt (spPut l k v) k = v := by
  induction l with
  | nil => simp [spPut, spGet]
  | cons e l ih =>
    obtain ⟨i, w⟩ := e
    simp only [spPut]
    split
    · simp [spGet, *]
    · split <;> simp [spGet, *]

theorem spGet_put_other (l : Sparse α) {k j : Nat} (v : α) (h : j ≠ k) :
    spGet dflt (spPut l k v) j = spGet dflt l j := by
  induction l with
  | nil => simp [spPut, spGet, Ne.symm h]
  | cons e l ih =>
    obtain ⟨i, w⟩ := e
    simp only [spPut]
    split
    · subst_vars; simp [spGet, Ne.symm h]
    · split <;> simp [spGet, Ne.symm h, ih]

theorem spGet_del_same (l : Sparse α) (k : Nat) : spGet dflt (spDel l k) k = dflt k := by
  induction l with
  | nil => rfl
  | cons e l ih =>
    obtain ⟨i, w⟩ := e
    by_cases h : i = k <;> simp_all [spDel, spGet]

theorem spGet_del_other (l : Sparse α) {k j : Nat} (h : j ≠ k) : spGet dflt (spDel l k) j = spGet dflt l j := by
  induction l with
  | nil => rfl
  | cons e l ih =>
    obtain ⟨i, w⟩ := e
    by_cases hi : i = k
    · subst hi; simp_all [spDel, spGet, Ne.symm h]
    · by_cases hj : i = j <;> simp_all [spDel, spGet]

/-- A key whose entries a filter keeps reads as before. -/
theorem spGet_filter (l : Sparse α) (p : Nat × α → Bool) {k : Nat} (h : ∀ v, p (k, v) = true) : spGet dflt (l.filter p) k = spGet dflt l k := by
  induction l with
  | nil => rfl
  | cons e l ih =>
    obtain ⟨i, w⟩ := e
    by_cases hk : i = k
    · subst hk; simp [h, spGet]
    · simp only [List.filter_cons]
      split <;> simp [spGet, hk, ih]

section
variable [DecidableEq α]

/-- A key reads what was written to it. -/
@[simp] theorem spGet_set_same (l : Sparse α) (k : Nat) (v : α) : spGet dflt (spSet dflt l k v) k = v := by
  unfold spSet
  split
  · rw [spGet_del_same]; exact Eq.symm ‹_›
  · exact spGet_put_same l k v

/-- Another key reads as before. -/
theorem spGet_set_other (l : Sparse α) {k j : Nat} (v : α) (h : j ≠ k) : spGet dflt (spSet dflt l k v) j = spGet dflt l j := by
  unfold spSet
  split
  · exact spGet_del_other l h
  · exact spGet_put_other l v h

/-- What any key reads after a write. -/
theorem spGet_set (l : Sparse α) (k j : Nat) (v : α) : spGet dflt (spSet dflt l k v) j = if j = k then v else spGet dflt l j := by
  split
  · subst_vars; simp
  · exact spGet_set_other l v ‹_›

/-! ## The canonical form -/

/-- A key above a lower bound. -/
def above (lo : Option Nat) (k : Nat) : Prop := ∀ b, lo = some b → b < k

theorem spWfFrom_nil (lo : Option Nat) : spWfFrom dflt lo [] = true := rfl

theorem spWfFrom_cons {lo : Option Nat} {k : Nat} {v : α} {l : Sparse α} :
    spWfFrom dflt lo ((k, v) :: l) = true ↔ above lo k ∧ v ≠ dflt k ∧ spWfFrom dflt (some k) l = true := by
  rw [spWfFrom.eq_def]
  unfold above
  cases lo <;> simp [and_assoc]

theorem above_trans {lo : Option Nat} {i k : Nat} (h : above lo i) (hk : i ≤ k) : above lo k :=
  fun b hb => Nat.lt_of_lt_of_le (h b hb) hk

/-- A list that is well formed above a bound is so above a smaller one. -/
theorem spWfFrom_weaken {lo : Option Nat} {i : Nat} {l : Sparse α} (h : above lo i) (hl : spWfFrom dflt (some i) l = true) :
    spWfFrom dflt lo l = true := by
  cases l with
  | nil => rfl
  | cons e l =>
    obtain ⟨j, w⟩ := e
    rw [spWfFrom_cons] at hl ⊢
    exact ⟨above_trans h (Nat.le_of_lt (hl.1 i rfl)), hl.2⟩

theorem spPut_wf {lo : Option Nat} {l : Sparse α} {k : Nat} {v : α} (hl : spWfFrom dflt lo l = true) (hk : above lo k)
    (hv : v ≠ dflt k) : spWfFrom dflt lo (spPut l k v) = true := by
  induction l generalizing lo with
  | nil => simpa [spPut, spWfFrom_cons, spWfFrom_nil] using ⟨hk, hv⟩
  | cons e l ih =>
    obtain ⟨i, w⟩ := e
    rw [spWfFrom_cons] at hl
    simp only [spPut]
    split
    · subst_vars; exact spWfFrom_cons.2 ⟨hl.1, hv, hl.2.2⟩
    · split
      · refine spWfFrom_cons.2 ⟨hk, hv, spWfFrom_cons.2 ⟨?_, hl.2.1, hl.2.2⟩⟩
        intro b hb; cases hb; assumption
      · refine spWfFrom_cons.2 ⟨hl.1, hl.2.1, ih hl.2.2 ?_⟩
        intro b hb; cases hb; omega

theorem spFilter_wf {lo : Option Nat} {l : Sparse α} (p : Nat × α → Bool) (hl : spWfFrom dflt lo l = true) :
    spWfFrom dflt lo (l.filter p) = true := by
  induction l generalizing lo with
  | nil => rfl
  | cons e l ih =>
    obtain ⟨i, w⟩ := e
    rw [spWfFrom_cons] at hl
    rw [List.filter_cons]
    split
    · exact spWfFrom_cons.2 ⟨hl.1, hl.2.1, ih hl.2.2⟩
    · exact spWfFrom_weaken hl.1 (ih hl.2.2)

/-- Every write keeps the canonical form. -/
theorem spSet_wf {l : Sparse α} (k : Nat) (v : α) (h : spWf dflt l = true) : spWf dflt (spSet dflt l k v) = true := by
  unfold spSet
  split
  · exact spFilter_wf _ h
  · exact spPut_wf h (fun _ hb => by cases hb) ‹_›

/-! ## Consecutive keys -/

/-- Every key of a list lies below a bound. -/
def keysBelow (l : Sparse α) (n : Nat) : Prop := ∀ e ∈ l, e.1 < n

theorem spWf_append {lo : Option Nat} {l m : Sparse α} {n : Nat} (hl : spWfFrom dflt lo l = true) (hn : keysBelow l n)
    (hm : spWfFrom dflt lo m = true) (hlo : ∀ e ∈ m, n ≤ e.1) : spWfFrom dflt lo (l ++ m) = true := by
  induction l generalizing lo with
  | nil => exact hm
  | cons e l ih =>
    obtain ⟨i, w⟩ := e
    rw [spWfFrom_cons] at hl
    rw [List.cons_append]
    refine spWfFrom_cons.2 ⟨hl.1, hl.2.1, ih hl.2.2 (fun e he => hn e (List.mem_cons_of_mem _ he)) ?_⟩
    cases m with
    | nil => rfl
    | cons f m =>
      obtain ⟨j, x⟩ := f
      rw [spWfFrom_cons] at hm
      refine spWfFrom_cons.2 ⟨?_, hm.2⟩
      intro b hb; cases hb
      exact Nat.lt_of_lt_of_le (hn (i, w) List.mem_cons_self) (hlo (j, x) List.mem_cons_self)

theorem spSpan_ge (k : Nat) (vs : List α) : ∀ e ∈ spSpan dflt k vs, k ≤ e.1 ∧ e.1 < k + vs.length := by
  induction vs generalizing k with
  | nil => simp [spSpan]
  | cons v vs ih =>
    intro e he
    simp only [spSpan] at he
    have step : ∀ e ∈ spSpan dflt (k + 1) vs, k ≤ e.1 ∧ e.1 < k + (v :: vs).length := fun e he => by
      have := ih (k + 1) e he
      simp only [List.length_cons]; omega
    split at he
    · exact step e he
    · rcases List.mem_cons.1 he with rfl | he
      · simp
      · exact step e he

theorem spSpan_wf (lo : Option Nat) (k : Nat) (vs : List α) (h : above lo k) : spWfFrom dflt lo (spSpan dflt k vs) = true := by
  induction vs generalizing k lo with
  | nil => rfl
  | cons v vs ih =>
    simp only [spSpan]
    split
    · exact ih lo (k + 1) (above_trans h (Nat.le_succ k))
    · exact spWfFrom_cons.2 ⟨h, ‹_›, ih (some k) (k + 1) (by intro b hb; cases hb; omega)⟩

theorem spTake_wf {lo : Option Nat} {l : Sparse α} (p : Nat × α → Bool) (hl : spWfFrom dflt lo l = true) :
    spWfFrom dflt lo (l.takeWhile p) = true := by
  induction l generalizing lo with
  | nil => rfl
  | cons e l ih =>
    obtain ⟨i, w⟩ := e
    rw [spWfFrom_cons] at hl
    rw [List.takeWhile_cons]
    split
    · exact spWfFrom_cons.2 ⟨hl.1, hl.2.1, ih hl.2.2⟩
    · rfl

theorem spDrop_wf {lo : Option Nat} {l : Sparse α} (p : Nat × α → Bool) (hl : spWfFrom dflt lo l = true) :
    spWfFrom dflt lo (l.dropWhile p) = true := by
  induction l generalizing lo with
  | nil => rfl
  | cons e l ih =>
    obtain ⟨i, w⟩ := e
    have hl' := spWfFrom_cons.1 hl
    rw [List.dropWhile_cons]
    split
    · exact spWfFrom_weaken hl'.1 (ih hl'.2.2)
    · exact hl

/-- In a list whose keys rise, what is left after the keys below a bound lies at or above it. -/
theorem drop_ge {lo : Option Nat} {l : Sparse α} (n : Nat) (hl : spWfFrom dflt lo l = true) :
    ∀ e ∈ l.dropWhile (fun e => e.1 < n), n ≤ e.1 := by
  induction l generalizing lo with
  | nil => simp
  | cons e l ih =>
    obtain ⟨i, w⟩ := e
    rw [spWfFrom_cons] at hl
    rw [List.dropWhile_cons]
    split
    · exact ih hl.2.2
    · rename_i hin
      have hi : n ≤ i := by simpa using hin
      intro e he
      rcases List.mem_cons.1 he with rfl | he
      · exact hi
      · exact Nat.le_trans hi (Nat.le_of_lt (key_gt hl.2.2 e he))
where
  /-- The keys of a list that is well formed above a bound lie above it. -/
  key_gt {b : Nat} {l : Sparse α} (h : spWfFrom dflt (some b) l = true) : ∀ e ∈ l, b < e.1 := by
    induction l generalizing b with
    | nil => simp
    | cons e l ih =>
      obtain ⟨i, w⟩ := e
      rw [spWfFrom_cons] at h
      intro e he
      rcases List.mem_cons.1 he with rfl | he
      · exact h.1 b rfl
      · exact Nat.lt_trans (h.1 b rfl) (ih h.2.2 e he)

omit [DecidableEq α] in
theorem take_lt {l : Sparse α} (n : Nat) : keysBelow (l.takeWhile (fun e => e.1 < n)) n := by
  induction l with
  | nil => intro e he; simp at he
  | cons e l ih =>
    rw [List.takeWhile_cons]
    split
    · intro f hf
      rcases List.mem_cons.1 hf with rfl | hf
      · simpa using ‹decide _ = true›
      · exact ih f hf
    · intro e he; simp at he

/-- Writing consecutive keys keeps the canonical form. -/
theorem spSetList_wf {l : Sparse α} (k : Nat) (vs : List α) (h : spWf dflt l = true) :
    spWf dflt (spSetList dflt l k vs) = true := by
  unfold spSetList spWf
  have h1 := spTake_wf (fun e : Nat × α => decide (e.1 < k)) h
  have h2 := spSpan_wf (dflt := dflt) none k vs (fun _ hb => by cases hb)
  have h3 := spDrop_wf (fun e : Nat × α => decide (e.1 < k + vs.length)) h
  have hs := spSpan_ge (dflt := dflt) k vs
  refine spWf_append (n := k + vs.length) (spWf_append (n := k) h1 (take_lt k) h2 (fun e he => (hs e he).1)) ?_ h3
    (drop_ge _ h)
  intro e he
  rcases List.mem_append.1 he with he | he
  · exact Nat.lt_of_lt_of_le (take_lt k e he) (Nat.le_add_right _ _)
  · exact (hs e he).2

omit [DecidableEq α] in
/-- A key that no entry has reads as its default. -/
theorem spGet_absent {l : Sparse α} {j : Nat} (h : ∀ e ∈ l, e.1 ≠ j) : spGet dflt l j = dflt j := by
  induction l with
  | nil => rfl
  | cons e l ih =>
    obtain ⟨i, w⟩ := e
    have hi : i ≠ j := h (i, w) List.mem_cons_self
    simpa [spGet, hi] using ih (fun e he => h e (List.mem_cons_of_mem _ he))

omit [DecidableEq α] in
/-- A key that the front part does not have is read in the rest. -/
theorem spGet_skip {l m : Sparse α} {j : Nat} (h : ∀ e ∈ l, e.1 ≠ j) : spGet dflt (l ++ m) j = spGet dflt m j := by
  induction l with
  | nil => rfl
  | cons e l ih =>
    obtain ⟨i, w⟩ := e
    have hi : i ≠ j := h (i, w) List.mem_cons_self
    simpa [spGet, hi] using ih (fun e he => h e (List.mem_cons_of_mem _ he))

omit [DecidableEq α] in
/-- A key that the rest does not have is read in the front part. -/
theorem spGet_front {l m : Sparse α} {j : Nat} (h : ∀ e ∈ m, e.1 ≠ j) : spGet dflt (l ++ m) j = spGet dflt l j := by
  induction l with
  | nil => simpa [spGet] using spGet_absent h
  | cons e l ih => simp [spGet, ih]

omit [DecidableEq α] in
/-- A key at or above a bound is read after the entries below it. -/
theorem spGet_drop {l : Sparse α} {n j : Nat} (h : n ≤ j) : spGet dflt (l.dropWhile (fun e => e.1 < n)) j = spGet dflt l j := by
  induction l with
  | nil => rfl
  | cons e l ih =>
    obtain ⟨i, w⟩ := e
    rw [List.dropWhile_cons]
    split
    · rename_i hin
      have : i ≠ j := by have : i < n := by simpa using hin
                         omega
      simpa [spGet, this] using ih
    · rfl

/-- A key below a bound is read before the entries at or above it. -/
theorem spGet_take {l : Sparse α} {n j : Nat} (hl : spWf dflt l = true) (h : j < n) :
    spGet dflt (l.takeWhile (fun e => e.1 < n)) j = spGet dflt l j := by
  have := List.takeWhile_append_dropWhile (p := fun e : Nat × α => decide (e.1 < n)) (l := l)
  conv => rhs; rw [← this]
  refine (spGet_front fun e he => ?_).symm
  have := drop_ge n hl e he
  omega

theorem spGet_span (k : Nat) (vs : List α) (j : Nat) :
    spGet dflt (spSpan dflt k vs) j = if h : k ≤ j ∧ j - k < vs.length then vs[j - k]'h.2 else dflt j := by
  induction vs generalizing k with
  | nil => simp [spSpan, spGet]
  | cons v vs ih =>
    have hskip : j ≠ k → spGet dflt (spSpan dflt (k + 1) vs) j
        = if h : k ≤ j ∧ j - k < (v :: vs).length then (v :: vs)[j - k]'h.2 else dflt j := by
      intro hjk
      rw [ih]
      by_cases hle : k + 1 ≤ j
      · have e : j - k = (j - (k + 1)) + 1 := by omega
        by_cases hlt : j - (k + 1) < vs.length
        · rw [dif_pos ⟨hle, hlt⟩, dif_pos ⟨by omega, by simp only [List.length_cons]; omega⟩]
          simp only [e, List.getElem_cons_succ]
        · rw [dif_neg (by omega), dif_neg (by simp only [List.length_cons]; omega)]
      · rw [dif_neg (by omega), dif_neg (by omega)]
    by_cases hjk : j = k
    · subst hjk
      have hself : ∀ e ∈ spSpan dflt (j + 1) vs, e.1 ≠ j := fun e he => by
        have := spSpan_ge (dflt := dflt) (j + 1) vs e he
        omega
      simp only [spSpan]
      split
      · rw [spGet_absent hself]; simp_all
      · simp [spGet]
    · rw [← hskip hjk]
      simp only [spSpan]
      split
      · rfl
      · simp [spGet, Ne.symm hjk]

/-- What any key reads once a list of consecutive keys has been written: its new value inside them, what it read before outside. -/
theorem spGet_setList {l : Sparse α} (hl : spWf dflt l = true) (k : Nat) (vs : List α) (j : Nat) :
    spGet dflt (spSetList dflt l k vs) j = if h : k ≤ j ∧ j - k < vs.length then vs[j - k]'h.2 else spGet dflt l j := by
  unfold spSetList
  have hs := spSpan_ge (dflt := dflt) k vs
  by_cases hj : j < k
  · rw [spGet_front (fun e he => by have := drop_ge _ hl e he; omega),
      spGet_front (fun e he => by have := hs e he; omega), spGet_take hl hj, dif_neg (by omega)]
  · rw [List.append_assoc, spGet_skip (fun e he => by have := take_lt k e he; omega)]
    by_cases hin : j - k < vs.length
    · rw [spGet_front (fun e he => by have := drop_ge _ hl e he; omega), spGet_span, dif_pos ⟨by omega, hin⟩,
        dif_pos ⟨by omega, hin⟩]
    · rw [spGet_skip (fun e he => by have := hs e he; omega), spGet_drop (by omega), dif_neg (by omega)]

theorem spRun_get {n k : Nat} {l : Sparse α} {lo : Option Nat} (hl : spWfFrom dflt lo l = true) (hk : ∀ e ∈ l, k ≤ e.1) :
    spRun dflt n k l = (List.range n).map (fun i => spGet dflt l (k + i)) := by
  induction n generalizing k l lo with
  | zero => simp [spRun]
  | succ n ih =>
    rw [List.range_succ_eq_map, List.map_cons, List.map_map]
    cases l with
    | nil =>
      rw [spRun, ih (lo := lo) rfl (by simp)]
      simp [spGet, Function.comp_def, Nat.add_assoc, Nat.add_comm 1]
    | cons e l =>
      obtain ⟨i, v⟩ := e
      have hc := spWfFrom_cons.1 hl
      have hgt : ∀ e ∈ l, i < e.1 := drop_ge.key_gt hc.2.2
      rw [spRun]
      by_cases hik : i = k
      · subst hik
        rw [if_pos rfl, ih hc.2.2 (fun e he => hgt e he)]
        simp [spGet, Function.comp_def, Nat.add_assoc, Nat.add_comm 1]
      · have hlt : k < i := Nat.lt_of_le_of_ne (hk _ List.mem_cons_self) (Ne.symm hik)
        rw [if_neg hik, ih hl (fun e he => by
          rcases List.mem_cons.1 he with rfl | he
          · exact hlt
          · exact Nat.lt_trans hlt (hgt e he))]
        simp [spGet, Function.comp_def, hik, Nat.add_assoc, Nat.add_comm 1,
          spGet_absent (fun e he => by have := hgt e he; omega : ∀ e ∈ l, e.1 ≠ k)]

/-- Consecutive keys read together are the keys read one by one. -/
theorem spGetList_eq {l : Sparse α} (hl : spWf dflt l = true) (k n : Nat) :
    spGetList dflt l k n = (List.range n).map (fun i => spGet dflt l (k + i)) := by
  unfold spGetList
  rw [spRun_get (spDrop_wf _ hl) (drop_ge k hl)]
  exact List.map_congr_left (fun i _ => spGet_drop (Nat.le_add_right k i))

end

end Sys2Proof.Machine
end

