-- ==== Sys2Proof/Laws/Keeps.lean ====
section
/-!
SUPPORT. Laws of the invariants of Safety. `Ok w l s` says that the queue of `s` is `l` and that the invariants that `w` names hold. `Ok.frame` says
that an operation whose frame leaves their parts alone keeps them; each other operation on State has a lemma of its own.
-/

set_option autoImplicit true
set_option Elab.async false

namespace Sys2Proof.Machine

/-- What a law carries: that the always-on rails are up, and the three invariants. -/
structure Which where
  up : Prop
  power : Prop
  mem : Prop
  ranges : Prop

/-- The queue of `s` is `l`, and the invariants named hold. -/
structure Ok (w : Which) (l : List Instr) (s : State) : Prop where
  queue : s.pending = l
  up : w.up → s.pwr.supply = .on
  power : w.power → PowerOk s
  mem : w.mem → MemoryOk s
  ranges : w.ranges → RangesOk s

/-- A state made of `s` with other values in the fields that no invariant reads. -/
theorem ok_mk {w : Which} {l : List Instr} {s : State} {ti ev fr ou sec mgt ro flt cp pr st sg bl si di bi ba gr fa xc da}
    (h : Ok w l s) (h1 : sec.lock = s.sec.lock) (h2 : sec.phase = s.sec.phase) (h3 : cp.doms = s.cp.doms) :
    Ok w l ⟨s.pending, ti, ev, fr, ou, s.pwr, sec, mgt, ro, flt, cp, pr, st, sg, bl, si, s.mem, di, bi, ba, gr, fa, xc, da⟩ where
  queue := h.queue
  up hw := h.up hw
  power hw := by
    have k := h.power hw
    exact ⟨k.gov, k.therm, fun hr => by rw [h1]; exact k.locked hr, fun hp => k.secure (by rw [← h2]; exact hp), k.tripped⟩
  mem hw := h.mem hw
  ranges hw := by
    have k := h.ranges hw
    intro d e i hd he a b
    refine k d e i hd he ?_ ?_
    · simpa [holdsCtx, State.dom, h3] using a
    · simpa [holdsCtx, State.dom, h3] using b

theorem ok_ite {w : Which} {l : List Instr} {c : Prop} [Decidable c] {a b : State} (ha : Ok w l a) (hb : Ok w l b) :
    Ok w l (if c then a else b) := by split <;> assumption

theorem ok_ite_fst {w : Which} {l : List Instr} {α : Type} {c : Prop} [Decidable c] {a b : State × α} (ha : Ok w l a.1) (hb : Ok w l b.1) :
    Ok w l (if c then a else b).1 := by split <;> assumption

theorem ok_ite_snd {w : Which} {l : List Instr} {α : Type} {c : Prop} [Decidable c] {a b : α × State} (ha : Ok w l a.2) (hb : Ok w l b.2) :
    Ok w l (if c then a else b).2 := by split <;> assumption

theorem ok_ite_third {w : Which} {l : List Instr} {α β : Type} {c : Prop} [Decidable c] {a b : α × β × State} (ha : Ok w l a.2.2)
    (hb : Ok w l b.2.2) : Ok w l (if c then a else b).2.2 := by split <;> assumption

theorem ok_foldl {w : Which} {l : List Instr} {α : Type} {f : State → α → State} {xs : List α} {s : State}
    (hf : ∀ t x, Ok w l t → Ok w l (f t x)) (h : Ok w l s) : Ok w l (xs.foldl f s) := foldl_inv h hf

theorem ok_foldl_fst {w : Which} {l : List Instr} {α β : Type} {f : State × β → α → State × β} {xs : List α} {y : State × β}
    (hf : ∀ t x, Ok w l t.1 → Ok w l (f t x).1) (h : Ok w l y.1) : Ok w l (xs.foldl f y).1 := foldl_inv (P :=
      fun (y : State × β) => Ok w l y.1) h hf

theorem ok_foldl_snd {w : Which} {l : List Instr} {α β : Type} {f : β × State → α → β × State} {xs : List α} {y : β × State}
    (hf : ∀ t x, Ok w l t.2 → Ok w l (f t x).2) (h : Ok w l y.2) : Ok w l (xs.foldl f y).2 := foldl_inv (P :=
      fun (y : β × State) => Ok w l y.2) h hf

theorem ok_foldl_third {w : Which} {l : List Instr} {α β γ : Type} {f : β × γ × State → α → β × γ × State} {xs : List α} {y : β × γ × State}
    (hf : ∀ t x, Ok w l t.2.2 → Ok w l (f t x).2.2) (h : Ok w l y.2.2) : Ok w l (xs.foldl f y).2.2 :=
  foldl_inv (P := fun (y : β × γ × State) => Ok w l y.2.2) h hf

/-- A state made of `s` with other power registers, too. -/
theorem ok_mk_pwr {w : Which} {l : List Instr} {s : State} {ti ev fr ou pw sec mgt ro flt cp pr st sg bl si di bi ba gr fa xc da}
    (h : Ok w l s) (h1 : PowerOk s → PowerOk ⟨s.pending, ti, ev, fr, ou, pw, sec, mgt, ro, flt, cp, pr, st, sg, bl, si, s.mem, di, bi, ba, gr,
        fa, xc, da⟩)
    (h2 : pw.supply = s.pwr.supply) (h3 : cp.doms = s.cp.doms) :
    Ok w l ⟨s.pending, ti, ev, fr, ou, pw, sec, mgt, ro, flt, cp, pr, st, sg, bl, si, s.mem, di, bi, ba, gr, fa, xc, da⟩ where
  queue := h.queue
  up hw := h2.trans (h.up hw)
  power hw := h1 (h.power hw)
  mem hw := h.mem hw
  ranges hw := by
    have k := h.ranges hw
    intro d e i hd he a b
    refine k d e i hd he ?_ ?_
    · simpa [holdsCtx, State.dom, h3] using a
    · simpa [holdsCtx, State.dom, h3] using b

/-- A write of memory keeps its canonical form. -/
theorem ok_mem {w : Which} {l : List Instr} {s : State} {m : List Host.Cell} {ba} (h : Ok w l s) (hm : MemoryOk s → spWf zeroByte m = true) :
    Ok w l { s with mem := m, back := ba } where
  queue := h.queue
  up hw := h.up hw
  power hw := by have k := h.power hw; exact ⟨k.gov, k.therm, k.locked, k.secure, k.tripped⟩
  mem hw := hm (h.mem hw)
  ranges hw := h.ranges hw

theorem bootRom_lock (c : Sec) (k : BootTests) (r : Bool) : (bootRom c k r).lock = c.lock := by
  unfold bootRom bootSlots startSecure raiseFloors Sec.setFail
  dsimp only
  repeat' first | rfl | split

/-- With the rails up, a law may be carried with that, and given without it. -/
theorem Ok.raise {w : Which} {l : List Instr} {s : State} (h : Ok w l s) (hs : s.pwr.supply = .on) : Ok { w with up := True } l s :=
  ⟨h.queue, fun _ => hs, h.power, h.mem, h.ranges⟩

theorem Ok.lower {w : Which} {l : List Instr} {s : State} (h : Ok { w with up := True } l s) : Ok w l s :=
  ⟨h.queue, fun _ => h.up trivial, h.power, h.mem, h.ranges⟩

/-- A source that reaches the dictionary reaches a module whose always-on rails are up. -/
theorem reaches_up {s : State} {src : Source} (h : reaches s src = true) : s.pwr.supply = .on := by
  cases src <;> simp only [reaches, ctlUp, Bool.and_eq_true, beq_iff_eq] at h
  · exact h.1
  · exact h.1.1.1.1
  · exact h.1.1.1.1

/-- An operation that leaves the queue, the power registers, the security unit, memory and the domains as they are keeps all of it. -/
theorem Ok.frame {s t : State} (g : Frame v s t) (h : Ok w l s) (hv : ∀ p ∈ v, p ∉ [Part.pending, .pwr, .sec, .mem, .doms] := by decide) :
    Ok w l t := by
  have out {p : Part} (hp : p ∈ [Part.pending, .pwr, .sec, .mem, .doms]) : p ∉ v := fun k => hv p k hp
  have hd : ∀ d, t.dom d = s.dom d := g.get_dom (out (by decide))
  refine ⟨(g.pending (out (by decide))).trans h.queue, ?_, ?_, ?_, ?_⟩
  · rw [g.pwr (out (by decide))]; exact h.up
  · intro hw
    have k := h.power hw
    constructor <;> rw [g.pwr (out (by decide))]
    · exact k.gov
    · exact k.therm
    · rw [g.sec (out (by decide))]; exact k.locked
    · rw [g.sec (out (by decide))]; exact k.secure
    · exact k.tripped
  · rw [MemoryOk, g.mem (out (by decide))]; exact h.mem
  · intro hw d e k
    simp only [holdsCtx, hd]
    exact h.ranges hw d e k

variable {w : Which} {l : List Instr}

/-! ## Operations of Ops -/

/-- A domain record written: one that is not FREE keeps its context range, and was not FREE before. -/
theorem State.setDom_ok (h : Ok w l a0)
    (hx : a2.st ≠ .free → (a0.dom a1).st ≠ .free ∧ a2.qbase = (a0.dom a1).qbase ∧ a2.qcount = (a0.dom a1).qcount) :
    Ok w l (State.setDom a0 a1 a2) where
  queue := h.queue
  up hw := h.up hw
  power hw := by have k := h.power hw; exact ⟨k.gov, k.therm, k.locked, k.secure, k.tripped⟩
  mem hw := h.mem hw
  ranges hw := by
    have k := h.ranges hw
    have key : ∀ d i, holdsCtx (a0.setDom a1 a2) d i → holdsCtx a0 d i := by
      intro d i a
      by_cases hd : d = a1
      · subst hd
        have hv : (a0.setDom d a2).dom d = a2 := spGet_set_same _ _ _
        rw [holdsCtx, hv] at a
        obtain ⟨x1, x2, x3⟩ := hx a.1
        exact ⟨x1, x2 ▸ a.2.1, by rw [← x2, ← x3]; exact a.2.2⟩
      · have hv : (a0.setDom a1 a2).dom d = a0.dom d := spGet_set_other _ _ hd
        rw [holdsCtx, hv] at a
        exact a
    exact fun d e i hd he a b => k d e i hd he (key d i a) (key e i b)

theorem State.setPort_ok (h : Ok w l a0) : Ok w l (State.setPort a0 a1 a2) := h.frame State.setPort_frame

theorem State.emit_ok (h : Ok w l a0) : Ok w l (State.emit a0 a1) := h.frame State.emit_frame

theorem State.count_ok (h : Ok w l a0) : Ok w l (State.count a0 a1 a2) := h.frame State.count_frame

theorem State.wr_ok (h : Ok w l a0) : Ok w l (State.wr a0 a1 a2) :=
  ok_mem h (fun hm => spSet_wf _ _ hm)

theorem State.wrBytes_ok (h : Ok w l a0) : Ok w l (State.wrBytes a0 a1 a2) :=
  ok_mem h (fun hm => spSetList_wf _ _ hm)

theorem State.wrNat_ok (h : Ok w l a0) : Ok w l (State.wrNat a0 a1 a2 a3) := by
  unfold State.wrNat
  repeat' first | with_reducible assumption | with_reducible apply State.wrBytes_ok

theorem State.each_ok (h : Ok w l a1) (f3 : ∀ t x1, Ok w l t → Ok w l (a3 t x1)) : Ok w l (State.each a1 a2 a3) := by
  unfold State.each
  repeat' first | with_reducible assumption | with_reducible apply f3 | with_reducible refine ok_foldl (fun _ _ _ => ?_) ?_

/-! ## Operations of Takes -/

theorem loadUnit_ok (h : Ok w l a0) : Ok w l (loadUnit a0 a1) := h.frame loadUnit_frame

theorem cueBank_ok (h : Ok w l a0) : Ok w l (cueBank a0 a1) := by
  unfold cueBank
  repeat' first
    | with_reducible assumption | with_reducible intro _ | with_reducible apply State.each_ok | with_reducible apply Ok.frame takeBank_frame
    | with_reducible apply ok_ite | extract_lets | dsimp only | with_reducible apply ok_mk

theorem strikeCue_ok (h : Ok w l a0) : Ok w l (strikeCue a0 a1) := by
  unfold strikeCue
  repeat' first
    | with_reducible assumption | with_reducible intro _ | with_reducible apply Ok.frame makeTake_frame | with_reducible apply State.each_ok
    | with_reducible apply Ok.frame loadGroup_frame | with_reducible apply Ok.frame cueLs_frame
    | with_reducible apply Ok.frame State.count_frame | with_reducible apply cueBank_ok | with_reducible apply Ok.frame wakeBlk_frame
    | extract_lets | split | dsimp only | with_reducible apply ok_mk

/-! ## Operations of Power -/

theorem dataLost_ok (h : Ok w l a0) : Ok w l (dataLost a0) where
  queue := h.queue
  up hw := h.up hw
  power hw := by
    have k := h.power hw
    exact ⟨k.gov, k.therm, fun hr => absurd rfl hr, k.secure, fun ht => ⟨rfl, (k.tripped ht).2⟩⟩
  mem _ := rfl
  ranges _ := fun d e k _ _ a _ => absurd rfl a.1

theorem coldOff_ok (h : Ok w l a0) (hu : ¬ w.up) : Ok w l (coldOff a0) where
  queue := h.queue
  up hw := absurd hw hu
  power _ := ⟨show legalStep 56 from ⟨by decide, by decide⟩, show legalStep 56 from ⟨by decide, by decide⟩,
    fun hr => absurd rfl hr, (fun hp => nomatch hp),
    fun ht => by rcases ht with ht | ht <;> cases ht⟩
  mem _ := rfl
  ranges _ := fun d e k _ _ a _ => absurd rfl a.1

theorem setTj_ok (h : Ok w l a0) : Ok w l (setTj a0 a1 a2 a3 a4) :=
  ok_mk_pwr h (fun k => ⟨k.gov, k.therm, k.locked, k.secure, k.tripped⟩) rfl rfl

theorem linkDown_ok (h : Ok w l a0) : Ok w l (linkDown a0) := by
  unfold linkDown
  repeat' first | with_reducible assumption | extract_lets | dsimp only | with_reducible apply ok_mk

/-! ## Operations of Boot -/

/-- The boot lock set with the always-on rails up. -/
theorem setLock_ok (h : Ok w l a0) (hu : w.power → w.up) : Ok w l (setLock a0) := by
  refine ⟨h.queue, h.up, fun hw => ?_, h.mem, h.ranges⟩
  have k := h.power hw
  have hs := h.up (hu hw)
  refine ⟨k.gov, k.therm, fun _ => ⟨hs, rfl⟩, fun _ => hs, fun ht => ?_⟩
  have := k.tripped ht
  exact ⟨by simp [setLock, this], this.2⟩

/-! ## Operations of Security -/

theorem restartFw_ok (h : Ok w l a0) : Ok w l (restartFw a0 a1) := by
  unfold restartFw
  repeat' first
    | with_reducible assumption | with_reducible apply Ok.frame State.count_frame | extract_lets | dsimp only | with_reducible apply ok_mk

theorem endTrial_ok (h : Ok w l a0) : Ok w l (endTrial a0) := by
  unfold endTrial
  repeat' first
    | with_reducible assumption | with_reducible apply restartFw_ok | with_reducible apply Ok.frame logFault_frame | extract_lets
    | dsimp only | with_reducible apply ok_mk

theorem fwVerify_ok (h : Ok w l a0) : Ok w l (fwVerify a0).2 := by
  unfold fwVerify
  exact ok_ite_snd h (ok_mk h rfl rfl rfl)

/-- Slots written leave the lock and the phase as they are. -/
theorem setSlots_mode (g : Sec → Nat → Area) (ns : List Nat) (c : Sec) :
    (ns.foldl (fun c n => c.setSlot n (g c n)) c).lock = c.lock ∧ (ns.foldl (fun c n => c.setSlot n (g c n)) c).phase = c.phase := by
  induction ns generalizing c with
  | nil => exact ⟨rfl, rfl⟩
  | cons n ns ih =>
    have k : (c.setSlot n (g c n)).lock = c.lock ∧ (c.setSlot n (g c n)).phase = c.phase := by
      unfold Sec.setSlot; split <;> exact ⟨rfl, rfl⟩
    exact ⟨(ih _).1.trans k.1, (ih _).2.trans k.2⟩

theorem fwChecked_mode (c : Sec) : (fwChecked c).lock = c.lock ∧ (fwChecked c).phase = c.phase := by
  unfold fwChecked
  dsimp only
  split
  · exact setSlots_mode _ _ c
  · exact ⟨rfl, rfl⟩

theorem fwWritten_mode (c : Sec) : (fwWritten c).lock = c.lock ∧ (fwWritten c).phase = c.phase := setSlots_mode _ _ c

/-- The ROM run again: it keeps the lock, and what it starts runs with the always-on rails up. -/
theorem ok_rom (h : Ok w l a0) (hu : w.power → w.up) (hc : c.lock = a0.sec.lock) :
    Ok w l { a0 with sec := c } := by
  refine ⟨h.queue, h.up, fun hw => ?_, h.mem, h.ranges⟩
  have k := h.power hw
  exact ⟨k.gov, k.therm, fun hr => ⟨(k.locked hr).1, hc.trans (k.locked hr).2⟩, fun _ => h.up (hu hw), k.tripped⟩

theorem bootFrom_ok (h : Ok w l a0) (hu : w.power → w.up) (hc : c.lock = a0.sec.lock) : Ok w l (bootFrom a0 c) := by
  unfold bootFrom
  have h1 : Ok w l { a0 with sec := c } := ok_rom h hu hc
  dsimp only
  split
  · exact Ok.frame State.setRo_frame (State.each_ok (ok_mk (s := { a0 with sec := c }) h1 rfl rfl rfl) (fun _ _ h => loadUnit_ok h))
  · exact ok_mk (s := { a0 with sec := c }) h1 rfl rfl rfl

theorem recoverySwitch_ok (h : Ok w l a0) (hu : w.power → w.up) : Ok w l (recoverySwitch a0) := bootFrom_ok h hu (bootRom_lock _ _ _)

theorem fwSwitch_ok (h : Ok w l a0) (hu : w.power → w.up) : Ok w l (fwSwitch a0).2 := by
  unfold fwSwitch
  repeat' first
    | with_reducible assumption | with_reducible apply recoverySwitch_ok | with_reducible apply restartFw_ok
    | with_reducible apply ok_ite_snd | extract_lets | dsimp only | with_reducible apply ok_mk

theorem fwClear_ok (h : Ok w l a0) : Ok w l (fwClear a0).2 := by
  unfold fwClear
  repeat' first | with_reducible assumption | with_reducible apply ok_ite_snd | extract_lets | dsimp only | with_reducible apply ok_mk

theorem fwOperation_ok (h : Ok w l a0) (hu : w.power → w.up) : Ok w l (fwOperation a0 a1).2 := by
  unfold fwOperation
  repeat' first
    | with_reducible assumption | with_reducible apply fwVerify_ok | with_reducible apply fwSwitch_ok | with_reducible apply fwClear_ok
    | with_reducible apply ok_ite_snd

theorem fwCommand_ok (h : Ok w l a0) (hu : w.power → w.up) : Ok w l (fwCommand a0 a1).2 := by
  unfold fwCommand
  exact ok_ite_snd (ok_mk (fwOperation_ok h hu) rfl rfl rfl) (fwOperation_ok h hu)

theorem bootLockWrite_ok (h : Ok w l a0) (hu : w.power → w.up) : Ok w l (bootLockWrite a0 a1).2 := by
  unfold bootLockWrite
  split
  · exact setLock_ok h hu
  · split <;> exact h

theorem policyNext_ok (h : Ok w l a0) : Ok w l (policyNext a0 a1).2 := by
  unfold policyNext
  repeat' first | with_reducible assumption | with_reducible apply ok_ite_snd | extract_lets | dsimp only | with_reducible apply ok_mk

theorem ideControl_ok (h : Ok w l a0) : Ok w l (ideControl a0 a1).2 := by
  unfold ideControl
  repeat' first | with_reducible assumption | with_reducible apply ok_ite_snd | extract_lets | dsimp only | with_reducible apply ok_mk

/-! ## Operations of Mgmt -/

theorem cueWrite_ok (h : Ok w l a0) : Ok w l (cueWrite a0 a1).2 := by
  unfold cueWrite
  repeat' first | with_reducible assumption | with_reducible apply strikeCue_ok | with_reducible apply ok_ite_snd

theorem takeRevert_ok (h : Ok w l a0) : Ok w l (takeRevert a0).2 := by
  unfold takeRevert
  repeat' first
    | with_reducible assumption | with_reducible apply Ok.frame State.count_frame | with_reducible apply strikeCue_ok
    | with_reducible apply Ok.frame storeTake_frame | with_reducible apply ok_ite_snd | extract_lets | dsimp only
    | with_reducible apply ok_mk

theorem takeCommand_ok (h : Ok w l a0) : Ok w l (takeCommand a0 a1).2 := by
  unfold takeCommand
  repeat' first
    | with_reducible assumption | with_reducible apply takeRevert_ok | with_reducible apply Ok.frame takeDiscard_frame
    | with_reducible apply Ok.frame takeDefaults_frame | with_reducible apply ok_ite_snd

theorem writeFixed_ok (h : Ok w l a0) (hu : w.power → w.up) : Ok w l (writeFixed a0 a1 a2 a3 a4).2 := by
  unfold writeFixed
  repeat' first
    | with_reducible assumption | with_reducible apply cueWrite_ok | with_reducible apply takeCommand_ok
    | with_reducible apply Ok.frame clapCommand_frame | with_reducible apply Ok.frame logAck_frame
    | with_reducible apply Ok.frame dumpRelease_frame | with_reducible apply Ok.frame ucodeCommand_frame
    | with_reducible apply bootLockWrite_ok | with_reducible apply fwCommand_ok | with_reducible apply ideControl_ok
    | with_reducible apply policyNext_ok | with_reducible apply Ok.frame lsWrite_frame | with_reducible apply Ok.frame shadowWrite_frame
    | with_reducible apply ok_ite_snd | extract_lets | dsimp only | with_reducible apply ok_mk

theorem blobStore_ok (h : Ok w l a0) : Ok w l (blobStore a0 a1 a2 a3) := by
  unfold blobStore
  repeat' first | with_reducible assumption | with_reducible apply ok_ite | extract_lets | split | dsimp only | with_reducible apply ok_mk

theorem writeBlob_ok (h : Ok w l a0) : Ok w l (writeBlob a0 a1 a2 a3 a4).2 := by
  unfold writeBlob
  repeat' first | with_reducible assumption | with_reducible apply blobStore_ok | with_reducible apply ok_ite_snd

theorem writeOp_ok (h : Ok w l a0) (hu : w.power → w.up) : Ok w l (writeOp a0 a1 a2 a3 a4 a5).2 := by
  unfold writeOp
  repeat' first
    | with_reducible assumption | with_reducible apply writeBlob_ok | with_reducible apply writeFixed_ok | with_reducible apply ok_ite_snd

theorem dictOp_ok (h : Ok w l a0) (hu : w.power → w.up) : Ok w l (dictOp a0 a1 a2 a3).2.2 := by
  unfold dictOp
  repeat' first
    | with_reducible assumption | with_reducible apply Ok.frame State.count_frame | with_reducible apply writeOp_ok
    | with_reducible apply ok_ite_third | extract_lets | split

theorem dictOpCounted_ok (h : Ok w l a0) (hu : w.power → w.up) : Ok w l (dictOpCounted a0 a1 a2 a3).2.2 := by
  unfold dictOpCounted
  repeat' first | with_reducible assumption | with_reducible apply dictOp_ok | with_reducible apply Ok.frame State.countIf_frame

/-! ## Operations of Dictionary -/

theorem signalMsix_ok (h : Ok w l a0) : Ok w l (signalMsix a0 a1 a2) := h.frame signalMsix_frame

theorem runRaw_ok (h : Ok w l a0) (hu : w.power → w.up) : Ok w l (runRaw a0 a1 a2).2 := by
  unfold runRaw
  repeat' first
    | with_reducible assumption | with_reducible apply Ok.frame State.countIf_frame | with_reducible apply dictOpCounted_ok | split

theorem runOps_ok (h : Ok w l a2) (hu : w.power → w.up) : Ok w l (runOps a0 a1 a2).2 := by
  induction a1 generalizing a2 with
  | nil => exact h
  | cons o xs ih => exact ih (runRaw_ok h hu)

theorem runMessage_ok (h : Ok w l a0) (hu : w.power → w.up) : Ok w l (runMessage a0 a1 a2).2 := by
  unfold runMessage
  repeat' first | with_reducible assumption | with_reducible apply runOps_ok | with_reducible apply ok_ite_snd | extract_lets | split

theorem opRow_ok (h : Ok w l a0) : Ok w l (opRow a0 a1 a2 a3 a4) := by
  unfold opRow
  split
  · rename_i hr
    exact State.emit_ok (dictOpCounted_ok (h.raise (reaches_up hr)) (fun _ => trivial)).lower
  · exact h

theorem answerDatagram_ok (h : Ok w l a0) (hu : w.power → w.up) : Ok w l (answerDatagram a0 a1) := by
  unfold answerDatagram
  repeat' first
    | with_reducible assumption | with_reducible apply Ok.frame State.count_frame | with_reducible apply runMessage_ok
    | with_reducible apply Ok.frame State.emit_frame | extract_lets | split | dsimp only | with_reducible apply ok_mk

theorem t1sMessage_ok (h : Ok w l a0) : Ok w l (t1sMessage a0 a1) := by
  have h0 : Ok w l (a0.count (kT1s 0) 1) := h.frame State.count_frame
  unfold t1sMessage
  dsimp only
  split
  · exact h0.frame State.count_frame
  · rename_i hs
    have hr : reaches a0 a1.src = true := by
      cases hn : reaches a0 a1.src <;> simp [hn] at hs ⊢
    exact ok_ite (answerDatagram_ok (h0.raise (reaches_up hr)) (fun _ => trivial)).lower
      (ok_ite (ok_mk h0 rfl rfl rfl) (h0.frame State.count_frame))

theorem ctlUp_up {s : State} (h : ctlUp s = true) : s.pwr.supply = .on := by
  simp only [ctlUp, Bool.and_eq_true, beq_iff_eq] at h
  exact h.1.1

theorem answerQueue_ok (h : Ok w l a0) : Ok w l (answerQueue a0) := by
  unfold answerQueue
  split
  · rename_i hc
    have hs := ctlUp_up (Bool.and_eq_true_iff.1 hc).1
    have h1 : Ok _ l { a0 with mgt := { a0.mgt with rxq := [] } } := ok_mk (h.raise hs) rfl rfl rfl
    exact (ok_foldl (fun _ _ ht => answerDatagram_ok ht (fun _ => trivial)) h1).lower
  · exact h

theorem mailboxMessage_ok (h : Ok w l a0) : Ok w l (mailboxMessage a0) := by
  unfold mailboxMessage
  dsimp only
  split
  · exact h
  · rename_i hs
    have hs : a0.pwr.supply = .on := by
      simp only [ctlUp, Bool.or_eq_true, Bool.not_eq_true', not_or, Bool.not_eq_false, Bool.and_eq_true, beq_iff_eq] at hs
      exact hs.2.1.1
    have h1 := fun bs => State.count_ok (a1 := kDict 0) (a2 := 1) (runMessage_ok (a1 := .mailbox) (a2 :=
      bs) (h.raise hs) (fun _ => trivial)).lower
    exact ok_ite (ok_mk (h1 _) rfl rfl rfl) (ok_ite (signalMsix_ok (ok_mk (h1 _) rfl rfl rfl)) (ok_mk (h1 _) rfl rfl rfl))

theorem writeRow_ok (h : Ok w l a0) : Ok w l (writeRow a0 a1 a2 a3 a4 a5) := by
  unfold writeRow
  repeat' first | with_reducible assumption | with_reducible apply opRow_ok

/-! ## Operations of Control -/

theorem onQueue_ok (h : Ok w l a0) (f2 : ∀ t x1, Ok w l t → Ok w l (a2 t x1)) : Ok w l (onQueue a0 a1 a2) := by
  unfold onQueue
  repeat' first | with_reducible assumption | with_reducible apply f2 | with_reducible apply Ok.frame barDrop_frame | split

theorem atBar_ok (h : Ok w l a0) (f2 : ∀ t, Ok w l t → Ok w l (a2 t)) : Ok w l (atBar a0 a1 a2) := by
  unfold atBar
  repeat' first
    | with_reducible assumption | with_reducible apply f2 | with_reducible apply Ok.frame holdBar_frame | with_reducible apply ok_ite

theorem refuse_ok (h : Ok w l a0) : Ok w l (refuse a0 a1 a2 a3) := h.frame refuse_frame

theorem grant_ok (h : Ok w l a0) : Ok w l (grant a0 a1 a2) := by
  unfold grant
  repeat' first
    | with_reducible assumption | with_reducible exact fun h => ⟨h, rfl, rfl⟩ | with_reducible apply Ok.frame State.setCtx_frame
    | with_reducible apply State.setDom_ok | with_reducible apply Ok.frame State.setRes_frame
    | with_reducible apply Ok.frame State.count_frame | with_reducible apply ok_ite

theorem deferCmd_ok (h : Ok w l a0) : Ok w l (deferCmd a0 a1 a2 a3) := by
  unfold deferCmd
  repeat' first
    | with_reducible assumption | with_reducible exact fun h => ⟨h, rfl, rfl⟩ | with_reducible apply Ok.frame State.setCtx_frame
    | with_reducible apply Ok.frame State.count_frame | with_reducible apply State.setDom_ok
    | with_reducible apply Ok.frame writeNotice_frame

theorem runCommand_ok {x : CmdSpec} (h : Ok w l s) (hx : ∀ t k, Ok w l t → Ok w l (x.run t k)) : Ok w l (runCommand s d q desc x) := by
  have hr : ∀ k c r, Ok w l (refuse s k c r) := fun _ _ _ => h.frame refuse_frame
  have hd : ∀ k c b, Ok w l (deferCmd s k c b) := fun _ _ _ => deferCmd_ok h
  unfold runCommand
  split
  · exact h
  · dsimp only
    refine ok_ite h (ok_ite (h.frame ctxError_frame) (ok_ite (ok_ite h (hr _ _ _)) (ok_ite (hr _ _ _) (ok_ite (hr _ _ _) ?_))))
    split
    · exact hr _ _ _
    · exact ok_ite (hd _ _ _) (ok_ite (hd _ _ _) (ok_ite h (hx _ _ (grant_ok h))))

theorem returnCredits_ok (h : Ok w l a0) : Ok w l (returnCredits a0 a1) := by
  unfold returnCredits
  repeat' first
    | with_reducible assumption | with_reducible exact fun h => ⟨h, rfl, rfl⟩ | with_reducible apply State.setDom_ok
    | with_reducible apply ok_ite

theorem closeMuted_ok (h : Ok w l a0) : Ok w l (closeMuted a0 a1 a2) := by
  unfold closeMuted
  repeat' first
    | with_reducible assumption | with_reducible apply returnCredits_ok | with_reducible apply Ok.frame publish_frame
    | with_reducible apply Ok.frame State.countIf_frame | with_reducible apply Ok.frame State.count_frame
    | with_reducible apply Ok.frame State.setCtx_frame

theorem endCmd_ok (h : Ok w l a0) : Ok w l (endCmd a0 a1 a2 a3 a4) := by
  unfold endCmd
  repeat' first
    | with_reducible assumption | with_reducible apply closeMuted_ok | with_reducible apply Ok.frame State.setCtx_frame
    | with_reducible apply ok_ite | extract_lets | split

theorem complete_ok (h : Ok w l a0) : Ok w l (complete a0 a1 a2 a3) := by
  unfold complete
  repeat' first
    | with_reducible assumption | with_reducible apply Ok.frame publish_frame | with_reducible apply Ok.frame State.setCtx_frame
    | with_reducible apply Ok.frame State.countIf_frame | with_reducible apply returnCredits_ok
    | with_reducible apply Ok.frame State.count_frame | with_reducible apply Ok.frame coalesce_frame
    | with_reducible apply Ok.frame putRecord_frame | with_reducible apply Ok.frame ctxError_frame
    | with_reducible apply Ok.frame strike_frame | with_reducible apply ok_ite

/-- Each domain keeps its state and its context range. -/
def SameRanges (s t : State) : Prop := ∀ e, (t.dom e).st = (s.dom e).st ∧ (t.dom e).qbase = (s.dom e).qbase ∧ (t.dom e).qcount = (s.dom e).qcount

theorem SameRanges.refl (s : State) : SameRanges s s := fun _ => ⟨rfl, rfl, rfl⟩

theorem SameRanges.after (g : SameRanges b c) (h : SameRanges a b) : SameRanges a c := fun e =>
  ⟨(g e).1.trans (h e).1, (g e).2.1.trans (h e).2.1, (g e).2.2.trans (h e).2.2⟩

theorem SameRanges.frame (g : Frame v s t) (hv : Part.doms ∉ v := by decide) : SameRanges s t := fun e => by
  rw [g.get_dom hv e]; exact ⟨rfl, rfl, rfl⟩

theorem returnCredits_ranges : SameRanges s (returnCredits s c) := by
  unfold returnCredits
  split
  · intro e
    simp only [State.dom, State.setDom, spGet_set]
    split
    · subst_vars; exact ⟨rfl, rfl, rfl⟩
    · exact ⟨rfl, rfl, rfl⟩
  · exact .refl s

theorem closeMuted_ranges : SameRanges s (closeMuted s k c) := by
  unfold closeMuted
  exact (SameRanges.frame State.countIf_frame).after ((SameRanges.frame State.countIf_frame).after ((SameRanges.frame State.count_frame).after
    ((SameRanges.frame State.setCtx_frame).after (returnCredits_ranges.after (.frame publish_frame)))))

theorem closeMutes_ranges : SameRanges s (closeMutes s d) := by
  unfold closeMutes State.each
  refine foldl_inv (P := fun t => SameRanges s t) (.refl s) (fun t k h => ?_)
  split
  · split
    · exact closeMuted_ranges.after h
    · exact h
  · exact h

theorem closeMutes_ok (h : Ok w l a0) : Ok w l (closeMutes a0 a1) := by
  unfold closeMutes
  refine State.each_ok h (fun t k h => ?_)
  split
  · exact ok_ite (closeMuted_ok h) h
  · exact h

/-- A domain torn down is TEARING: its range is kept. -/
theorem teardown_ok (h : Ok w l a0) : Ok w l (teardown a0 a1) := by
  unfold teardown
  split
  · exact h
  · rename_i hc
    extract_lets st s0 s1 _ s2 _ s3 s4 s5
    have h0 : Ok w l s0 := ok_ite h (h.frame modCmd_frame)
    have e : SameRanges a0 s1 := by
      refine closeMutes_ranges.after ((SameRanges.frame mapCtxs_frame).after ?_)
      unfold s0
      split
      · exact .refl a0
      · exact .frame modCmd_frame
    have h2 : Ok w l s2 := by
      refine State.setDom_ok (closeMutes_ok (h0.frame mapCtxs_frame)) (fun _ => ⟨?_, rfl, rfl⟩)
      rw [(e a1).1]
      intro hf
      simp [hf] at hc
    clear_value s2
    have h3 : Ok w l s3 := (h2.frame State.setStp_frame).frame (State.each_frame (w := [.ro, .blks]) (fun _ _ => dropBlock_frame))
    clear_value s3
    have h4 : Ok w l s4 := h3.frame (State.each_frame (w := [.fab]) (fun _ _ => dropPort_frame))
    clear_value s4
    have h5 : Ok w l s5 := (h4.frame dropDaily_frame).frame quarHeld_frame
    clear_value s5
    exact ok_mk h5 rfl rfl rfl

theorem adminDone_ok (h : Ok w l a0) : Ok w l (adminDone a0 a1 a2) := by
  unfold adminDone
  repeat' first | with_reducible assumption | with_reducible apply endCmd_ok

theorem runAdmin_ok (h : Ok w l a0) (f3 : ∀ t, Ok w l t → Ok w l (a3 t).2.1) : Ok w l (runAdmin a0 a1 a2 a3) := by
  unfold runAdmin
  repeat' first
    | with_reducible assumption | with_reducible apply f3 | with_reducible apply Ok.frame ctxError_frame
    | with_reducible apply Ok.frame refuse_frame | with_reducible apply Ok.frame State.setCtx_frame
    | with_reducible apply Ok.frame State.count_frame | with_reducible apply ok_ite

theorem perstCmd_ok (h : Ok w l a0) : Ok w l (perstCmd a0 a1) := by
  unfold perstCmd
  repeat' first
    | with_reducible assumption | with_reducible intro _ | with_reducible apply closeMuted_ok
    | with_reducible apply Ok.frame State.setCtx_frame | with_reducible apply State.each_ok | with_reducible apply Ok.frame stopExport_frame
    | with_reducible apply Ok.frame State.setDay_frame | with_reducible apply ok_ite | extract_lets | split

theorem flrDom_ok (h : Ok w l a0) : Ok w l (flrDom a0 a1) := by
  unfold flrDom
  repeat' first
    | with_reducible assumption | with_reducible apply Ok.frame mapCtxs_frame | with_reducible apply teardown_ok
    | with_reducible apply ok_ite

/-! ## Operations of Memory -/

theorem slotOp_ok (h : Ok w l a0) : Ok w l (slotOp a0 a1 a2) := by
  unfold slotOp
  repeat' first | with_reducible assumption | with_reducible apply State.wrBytes_ok

theorem slotOps_ok (h : Ok w l a0) : Ok w l (slotOps a0 a1 a2) := by
  unfold slotOps
  repeat' first | with_reducible assumption | with_reducible apply slotOp_ok | split | with_reducible refine ok_foldl (fun _ _ _ => ?_) ?_

theorem zeroRange_ok (h : Ok w l a0) : Ok w l (zeroRange a0 a1 a2) :=
  ok_mem h (fun hm => spFilter_wf _ hm)

theorem onBound_ok (h : Ok w l a0) : Ok w l (onBound a0 a1 a2) := by
  unfold onBound
  repeat' first
    | with_reducible assumption | with_reducible apply slotOps_ok | with_reducible apply Ok.frame anomaly_frame
    | with_reducible apply Ok.frame countDeposit_frame | with_reducible apply zeroRange_ok
    | with_reducible apply Ok.frame State.setBind_frame | with_reducible apply Ok.frame unready_frame
    | with_reducible apply Ok.frame State.count_frame | with_reducible apply ok_ite | extract_lets | split

theorem slotWrite_ok (h : Ok w l a0) : Ok w l (slotWrite a0 a1) := by
  unfold slotWrite
  repeat' first
    | with_reducible assumption | with_reducible apply Ok.frame holdSlot_frame | with_reducible apply onBound_ok
    | with_reducible apply slotOps_ok | with_reducible apply Ok.frame State.setBind_frame | with_reducible apply Ok.frame countDeposit_frame
    | with_reducible apply Ok.frame markSpl_frame | with_reducible apply Ok.frame State.count_frame | with_reducible apply ok_ite
    | extract_lets | split

theorem releaseHeld_ok (h : Ok w l a0) (f2 : ∀ t x1, Ok w l t → Ok w l (a2 t x1)) : Ok w l (releaseHeld a0 a1 a2) := by
  unfold releaseHeld
  repeat' first
    | with_reducible assumption | with_reducible apply f2 | with_reducible apply Ok.frame postOwed_frame | extract_lets
    | with_reducible refine ok_foldl (fun _ _ _ => ?_) ?_ | dsimp only | with_reducible apply ok_mk

theorem consumeLine_ok (h : Ok w l a0) : Ok w l (consumeLine a0 a1 a2).2 := by
  unfold consumeLine
  repeat' first
    | with_reducible assumption | with_reducible apply zeroRange_ok | with_reducible apply Ok.frame unbind_frame
    | with_reducible apply Ok.frame State.setBind_frame | with_reducible apply ok_ite | split

theorem consumeSlot_ok (h : Ok w l a0) : Ok w l (consumeSlot a0 a1).2 := by
  unfold consumeSlot
  repeat' first | with_reducible assumption | with_reducible apply Ok.frame unbind_frame | with_reducible apply zeroRange_ok | split

theorem stLine_ok (h : Ok w l a3) : Ok w l (stLine a0 a1 a2 a3 a4) := by
  unfold stLine
  repeat' first
    | with_reducible assumption | with_reducible apply Ok.frame boundEvt_frame | with_reducible apply State.wrBytes_ok
    | with_reducible apply slotWrite_ok | split

theorem stBytes_ok (h : Ok w l a0) : Ok w l (stBytes a0 a1 a2 a3 a4 a5) := by
  unfold stBytes
  repeat' first | with_reducible assumption | with_reducible apply stLine_ok | with_reducible refine ok_foldl (fun _ _ _ => ?_) ?_

theorem depositAdds_ok (h : Ok w l a0) : Ok w l (depositAdds a0 a1 a2 a3 a4 a5 a6 a7 a8) := by
  unfold depositAdds
  repeat' first
    | with_reducible assumption | with_reducible apply slotWrite_ok | with_reducible apply Ok.frame boundEvt_frame
    | with_reducible refine ok_foldl (fun _ _ _ => ?_) ?_

theorem depositAll_ok (h : Ok w l a0) : Ok w l (depositAll a0 a1 a2 a3 a4 a5 a6 a7) := by
  unfold depositAll
  repeat' first | with_reducible assumption | with_reducible apply depositAdds_ok

theorem modRec_ok (h : Ok w l a0) : Ok w l (modRec a0 a1 a2 a3 a4) := by
  unfold modRec
  repeat' first | with_reducible assumption | with_reducible apply stBytes_ok | with_reducible apply Ok.frame boundEvt_frame

theorem updRecord_ok (h : Ok w l a0) : Ok w l (updRecord a0 a1 a2 a3 a4 a5) := by
  unfold updRecord
  repeat' first | with_reducible assumption | with_reducible apply modRec_ok

theorem payOwed_ok (h : Ok w l a0) : Ok w l (payOwed a0 a1 a2 a3) := by
  unfold payOwed
  repeat' first
    | with_reducible assumption | with_reducible apply Ok.frame setNonfin_frame | with_reducible apply updRecord_ok
    | with_reducible apply stBytes_ok | extract_lets | split | with_reducible refine ok_foldl (fun _ _ _ => ?_) ?_

/-! ## Operations of Load -/

theorem writeReels_ok (h : Ok w l a0) : Ok w l (writeReels a0 a1 a2) := by
  unfold writeReels
  repeat' first | with_reducible assumption | with_reducible apply State.wrBytes_ok | with_reducible apply zeroRange_ok

theorem writePages_ok (h : Ok w l a0) : Ok w l (writePages a0 a1) := by
  unfold writePages
  repeat' first
    | with_reducible assumption | with_reducible apply zeroRange_ok | with_reducible apply writeReels_ok | extract_lets
    | with_reducible refine ok_foldl (fun _ _ _ => ?_) ?_

theorem installImage_ok (h : Ok w l a0) : Ok w l (installImage a0 a1 a2 a3) := by
  unfold installImage
  repeat' first
    | with_reducible assumption | exact fun h => ⟨h, rfl, rfl⟩ | with_reducible intro _ | with_reducible apply writePages_ok
    | with_reducible apply State.setDom_ok | with_reducible apply Ok.frame State.setProg_frame | with_reducible apply State.each_ok
    | with_reducible apply Ok.frame State.setBlk_frame

theorem loadProgram_ok (h : Ok w l a0) : Ok w l (loadProgram a0 a1 a2 a3) := by
  unfold loadProgram
  repeat' first
    | with_reducible assumption | with_reducible apply endCmd_ok | with_reducible apply Ok.frame modCmd_frame
    | with_reducible refine Ok.frame (placeImage_frame (by assumption)) ?_ | with_reducible apply installImage_ok | extract_lets | split

theorem dropBinds_ok (h : Ok w l a0) : Ok w l (dropBinds a0 a1) := by
  unfold dropBinds
  repeat' first
    | with_reducible assumption | with_reducible apply Ok.frame unbind_frame | with_reducible apply zeroRange_ok
    | with_reducible refine ok_foldl (fun _ _ _ => ?_) ?_

theorem unloadProgram_ok (h : Ok w l a0) : Ok w l (unloadProgram a0 a1) := by
  unfold unloadProgram
  repeat' first
    | with_reducible assumption | with_reducible apply Ok.frame dropHeld_frame | with_reducible apply Ok.frame State.count_frame
    | with_reducible apply dropBinds_ok | extract_lets | dsimp only | with_reducible apply ok_mk

theorem lastRecord_ok (h : Ok w l a1) : Ok w l (lastRecord a0 a1 a2) := by
  unfold lastRecord
  repeat' first
    | with_reducible assumption | with_reducible apply complete_ok | with_reducible apply closeMuted_ok | with_reducible apply ok_ite
    | split

/-! ## Operations of MemUnit -/

theorem tearLost_ok (h : Ok w l a0) : Ok w l (tearLost a0 a1) := by
  unfold tearLost
  repeat' first
    | with_reducible assumption | with_reducible apply teardown_ok | with_reducible apply closeMutes_ok | with_reducible apply Ok.frame mapCtxs_frame
    | with_reducible apply ok_ite

theorem failPackage_ok (h : Ok w l a0) : Ok w l (failPackage a0 a1) := by
  unfold failPackage
  repeat' first
    | with_reducible assumption | with_reducible intro _ | with_reducible apply Ok.frame endOp_frame
    | with_reducible apply Ok.frame setPkg_frame | with_reducible apply State.each_ok | with_reducible apply Ok.frame logFault_frame
    | with_reducible apply tearLost_ok | extract_lets | split | dsimp only | with_reducible apply ok_mk

theorem guardReads_ok (h : Ok w l s) (ht : Ok w l t) : Ok w l (guardReads s d rs t) := by
  unfold guardReads
  split
  · exact h.frame poisonFault_frame
  · exact ht

theorem guardPhys_ok (h : Ok w l s) (ht : Ok w l t) : Ok w l (guardPhys s  rs t) := by
  unfold guardPhys
  split
  · exact h.frame poisonFault_frame
  · exact ht

/-! ## Operations of Sequencer -/

theorem openBuf_ok (h : Ok w l a1) : Ok w l (openBuf a0 a1 a2) := by
  unfold openBuf
  repeat' first | with_reducible assumption | with_reducible apply guardReads_ok | with_reducible apply modRec_ok | extract_lets | split

theorem startAttempt_ok (h : Ok w l a0) : Ok w l (startAttempt a0 a1 a2) := by
  unfold startAttempt
  repeat' first
    | with_reducible assumption | with_reducible apply Ok.frame State.setStp_frame | with_reducible apply Ok.frame startBlock_frame
    | with_reducible apply Ok.frame holdAdds_frame | with_reducible apply openBuf_ok | extract_lets
    | with_reducible refine ok_foldl (fun _ _ _ => ?_) ?_

theorem dispatchStep_ok (h : Ok w l a0) : Ok w l (dispatchStep a0 a1 a2 a3) := by
  unfold dispatchStep
  repeat' first
    | with_reducible assumption | with_reducible apply Ok.frame State.setRo_frame | with_reducible apply Ok.frame State.setStp_frame
    | with_reducible apply startAttempt_ok | with_reducible apply Ok.frame State.setProg_frame

theorem startItem_ok (h : Ok w l a0) (f4 : ∀ t x1 x2, Ok w l t → Ok w l (a4 t x1 x2)) : Ok w l (startItem a0 a1 a2 a3 a4) := by
  unfold startItem
  repeat' first
    | with_reducible assumption | with_reducible apply f4 | with_reducible apply Ok.frame traceItem_frame
    | with_reducible apply Ok.frame State.setBlk_frame | with_reducible apply ok_ite | extract_lets | split

theorem doRecord_ok (h : Ok w l a2) : Ok w l (doRecord a0 a1 a2 a3 a4) := by
  unfold doRecord
  exact guardReads_ok h (ok_foldl (fun _ _ ht => ok_ite (modRec_ok ht) (modRec_ok ht)) h)

/-! ## Operations of Operands -/

theorem stScale_ok (h : Ok w l a0) : Ok w l (stScale a0 a1 a2 a3 a4) := by
  unfold stScale
  repeat' first | with_reducible assumption | with_reducible apply State.wrBytes_ok | with_reducible apply ok_ite

theorem stScales_ok (h : Ok w l a0) : Ok w l (stScales a0 a1 a2 a3 a4) := by
  unfold stScales
  repeat' first | with_reducible assumption | with_reducible apply stScale_ok | with_reducible refine ok_foldl (fun _ _ _ => ?_) ?_

/-! ## Operations of Flags -/

theorem runOnce_ok (h : Ok w l s) (hf : ∀ t, Ok w l t → Ok w l (f t)) : Ok w l (runOnce s a b c f) := by
  unfold runOnce
  exact ok_ite (h.frame State.setBlk_frame) (hf s h)

/-! ## Operations of Chain -/

theorem writeLine_ok (h : Ok w l a4.1) : Ok w l (writeLine a0 a1 a2 a3 a4 a5).1 := by
  unfold writeLine
  repeat' first
    | with_reducible assumption | with_reducible apply stScales_ok | with_reducible apply stBytes_ok | with_reducible apply ok_ite_fst

theorem depositItem_ok (h : Ok w l a0) : Ok w l (depositItem a0 a1 a2 a3 a4 a5) := by
  unfold depositItem
  repeat' first | with_reducible assumption | with_reducible apply depositAll_ok

/-- A chain run. -/
theorem runChain_ok (h : Ok w l s) : Ok w l (runChain s b pos dom src c tile).st := by
  unfold runChain
  dsimp only
  refine Ok.frame setSts_frame (ok_ite ?_ (stBytes_ok ?_))
  all_goals exact ok_foldl_fst (fun _ _ ht => writeLine_ok ht) (h.frame boundEvt_frame)

theorem chainWork_ok (h : Ok w l a4) : Ok w l (chainWork a0 a1 a2 a3 a4) := by
  unfold chainWork
  exact Ok.frame oweItem_frame (ok_ite (depositItem_ok (runChain_ok h)) ((depositItem_ok (runChain_ok h)).frame touchItem_frame))

theorem doChain_ok (h : Ok w l a3) : Ok w l (doChain a0 a1 a2 a3 a4 a5) := guardReads_ok h (guardPhys_ok h
  (((runOnce_ok h (fun _ ht => chainWork_ok ht) : Ok w l _).frame applyVecPerf_frame).frame applyMemEvents_frame))

/-! ## Operations of Tile -/

theorem writeDrain_ok (h : Ok w l a3.1) : Ok w l (writeDrain a0 a1 a2 a3 a4).1 := by
  unfold writeDrain
  repeat' first
    | with_reducible assumption | with_reducible apply stBytes_ok | with_reducible apply stScale_ok | with_reducible apply ok_ite_fst
    | extract_lets | with_reducible refine ok_foldl (fun _ _ _ => ?_) ?_

theorem mapIssue_ok (h : Ok w l a0) : Ok w l (mapIssue a0 a1 a2 a3) := by
  unfold mapIssue
  repeat' first | with_reducible assumption | with_reducible apply stBytes_ok | with_reducible apply Ok.frame boundEvt_frame

theorem mapDrain_ok (h : Ok w l a5) : Ok w l (mapDrain a0 a1 a2 a3 a4 a5 a6) := by
  unfold mapDrain
  repeat' first
    | with_reducible assumption | with_reducible apply stBytes_ok | with_reducible apply Ok.frame State.countIf_frame
    | with_reducible apply Ok.frame State.count_frame | with_reducible apply Ok.frame boundEvt_frame | with_reducible apply ok_ite

theorem runTileOnce_ok (h : Ok w l s) (hf : ∀ t, Ok w l t → Ok w l (f t)) : Ok w l (runTileOnce s a b c f) := by
  unfold runTileOnce
  exact ok_ite ((runOnce_ok h hf).frame countTile_frame) (hf s h)

/-- A tile operation run. -/
theorem runTile_ok (h : Ok w l s) : Ok w l (runTile s b pos dom src t fed).st := by
  unfold runTile
  dsimp only
  refine Ok.frame countTile_frame (Ok.frame setSts_frame (Ok.frame setNonfin_frame (ok_ite ?_ (updRecord_ok ?_))))
  all_goals
    refine ok_ite (ok_foldl (fun _ _ ht => mapDrain_ok ht) ?_) ?_
  all_goals
    refine ok_foldl_fst (fun _ _ ht => writeDrain_ok ht) (ok_ite (mapIssue_ok ?_) ?_)
  all_goals exact Ok.frame boundEvt_frame (ok_ite h (h.frame holdArrays_frame))

theorem tileWork_ok (h : Ok w l a4) : Ok w l (tileWork a0 a1 a2 a3 a4) := by
  unfold tileWork
  exact Ok.frame oweItem_frame (Ok.frame touchItem_frame (depositItem_ok (runTile_ok h)))

theorem doTile_ok (h : Ok w l a3) : Ok w l (doTile a0 a1 a2 a3 a4 a5) := guardReads_ok h (guardPhys_ok h
  (((runTileOnce_ok h (fun _ ht => tileWork_ok ht) : Ok w l _).frame applyArrPerf_frame).frame applyMemEvents_frame))

theorem tileVecWork_ok (h : Ok w l a4) : Ok w l (tileVecWork a0 a1 a2 a3 a4) := by
  unfold tileVecWork
  exact Ok.frame oweItem_frame (Ok.frame touchItem_frame (depositItem_ok (runTile_ok (runChain_ok h))))

theorem doTileVec_ok (h : Ok w l a3) : Ok w l (doTileVec a0 a1 a2 a3 a4 a5) := guardReads_ok h (guardPhys_ok h
  ((((runTileOnce_ok h (fun _ ht => tileVecWork_ok ht) : Ok w l _).frame applyVecPerf_frame).frame applyArrPerf_frame).frame
    applyMemEvents_frame))

/-! ## Operations of Cutter -/

theorem writeReel_ok (h : Ok w l a0) : Ok w l (writeReel a0 a1 a2 a3) := by
  unfold writeReel
  repeat' first | with_reducible assumption | with_reducible apply State.wrBytes_ok

theorem dailyAside_ok (h : Ok w l a0) : Ok w l (dailyAside a0 a1 a2) := by
  unfold dailyAside
  repeat' first
    | with_reducible assumption | with_reducible apply stBytes_ok | with_reducible apply Ok.frame State.count_frame
    | with_reducible apply Ok.frame setPageState_frame | with_reducible apply ok_ite

theorem emitBlock_ok (h : Ok w l a9.1) : Ok w l (emitBlock a0 a1 a2 a3 a4 a5 a6 a7 a8 a9 a10).1 := by
  unfold emitBlock
  repeat' first
    | with_reducible assumption | with_reducible apply stBytes_ok | with_reducible apply stScale_ok | extract_lets | split
    | with_reducible refine ok_foldl (fun _ _ _ => ?_) ?_

theorem emitPage_ok (h : Ok w l a0) : Ok w l (emitPage a0 a1 a2 a3 a4 a5 a6 a7).1 := by
  unfold emitPage
  repeat' first
    | with_reducible assumption | with_reducible apply emitBlock_ok | with_reducible apply updRecord_ok | extract_lets | split
    | with_reducible refine ok_foldl_fst (fun _ _ _ => ?_) ?_

theorem emitStep_ok (h : Ok w l a0) : Ok w l (emitStep a0 a1 a2 a3 a4 a5) := by
  unfold emitStep
  repeat' first | with_reducible assumption | with_reducible apply emitPage_ok | with_reducible apply Ok.frame setNonfin_frame

theorem doSurvey_ok (h : Ok w l a1) : Ok w l (doSurvey a0 a1 a2 a3) := by
  unfold doSurvey
  exact guardReads_ok h (stBytes_ok (h.frame boundEvt_frame))

theorem cutItem_ok (h : Ok w l a0) (f4 : ∀ t x1 x2, Ok w l t → Ok w l (a4 t x1 x2)) : Ok w l (cutItem a0 a1 a2 a3 a4) := by
  unfold cutItem
  repeat' first
    | with_reducible assumption | with_reducible apply Ok.frame unrunItem_frame | with_reducible apply Ok.frame drainTrace_frame
    | with_reducible apply startItem_ok | with_reducible apply ok_ite | extract_lets | split

theorem writeDin_ok (h : Ok w l a0) : Ok w l (writeDin a0 a1 a2 a3 a4 a5 a6) := by
  unfold writeDin
  repeat' first | with_reducible assumption | with_reducible apply stBytes_ok

theorem passPage_ok (h : Ok w l a0) : Ok w l (passPage a0 a1 a2 a3 a4 a5 a6 a7) := by
  unfold passPage
  repeat' first
    | with_reducible assumption | with_reducible apply dailyAside_ok | with_reducible apply Ok.frame State.setBlk_frame
    | with_reducible apply Ok.frame setNonfin_frame | with_reducible apply writeReel_ok | with_reducible apply writeDin_ok
    | with_reducible apply Ok.frame State.count_frame | with_reducible apply Ok.frame State.setDir_frame | with_reducible apply ok_ite

theorem passFrozen_ok (h : Ok w l a0) : Ok w l (passFrozen a0 a1 a2 a3 a4 a5 a6) := by
  unfold passFrozen
  repeat' first
    | with_reducible assumption | with_reducible apply writeDin_ok | with_reducible apply Ok.frame State.count_frame
    | with_reducible apply ok_ite

theorem passEmit_ok (h : Ok w l a0) : Ok w l (passEmit a0 a1 a2 a3 a4 a5 a6) := by
  unfold passEmit
  repeat' first
    | with_reducible assumption | with_reducible apply Ok.frame setPass_frame | with_reducible apply emitStep_ok
    | with_reducible apply ok_ite

theorem takeSlot_ok (h : Ok w l a0) : Ok w l (takeSlot a0 a1 a2 a3 a4) := by
  unfold takeSlot
  repeat' first
    | with_reducible assumption | with_reducible apply Ok.frame setPass_frame | with_reducible apply consumeSlot_ok
    | with_reducible apply Ok.frame State.setBlk_frame | with_reducible apply passFrozen_ok | with_reducible apply passPage_ok
    | with_reducible apply Ok.frame markSpl_frame | with_reducible apply Ok.frame passEnd_frame | with_reducible apply passEmit_ok
    | with_reducible apply ok_ite

theorem takeGuarded_ok (h : Ok w l a0) : Ok w l (takeGuarded a0 a1 a2 a3 a4) := by
  unfold takeGuarded
  exact ok_ite (takeSlot_ok h) (guardReads_ok h (guardPhys_ok h (takeSlot_ok h)))

theorem dirTile_ok (h : Ok w l a6) : Ok w l (dirTile a0 a1 a2 a3 a4 a5 a6 a7) := by
  unfold dirTile
  repeat' first
    | with_reducible assumption | with_reducible apply Ok.frame holdDir_frame | with_reducible apply Ok.frame setNonfin_frame
    | with_reducible apply stBytes_ok | with_reducible apply Ok.frame boundEvt_frame | with_reducible apply Ok.frame countEvts_frame
    | with_reducible apply Ok.frame setSts_frame | with_reducible apply Ok.frame State.count_frame
    | with_reducible apply Ok.frame countTile_frame

theorem doDir_ok (h : Ok w l a3) : Ok w l (doDir a0 a1 a2 a3 a4 a5) := by
  unfold doDir
  exact guardReads_ok h (Ok.frame applyMemEvents_frame (Ok.frame applyArrPerf_frame (ok_foldl (fun _ _ ht => dirTile_ok ht) h)))

theorem finishPage_ok (h : Ok w l a0) : Ok w l (finishPage a0 a1 a2 a3 a4) := by
  unfold finishPage
  repeat' first
    | with_reducible assumption | with_reducible apply dailyAside_ok | with_reducible apply Ok.frame boundEvt_frame
    | with_reducible apply Ok.frame State.countIf_frame | with_reducible apply Ok.frame setNonfin_frame | with_reducible apply writeReel_ok

theorem finishSlot_ok (h : Ok w l a1) : Ok w l (finishSlot a0 a1 a2) := by
  unfold finishSlot
  repeat' first
    | with_reducible assumption | with_reducible apply Ok.frame setPass_frame | with_reducible apply Ok.frame poisonFault_frame
    | with_reducible apply finishPage_ok | with_reducible apply emitStep_ok | with_reducible apply ok_ite | extract_lets | split

theorem finishRun_ok (h : Ok w l a0) : Ok w l (finishRun a0 a1) := by
  unfold finishRun
  repeat' first
    | with_reducible assumption | with_reducible apply Ok.frame passEnd_frame | with_reducible apply finishSlot_ok | extract_lets | split
    | with_reducible refine ok_foldl (fun _ _ _ => ?_) ?_

theorem doFinish_ok (h : Ok w l a2) : Ok w l (doFinish a0 a1 a2 a3 a4) := by
  unfold doFinish
  repeat' first
    | with_reducible assumption | with_reducible apply finishRun_ok | with_reducible apply Ok.frame setPass_frame
    | with_reducible apply Ok.frame applyMemEvents_frame

theorem passResume_ok (h : Ok w l a0) : Ok w l (passResume a0 a1 a2 a3) := by
  unfold passResume
  repeat' first
    | with_reducible assumption | with_reducible apply Ok.frame setPass_frame | with_reducible apply finishRun_ok
    | with_reducible apply Ok.frame passEnd_frame | with_reducible apply ok_ite

theorem passStreamEnd_ok (h : Ok w l a0) : Ok w l (passStreamEnd a0 a1 a2) := by
  unfold passStreamEnd
  repeat' first
    | with_reducible assumption | with_reducible apply passResume_ok | with_reducible apply Ok.frame setPageState_frame
    | with_reducible apply Ok.frame State.count_frame | with_reducible apply ok_ite | extract_lets | split

theorem moveEnd_ok (h : Ok w l a0) : Ok w l (moveEnd a0 a1 a2) := by
  unfold moveEnd
  dsimp only
  split
  · exact h
  · rename_i m _
    have h1 : ∀ x, Ok w l ((applyMemEvents (a0.wrBytes m.2 (a0.rdBytes ((a0.dir a1).addr * 2 ^ 18) 0x40000)) a2).setDir a1 x) := fun x =>
      Ok.frame State.setDir_frame (Ok.frame applyMemEvents_frame (State.wrBytes_ok h))
    exact guardPhys_ok h (ok_mk (h1 _) rfl rfl rfl)

/-! ## Operations of Runs -/

theorem settleItem_ok (h : Ok w l a0) : Ok w l (settleItem a0 a1 a2 a3) := by
  unfold settleItem
  repeat' first
    | with_reducible assumption | with_reducible apply Ok.frame countRunEvts_frame | with_reducible apply payOwed_ok | extract_lets | split

/-! ## Operations of Fabric -/

theorem exportEnd_ok (h : Ok w l a0) : Ok w l (exportEnd a0 a1) := by
  unfold exportEnd
  repeat' first | with_reducible assumption | with_reducible apply endCmd_ok | with_reducible apply ok_ite

theorem dropQueue_ok (h : Ok w l a0) : Ok w l (dropQueue a0 a1) := by
  unfold dropQueue
  repeat' first
    | with_reducible assumption | with_reducible apply exportEnd_ok | with_reducible apply Ok.frame State.count_frame
    | with_reducible apply Ok.frame State.setPort_frame | extract_lets | with_reducible refine ok_foldl (fun _ _ _ => ?_) ?_

/-! ## Operations of Transfers -/

theorem fabricAdds_ok (h : Ok w l a0) : Ok w l (fabricAdds a0 a1 a2 a3 a4 a5 a6 a7) := by
  unfold fabricAdds
  exact guardReads_ok h (depositAdds_ok h)

theorem performPacket_ok (h : Ok w l a0) : Ok w l (performPacket a0 a1) := by
  unfold performPacket
  repeat' first
    | with_reducible assumption | with_reducible apply stBytes_ok | with_reducible apply fabricAdds_ok
    | with_reducible apply Ok.frame postSignal_frame | with_reducible apply Ok.frame storedBy_frame | with_reducible apply ok_ite

theorem onPacket_ok (h : Ok w l a0) (f4 : ∀ t x1, Ok w l t → Ok w l (a4 t x1)) : Ok w l (onPacket a0 a1 a2 a3 a4) := by
  unfold onPacket
  repeat' first
    | with_reducible assumption | with_reducible apply f4 | with_reducible apply Ok.frame takeRx_frame
    | with_reducible apply Ok.frame State.count_frame | with_reducible apply ok_ite | extract_lets | split

theorem consumeRange_ok (h : Ok w l a0) : Ok w l (consumeRange a0 a1 a2 a3).2.2 := by
  unfold consumeRange
  refine ok_foldl_third (fun r x hr => ?_) h
  split
  · exact consumeLine_ok hr
  · exact hr

theorem readSource_ok (h : Ok w l a0) : Ok w l (readSource a0 a1 a2 a3).2 := by
  unfold readSource
  repeat' first
    | with_reducible assumption | with_reducible apply consumeRange_ok | with_reducible apply Ok.frame boundEvt_frame
    | with_reducible apply ok_ite_snd

theorem sendPackets_ok (h : Ok w l a0) : Ok w l (sendPackets a0 a1 a2 a3) := by
  unfold sendPackets
  repeat' first
    | with_reducible assumption | with_reducible apply performPacket_ok | with_reducible apply Ok.frame originate_frame | extract_lets
    | split | with_reducible refine ok_foldl (fun _ _ _ => ?_) ?_

theorem doXfer_ok (h : Ok w l a1) : Ok w l (doXfer a0 a1 a2 a3) := by
  unfold doXfer
  exact guardReads_ok h (sendPackets_ok (Ok.frame markXfer_frame (ok_ite_snd h (readSource_ok h))))

theorem atRoot_ok (h : Ok w l a0) : Ok w l (atRoot a0 a1 a2) := by
  unfold atRoot
  repeat' first
    | with_reducible assumption | with_reducible apply Ok.frame postSignal_frame | with_reducible apply fabricAdds_ok
    | with_reducible apply Ok.frame toNeighbour_frame | with_reducible apply ok_ite | extract_lets
    | with_reducible refine ok_foldl (fun _ _ _ => ?_) ?_

theorem chunkDone_ok (h : Ok w l a0) : Ok w l (chunkDone a0 a1 a2) := by
  unfold chunkDone
  repeat' first
    | with_reducible assumption | with_reducible apply Ok.frame toNeighbour_frame | with_reducible apply atRoot_ok | extract_lets | split
    | dsimp only | with_reducible apply ok_mk

theorem combRun_ok (h : Ok w l a1) : Ok w l (combRun a0 a1) := by
  induction a0 generalizing a1 with
  | zero => exact h
  | succ n ih =>
    unfold combRun
    split
    · exact h
    · exact ih (chunkDone_ok (ok_mk h rfl rfl rfl))

theorem ownTree_ok (h : Ok w l a0) : Ok w l (ownTree a0 a1 a2 a3) := by
  unfold ownTree
  exact guardReads_ok h (Ok.frame postSignal_frame (depositAdds_ok h))

theorem doTree_ok (h : Ok w l a1) : Ok w l (doTree a0 a1 a2 a3) := by
  have h1 : Ok w l (markXfer (readSource a1 a0 (a1.blk a0).dom (xferOf a3.xfer)).2 (a1.blk a0).dom) :=
    Ok.frame markXfer_frame (readSource_ok h)
  unfold doTree
  refine guardReads_ok h ?_
  split
  · exact ownTree_ok h1
  · exact ok_ite (ok_foldl (fun _ _ ht => chunkDone_ok ht) h1) (combRun_ok (ok_mk h1 rfl rfl rfl))

theorem tupInto_ok (h : Ok w l a0) : Ok w l (tupInto a0 a1 a2 a3) := by
  unfold tupInto
  repeat' first | with_reducible assumption | with_reducible apply combRun_ok | extract_lets | dsimp only | with_reducible apply ok_mk

theorem onCombine_ok (h : Ok w l a0) (f3 : ∀ t x1, Ok w l t → Ok w l (a3 t x1)) : Ok w l (onCombine a0 a1 a2 a3) := by
  unfold onCombine
  repeat' first
    | with_reducible assumption | with_reducible apply f3 | with_reducible apply Ok.frame takeRx_frame
    | with_reducible apply Ok.frame State.count_frame | with_reducible apply ok_ite | extract_lets | split

/-! ## Operations of Commit -/

theorem dropOrphans_ok (h : Ok w l a0) : Ok w l (dropOrphans a0 a1) := by
  unfold dropOrphans
  repeat' first
    | with_reducible assumption | with_reducible apply Ok.frame State.count_frame | with_reducible apply Ok.frame setNonfin_frame
    | with_reducible apply Ok.frame unbind_frame | with_reducible apply zeroRange_ok | with_reducible refine ok_foldl (fun _ _ _ => ?_) ?_

theorem reportBlock_ok (h : Ok w l a0) : Ok w l (reportBlock a0 a1) := by
  unfold reportBlock
  repeat' first
    | with_reducible assumption | with_reducible apply dropOrphans_ok | with_reducible apply Ok.frame State.setBlk_frame
    | with_reducible apply Ok.frame State.setStp_frame

theorem clipPage_ok (h : Ok w l a2) : Ok w l (clipPage a0 a1 a2 a3) := by
  unfold clipPage
  repeat' first
    | with_reducible assumption | with_reducible apply dailyAside_ok | with_reducible apply Ok.frame State.count_frame
    | with_reducible apply writeReel_ok

theorem clipLayer_ok (h : Ok w l a3) : Ok w l (clipLayer a0 a1 a2 a3 a4) := by
  unfold clipLayer
  repeat' first
    | with_reducible assumption | with_reducible apply clipPage_ok | with_reducible apply emitPage_ok | with_reducible apply ok_ite
    | extract_lets | split | with_reducible refine ok_foldl (fun _ _ _ => ?_) ?_

theorem clipBlock_ok (h : Ok w l a2) : Ok w l (clipBlock a0 a1 a2 a3) := by
  unfold clipBlock
  repeat' first
    | with_reducible assumption | with_reducible apply guardReads_ok | with_reducible apply guardPhys_ok | with_reducible apply clipLayer_ok | with_reducible apply Ok.frame State.count_frame
    | with_reducible apply Ok.frame State.setStp_frame | with_reducible apply ok_ite | extract_lets
    | with_reducible refine ok_foldl (fun _ _ _ => ?_) ?_

theorem headerToken_ok (h : Ok w l a1) : Ok w l (headerToken a0 a1 a2) := by
  unfold headerToken
  repeat' first
    | with_reducible assumption | with_reducible apply modRec_ok | with_reducible apply Ok.frame State.setHdr_frame
    | with_reducible apply ok_ite | extract_lets | split

theorem factorToken_ok (h : Ok w l a1) : Ok w l (factorToken a0 a1 a2) := by
  unfold factorToken
  repeat' first
    | with_reducible assumption | with_reducible apply Ok.frame State.countIf_frame | with_reducible apply stBytes_ok
    | with_reducible apply ok_ite

theorem slotToken_ok (h : Ok w l a2) : Ok w l (slotToken a0 a1 a2 a3) := by
  unfold slotToken
  repeat' first
    | with_reducible assumption | with_reducible apply stBytes_ok | with_reducible apply Ok.frame State.setGrd_frame
    | with_reducible apply Ok.frame State.countIf_frame | extract_lets | split

theorem graderToken_ok (h : Ok w l a2) : Ok w l (graderToken a0 a1 a2 a3) := by
  unfold graderToken
  repeat' first | with_reducible assumption | with_reducible apply slotToken_ok | with_reducible refine ok_foldl (fun _ _ _ => ?_) ?_

theorem applyFreeze_ok (h : Ok w l a0) : Ok w l (applyFreeze a0 a1 a2) := h.frame applyFreeze_frame

theorem freezeToken_ok (h : Ok w l a0) : Ok w l (freezeToken a0 a1) := by
  unfold freezeToken
  repeat' first
    | with_reducible assumption | with_reducible apply endCmd_ok | with_reducible apply Ok.frame applyFreeze_frame
    | with_reducible refine ok_foldl (fun _ _ _ => ?_) ?_

theorem finishStep_ok (h : Ok w l a0) : Ok w l (finishStep a0 a1) := by
  unfold finishStep
  repeat' first
    | with_reducible assumption | with_reducible exact fun h => ⟨h, rfl, rfl⟩ | with_reducible apply headerToken_ok
    | with_reducible apply factorToken_ok | with_reducible apply graderToken_ok | with_reducible apply Ok.frame lossToken_frame
    | with_reducible apply freezeToken_ok | with_reducible apply Ok.frame clearSuspect_frame
    | with_reducible apply Ok.frame dailyToken_frame | with_reducible apply Ok.frame dropTups_frame | with_reducible apply State.setDom_ok
    | with_reducible apply Ok.frame modCmd_frame | with_reducible apply Ok.frame idleBlocks_frame | with_reducible apply endCmd_ok
    | with_reducible apply Ok.frame State.setStp_frame | extract_lets | split | with_reducible refine ok_foldl (fun _ _ _ => ?_) ?_

theorem tryFinish_ok (h : Ok w l a0) : Ok w l (tryFinish a0 a1) := by
  unfold tryFinish
  repeat' first | with_reducible assumption | with_reducible apply guardReads_ok | with_reducible apply finishStep_ok | with_reducible apply ok_ite

theorem token_ok (h : Ok w l a0) : Ok w l (token a0 a1 a2) := by
  unfold token
  repeat' first
    | with_reducible assumption | with_reducible apply Ok.frame State.setStp_frame | with_reducible apply Ok.frame State.setRo_frame
    | with_reducible apply tryFinish_ok | with_reducible apply Ok.frame walkBlock_frame | extract_lets
    | with_reducible refine ok_foldl (fun _ _ _ => ?_) ?_

theorem decide'_ok (h : Ok w l a0) : Ok w l (decide' a0 a1 a2 a3) := by
  unfold decide'
  repeat' first
    | with_reducible assumption | decide | with_reducible exact fun h => ⟨h, rfl, rfl⟩ | with_reducible exact fun h => absurd rfl h
    | exact fun h => ⟨h, rfl, rfl⟩ | exact fun h => absurd rfl h | with_reducible intro _ | with_reducible apply Ok.frame State.setRo_frame
    | with_reducible apply Ok.frame State.setStp_frame | with_reducible apply token_ok | with_reducible apply clipBlock_ok
    | with_reducible apply ok_ite | with_reducible apply ok_ite_fst | with_reducible apply ok_ite_snd | with_reducible apply ok_ite_third
    | extract_lets | split | with_reducible refine ok_foldl (fun _ _ _ => ?_) ?_ | with_reducible refine ok_foldl_fst (fun _ _ _ => ?_) ?_
    | with_reducible refine ok_foldl_snd (fun _ _ _ => ?_) ?_ | dsimp only | rfl | with_reducible apply ok_mk

/-! ## Operations of Exchange -/

theorem useNorm_ok (h : Ok w l a0) : Ok w l (useNorm a0 a1) := by
  unfold useNorm
  repeat' first
    | with_reducible assumption | with_reducible apply decide'_ok | with_reducible apply Ok.frame xArrived_frame
    | with_reducible apply ok_ite | split

theorem useSig_ok (h : Ok w l a0) : Ok w l (useSig a0 a1) := by
  unfold useSig
  repeat' first
    | with_reducible assumption | with_reducible apply token_ok | with_reducible apply Ok.frame applySigs_frame
    | with_reducible apply Ok.frame xArrived_frame | with_reducible apply ok_ite | extract_lets | split

theorem xResult_ok (h : Ok w l a0) : Ok w l (xResult a0 a1 a2 a3 a4) := by
  unfold xResult
  repeat' first
    | with_reducible assumption | with_reducible apply Ok.frame toNeighbour_frame | with_reducible apply Ok.frame State.setXch_frame
    | with_reducible apply useNorm_ok | with_reducible apply useSig_ok | with_reducible apply ok_ite | extract_lets | split
    | with_reducible refine ok_foldl (fun _ _ _ => ?_) ?_

theorem xRun_ok (h : Ok w l a0) : Ok w l (xRun a0 a1 a2) := by
  unfold xRun
  repeat' first
    | with_reducible assumption | with_reducible apply Ok.frame State.setXch_frame | with_reducible apply Ok.frame toNeighbour_frame
    | with_reducible apply xResult_ok | with_reducible apply ok_ite | extract_lets | split

theorem xOwn_ok (h : Ok w l a0) : Ok w l (xOwn a0 a1 a2 a3) := by
  unfold xOwn
  repeat' first
    | with_reducible assumption | with_reducible apply Ok.frame State.count_frame | with_reducible apply xRun_ok
    | with_reducible apply Ok.frame State.setXch_frame | with_reducible apply ok_ite | extract_lets | split

theorem enterSig_ok (h : Ok w l a0) : Ok w l (enterSig a0 a1) := by
  unfold enterSig
  repeat' first
    | with_reducible assumption | with_reducible apply guardPhys_ok | with_reducible apply token_ok | with_reducible apply Ok.frame applySigs_frame
    | with_reducible apply useSig_ok | with_reducible apply xOwn_ok | extract_lets | split

theorem afterNorm_ok (h : Ok w l a0) : Ok w l (afterNorm a0 a1) := by
  unfold afterNorm
  repeat' first | with_reducible assumption | with_reducible apply enterSig_ok | with_reducible apply ok_ite

theorem enterNorm_ok (h : Ok w l a0) : Ok w l (enterNorm a0 a1) := by
  unfold enterNorm
  repeat' first
    | with_reducible assumption | with_reducible apply Ok.frame awaitBlocks_frame | with_reducible apply Ok.frame State.setStp_frame
    | with_reducible apply afterNorm_ok | with_reducible apply decide'_ok | with_reducible apply useNorm_ok | with_reducible apply xOwn_ok
    | extract_lets | split

theorem xChild_ok (h : Ok w l a1) : Ok w l (xChild a0 a1 a2) := by
  unfold xChild
  repeat' first
    | with_reducible assumption | with_reducible apply Ok.frame State.count_frame | with_reducible apply afterNorm_ok
    | with_reducible apply xRun_ok | with_reducible apply Ok.frame State.setXch_frame | with_reducible apply ok_ite | extract_lets | split

theorem xParent_ok (h : Ok w l a0) : Ok w l (xParent a0 a1) := by
  unfold xParent
  repeat' first | with_reducible assumption | with_reducible apply afterNorm_ok | with_reducible apply xResult_ok

/-! ## Operations of Grader -/

theorem feedStart_ok (h : Ok w l a0) : Ok w l (feedStart a0 a1 a2 a3) := by
  unfold feedStart
  repeat' first | with_reducible assumption | with_reducible apply stBytes_ok | with_reducible apply Ok.frame setSlot_frame

theorem reqFeed_ok (h : Ok w l a0) : Ok w l (reqFeed a0 a1 a2 a3) := by
  unfold reqFeed
  repeat' first
    | with_reducible assumption | with_reducible apply Ok.frame setSlot_frame | with_reducible apply Ok.frame grdIgnored_frame
    | with_reducible apply feedStart_ok | with_reducible apply ok_ite

theorem grdRequest_ok (h : Ok w l a0) : Ok w l (grdRequest a0 a1 a2 a3) := by
  unfold grdRequest
  repeat' first
    | with_reducible assumption | with_reducible apply Ok.frame State.count_frame | with_reducible apply reqFeed_ok
    | with_reducible apply Ok.frame reqSolve_frame | with_reducible apply Ok.frame reqCold_frame | with_reducible apply ok_ite
    | extract_lets | split

theorem doGrd_ok (h : Ok w l a2) : Ok w l (doGrd a0 a1 a2 a3 a4) := by
  unfold doGrd
  repeat' first | with_reducible assumption | with_reducible apply grdRequest_ok

theorem feedTile_ok (h : Ok w l a4) : Ok w l (feedTile a0 a1 a2 a3 a4 a5) := by
  unfold feedTile
  repeat' first
    | with_reducible assumption | with_reducible apply stBytes_ok | with_reducible apply Ok.frame State.count_frame
    | with_reducible apply ok_ite

theorem feedSlot_ok (h : Ok w l a2) : Ok w l (feedSlot a0 a1 a2 a3) := by
  unfold feedSlot
  repeat' first
    | with_reducible assumption | with_reducible apply feedTile_ok | extract_lets | with_reducible refine ok_foldl (fun _ _ _ => ?_) ?_

theorem writeResult_ok (h : Ok w l a3.1) : Ok w l (writeResult a0 a1 a2 a3 a4).1 := by
  unfold writeResult
  repeat' first | with_reducible assumption | with_reducible apply stBytes_ok

theorem carryBlock_ok (h : Ok w l a3) : Ok w l (carryBlock a0 a1 a2 a3 a4) := by
  unfold carryBlock
  repeat' first | with_reducible assumption | with_reducible apply stBytes_ok

theorem solveEnd_ok (h : Ok w l a0) : Ok w l (solveEnd a0 a1 a2 a3 a4) := by
  unfold solveEnd
  repeat' first
    | with_reducible assumption | with_reducible apply Ok.frame State.setGrd_frame | with_reducible apply Ok.frame setSlot_frame
    | with_reducible apply Ok.frame solveAccept_frame | with_reducible apply feedStart_ok | with_reducible apply ok_ite

theorem solveFinish_ok (h : Ok w l a0) : Ok w l (solveFinish a0 a1 a2 a3 a4 a5 a6 a7) := by
  unfold solveFinish
  repeat' first
    | with_reducible assumption | with_reducible apply Ok.frame countBlocks_frame | with_reducible apply solveEnd_ok
    | with_reducible apply Ok.frame State.count_frame | with_reducible apply writeResult_ok | with_reducible apply carryBlock_ok
    | with_reducible apply Ok.frame largestResid_frame | with_reducible apply ok_ite | extract_lets
    | with_reducible refine ok_foldl (fun _ _ _ => ?_) ?_ | with_reducible refine ok_foldl_fst (fun _ _ _ => ?_) ?_

/-! ## Operations of Dailies -/

theorem sendDaily_ok (f0 : ∀ t x1, Ok w l t → Ok w l (a0 t x1)) (h : Ok w l a3) : Ok w l (sendDaily a0 a1 a2 a3 a4) := by
  unfold sendDaily
  repeat' first | with_reducible assumption | with_reducible apply f0 | with_reducible apply Ok.frame originate_frame | split

theorem dailyStore_ok (h : Ok w l a0) : Ok w l (dailyStore a0 a1) := by
  unfold dailyStore
  repeat' first | with_reducible assumption | with_reducible apply stBytes_ok | with_reducible apply Ok.frame State.setDay_frame

theorem importEmit_ok (h : Ok w l a0) : Ok w l (importEmit a0 a1 a2) := by
  unfold importEmit
  repeat' first | with_reducible assumption | with_reducible apply emitPage_ok | extract_lets | split

theorem impPut_ok (h : Ok w l a0) : Ok w l (impPut a0 a1 a2) := by
  unfold impPut
  repeat' first
    | with_reducible assumption | with_reducible apply endCmd_ok | with_reducible apply Ok.frame State.setDay_frame
    | with_reducible apply ok_ite

theorem impRefuse_ok (h : Ok w l a0) : Ok w l (impRefuse a0 a1 a2) := by
  unfold impRefuse
  repeat' first | with_reducible assumption | with_reducible apply endCmd_ok | with_reducible apply Ok.frame State.setDay_frame

theorem importWrite_ok (h : Ok w l a0) : Ok w l (importWrite a0 a1 a2) := by
  have h1 (k v) : Ok w l (a0.wrBytes k v) := State.wrBytes_ok h
  unfold importWrite
  dsimp only
  exact ok_ite (guardReads_ok (h1 _ _) (guardPhys_ok (h1 _ _) (impPut_ok (importEmit_ok (Ok.frame State.setDir_frame (h1 _ _)))))) (h1 _ _)

theorem onImport_ok (h : Ok w l a1) (f3 : ∀ t x1, Ok w l t → Ok w l (a3 t x1)) : Ok w l (onImport a0 a1 a2 a3) := by
  unfold onImport
  repeat' first
    | with_reducible assumption | with_reducible apply f3 | with_reducible apply Ok.frame State.count_frame
    | with_reducible apply impRefuse_ok | with_reducible apply ok_ite | split

theorem importPage_ok (h : Ok w l a1) : Ok w l (importPage a0 a1 a2) := by
  unfold importPage
  repeat' first
    | with_reducible assumption | with_reducible intro _ | with_reducible apply onImport_ok | with_reducible apply importWrite_ok
    | with_reducible apply Ok.frame State.count_frame | with_reducible apply ok_ite

theorem importClose_ok (h : Ok w l a1) : Ok w l (importClose a0 a1 a2) := by
  unfold importClose
  repeat' first | with_reducible assumption | with_reducible intro _ | with_reducible apply onImport_ok | with_reducible apply impPut_ok

/-! ## Operations of Commands -/

theorem importHere_ok (h : Ok w l a0) : Ok w l (importHere a0 a1) := by
  unfold importHere
  repeat' first
    | with_reducible assumption | with_reducible apply importClose_ok | with_reducible apply importPage_ok | with_reducible apply ok_ite

theorem startExport_ok (h : Ok w l a0) : Ok w l (startExport a0 a1 a2 a3) := by
  have h2 : Ok w l ((exportPackets a0 a1 a3).foldl (sendDaily importHere (a0.ctx a2).home (exportSrc a2))
      (boundEvt a0 (faultBlk a0 a1) (exportMiss a0 a1 a3))) :=
    ok_foldl (fun _ _ ht => sendDaily_ok (fun _ _ ht => importHere_ok ht) ht) (h.frame boundEvt_frame)
  unfold startExport
  exact guardReads_ok h (guardPhys_ok h (ok_ite h2 (endCmd_ok h2)))

theorem armImport_ok (h : Ok w l a0) : Ok w l (armImport a0 a1 a2 a3) := h.frame armImport_frame

/-! What each command of a domain does when it runs. -/

theorem specProgLoad_ok (h : Ok w l s) : Ok w l ((specProgLoad a b c).run s k) := by
  unfold specProgLoad
  exact loadProgram_ok h

theorem specProgUnload_ok (h : Ok w l s) : Ok w l ((specProgUnload a).run s k) := by
  unfold specProgUnload
  exact endCmd_ok (unloadProgram_ok h)

theorem specStep_ok (h : Ok w l s) : Ok w l ((specStep a b).run s k) := by
  unfold specStep
  exact dispatchStep_ok h

theorem specCopy_ok (h : Ok w l s) : Ok w l ((specCopy a b).run s k) := by
  unfold specCopy
  exact guardReads_ok h (endCmd_ok (stBytes_ok h))

theorem specHostWrite_ok (h : Ok w l s) : Ok w l ((specHostWrite a b c).run s k) := by
  unfold specHostWrite
  dsimp only
  split
  · exact endCmd_ok (stBytes_ok h)
  · exact endCmd_ok h

theorem specHostRead_ok (h : Ok w l s) : Ok w l ((specHostRead a b c).run s k) := by
  unfold specHostRead
  dsimp only
  split
  · exact guardReads_ok h (endCmd_ok (State.emit_ok h))
  · exact endCmd_ok h

theorem specExport_ok (h : Ok w l s) : Ok w l ((specExport a b).run s k) := by
  unfold specExport
  exact startExport_ok h

theorem specImportArm_ok (h : Ok w l s) : Ok w l ((specImportArm a b).run s k) := by
  unfold specImportArm
  exact armImport_ok h

theorem specFreeze_ok (h : Ok w l s) : Ok w l ((specFreeze a b).run s k) := by
  unfold specFreeze
  exact ok_ite h (endCmd_ok (applyFreeze_ok h))

theorem specGrade_ok (h : Ok w l s) : Ok w l ((specGrade a b).run s k) := by
  unfold specGrade
  exact endCmd_ok (grdRequest_ok h)

theorem specFence_ok (h : Ok w l s) : Ok w l ((specFence).run s k) := by
  unfold specFence
  exact endCmd_ok h

theorem specOf_ok (h : Ok w l s) : Ok w l ((specOf d desc pay).run s k) := by
  unfold specOf
  split
  · exact specProgLoad_ok h
  · exact specProgUnload_ok h
  · exact specStep_ok h
  · exact specCopy_ok h
  · exact specHostWrite_ok h
  · exact specHostRead_ok h
  · exact specExport_ok h
  · exact specImportArm_ok h
  · exact specFreeze_ok h
  · exact specGrade_ok h
  · exact specFence_ok h

theorem admitDeferred_ok (h : Ok w l a0) : Ok w l (admitDeferred a0 a1 a2 a3) := by
  unfold admitDeferred
  refine ok_ite (refuse_ok h) ?_
  split
  · exact refuse_ok h
  · exact specOf_ok (grant_ok h)

/-! ## Operations of Cues -/

theorem restartPort_ok (h : Ok w l a0) : Ok w l (restartPort a0 a1) := by
  unfold restartPort
  repeat' first
    | with_reducible assumption | with_reducible apply Ok.frame laneCut_frame | with_reducible apply Ok.frame startPort_frame | with_reducible apply dropQueue_ok
    | with_reducible apply ok_ite

theorem onApply_ok (h : Ok w l a1) : Ok w l (onApply a0 a1 a2 a3) := by
  unfold onApply
  exact ok_ite (ok_ite (State.each_ok h (fun _ _ ht => ok_ite (restartPort_ok ht) ht)) h)
    (ok_ite (ok_ite (ok_mk h rfl rfl rfl) h) (ok_ite (ok_ite (ok_foldl (fun _ _ ht => ht.frame onApply.keepGate_frame) h) h) h))

/-! ## Operations of Recovery -/

theorem emptyPools_ok (h : Ok w l a0) : Ok w l (emptyPools a0 a1) :=
  ok_mk (ok_mem (ba := a0.back) h (fun hm => spFilter_wf _ hm)) rfl rfl rfl

theorem settle_ok (h : Ok w l a1) : Ok w l (settle a0 a1 a2) := by
  unfold settle
  repeat' first
    | with_reducible assumption | with_reducible apply afterNorm_ok | with_reducible apply clipBlock_ok | with_reducible apply tryFinish_ok
    | with_reducible apply Ok.frame walkBlock_frame | with_reducible apply ok_ite | extract_lets
    | with_reducible refine ok_foldl (fun _ _ _ => ?_) ?_

theorem loadRegion_ok (h : Ok w l a0) : Ok w l (loadRegion a0 a1 a2) := by
  unfold loadRegion
  repeat' first
    | with_reducible assumption | with_reducible intro _ | with_reducible apply State.each_ok
    | with_reducible apply Ok.frame loadCopies_frame | with_reducible apply onApply_ok | extract_lets | dsimp only
    | with_reducible apply ok_mk

theorem regionUp_ok (h : Ok w l a0) : Ok w l (regionUp a0 a1) := by
  unfold regionUp
  repeat' first
    | with_reducible assumption | with_reducible apply Ok.frame applyLayout_frame | with_reducible apply ok_ite | with_reducible apply Ok.frame takeBank_frame | with_reducible apply Ok.frame State.setBlk_frame
    | with_reducible apply Ok.frame emptyAlus_frame | with_reducible apply emptyPools_ok | with_reducible apply Ok.frame dropMoves_frame
    | with_reducible apply Ok.frame linkReset_frame | with_reducible apply Ok.frame State.setReg_frame | with_reducible apply loadRegion_ok
    | extract_lets | with_reducible refine ok_foldl (fun _ _ _ => ?_) ?_

theorem faultTeardown_ok (h : Ok w l a0) : Ok w l (faultTeardown a0 a1 a2) := by
  unfold faultTeardown
  repeat' first
    | with_reducible assumption | with_reducible apply teardown_ok | with_reducible apply Ok.frame State.count_frame
    | with_reducible apply Ok.frame logFault_frame

theorem restartStep_ok (h : Ok w l a0) : Ok w l (restartStep a0 a1) := by
  unfold restartStep
  repeat' first
    | with_reducible assumption | with_reducible apply Ok.frame State.setStp_frame | with_reducible apply startAttempt_ok
    | with_reducible apply Ok.frame clearHolds_frame | with_reducible apply Ok.frame State.count_frame
    | with_reducible apply Ok.frame domNonfin_frame | with_reducible apply ok_ite

theorem refuseStep_ok (h : Ok w l a0) : Ok w l (refuseStep a0 a1) := by
  unfold refuseStep
  repeat' first
    | with_reducible assumption | with_reducible apply Ok.frame dropTups_frame | with_reducible apply Ok.frame modCmd_frame | with_reducible apply Ok.frame dropBlock_frame
    | with_reducible apply endCmd_ok | with_reducible apply Ok.frame State.setStp_frame | extract_lets
    | with_reducible refine ok_foldl (fun _ _ _ => ?_) ?_

theorem replayStep_ok (h : Ok w l a0) : Ok w l (replayStep a0 a1) := by
  unfold replayStep
  repeat' first
    | with_reducible assumption | with_reducible apply refuseStep_ok | with_reducible apply faultTeardown_ok
    | with_reducible apply restartStep_ok | with_reducible apply ok_ite

theorem reissueCmd_ok (h : Ok w l a0) : Ok w l (reissueCmd a0 a1) := by
  unfold reissueCmd
  exact ok_ite (startExport_ok (ok_foldl (fun _ _ ht => State.setPort_ok ht) h)) (ok_ite (armImport_ok h) (ok_ite (specFreeze_ok h) h))

theorem replayDom_ok (h : Ok w l a1) : Ok w l (replayDom a0 a1 a2) := by
  unfold replayDom
  repeat' first
    | with_reducible assumption | with_reducible apply faultTeardown_ok | with_reducible apply replayStep_ok
    | with_reducible apply reissueCmd_ok | with_reducible apply ok_ite | extract_lets | with_reducible refine ok_foldl (fun _ _ _ => ?_) ?_

theorem replay_ok (h : Ok w l a0) : Ok w l (replay a0 a1 a2 a3) := by
  unfold replay
  repeat' first
    | with_reducible assumption | with_reducible apply replayDom_ok | with_reducible apply settle_ok | extract_lets
    | with_reducible refine ok_foldl (fun _ _ _ => ?_) ?_

theorem regionCmd_ok (h : Ok w l a0) (f4 : ∀ t, Ok w l t → Ok w l (a4 t)) : Ok w l (regionCmd a0 a1 a2 a3 a4) := by
  unfold regionCmd
  repeat' first
    | with_reducible assumption | with_reducible apply f4 | with_reducible apply Ok.frame State.count_frame | with_reducible apply ok_ite
    | extract_lets | dsimp only | with_reducible apply ok_mk

end Sys2Proof.Machine
end

