-- ==== Sys2Proof/Laws/State.lean ====
section
/-!
SUPPORT. Laws of the named updates of State: which fields each leaves as they are, and what each accessor reads after it.
-/

namespace Sys2Proof.Machine

variable (s : State)

/-! ## setReg -/

@[simp] theorem setReg_pending (r : Nat) (x : Reg) : (s.setReg r x).pending = s.pending := rfl
@[simp] theorem setReg_ticks (r : Nat) (x : Reg) : (s.setReg r x).ticks = s.ticks := rfl
@[simp] theorem setReg_evt (r : Nat) (x : Reg) : (s.setReg r x).evt = s.evt := rfl
@[simp] theorem setReg_free (r : Nat) (x : Reg) : (s.setReg r x).free = s.free := rfl
@[simp] theorem setReg_out (r : Nat) (x : Reg) : (s.setReg r x).out = s.out := rfl
@[simp] theorem setReg_pwr (r : Nat) (x : Reg) : (s.setReg r x).pwr = s.pwr := rfl
@[simp] theorem setReg_sec (r : Nat) (x : Reg) : (s.setReg r x).sec = s.sec := rfl
@[simp] theorem setReg_mgt (r : Nat) (x : Reg) : (s.setReg r x).mgt = s.mgt := rfl
@[simp] theorem setReg_ro (r : Nat) (x : Reg) : (s.setReg r x).ro = s.ro := rfl
@[simp] theorem setReg_cp (r : Nat) (x : Reg) : (s.setReg r x).cp = s.cp := rfl
@[simp] theorem setReg_progs (r : Nat) (x : Reg) : (s.setReg r x).progs = s.progs := rfl
@[simp] theorem setReg_steps (r : Nat) (x : Reg) : (s.setReg r x).steps = s.steps := rfl
@[simp] theorem setReg_segs (r : Nat) (x : Reg) : (s.setReg r x).segs = s.segs := rfl
@[simp] theorem setReg_blks (r : Nat) (x : Reg) : (s.setReg r x).blks = s.blks := rfl
@[simp] theorem setReg_sigs (r : Nat) (x : Reg) : (s.setReg r x).sigs = s.sigs := rfl
@[simp] theorem setReg_mem (r : Nat) (x : Reg) : (s.setReg r x).mem = s.mem := rfl
@[simp] theorem setReg_dirs (r : Nat) (x : Reg) : (s.setReg r x).dirs = s.dirs := rfl
@[simp] theorem setReg_binds (r : Nat) (x : Reg) : (s.setReg r x).binds = s.binds := rfl
@[simp] theorem setReg_back (r : Nat) (x : Reg) : (s.setReg r x).back = s.back := rfl
@[simp] theorem setReg_grds (r : Nat) (x : Reg) : (s.setReg r x).grds = s.grds := rfl
@[simp] theorem setReg_fab (r : Nat) (x : Reg) : (s.setReg r x).fab = s.fab := rfl
@[simp] theorem setReg_xchs (r : Nat) (x : Reg) : (s.setReg r x).xchs = s.xchs := rfl
@[simp] theorem setReg_days (r : Nat) (x : Reg) : (s.setReg r x).days = s.days := rfl
@[simp] theorem setReg_flt_log (r : Nat) (x : Reg) : (s.setReg r x).flt.log = s.flt.log := rfl
@[simp] theorem setReg_flt_head (r : Nat) (x : Reg) : (s.setReg r x).flt.head = s.flt.head := rfl
@[simp] theorem setReg_flt_ack (r : Nat) (x : Reg) : (s.setReg r x).flt.ack = s.flt.ack := rfl
@[simp] theorem setReg_flt_dumps (r : Nat) (x : Reg) : (s.setReg r x).flt.dumps = s.flt.dumps := rfl
@[simp] theorem setReg_flt_dumpOrder (r : Nat) (x : Reg) : (s.setReg r x).flt.dumpOrder = s.flt.dumpOrder := rfl
@[simp] theorem setReg_flt_clapSeq (r : Nat) (x : Reg) : (s.setReg r x).flt.clapSeq = s.flt.clapSeq := rfl
@[simp] theorem setReg_flt_strike (r : Nat) (x : Reg) : (s.setReg r x).flt.strike = s.flt.strike := rfl
@[simp] theorem setReg_flt_clapOut (r : Nat) (x : Reg) : (s.setReg r x).flt.clapOut = s.flt.clapOut := rfl
@[simp] theorem setReg_flt_chip (r : Nat) (x : Reg) : (s.setReg r x).flt.chip = s.flt.chip := rfl
@[simp] theorem setReg_flt_ustage (r : Nat) (x : Reg) : (s.setReg r x).flt.ustage = s.flt.ustage := rfl
@[simp] theorem setReg_flt_usts (r : Nat) (x : Reg) : (s.setReg r x).flt.usts = s.flt.usts := rfl
@[simp] theorem setReg_flt_usel (r : Nat) (x : Reg) : (s.setReg r x).flt.usel = s.flt.usel := rfl
@[simp] theorem setReg_flt_uswap (r : Nat) (x : Reg) : (s.setReg r x).flt.uswap = s.flt.uswap := rfl
@[simp] theorem setReg_flt_ubank0 (r : Nat) (x : Reg) : (s.setReg r x).flt.ubank0 = s.flt.ubank0 := rfl
@[simp] theorem setReg_flt_ubank1 (r : Nat) (x : Reg) : (s.setReg r x).flt.ubank1 = s.flt.ubank1 := rfl
@[simp] theorem setReg_get_dump (r : Nat) (x : Reg) (y : Nat) : (s.setReg r x).dump y = s.dump y := rfl
@[simp] theorem setReg_get_dom (r : Nat) (x : Reg) (y : Nat) : (s.setReg r x).dom y = s.dom y := rfl
@[simp] theorem setReg_get_ctx (r : Nat) (x : Reg) (y : Nat) : (s.setReg r x).ctx y = s.ctx y := rfl
@[simp] theorem setReg_get_res (r : Nat) (x : Reg) (y z : Nat) : (s.setReg r x).res y z = s.res y z := rfl
@[simp] theorem setReg_get_msix (r : Nat) (x : Reg) (y z : Nat) : (s.setReg r x).msix y z = s.msix y z := rfl
@[simp] theorem setReg_get_prog (r : Nat) (x : Reg) (y : Nat) : (s.setReg r x).prog y = s.prog y := rfl
@[simp] theorem setReg_get_stp (r : Nat) (x : Reg) (y : Nat) : (s.setReg r x).stp y = s.stp y := rfl
@[simp] theorem setReg_get_seg (r : Nat) (x : Reg) (y z : Nat) : (s.setReg r x).seg y z = s.seg y z := rfl
@[simp] theorem setReg_get_blk (r : Nat) (x : Reg) (y : Nat) : (s.setReg r x).blk y = s.blk y := rfl
@[simp] theorem setReg_get_dir (r : Nat) (x : Reg) (y : Nat) : (s.setReg r x).dir y = s.dir y := rfl
@[simp] theorem setReg_get_grd (r : Nat) (x : Reg) (y : Nat) : (s.setReg r x).grd y = s.grd y := rfl
@[simp] theorem setReg_get_port (r : Nat) (x : Reg) (y : Nat) : (s.setReg r x).port y = s.port y := rfl
@[simp] theorem setReg_get_xch (r : Nat) (x : Reg) (y : Nat) : (s.setReg r x).xch y = s.xch y := rfl
@[simp] theorem setReg_get_day (r : Nat) (x : Reg) (y : Nat) : (s.setReg r x).day y = s.day y := rfl
@[simp] theorem setReg_get_bind (r : Nat) (x : Reg) (y : Nat) : (s.setReg r x).bind y = s.bind y := rfl
@[simp] theorem setReg_get_ro (r : Nat) (x : Reg) (y : Nat) : (s.setReg r x).ro? y = s.ro? y := rfl
@[simp] theorem setReg_get_app (r : Nat) (x : Reg) (y z : Nat) : (s.setReg r x).app y z = s.app y z := rfl
@[simp] theorem setReg_get_live (r : Nat) (x : Reg) (y : Nat) : (s.setReg r x).live y = s.live y := rfl
@[simp] theorem setReg_get_shadow (r : Nat) (x : Reg) (y : Nat) : (s.setReg r x).shadow y = s.shadow y := rfl
@[simp] theorem setReg_get_rd (r : Nat) (x : Reg) (y : Nat) : (s.setReg r x).rd y = s.rd y := rfl

/-! ## setDump -/

@[simp] theorem setDump_pending (n : Nat) (x : Dump) : (s.setDump n x).pending = s.pending := rfl
@[simp] theorem setDump_ticks (n : Nat) (x : Dump) : (s.setDump n x).ticks = s.ticks := rfl
@[simp] theorem setDump_evt (n : Nat) (x : Dump) : (s.setDump n x).evt = s.evt := rfl
@[simp] theorem setDump_free (n : Nat) (x : Dump) : (s.setDump n x).free = s.free := rfl
@[simp] theorem setDump_out (n : Nat) (x : Dump) : (s.setDump n x).out = s.out := rfl
@[simp] theorem setDump_pwr (n : Nat) (x : Dump) : (s.setDump n x).pwr = s.pwr := rfl
@[simp] theorem setDump_sec (n : Nat) (x : Dump) : (s.setDump n x).sec = s.sec := rfl
@[simp] theorem setDump_mgt (n : Nat) (x : Dump) : (s.setDump n x).mgt = s.mgt := rfl
@[simp] theorem setDump_ro (n : Nat) (x : Dump) : (s.setDump n x).ro = s.ro := rfl
@[simp] theorem setDump_cp (n : Nat) (x : Dump) : (s.setDump n x).cp = s.cp := rfl
@[simp] theorem setDump_progs (n : Nat) (x : Dump) : (s.setDump n x).progs = s.progs := rfl
@[simp] theorem setDump_steps (n : Nat) (x : Dump) : (s.setDump n x).steps = s.steps := rfl
@[simp] theorem setDump_segs (n : Nat) (x : Dump) : (s.setDump n x).segs = s.segs := rfl
@[simp] theorem setDump_blks (n : Nat) (x : Dump) : (s.setDump n x).blks = s.blks := rfl
@[simp] theorem setDump_sigs (n : Nat) (x : Dump) : (s.setDump n x).sigs = s.sigs := rfl
@[simp] theorem setDump_mem (n : Nat) (x : Dump) : (s.setDump n x).mem = s.mem := rfl
@[simp] theorem setDump_dirs (n : Nat) (x : Dump) : (s.setDump n x).dirs = s.dirs := rfl
@[simp] theorem setDump_binds (n : Nat) (x : Dump) : (s.setDump n x).binds = s.binds := rfl
@[simp] theorem setDump_back (n : Nat) (x : Dump) : (s.setDump n x).back = s.back := rfl
@[simp] theorem setDump_grds (n : Nat) (x : Dump) : (s.setDump n x).grds = s.grds := rfl
@[simp] theorem setDump_fab (n : Nat) (x : Dump) : (s.setDump n x).fab = s.fab := rfl
@[simp] theorem setDump_xchs (n : Nat) (x : Dump) : (s.setDump n x).xchs = s.xchs := rfl
@[simp] theorem setDump_days (n : Nat) (x : Dump) : (s.setDump n x).days = s.days := rfl
@[simp] theorem setDump_flt_log (n : Nat) (x : Dump) : (s.setDump n x).flt.log = s.flt.log := rfl
@[simp] theorem setDump_flt_head (n : Nat) (x : Dump) : (s.setDump n x).flt.head = s.flt.head := rfl
@[simp] theorem setDump_flt_ack (n : Nat) (x : Dump) : (s.setDump n x).flt.ack = s.flt.ack := rfl
@[simp] theorem setDump_flt_dumpOrder (n : Nat) (x : Dump) : (s.setDump n x).flt.dumpOrder = s.flt.dumpOrder := rfl
@[simp] theorem setDump_flt_clapSeq (n : Nat) (x : Dump) : (s.setDump n x).flt.clapSeq = s.flt.clapSeq := rfl
@[simp] theorem setDump_flt_strike (n : Nat) (x : Dump) : (s.setDump n x).flt.strike = s.flt.strike := rfl
@[simp] theorem setDump_flt_clapOut (n : Nat) (x : Dump) : (s.setDump n x).flt.clapOut = s.flt.clapOut := rfl
@[simp] theorem setDump_flt_regs (n : Nat) (x : Dump) : (s.setDump n x).flt.regs = s.flt.regs := rfl
@[simp] theorem setDump_flt_chip (n : Nat) (x : Dump) : (s.setDump n x).flt.chip = s.flt.chip := rfl
@[simp] theorem setDump_flt_ustage (n : Nat) (x : Dump) : (s.setDump n x).flt.ustage = s.flt.ustage := rfl
@[simp] theorem setDump_flt_usts (n : Nat) (x : Dump) : (s.setDump n x).flt.usts = s.flt.usts := rfl
@[simp] theorem setDump_flt_usel (n : Nat) (x : Dump) : (s.setDump n x).flt.usel = s.flt.usel := rfl
@[simp] theorem setDump_flt_uswap (n : Nat) (x : Dump) : (s.setDump n x).flt.uswap = s.flt.uswap := rfl
@[simp] theorem setDump_flt_ubank0 (n : Nat) (x : Dump) : (s.setDump n x).flt.ubank0 = s.flt.ubank0 := rfl
@[simp] theorem setDump_flt_ubank1 (n : Nat) (x : Dump) : (s.setDump n x).flt.ubank1 = s.flt.ubank1 := rfl
@[simp] theorem setDump_get_reg (n : Nat) (x : Dump) (y : Nat) : (s.setDump n x).reg y = s.reg y := rfl
@[simp] theorem setDump_get_dom (n : Nat) (x : Dump) (y : Nat) : (s.setDump n x).dom y = s.dom y := rfl
@[simp] theorem setDump_get_ctx (n : Nat) (x : Dump) (y : Nat) : (s.setDump n x).ctx y = s.ctx y := rfl
@[simp] theorem setDump_get_res (n : Nat) (x : Dump) (y z : Nat) : (s.setDump n x).res y z = s.res y z := rfl
@[simp] theorem setDump_get_msix (n : Nat) (x : Dump) (y z : Nat) : (s.setDump n x).msix y z = s.msix y z := rfl
@[simp] theorem setDump_get_prog (n : Nat) (x : Dump) (y : Nat) : (s.setDump n x).prog y = s.prog y := rfl
@[simp] theorem setDump_get_stp (n : Nat) (x : Dump) (y : Nat) : (s.setDump n x).stp y = s.stp y := rfl
@[simp] theorem setDump_get_seg (n : Nat) (x : Dump) (y z : Nat) : (s.setDump n x).seg y z = s.seg y z := rfl
@[simp] theorem setDump_get_blk (n : Nat) (x : Dump) (y : Nat) : (s.setDump n x).blk y = s.blk y := rfl
@[simp] theorem setDump_get_dir (n : Nat) (x : Dump) (y : Nat) : (s.setDump n x).dir y = s.dir y := rfl
@[simp] theorem setDump_get_grd (n : Nat) (x : Dump) (y : Nat) : (s.setDump n x).grd y = s.grd y := rfl
@[simp] theorem setDump_get_port (n : Nat) (x : Dump) (y : Nat) : (s.setDump n x).port y = s.port y := rfl
@[simp] theorem setDump_get_xch (n : Nat) (x : Dump) (y : Nat) : (s.setDump n x).xch y = s.xch y := rfl
@[simp] theorem setDump_get_day (n : Nat) (x : Dump) (y : Nat) : (s.setDump n x).day y = s.day y := rfl
@[simp] theorem setDump_get_bind (n : Nat) (x : Dump) (y : Nat) : (s.setDump n x).bind y = s.bind y := rfl
@[simp] theorem setDump_get_ro (n : Nat) (x : Dump) (y : Nat) : (s.setDump n x).ro? y = s.ro? y := rfl
@[simp] theorem setDump_get_app (n : Nat) (x : Dump) (y z : Nat) : (s.setDump n x).app y z = s.app y z := rfl
@[simp] theorem setDump_get_live (n : Nat) (x : Dump) (y : Nat) : (s.setDump n x).live y = s.live y := rfl
@[simp] theorem setDump_get_shadow (n : Nat) (x : Dump) (y : Nat) : (s.setDump n x).shadow y = s.shadow y := rfl
@[simp] theorem setDump_get_rd (n : Nat) (x : Dump) (y : Nat) : (s.setDump n x).rd y = s.rd y := rfl

/-! ## setDom -/

@[simp] theorem setDom_pending (d : Nat) (x : Dom) : (s.setDom d x).pending = s.pending := rfl
@[simp] theorem setDom_ticks (d : Nat) (x : Dom) : (s.setDom d x).ticks = s.ticks := rfl
@[simp] theorem setDom_evt (d : Nat) (x : Dom) : (s.setDom d x).evt = s.evt := rfl
@[simp] theorem setDom_free (d : Nat) (x : Dom) : (s.setDom d x).free = s.free := rfl
@[simp] theorem setDom_out (d : Nat) (x : Dom) : (s.setDom d x).out = s.out := rfl
@[simp] theorem setDom_pwr (d : Nat) (x : Dom) : (s.setDom d x).pwr = s.pwr := rfl
@[simp] theorem setDom_sec (d : Nat) (x : Dom) : (s.setDom d x).sec = s.sec := rfl
@[simp] theorem setDom_mgt (d : Nat) (x : Dom) : (s.setDom d x).mgt = s.mgt := rfl
@[simp] theorem setDom_ro (d : Nat) (x : Dom) : (s.setDom d x).ro = s.ro := rfl
@[simp] theorem setDom_flt (d : Nat) (x : Dom) : (s.setDom d x).flt = s.flt := rfl
@[simp] theorem setDom_progs (d : Nat) (x : Dom) : (s.setDom d x).progs = s.progs := rfl
@[simp] theorem setDom_steps (d : Nat) (x : Dom) : (s.setDom d x).steps = s.steps := rfl
@[simp] theorem setDom_segs (d : Nat) (x : Dom) : (s.setDom d x).segs = s.segs := rfl
@[simp] theorem setDom_blks (d : Nat) (x : Dom) : (s.setDom d x).blks = s.blks := rfl
@[simp] theorem setDom_sigs (d : Nat) (x : Dom) : (s.setDom d x).sigs = s.sigs := rfl
@[simp] theorem setDom_mem (d : Nat) (x : Dom) : (s.setDom d x).mem = s.mem := rfl
@[simp] theorem setDom_dirs (d : Nat) (x : Dom) : (s.setDom d x).dirs = s.dirs := rfl
@[simp] theorem setDom_binds (d : Nat) (x : Dom) : (s.setDom d x).binds = s.binds := rfl
@[simp] theorem setDom_back (d : Nat) (x : Dom) : (s.setDom d x).back = s.back := rfl
@[simp] theorem setDom_grds (d : Nat) (x : Dom) : (s.setDom d x).grds = s.grds := rfl
@[simp] theorem setDom_fab (d : Nat) (x : Dom) : (s.setDom d x).fab = s.fab := rfl
@[simp] theorem setDom_xchs (d : Nat) (x : Dom) : (s.setDom d x).xchs = s.xchs := rfl
@[simp] theorem setDom_days (d : Nat) (x : Dom) : (s.setDom d x).days = s.days := rfl
@[simp] theorem setDom_cp_pcieRef (d : Nat) (x : Dom) : (s.setDom d x).cp.pcieRef = s.cp.pcieRef := rfl
@[simp] theorem setDom_cp_perst (d : Nat) (x : Dom) : (s.setDom d x).cp.perst = s.cp.perst := rfl
@[simp] theorem setDom_cp_link (d : Nat) (x : Dom) : (s.setDom d x).cp.link = s.cp.link := rfl
@[simp] theorem setDom_cp_ctxs (d : Nat) (x : Dom) : (s.setDom d x).cp.ctxs = s.cp.ctxs := rfl
@[simp] theorem setDom_cp_ress (d : Nat) (x : Dom) : (s.setDom d x).cp.ress = s.cp.ress := rfl
@[simp] theorem setDom_cp_msix (d : Nat) (x : Dom) : (s.setDom d x).cp.msix = s.cp.msix := rfl
@[simp] theorem setDom_cp_heldBar (d : Nat) (x : Dom) : (s.setDom d x).cp.heldBar = s.cp.heldBar := rfl
@[simp] theorem setDom_get_reg (d : Nat) (x : Dom) (y : Nat) : (s.setDom d x).reg y = s.reg y := rfl
@[simp] theorem setDom_get_dump (d : Nat) (x : Dom) (y : Nat) : (s.setDom d x).dump y = s.dump y := rfl
@[simp] theorem setDom_get_ctx (d : Nat) (x : Dom) (y : Nat) : (s.setDom d x).ctx y = s.ctx y := rfl
@[simp] theorem setDom_get_res (d : Nat) (x : Dom) (y z : Nat) : (s.setDom d x).res y z = s.res y z := rfl
@[simp] theorem setDom_get_msix (d : Nat) (x : Dom) (y z : Nat) : (s.setDom d x).msix y z = s.msix y z := rfl
@[simp] theorem setDom_get_prog (d : Nat) (x : Dom) (y : Nat) : (s.setDom d x).prog y = s.prog y := rfl
@[simp] theorem setDom_get_stp (d : Nat) (x : Dom) (y : Nat) : (s.setDom d x).stp y = s.stp y := rfl
@[simp] theorem setDom_get_seg (d : Nat) (x : Dom) (y z : Nat) : (s.setDom d x).seg y z = s.seg y z := rfl
@[simp] theorem setDom_get_blk (d : Nat) (x : Dom) (y : Nat) : (s.setDom d x).blk y = s.blk y := rfl
@[simp] theorem setDom_get_dir (d : Nat) (x : Dom) (y : Nat) : (s.setDom d x).dir y = s.dir y := rfl
@[simp] theorem setDom_get_grd (d : Nat) (x : Dom) (y : Nat) : (s.setDom d x).grd y = s.grd y := rfl
@[simp] theorem setDom_get_port (d : Nat) (x : Dom) (y : Nat) : (s.setDom d x).port y = s.port y := rfl
@[simp] theorem setDom_get_xch (d : Nat) (x : Dom) (y : Nat) : (s.setDom d x).xch y = s.xch y := rfl
@[simp] theorem setDom_get_day (d : Nat) (x : Dom) (y : Nat) : (s.setDom d x).day y = s.day y := rfl
@[simp] theorem setDom_get_bind (d : Nat) (x : Dom) (y : Nat) : (s.setDom d x).bind y = s.bind y := rfl
@[simp] theorem setDom_get_ro (d : Nat) (x : Dom) (y : Nat) : (s.setDom d x).ro? y = s.ro? y := rfl
@[simp] theorem setDom_get_app (d : Nat) (x : Dom) (y z : Nat) : (s.setDom d x).app y z = s.app y z := rfl
@[simp] theorem setDom_get_live (d : Nat) (x : Dom) (y : Nat) : (s.setDom d x).live y = s.live y := rfl
@[simp] theorem setDom_get_shadow (d : Nat) (x : Dom) (y : Nat) : (s.setDom d x).shadow y = s.shadow y := rfl
@[simp] theorem setDom_get_rd (d : Nat) (x : Dom) (y : Nat) : (s.setDom d x).rd y = s.rd y := rfl

/-! ## setCtx -/

@[simp] theorem setCtx_pending (k : Nat) (x : Ctx) : (s.setCtx k x).pending = s.pending := rfl
@[simp] theorem setCtx_ticks (k : Nat) (x : Ctx) : (s.setCtx k x).ticks = s.ticks := rfl
@[simp] theorem setCtx_evt (k : Nat) (x : Ctx) : (s.setCtx k x).evt = s.evt := rfl
@[simp] theorem setCtx_free (k : Nat) (x : Ctx) : (s.setCtx k x).free = s.free := rfl
@[simp] theorem setCtx_out (k : Nat) (x : Ctx) : (s.setCtx k x).out = s.out := rfl
@[simp] theorem setCtx_pwr (k : Nat) (x : Ctx) : (s.setCtx k x).pwr = s.pwr := rfl
@[simp] theorem setCtx_sec (k : Nat) (x : Ctx) : (s.setCtx k x).sec = s.sec := rfl
@[simp] theorem setCtx_mgt (k : Nat) (x : Ctx) : (s.setCtx k x).mgt = s.mgt := rfl
@[simp] theorem setCtx_ro (k : Nat) (x : Ctx) : (s.setCtx k x).ro = s.ro := rfl
@[simp] theorem setCtx_flt (k : Nat) (x : Ctx) : (s.setCtx k x).flt = s.flt := rfl
@[simp] theorem setCtx_progs (k : Nat) (x : Ctx) : (s.setCtx k x).progs = s.progs := rfl
@[simp] theorem setCtx_steps (k : Nat) (x : Ctx) : (s.setCtx k x).steps = s.steps := rfl
@[simp] theorem setCtx_segs (k : Nat) (x : Ctx) : (s.setCtx k x).segs = s.segs := rfl
@[simp] theorem setCtx_blks (k : Nat) (x : Ctx) : (s.setCtx k x).blks = s.blks := rfl
@[simp] theorem setCtx_sigs (k : Nat) (x : Ctx) : (s.setCtx k x).sigs = s.sigs := rfl
@[simp] theorem setCtx_mem (k : Nat) (x : Ctx) : (s.setCtx k x).mem = s.mem := rfl
@[simp] theorem setCtx_dirs (k : Nat) (x : Ctx) : (s.setCtx k x).dirs = s.dirs := rfl
@[simp] theorem setCtx_binds (k : Nat) (x : Ctx) : (s.setCtx k x).binds = s.binds := rfl
@[simp] theorem setCtx_back (k : Nat) (x : Ctx) : (s.setCtx k x).back = s.back := rfl
@[simp] theorem setCtx_grds (k : Nat) (x : Ctx) : (s.setCtx k x).grds = s.grds := rfl
@[simp] theorem setCtx_fab (k : Nat) (x : Ctx) : (s.setCtx k x).fab = s.fab := rfl
@[simp] theorem setCtx_xchs (k : Nat) (x : Ctx) : (s.setCtx k x).xchs = s.xchs := rfl
@[simp] theorem setCtx_days (k : Nat) (x : Ctx) : (s.setCtx k x).days = s.days := rfl
@[simp] theorem setCtx_cp_pcieRef (k : Nat) (x : Ctx) : (s.setCtx k x).cp.pcieRef = s.cp.pcieRef := rfl
@[simp] theorem setCtx_cp_perst (k : Nat) (x : Ctx) : (s.setCtx k x).cp.perst = s.cp.perst := rfl
@[simp] theorem setCtx_cp_link (k : Nat) (x : Ctx) : (s.setCtx k x).cp.link = s.cp.link := rfl
@[simp] theorem setCtx_cp_doms (k : Nat) (x : Ctx) : (s.setCtx k x).cp.doms = s.cp.doms := rfl
@[simp] theorem setCtx_cp_ress (k : Nat) (x : Ctx) : (s.setCtx k x).cp.ress = s.cp.ress := rfl
@[simp] theorem setCtx_cp_msix (k : Nat) (x : Ctx) : (s.setCtx k x).cp.msix = s.cp.msix := rfl
@[simp] theorem setCtx_cp_heldBar (k : Nat) (x : Ctx) : (s.setCtx k x).cp.heldBar = s.cp.heldBar := rfl
@[simp] theorem setCtx_get_reg (k : Nat) (x : Ctx) (y : Nat) : (s.setCtx k x).reg y = s.reg y := rfl
@[simp] theorem setCtx_get_dump (k : Nat) (x : Ctx) (y : Nat) : (s.setCtx k x).dump y = s.dump y := rfl
@[simp] theorem setCtx_get_dom (k : Nat) (x : Ctx) (y : Nat) : (s.setCtx k x).dom y = s.dom y := rfl
@[simp] theorem setCtx_get_res (k : Nat) (x : Ctx) (y z : Nat) : (s.setCtx k x).res y z = s.res y z := rfl
@[simp] theorem setCtx_get_msix (k : Nat) (x : Ctx) (y z : Nat) : (s.setCtx k x).msix y z = s.msix y z := rfl
@[simp] theorem setCtx_get_prog (k : Nat) (x : Ctx) (y : Nat) : (s.setCtx k x).prog y = s.prog y := rfl
@[simp] theorem setCtx_get_stp (k : Nat) (x : Ctx) (y : Nat) : (s.setCtx k x).stp y = s.stp y := rfl
@[simp] theorem setCtx_get_seg (k : Nat) (x : Ctx) (y z : Nat) : (s.setCtx k x).seg y z = s.seg y z := rfl
@[simp] theorem setCtx_get_blk (k : Nat) (x : Ctx) (y : Nat) : (s.setCtx k x).blk y = s.blk y := rfl
@[simp] theorem setCtx_get_dir (k : Nat) (x : Ctx) (y : Nat) : (s.setCtx k x).dir y = s.dir y := rfl
@[simp] theorem setCtx_get_grd (k : Nat) (x : Ctx) (y : Nat) : (s.setCtx k x).grd y = s.grd y := rfl
@[simp] theorem setCtx_get_port (k : Nat) (x : Ctx) (y : Nat) : (s.setCtx k x).port y = s.port y := rfl
@[simp] theorem setCtx_get_xch (k : Nat) (x : Ctx) (y : Nat) : (s.setCtx k x).xch y = s.xch y := rfl
@[simp] theorem setCtx_get_day (k : Nat) (x : Ctx) (y : Nat) : (s.setCtx k x).day y = s.day y := rfl
@[simp] theorem setCtx_get_bind (k : Nat) (x : Ctx) (y : Nat) : (s.setCtx k x).bind y = s.bind y := rfl
@[simp] theorem setCtx_get_ro (k : Nat) (x : Ctx) (y : Nat) : (s.setCtx k x).ro? y = s.ro? y := rfl
@[simp] theorem setCtx_get_app (k : Nat) (x : Ctx) (y z : Nat) : (s.setCtx k x).app y z = s.app y z := rfl
@[simp] theorem setCtx_get_live (k : Nat) (x : Ctx) (y : Nat) : (s.setCtx k x).live y = s.live y := rfl
@[simp] theorem setCtx_get_shadow (k : Nat) (x : Ctx) (y : Nat) : (s.setCtx k x).shadow y = s.shadow y := rfl
@[simp] theorem setCtx_get_rd (k : Nat) (x : Ctx) (y : Nat) : (s.setCtx k x).rd y = s.rd y := rfl

/-! ## setRes -/

@[simp] theorem setRes_pending (d o : Nat) (x : Res) : (s.setRes d o x).pending = s.pending := rfl
@[simp] theorem setRes_ticks (d o : Nat) (x : Res) : (s.setRes d o x).ticks = s.ticks := rfl
@[simp] theorem setRes_evt (d o : Nat) (x : Res) : (s.setRes d o x).evt = s.evt := rfl
@[simp] theorem setRes_free (d o : Nat) (x : Res) : (s.setRes d o x).free = s.free := rfl
@[simp] theorem setRes_out (d o : Nat) (x : Res) : (s.setRes d o x).out = s.out := rfl
@[simp] theorem setRes_pwr (d o : Nat) (x : Res) : (s.setRes d o x).pwr = s.pwr := rfl
@[simp] theorem setRes_sec (d o : Nat) (x : Res) : (s.setRes d o x).sec = s.sec := rfl
@[simp] theorem setRes_mgt (d o : Nat) (x : Res) : (s.setRes d o x).mgt = s.mgt := rfl
@[simp] theorem setRes_ro (d o : Nat) (x : Res) : (s.setRes d o x).ro = s.ro := rfl
@[simp] theorem setRes_flt (d o : Nat) (x : Res) : (s.setRes d o x).flt = s.flt := rfl
@[simp] theorem setRes_progs (d o : Nat) (x : Res) : (s.setRes d o x).progs = s.progs := rfl
@[simp] theorem setRes_steps (d o : Nat) (x : Res) : (s.setRes d o x).steps = s.steps := rfl
@[simp] theorem setRes_segs (d o : Nat) (x : Res) : (s.setRes d o x).segs = s.segs := rfl
@[simp] theorem setRes_blks (d o : Nat) (x : Res) : (s.setRes d o x).blks = s.blks := rfl
@[simp] theorem setRes_sigs (d o : Nat) (x : Res) : (s.setRes d o x).sigs = s.sigs := rfl
@[simp] theorem setRes_mem (d o : Nat) (x : Res) : (s.setRes d o x).mem = s.mem := rfl
@[simp] theorem setRes_dirs (d o : Nat) (x : Res) : (s.setRes d o x).dirs = s.dirs := rfl
@[simp] theorem setRes_binds (d o : Nat) (x : Res) : (s.setRes d o x).binds = s.binds := rfl
@[simp] theorem setRes_back (d o : Nat) (x : Res) : (s.setRes d o x).back = s.back := rfl
@[simp] theorem setRes_grds (d o : Nat) (x : Res) : (s.setRes d o x).grds = s.grds := rfl
@[simp] theorem setRes_fab (d o : Nat) (x : Res) : (s.setRes d o x).fab = s.fab := rfl
@[simp] theorem setRes_xchs (d o : Nat) (x : Res) : (s.setRes d o x).xchs = s.xchs := rfl
@[simp] theorem setRes_days (d o : Nat) (x : Res) : (s.setRes d o x).days = s.days := rfl
@[simp] theorem setRes_cp_pcieRef (d o : Nat) (x : Res) : (s.setRes d o x).cp.pcieRef = s.cp.pcieRef := rfl
@[simp] theorem setRes_cp_perst (d o : Nat) (x : Res) : (s.setRes d o x).cp.perst = s.cp.perst := rfl
@[simp] theorem setRes_cp_link (d o : Nat) (x : Res) : (s.setRes d o x).cp.link = s.cp.link := rfl
@[simp] theorem setRes_cp_doms (d o : Nat) (x : Res) : (s.setRes d o x).cp.doms = s.cp.doms := rfl
@[simp] theorem setRes_cp_ctxs (d o : Nat) (x : Res) : (s.setRes d o x).cp.ctxs = s.cp.ctxs := rfl
@[simp] theorem setRes_cp_msix (d o : Nat) (x : Res) : (s.setRes d o x).cp.msix = s.cp.msix := rfl
@[simp] theorem setRes_cp_heldBar (d o : Nat) (x : Res) : (s.setRes d o x).cp.heldBar = s.cp.heldBar := rfl
@[simp] theorem setRes_get_reg (d o : Nat) (x : Res) (y : Nat) : (s.setRes d o x).reg y = s.reg y := rfl
@[simp] theorem setRes_get_dump (d o : Nat) (x : Res) (y : Nat) : (s.setRes d o x).dump y = s.dump y := rfl
@[simp] theorem setRes_get_dom (d o : Nat) (x : Res) (y : Nat) : (s.setRes d o x).dom y = s.dom y := rfl
@[simp] theorem setRes_get_ctx (d o : Nat) (x : Res) (y : Nat) : (s.setRes d o x).ctx y = s.ctx y := rfl
@[simp] theorem setRes_get_msix (d o : Nat) (x : Res) (y z : Nat) : (s.setRes d o x).msix y z = s.msix y z := rfl
@[simp] theorem setRes_get_prog (d o : Nat) (x : Res) (y : Nat) : (s.setRes d o x).prog y = s.prog y := rfl
@[simp] theorem setRes_get_stp (d o : Nat) (x : Res) (y : Nat) : (s.setRes d o x).stp y = s.stp y := rfl
@[simp] theorem setRes_get_seg (d o : Nat) (x : Res) (y z : Nat) : (s.setRes d o x).seg y z = s.seg y z := rfl
@[simp] theorem setRes_get_blk (d o : Nat) (x : Res) (y : Nat) : (s.setRes d o x).blk y = s.blk y := rfl
@[simp] theorem setRes_get_dir (d o : Nat) (x : Res) (y : Nat) : (s.setRes d o x).dir y = s.dir y := rfl
@[simp] theorem setRes_get_grd (d o : Nat) (x : Res) (y : Nat) : (s.setRes d o x).grd y = s.grd y := rfl
@[simp] theorem setRes_get_port (d o : Nat) (x : Res) (y : Nat) : (s.setRes d o x).port y = s.port y := rfl
@[simp] theorem setRes_get_xch (d o : Nat) (x : Res) (y : Nat) : (s.setRes d o x).xch y = s.xch y := rfl
@[simp] theorem setRes_get_day (d o : Nat) (x : Res) (y : Nat) : (s.setRes d o x).day y = s.day y := rfl
@[simp] theorem setRes_get_bind (d o : Nat) (x : Res) (y : Nat) : (s.setRes d o x).bind y = s.bind y := rfl
@[simp] theorem setRes_get_ro (d o : Nat) (x : Res) (y : Nat) : (s.setRes d o x).ro? y = s.ro? y := rfl
@[simp] theorem setRes_get_app (d o : Nat) (x : Res) (y z : Nat) : (s.setRes d o x).app y z = s.app y z := rfl
@[simp] theorem setRes_get_live (d o : Nat) (x : Res) (y : Nat) : (s.setRes d o x).live y = s.live y := rfl
@[simp] theorem setRes_get_shadow (d o : Nat) (x : Res) (y : Nat) : (s.setRes d o x).shadow y = s.shadow y := rfl
@[simp] theorem setRes_get_rd (d o : Nat) (x : Res) (y : Nat) : (s.setRes d o x).rd y = s.rd y := rfl

/-! ## setMsix -/

@[simp] theorem setMsix_pending (f v : Nat) (x : Msix) : (s.setMsix f v x).pending = s.pending := rfl
@[simp] theorem setMsix_ticks (f v : Nat) (x : Msix) : (s.setMsix f v x).ticks = s.ticks := rfl
@[simp] theorem setMsix_evt (f v : Nat) (x : Msix) : (s.setMsix f v x).evt = s.evt := rfl
@[simp] theorem setMsix_free (f v : Nat) (x : Msix) : (s.setMsix f v x).free = s.free := rfl
@[simp] theorem setMsix_out (f v : Nat) (x : Msix) : (s.setMsix f v x).out = s.out := rfl
@[simp] theorem setMsix_pwr (f v : Nat) (x : Msix) : (s.setMsix f v x).pwr = s.pwr := rfl
@[simp] theorem setMsix_sec (f v : Nat) (x : Msix) : (s.setMsix f v x).sec = s.sec := rfl
@[simp] theorem setMsix_mgt (f v : Nat) (x : Msix) : (s.setMsix f v x).mgt = s.mgt := rfl
@[simp] theorem setMsix_ro (f v : Nat) (x : Msix) : (s.setMsix f v x).ro = s.ro := rfl
@[simp] theorem setMsix_flt (f v : Nat) (x : Msix) : (s.setMsix f v x).flt = s.flt := rfl
@[simp] theorem setMsix_progs (f v : Nat) (x : Msix) : (s.setMsix f v x).progs = s.progs := rfl
@[simp] theorem setMsix_steps (f v : Nat) (x : Msix) : (s.setMsix f v x).steps = s.steps := rfl
@[simp] theorem setMsix_segs (f v : Nat) (x : Msix) : (s.setMsix f v x).segs = s.segs := rfl
@[simp] theorem setMsix_blks (f v : Nat) (x : Msix) : (s.setMsix f v x).blks = s.blks := rfl
@[simp] theorem setMsix_sigs (f v : Nat) (x : Msix) : (s.setMsix f v x).sigs = s.sigs := rfl
@[simp] theorem setMsix_mem (f v : Nat) (x : Msix) : (s.setMsix f v x).mem = s.mem := rfl
@[simp] theorem setMsix_dirs (f v : Nat) (x : Msix) : (s.setMsix f v x).dirs = s.dirs := rfl
@[simp] theorem setMsix_binds (f v : Nat) (x : Msix) : (s.setMsix f v x).binds = s.binds := rfl
@[simp] theorem setMsix_back (f v : Nat) (x : Msix) : (s.setMsix f v x).back = s.back := rfl
@[simp] theorem setMsix_grds (f v : Nat) (x : Msix) : (s.setMsix f v x).grds = s.grds := rfl
@[simp] theorem setMsix_fab (f v : Nat) (x : Msix) : (s.setMsix f v x).fab = s.fab := rfl
@[simp] theorem setMsix_xchs (f v : Nat) (x : Msix) : (s.setMsix f v x).xchs = s.xchs := rfl
@[simp] theorem setMsix_days (f v : Nat) (x : Msix) : (s.setMsix f v x).days = s.days := rfl
@[simp] theorem setMsix_cp_pcieRef (f v : Nat) (x : Msix) : (s.setMsix f v x).cp.pcieRef = s.cp.pcieRef := rfl
@[simp] theorem setMsix_cp_perst (f v : Nat) (x : Msix) : (s.setMsix f v x).cp.perst = s.cp.perst := rfl
@[simp] theorem setMsix_cp_link (f v : Nat) (x : Msix) : (s.setMsix f v x).cp.link = s.cp.link := rfl
@[simp] theorem setMsix_cp_doms (f v : Nat) (x : Msix) : (s.setMsix f v x).cp.doms = s.cp.doms := rfl
@[simp] theorem setMsix_cp_ctxs (f v : Nat) (x : Msix) : (s.setMsix f v x).cp.ctxs = s.cp.ctxs := rfl
@[simp] theorem setMsix_cp_ress (f v : Nat) (x : Msix) : (s.setMsix f v x).cp.ress = s.cp.ress := rfl
@[simp] theorem setMsix_cp_heldBar (f v : Nat) (x : Msix) : (s.setMsix f v x).cp.heldBar = s.cp.heldBar := rfl
@[simp] theorem setMsix_get_reg (f v : Nat) (x : Msix) (y : Nat) : (s.setMsix f v x).reg y = s.reg y := rfl
@[simp] theorem setMsix_get_dump (f v : Nat) (x : Msix) (y : Nat) : (s.setMsix f v x).dump y = s.dump y := rfl
@[simp] theorem setMsix_get_dom (f v : Nat) (x : Msix) (y : Nat) : (s.setMsix f v x).dom y = s.dom y := rfl
@[simp] theorem setMsix_get_ctx (f v : Nat) (x : Msix) (y : Nat) : (s.setMsix f v x).ctx y = s.ctx y := rfl
@[simp] theorem setMsix_get_res (f v : Nat) (x : Msix) (y z : Nat) : (s.setMsix f v x).res y z = s.res y z := rfl
@[simp] theorem setMsix_get_prog (f v : Nat) (x : Msix) (y : Nat) : (s.setMsix f v x).prog y = s.prog y := rfl
@[simp] theorem setMsix_get_stp (f v : Nat) (x : Msix) (y : Nat) : (s.setMsix f v x).stp y = s.stp y := rfl
@[simp] theorem setMsix_get_seg (f v : Nat) (x : Msix) (y z : Nat) : (s.setMsix f v x).seg y z = s.seg y z := rfl
@[simp] theorem setMsix_get_blk (f v : Nat) (x : Msix) (y : Nat) : (s.setMsix f v x).blk y = s.blk y := rfl
@[simp] theorem setMsix_get_dir (f v : Nat) (x : Msix) (y : Nat) : (s.setMsix f v x).dir y = s.dir y := rfl
@[simp] theorem setMsix_get_grd (f v : Nat) (x : Msix) (y : Nat) : (s.setMsix f v x).grd y = s.grd y := rfl
@[simp] theorem setMsix_get_port (f v : Nat) (x : Msix) (y : Nat) : (s.setMsix f v x).port y = s.port y := rfl
@[simp] theorem setMsix_get_xch (f v : Nat) (x : Msix) (y : Nat) : (s.setMsix f v x).xch y = s.xch y := rfl
@[simp] theorem setMsix_get_day (f v : Nat) (x : Msix) (y : Nat) : (s.setMsix f v x).day y = s.day y := rfl
@[simp] theorem setMsix_get_bind (f v : Nat) (x : Msix) (y : Nat) : (s.setMsix f v x).bind y = s.bind y := rfl
@[simp] theorem setMsix_get_ro (f v : Nat) (x : Msix) (y : Nat) : (s.setMsix f v x).ro? y = s.ro? y := rfl
@[simp] theorem setMsix_get_app (f v : Nat) (x : Msix) (y z : Nat) : (s.setMsix f v x).app y z = s.app y z := rfl
@[simp] theorem setMsix_get_live (f v : Nat) (x : Msix) (y : Nat) : (s.setMsix f v x).live y = s.live y := rfl
@[simp] theorem setMsix_get_shadow (f v : Nat) (x : Msix) (y : Nat) : (s.setMsix f v x).shadow y = s.shadow y := rfl
@[simp] theorem setMsix_get_rd (f v : Nat) (x : Msix) (y : Nat) : (s.setMsix f v x).rd y = s.rd y := rfl

/-! ## setProg -/

@[simp] theorem setProg_pending (d : Nat) (x : Prog) : (s.setProg d x).pending = s.pending := rfl
@[simp] theorem setProg_ticks (d : Nat) (x : Prog) : (s.setProg d x).ticks = s.ticks := rfl
@[simp] theorem setProg_evt (d : Nat) (x : Prog) : (s.setProg d x).evt = s.evt := rfl
@[simp] theorem setProg_free (d : Nat) (x : Prog) : (s.setProg d x).free = s.free := rfl
@[simp] theorem setProg_out (d : Nat) (x : Prog) : (s.setProg d x).out = s.out := rfl
@[simp] theorem setProg_pwr (d : Nat) (x : Prog) : (s.setProg d x).pwr = s.pwr := rfl
@[simp] theorem setProg_sec (d : Nat) (x : Prog) : (s.setProg d x).sec = s.sec := rfl
@[simp] theorem setProg_mgt (d : Nat) (x : Prog) : (s.setProg d x).mgt = s.mgt := rfl
@[simp] theorem setProg_ro (d : Nat) (x : Prog) : (s.setProg d x).ro = s.ro := rfl
@[simp] theorem setProg_flt (d : Nat) (x : Prog) : (s.setProg d x).flt = s.flt := rfl
@[simp] theorem setProg_cp (d : Nat) (x : Prog) : (s.setProg d x).cp = s.cp := rfl
@[simp] theorem setProg_steps (d : Nat) (x : Prog) : (s.setProg d x).steps = s.steps := rfl
@[simp] theorem setProg_segs (d : Nat) (x : Prog) : (s.setProg d x).segs = s.segs := rfl
@[simp] theorem setProg_blks (d : Nat) (x : Prog) : (s.setProg d x).blks = s.blks := rfl
@[simp] theorem setProg_sigs (d : Nat) (x : Prog) : (s.setProg d x).sigs = s.sigs := rfl
@[simp] theorem setProg_mem (d : Nat) (x : Prog) : (s.setProg d x).mem = s.mem := rfl
@[simp] theorem setProg_dirs (d : Nat) (x : Prog) : (s.setProg d x).dirs = s.dirs := rfl
@[simp] theorem setProg_binds (d : Nat) (x : Prog) : (s.setProg d x).binds = s.binds := rfl
@[simp] theorem setProg_back (d : Nat) (x : Prog) : (s.setProg d x).back = s.back := rfl
@[simp] theorem setProg_grds (d : Nat) (x : Prog) : (s.setProg d x).grds = s.grds := rfl
@[simp] theorem setProg_fab (d : Nat) (x : Prog) : (s.setProg d x).fab = s.fab := rfl
@[simp] theorem setProg_xchs (d : Nat) (x : Prog) : (s.setProg d x).xchs = s.xchs := rfl
@[simp] theorem setProg_days (d : Nat) (x : Prog) : (s.setProg d x).days = s.days := rfl
@[simp] theorem setProg_get_reg (d : Nat) (x : Prog) (y : Nat) : (s.setProg d x).reg y = s.reg y := rfl
@[simp] theorem setProg_get_dump (d : Nat) (x : Prog) (y : Nat) : (s.setProg d x).dump y = s.dump y := rfl
@[simp] theorem setProg_get_dom (d : Nat) (x : Prog) (y : Nat) : (s.setProg d x).dom y = s.dom y := rfl
@[simp] theorem setProg_get_ctx (d : Nat) (x : Prog) (y : Nat) : (s.setProg d x).ctx y = s.ctx y := rfl
@[simp] theorem setProg_get_res (d : Nat) (x : Prog) (y z : Nat) : (s.setProg d x).res y z = s.res y z := rfl
@[simp] theorem setProg_get_msix (d : Nat) (x : Prog) (y z : Nat) : (s.setProg d x).msix y z = s.msix y z := rfl
@[simp] theorem setProg_get_stp (d : Nat) (x : Prog) (y : Nat) : (s.setProg d x).stp y = s.stp y := rfl
@[simp] theorem setProg_get_seg (d : Nat) (x : Prog) (y z : Nat) : (s.setProg d x).seg y z = s.seg y z := rfl
@[simp] theorem setProg_get_blk (d : Nat) (x : Prog) (y : Nat) : (s.setProg d x).blk y = s.blk y := rfl
@[simp] theorem setProg_get_dir (d : Nat) (x : Prog) (y : Nat) : (s.setProg d x).dir y = s.dir y := rfl
@[simp] theorem setProg_get_grd (d : Nat) (x : Prog) (y : Nat) : (s.setProg d x).grd y = s.grd y := rfl
@[simp] theorem setProg_get_port (d : Nat) (x : Prog) (y : Nat) : (s.setProg d x).port y = s.port y := rfl
@[simp] theorem setProg_get_xch (d : Nat) (x : Prog) (y : Nat) : (s.setProg d x).xch y = s.xch y := rfl
@[simp] theorem setProg_get_day (d : Nat) (x : Prog) (y : Nat) : (s.setProg d x).day y = s.day y := rfl
@[simp] theorem setProg_get_bind (d : Nat) (x : Prog) (y : Nat) : (s.setProg d x).bind y = s.bind y := rfl
@[simp] theorem setProg_get_ro (d : Nat) (x : Prog) (y : Nat) : (s.setProg d x).ro? y = s.ro? y := rfl
@[simp] theorem setProg_get_app (d : Nat) (x : Prog) (y z : Nat) : (s.setProg d x).app y z = s.app y z := rfl
@[simp] theorem setProg_get_live (d : Nat) (x : Prog) (y : Nat) : (s.setProg d x).live y = s.live y := rfl
@[simp] theorem setProg_get_shadow (d : Nat) (x : Prog) (y : Nat) : (s.setProg d x).shadow y = s.shadow y := rfl
@[simp] theorem setProg_get_rd (d : Nat) (x : Prog) (y : Nat) : (s.setProg d x).rd y = s.rd y := rfl

/-! ## setStp -/

@[simp] theorem setStp_pending (d : Nat) (x : StepSt) : (s.setStp d x).pending = s.pending := rfl
@[simp] theorem setStp_ticks (d : Nat) (x : StepSt) : (s.setStp d x).ticks = s.ticks := rfl
@[simp] theorem setStp_evt (d : Nat) (x : StepSt) : (s.setStp d x).evt = s.evt := rfl
@[simp] theorem setStp_free (d : Nat) (x : StepSt) : (s.setStp d x).free = s.free := rfl
@[simp] theorem setStp_out (d : Nat) (x : StepSt) : (s.setStp d x).out = s.out := rfl
@[simp] theorem setStp_pwr (d : Nat) (x : StepSt) : (s.setStp d x).pwr = s.pwr := rfl
@[simp] theorem setStp_sec (d : Nat) (x : StepSt) : (s.setStp d x).sec = s.sec := rfl
@[simp] theorem setStp_mgt (d : Nat) (x : StepSt) : (s.setStp d x).mgt = s.mgt := rfl
@[simp] theorem setStp_ro (d : Nat) (x : StepSt) : (s.setStp d x).ro = s.ro := rfl
@[simp] theorem setStp_flt (d : Nat) (x : StepSt) : (s.setStp d x).flt = s.flt := rfl
@[simp] theorem setStp_cp (d : Nat) (x : StepSt) : (s.setStp d x).cp = s.cp := rfl
@[simp] theorem setStp_progs (d : Nat) (x : StepSt) : (s.setStp d x).progs = s.progs := rfl
@[simp] theorem setStp_segs (d : Nat) (x : StepSt) : (s.setStp d x).segs = s.segs := rfl
@[simp] theorem setStp_blks (d : Nat) (x : StepSt) : (s.setStp d x).blks = s.blks := rfl
@[simp] theorem setStp_sigs (d : Nat) (x : StepSt) : (s.setStp d x).sigs = s.sigs := rfl
@[simp] theorem setStp_mem (d : Nat) (x : StepSt) : (s.setStp d x).mem = s.mem := rfl
@[simp] theorem setStp_dirs (d : Nat) (x : StepSt) : (s.setStp d x).dirs = s.dirs := rfl
@[simp] theorem setStp_binds (d : Nat) (x : StepSt) : (s.setStp d x).binds = s.binds := rfl
@[simp] theorem setStp_back (d : Nat) (x : StepSt) : (s.setStp d x).back = s.back := rfl
@[simp] theorem setStp_grds (d : Nat) (x : StepSt) : (s.setStp d x).grds = s.grds := rfl
@[simp] theorem setStp_fab (d : Nat) (x : StepSt) : (s.setStp d x).fab = s.fab := rfl
@[simp] theorem setStp_xchs (d : Nat) (x : StepSt) : (s.setStp d x).xchs = s.xchs := rfl
@[simp] theorem setStp_days (d : Nat) (x : StepSt) : (s.setStp d x).days = s.days := rfl
@[simp] theorem setStp_get_reg (d : Nat) (x : StepSt) (y : Nat) : (s.setStp d x).reg y = s.reg y := rfl
@[simp] theorem setStp_get_dump (d : Nat) (x : StepSt) (y : Nat) : (s.setStp d x).dump y = s.dump y := rfl
@[simp] theorem setStp_get_dom (d : Nat) (x : StepSt) (y : Nat) : (s.setStp d x).dom y = s.dom y := rfl
@[simp] theorem setStp_get_ctx (d : Nat) (x : StepSt) (y : Nat) : (s.setStp d x).ctx y = s.ctx y := rfl
@[simp] theorem setStp_get_res (d : Nat) (x : StepSt) (y z : Nat) : (s.setStp d x).res y z = s.res y z := rfl
@[simp] theorem setStp_get_msix (d : Nat) (x : StepSt) (y z : Nat) : (s.setStp d x).msix y z = s.msix y z := rfl
@[simp] theorem setStp_get_prog (d : Nat) (x : StepSt) (y : Nat) : (s.setStp d x).prog y = s.prog y := rfl
@[simp] theorem setStp_get_seg (d : Nat) (x : StepSt) (y z : Nat) : (s.setStp d x).seg y z = s.seg y z := rfl
@[simp] theorem setStp_get_blk (d : Nat) (x : StepSt) (y : Nat) : (s.setStp d x).blk y = s.blk y := rfl
@[simp] theorem setStp_get_dir (d : Nat) (x : StepSt) (y : Nat) : (s.setStp d x).dir y = s.dir y := rfl
@[simp] theorem setStp_get_grd (d : Nat) (x : StepSt) (y : Nat) : (s.setStp d x).grd y = s.grd y := rfl
@[simp] theorem setStp_get_port (d : Nat) (x : StepSt) (y : Nat) : (s.setStp d x).port y = s.port y := rfl
@[simp] theorem setStp_get_xch (d : Nat) (x : StepSt) (y : Nat) : (s.setStp d x).xch y = s.xch y := rfl
@[simp] theorem setStp_get_day (d : Nat) (x : StepSt) (y : Nat) : (s.setStp d x).day y = s.day y := rfl
@[simp] theorem setStp_get_bind (d : Nat) (x : StepSt) (y : Nat) : (s.setStp d x).bind y = s.bind y := rfl
@[simp] theorem setStp_get_ro (d : Nat) (x : StepSt) (y : Nat) : (s.setStp d x).ro? y = s.ro? y := rfl
@[simp] theorem setStp_get_app (d : Nat) (x : StepSt) (y z : Nat) : (s.setStp d x).app y z = s.app y z := rfl
@[simp] theorem setStp_get_live (d : Nat) (x : StepSt) (y : Nat) : (s.setStp d x).live y = s.live y := rfl
@[simp] theorem setStp_get_shadow (d : Nat) (x : StepSt) (y : Nat) : (s.setStp d x).shadow y = s.shadow y := rfl
@[simp] theorem setStp_get_rd (d : Nat) (x : StepSt) (y : Nat) : (s.setStp d x).rd y = s.rd y := rfl

/-! ## setSeg -/

@[simp] theorem setSeg_pending (d k : Nat) (x : Seg) : (s.setSeg d k x).pending = s.pending := rfl
@[simp] theorem setSeg_ticks (d k : Nat) (x : Seg) : (s.setSeg d k x).ticks = s.ticks := rfl
@[simp] theorem setSeg_evt (d k : Nat) (x : Seg) : (s.setSeg d k x).evt = s.evt := rfl
@[simp] theorem setSeg_free (d k : Nat) (x : Seg) : (s.setSeg d k x).free = s.free := rfl
@[simp] theorem setSeg_out (d k : Nat) (x : Seg) : (s.setSeg d k x).out = s.out := rfl
@[simp] theorem setSeg_pwr (d k : Nat) (x : Seg) : (s.setSeg d k x).pwr = s.pwr := rfl
@[simp] theorem setSeg_sec (d k : Nat) (x : Seg) : (s.setSeg d k x).sec = s.sec := rfl
@[simp] theorem setSeg_mgt (d k : Nat) (x : Seg) : (s.setSeg d k x).mgt = s.mgt := rfl
@[simp] theorem setSeg_ro (d k : Nat) (x : Seg) : (s.setSeg d k x).ro = s.ro := rfl
@[simp] theorem setSeg_flt (d k : Nat) (x : Seg) : (s.setSeg d k x).flt = s.flt := rfl
@[simp] theorem setSeg_cp (d k : Nat) (x : Seg) : (s.setSeg d k x).cp = s.cp := rfl
@[simp] theorem setSeg_progs (d k : Nat) (x : Seg) : (s.setSeg d k x).progs = s.progs := rfl
@[simp] theorem setSeg_steps (d k : Nat) (x : Seg) : (s.setSeg d k x).steps = s.steps := rfl
@[simp] theorem setSeg_blks (d k : Nat) (x : Seg) : (s.setSeg d k x).blks = s.blks := rfl
@[simp] theorem setSeg_sigs (d k : Nat) (x : Seg) : (s.setSeg d k x).sigs = s.sigs := rfl
@[simp] theorem setSeg_mem (d k : Nat) (x : Seg) : (s.setSeg d k x).mem = s.mem := rfl
@[simp] theorem setSeg_dirs (d k : Nat) (x : Seg) : (s.setSeg d k x).dirs = s.dirs := rfl
@[simp] theorem setSeg_binds (d k : Nat) (x : Seg) : (s.setSeg d k x).binds = s.binds := rfl
@[simp] theorem setSeg_back (d k : Nat) (x : Seg) : (s.setSeg d k x).back = s.back := rfl
@[simp] theorem setSeg_grds (d k : Nat) (x : Seg) : (s.setSeg d k x).grds = s.grds := rfl
@[simp] theorem setSeg_fab (d k : Nat) (x : Seg) : (s.setSeg d k x).fab = s.fab := rfl
@[simp] theorem setSeg_xchs (d k : Nat) (x : Seg) : (s.setSeg d k x).xchs = s.xchs := rfl
@[simp] theorem setSeg_days (d k : Nat) (x : Seg) : (s.setSeg d k x).days = s.days := rfl
@[simp] theorem setSeg_get_reg (d k : Nat) (x : Seg) (y : Nat) : (s.setSeg d k x).reg y = s.reg y := rfl
@[simp] theorem setSeg_get_dump (d k : Nat) (x : Seg) (y : Nat) : (s.setSeg d k x).dump y = s.dump y := rfl
@[simp] theorem setSeg_get_dom (d k : Nat) (x : Seg) (y : Nat) : (s.setSeg d k x).dom y = s.dom y := rfl
@[simp] theorem setSeg_get_ctx (d k : Nat) (x : Seg) (y : Nat) : (s.setSeg d k x).ctx y = s.ctx y := rfl
@[simp] theorem setSeg_get_res (d k : Nat) (x : Seg) (y z : Nat) : (s.setSeg d k x).res y z = s.res y z := rfl
@[simp] theorem setSeg_get_msix (d k : Nat) (x : Seg) (y z : Nat) : (s.setSeg d k x).msix y z = s.msix y z := rfl
@[simp] theorem setSeg_get_prog (d k : Nat) (x : Seg) (y : Nat) : (s.setSeg d k x).prog y = s.prog y := rfl
@[simp] theorem setSeg_get_stp (d k : Nat) (x : Seg) (y : Nat) : (s.setSeg d k x).stp y = s.stp y := rfl
@[simp] theorem setSeg_get_blk (d k : Nat) (x : Seg) (y : Nat) : (s.setSeg d k x).blk y = s.blk y := rfl
@[simp] theorem setSeg_get_dir (d k : Nat) (x : Seg) (y : Nat) : (s.setSeg d k x).dir y = s.dir y := rfl
@[simp] theorem setSeg_get_grd (d k : Nat) (x : Seg) (y : Nat) : (s.setSeg d k x).grd y = s.grd y := rfl
@[simp] theorem setSeg_get_port (d k : Nat) (x : Seg) (y : Nat) : (s.setSeg d k x).port y = s.port y := rfl
@[simp] theorem setSeg_get_xch (d k : Nat) (x : Seg) (y : Nat) : (s.setSeg d k x).xch y = s.xch y := rfl
@[simp] theorem setSeg_get_day (d k : Nat) (x : Seg) (y : Nat) : (s.setSeg d k x).day y = s.day y := rfl
@[simp] theorem setSeg_get_bind (d k : Nat) (x : Seg) (y : Nat) : (s.setSeg d k x).bind y = s.bind y := rfl
@[simp] theorem setSeg_get_ro (d k : Nat) (x : Seg) (y : Nat) : (s.setSeg d k x).ro? y = s.ro? y := rfl
@[simp] theorem setSeg_get_app (d k : Nat) (x : Seg) (y z : Nat) : (s.setSeg d k x).app y z = s.app y z := rfl
@[simp] theorem setSeg_get_live (d k : Nat) (x : Seg) (y : Nat) : (s.setSeg d k x).live y = s.live y := rfl
@[simp] theorem setSeg_get_shadow (d k : Nat) (x : Seg) (y : Nat) : (s.setSeg d k x).shadow y = s.shadow y := rfl
@[simp] theorem setSeg_get_rd (d k : Nat) (x : Seg) (y : Nat) : (s.setSeg d k x).rd y = s.rd y := rfl

/-! ## setBlk -/

@[simp] theorem setBlk_pending (b : Nat) (x : Blk) : (s.setBlk b x).pending = s.pending := rfl
@[simp] theorem setBlk_ticks (b : Nat) (x : Blk) : (s.setBlk b x).ticks = s.ticks := rfl
@[simp] theorem setBlk_evt (b : Nat) (x : Blk) : (s.setBlk b x).evt = s.evt := rfl
@[simp] theorem setBlk_free (b : Nat) (x : Blk) : (s.setBlk b x).free = s.free := rfl
@[simp] theorem setBlk_out (b : Nat) (x : Blk) : (s.setBlk b x).out = s.out := rfl
@[simp] theorem setBlk_pwr (b : Nat) (x : Blk) : (s.setBlk b x).pwr = s.pwr := rfl
@[simp] theorem setBlk_sec (b : Nat) (x : Blk) : (s.setBlk b x).sec = s.sec := rfl
@[simp] theorem setBlk_mgt (b : Nat) (x : Blk) : (s.setBlk b x).mgt = s.mgt := rfl
@[simp] theorem setBlk_ro (b : Nat) (x : Blk) : (s.setBlk b x).ro = s.ro := rfl
@[simp] theorem setBlk_flt (b : Nat) (x : Blk) : (s.setBlk b x).flt = s.flt := rfl
@[simp] theorem setBlk_cp (b : Nat) (x : Blk) : (s.setBlk b x).cp = s.cp := rfl
@[simp] theorem setBlk_progs (b : Nat) (x : Blk) : (s.setBlk b x).progs = s.progs := rfl
@[simp] theorem setBlk_steps (b : Nat) (x : Blk) : (s.setBlk b x).steps = s.steps := rfl
@[simp] theorem setBlk_segs (b : Nat) (x : Blk) : (s.setBlk b x).segs = s.segs := rfl
@[simp] theorem setBlk_sigs (b : Nat) (x : Blk) : (s.setBlk b x).sigs = s.sigs := rfl
@[simp] theorem setBlk_mem (b : Nat) (x : Blk) : (s.setBlk b x).mem = s.mem := rfl
@[simp] theorem setBlk_dirs (b : Nat) (x : Blk) : (s.setBlk b x).dirs = s.dirs := rfl
@[simp] theorem setBlk_binds (b : Nat) (x : Blk) : (s.setBlk b x).binds = s.binds := rfl
@[simp] theorem setBlk_back (b : Nat) (x : Blk) : (s.setBlk b x).back = s.back := rfl
@[simp] theorem setBlk_grds (b : Nat) (x : Blk) : (s.setBlk b x).grds = s.grds := rfl
@[simp] theorem setBlk_fab (b : Nat) (x : Blk) : (s.setBlk b x).fab = s.fab := rfl
@[simp] theorem setBlk_xchs (b : Nat) (x : Blk) : (s.setBlk b x).xchs = s.xchs := rfl
@[simp] theorem setBlk_days (b : Nat) (x : Blk) : (s.setBlk b x).days = s.days := rfl
@[simp] theorem setBlk_get_reg (b : Nat) (x : Blk) (y : Nat) : (s.setBlk b x).reg y = s.reg y := rfl
@[simp] theorem setBlk_get_dump (b : Nat) (x : Blk) (y : Nat) : (s.setBlk b x).dump y = s.dump y := rfl
@[simp] theorem setBlk_get_dom (b : Nat) (x : Blk) (y : Nat) : (s.setBlk b x).dom y = s.dom y := rfl
@[simp] theorem setBlk_get_ctx (b : Nat) (x : Blk) (y : Nat) : (s.setBlk b x).ctx y = s.ctx y := rfl
@[simp] theorem setBlk_get_res (b : Nat) (x : Blk) (y z : Nat) : (s.setBlk b x).res y z = s.res y z := rfl
@[simp] theorem setBlk_get_msix (b : Nat) (x : Blk) (y z : Nat) : (s.setBlk b x).msix y z = s.msix y z := rfl
@[simp] theorem setBlk_get_prog (b : Nat) (x : Blk) (y : Nat) : (s.setBlk b x).prog y = s.prog y := rfl
@[simp] theorem setBlk_get_stp (b : Nat) (x : Blk) (y : Nat) : (s.setBlk b x).stp y = s.stp y := rfl
@[simp] theorem setBlk_get_seg (b : Nat) (x : Blk) (y z : Nat) : (s.setBlk b x).seg y z = s.seg y z := rfl
@[simp] theorem setBlk_get_dir (b : Nat) (x : Blk) (y : Nat) : (s.setBlk b x).dir y = s.dir y := rfl
@[simp] theorem setBlk_get_grd (b : Nat) (x : Blk) (y : Nat) : (s.setBlk b x).grd y = s.grd y := rfl
@[simp] theorem setBlk_get_port (b : Nat) (x : Blk) (y : Nat) : (s.setBlk b x).port y = s.port y := rfl
@[simp] theorem setBlk_get_xch (b : Nat) (x : Blk) (y : Nat) : (s.setBlk b x).xch y = s.xch y := rfl
@[simp] theorem setBlk_get_day (b : Nat) (x : Blk) (y : Nat) : (s.setBlk b x).day y = s.day y := rfl
@[simp] theorem setBlk_get_bind (b : Nat) (x : Blk) (y : Nat) : (s.setBlk b x).bind y = s.bind y := rfl
@[simp] theorem setBlk_get_ro (b : Nat) (x : Blk) (y : Nat) : (s.setBlk b x).ro? y = s.ro? y := rfl
@[simp] theorem setBlk_get_app (b : Nat) (x : Blk) (y z : Nat) : (s.setBlk b x).app y z = s.app y z := rfl
@[simp] theorem setBlk_get_live (b : Nat) (x : Blk) (y : Nat) : (s.setBlk b x).live y = s.live y := rfl
@[simp] theorem setBlk_get_shadow (b : Nat) (x : Blk) (y : Nat) : (s.setBlk b x).shadow y = s.shadow y := rfl
@[simp] theorem setBlk_get_rd (b : Nat) (x : Blk) (y : Nat) : (s.setBlk b x).rd y = s.rd y := rfl

/-! ## setDir -/

@[simp] theorem setDir_pending (p : Nat) (x : Dirent) : (s.setDir p x).pending = s.pending := rfl
@[simp] theorem setDir_ticks (p : Nat) (x : Dirent) : (s.setDir p x).ticks = s.ticks := rfl
@[simp] theorem setDir_evt (p : Nat) (x : Dirent) : (s.setDir p x).evt = s.evt := rfl
@[simp] theorem setDir_free (p : Nat) (x : Dirent) : (s.setDir p x).free = s.free := rfl
@[simp] theorem setDir_out (p : Nat) (x : Dirent) : (s.setDir p x).out = s.out := rfl
@[simp] theorem setDir_pwr (p : Nat) (x : Dirent) : (s.setDir p x).pwr = s.pwr := rfl
@[simp] theorem setDir_sec (p : Nat) (x : Dirent) : (s.setDir p x).sec = s.sec := rfl
@[simp] theorem setDir_mgt (p : Nat) (x : Dirent) : (s.setDir p x).mgt = s.mgt := rfl
@[simp] theorem setDir_ro (p : Nat) (x : Dirent) : (s.setDir p x).ro = s.ro := rfl
@[simp] theorem setDir_flt (p : Nat) (x : Dirent) : (s.setDir p x).flt = s.flt := rfl
@[simp] theorem setDir_cp (p : Nat) (x : Dirent) : (s.setDir p x).cp = s.cp := rfl
@[simp] theorem setDir_progs (p : Nat) (x : Dirent) : (s.setDir p x).progs = s.progs := rfl
@[simp] theorem setDir_steps (p : Nat) (x : Dirent) : (s.setDir p x).steps = s.steps := rfl
@[simp] theorem setDir_segs (p : Nat) (x : Dirent) : (s.setDir p x).segs = s.segs := rfl
@[simp] theorem setDir_blks (p : Nat) (x : Dirent) : (s.setDir p x).blks = s.blks := rfl
@[simp] theorem setDir_sigs (p : Nat) (x : Dirent) : (s.setDir p x).sigs = s.sigs := rfl
@[simp] theorem setDir_mem (p : Nat) (x : Dirent) : (s.setDir p x).mem = s.mem := rfl
@[simp] theorem setDir_binds (p : Nat) (x : Dirent) : (s.setDir p x).binds = s.binds := rfl
@[simp] theorem setDir_back (p : Nat) (x : Dirent) : (s.setDir p x).back = s.back := rfl
@[simp] theorem setDir_grds (p : Nat) (x : Dirent) : (s.setDir p x).grds = s.grds := rfl
@[simp] theorem setDir_fab (p : Nat) (x : Dirent) : (s.setDir p x).fab = s.fab := rfl
@[simp] theorem setDir_xchs (p : Nat) (x : Dirent) : (s.setDir p x).xchs = s.xchs := rfl
@[simp] theorem setDir_days (p : Nat) (x : Dirent) : (s.setDir p x).days = s.days := rfl
@[simp] theorem setDir_get_reg (p : Nat) (x : Dirent) (y : Nat) : (s.setDir p x).reg y = s.reg y := rfl
@[simp] theorem setDir_get_dump (p : Nat) (x : Dirent) (y : Nat) : (s.setDir p x).dump y = s.dump y := rfl
@[simp] theorem setDir_get_dom (p : Nat) (x : Dirent) (y : Nat) : (s.setDir p x).dom y = s.dom y := rfl
@[simp] theorem setDir_get_ctx (p : Nat) (x : Dirent) (y : Nat) : (s.setDir p x).ctx y = s.ctx y := rfl
@[simp] theorem setDir_get_res (p : Nat) (x : Dirent) (y z : Nat) : (s.setDir p x).res y z = s.res y z := rfl
@[simp] theorem setDir_get_msix (p : Nat) (x : Dirent) (y z : Nat) : (s.setDir p x).msix y z = s.msix y z := rfl
@[simp] theorem setDir_get_prog (p : Nat) (x : Dirent) (y : Nat) : (s.setDir p x).prog y = s.prog y := rfl
@[simp] theorem setDir_get_stp (p : Nat) (x : Dirent) (y : Nat) : (s.setDir p x).stp y = s.stp y := rfl
@[simp] theorem setDir_get_seg (p : Nat) (x : Dirent) (y z : Nat) : (s.setDir p x).seg y z = s.seg y z := rfl
@[simp] theorem setDir_get_blk (p : Nat) (x : Dirent) (y : Nat) : (s.setDir p x).blk y = s.blk y := rfl
@[simp] theorem setDir_get_grd (p : Nat) (x : Dirent) (y : Nat) : (s.setDir p x).grd y = s.grd y := rfl
@[simp] theorem setDir_get_port (p : Nat) (x : Dirent) (y : Nat) : (s.setDir p x).port y = s.port y := rfl
@[simp] theorem setDir_get_xch (p : Nat) (x : Dirent) (y : Nat) : (s.setDir p x).xch y = s.xch y := rfl
@[simp] theorem setDir_get_day (p : Nat) (x : Dirent) (y : Nat) : (s.setDir p x).day y = s.day y := rfl
@[simp] theorem setDir_get_bind (p : Nat) (x : Dirent) (y : Nat) : (s.setDir p x).bind y = s.bind y := rfl
@[simp] theorem setDir_get_ro (p : Nat) (x : Dirent) (y : Nat) : (s.setDir p x).ro? y = s.ro? y := rfl
@[simp] theorem setDir_get_app (p : Nat) (x : Dirent) (y z : Nat) : (s.setDir p x).app y z = s.app y z := rfl
@[simp] theorem setDir_get_live (p : Nat) (x : Dirent) (y : Nat) : (s.setDir p x).live y = s.live y := rfl
@[simp] theorem setDir_get_shadow (p : Nat) (x : Dirent) (y : Nat) : (s.setDir p x).shadow y = s.shadow y := rfl
@[simp] theorem setDir_get_rd (p : Nat) (x : Dirent) (y : Nat) : (s.setDir p x).rd y = s.rd y := rfl

/-! ## setGrd -/

@[simp] theorem setGrd_pending (r : Nat) (x : Grd) : (s.setGrd r x).pending = s.pending := rfl
@[simp] theorem setGrd_ticks (r : Nat) (x : Grd) : (s.setGrd r x).ticks = s.ticks := rfl
@[simp] theorem setGrd_evt (r : Nat) (x : Grd) : (s.setGrd r x).evt = s.evt := rfl
@[simp] theorem setGrd_free (r : Nat) (x : Grd) : (s.setGrd r x).free = s.free := rfl
@[simp] theorem setGrd_out (r : Nat) (x : Grd) : (s.setGrd r x).out = s.out := rfl
@[simp] theorem setGrd_pwr (r : Nat) (x : Grd) : (s.setGrd r x).pwr = s.pwr := rfl
@[simp] theorem setGrd_sec (r : Nat) (x : Grd) : (s.setGrd r x).sec = s.sec := rfl
@[simp] theorem setGrd_mgt (r : Nat) (x : Grd) : (s.setGrd r x).mgt = s.mgt := rfl
@[simp] theorem setGrd_ro (r : Nat) (x : Grd) : (s.setGrd r x).ro = s.ro := rfl
@[simp] theorem setGrd_flt (r : Nat) (x : Grd) : (s.setGrd r x).flt = s.flt := rfl
@[simp] theorem setGrd_cp (r : Nat) (x : Grd) : (s.setGrd r x).cp = s.cp := rfl
@[simp] theorem setGrd_progs (r : Nat) (x : Grd) : (s.setGrd r x).progs = s.progs := rfl
@[simp] theorem setGrd_steps (r : Nat) (x : Grd) : (s.setGrd r x).steps = s.steps := rfl
@[simp] theorem setGrd_segs (r : Nat) (x : Grd) : (s.setGrd r x).segs = s.segs := rfl
@[simp] theorem setGrd_blks (r : Nat) (x : Grd) : (s.setGrd r x).blks = s.blks := rfl
@[simp] theorem setGrd_sigs (r : Nat) (x : Grd) : (s.setGrd r x).sigs = s.sigs := rfl
@[simp] theorem setGrd_mem (r : Nat) (x : Grd) : (s.setGrd r x).mem = s.mem := rfl
@[simp] theorem setGrd_dirs (r : Nat) (x : Grd) : (s.setGrd r x).dirs = s.dirs := rfl
@[simp] theorem setGrd_binds (r : Nat) (x : Grd) : (s.setGrd r x).binds = s.binds := rfl
@[simp] theorem setGrd_back (r : Nat) (x : Grd) : (s.setGrd r x).back = s.back := rfl
@[simp] theorem setGrd_fab (r : Nat) (x : Grd) : (s.setGrd r x).fab = s.fab := rfl
@[simp] theorem setGrd_xchs (r : Nat) (x : Grd) : (s.setGrd r x).xchs = s.xchs := rfl
@[simp] theorem setGrd_days (r : Nat) (x : Grd) : (s.setGrd r x).days = s.days := rfl
@[simp] theorem setGrd_get_reg (r : Nat) (x : Grd) (y : Nat) : (s.setGrd r x).reg y = s.reg y := rfl
@[simp] theorem setGrd_get_dump (r : Nat) (x : Grd) (y : Nat) : (s.setGrd r x).dump y = s.dump y := rfl
@[simp] theorem setGrd_get_dom (r : Nat) (x : Grd) (y : Nat) : (s.setGrd r x).dom y = s.dom y := rfl
@[simp] theorem setGrd_get_ctx (r : Nat) (x : Grd) (y : Nat) : (s.setGrd r x).ctx y = s.ctx y := rfl
@[simp] theorem setGrd_get_res (r : Nat) (x : Grd) (y z : Nat) : (s.setGrd r x).res y z = s.res y z := rfl
@[simp] theorem setGrd_get_msix (r : Nat) (x : Grd) (y z : Nat) : (s.setGrd r x).msix y z = s.msix y z := rfl
@[simp] theorem setGrd_get_prog (r : Nat) (x : Grd) (y : Nat) : (s.setGrd r x).prog y = s.prog y := rfl
@[simp] theorem setGrd_get_stp (r : Nat) (x : Grd) (y : Nat) : (s.setGrd r x).stp y = s.stp y := rfl
@[simp] theorem setGrd_get_seg (r : Nat) (x : Grd) (y z : Nat) : (s.setGrd r x).seg y z = s.seg y z := rfl
@[simp] theorem setGrd_get_blk (r : Nat) (x : Grd) (y : Nat) : (s.setGrd r x).blk y = s.blk y := rfl
@[simp] theorem setGrd_get_dir (r : Nat) (x : Grd) (y : Nat) : (s.setGrd r x).dir y = s.dir y := rfl
@[simp] theorem setGrd_get_port (r : Nat) (x : Grd) (y : Nat) : (s.setGrd r x).port y = s.port y := rfl
@[simp] theorem setGrd_get_xch (r : Nat) (x : Grd) (y : Nat) : (s.setGrd r x).xch y = s.xch y := rfl
@[simp] theorem setGrd_get_day (r : Nat) (x : Grd) (y : Nat) : (s.setGrd r x).day y = s.day y := rfl
@[simp] theorem setGrd_get_bind (r : Nat) (x : Grd) (y : Nat) : (s.setGrd r x).bind y = s.bind y := rfl
@[simp] theorem setGrd_get_ro (r : Nat) (x : Grd) (y : Nat) : (s.setGrd r x).ro? y = s.ro? y := rfl
@[simp] theorem setGrd_get_app (r : Nat) (x : Grd) (y z : Nat) : (s.setGrd r x).app y z = s.app y z := rfl
@[simp] theorem setGrd_get_live (r : Nat) (x : Grd) (y : Nat) : (s.setGrd r x).live y = s.live y := rfl
@[simp] theorem setGrd_get_shadow (r : Nat) (x : Grd) (y : Nat) : (s.setGrd r x).shadow y = s.shadow y := rfl
@[simp] theorem setGrd_get_rd (r : Nat) (x : Grd) (y : Nat) : (s.setGrd r x).rd y = s.rd y := rfl

/-! ## setPort -/

@[simp] theorem setPort_pending (p : Nat) (x : Port) : (s.setPort p x).pending = s.pending := rfl
@[simp] theorem setPort_ticks (p : Nat) (x : Port) : (s.setPort p x).ticks = s.ticks := rfl
@[simp] theorem setPort_evt (p : Nat) (x : Port) : (s.setPort p x).evt = s.evt := rfl
@[simp] theorem setPort_free (p : Nat) (x : Port) : (s.setPort p x).free = s.free := rfl
@[simp] theorem setPort_out (p : Nat) (x : Port) : (s.setPort p x).out = s.out := rfl
@[simp] theorem setPort_pwr (p : Nat) (x : Port) : (s.setPort p x).pwr = s.pwr := rfl
@[simp] theorem setPort_sec (p : Nat) (x : Port) : (s.setPort p x).sec = s.sec := rfl
@[simp] theorem setPort_mgt (p : Nat) (x : Port) : (s.setPort p x).mgt = s.mgt := rfl
@[simp] theorem setPort_ro (p : Nat) (x : Port) : (s.setPort p x).ro = s.ro := rfl
@[simp] theorem setPort_flt (p : Nat) (x : Port) : (s.setPort p x).flt = s.flt := rfl
@[simp] theorem setPort_cp (p : Nat) (x : Port) : (s.setPort p x).cp = s.cp := rfl
@[simp] theorem setPort_progs (p : Nat) (x : Port) : (s.setPort p x).progs = s.progs := rfl
@[simp] theorem setPort_steps (p : Nat) (x : Port) : (s.setPort p x).steps = s.steps := rfl
@[simp] theorem setPort_segs (p : Nat) (x : Port) : (s.setPort p x).segs = s.segs := rfl
@[simp] theorem setPort_blks (p : Nat) (x : Port) : (s.setPort p x).blks = s.blks := rfl
@[simp] theorem setPort_sigs (p : Nat) (x : Port) : (s.setPort p x).sigs = s.sigs := rfl
@[simp] theorem setPort_mem (p : Nat) (x : Port) : (s.setPort p x).mem = s.mem := rfl
@[simp] theorem setPort_dirs (p : Nat) (x : Port) : (s.setPort p x).dirs = s.dirs := rfl
@[simp] theorem setPort_binds (p : Nat) (x : Port) : (s.setPort p x).binds = s.binds := rfl
@[simp] theorem setPort_back (p : Nat) (x : Port) : (s.setPort p x).back = s.back := rfl
@[simp] theorem setPort_grds (p : Nat) (x : Port) : (s.setPort p x).grds = s.grds := rfl
@[simp] theorem setPort_xchs (p : Nat) (x : Port) : (s.setPort p x).xchs = s.xchs := rfl
@[simp] theorem setPort_days (p : Nat) (x : Port) : (s.setPort p x).days = s.days := rfl
@[simp] theorem setPort_fab_combs (p : Nat) (x : Port) : (s.setPort p x).fab.combs = s.fab.combs := rfl
@[simp] theorem setPort_fab_done (p : Nat) (x : Port) : (s.setPort p x).fab.done = s.fab.done := rfl
@[simp] theorem setPort_fab_lane (p : Nat) (x : Port) : (s.setPort p x).fab.lane = s.fab.lane := rfl
@[simp] theorem setPort_get_reg (p : Nat) (x : Port) (y : Nat) : (s.setPort p x).reg y = s.reg y := rfl
@[simp] theorem setPort_get_dump (p : Nat) (x : Port) (y : Nat) : (s.setPort p x).dump y = s.dump y := rfl
@[simp] theorem setPort_get_dom (p : Nat) (x : Port) (y : Nat) : (s.setPort p x).dom y = s.dom y := rfl
@[simp] theorem setPort_get_ctx (p : Nat) (x : Port) (y : Nat) : (s.setPort p x).ctx y = s.ctx y := rfl
@[simp] theorem setPort_get_res (p : Nat) (x : Port) (y z : Nat) : (s.setPort p x).res y z = s.res y z := rfl
@[simp] theorem setPort_get_msix (p : Nat) (x : Port) (y z : Nat) : (s.setPort p x).msix y z = s.msix y z := rfl
@[simp] theorem setPort_get_prog (p : Nat) (x : Port) (y : Nat) : (s.setPort p x).prog y = s.prog y := rfl
@[simp] theorem setPort_get_stp (p : Nat) (x : Port) (y : Nat) : (s.setPort p x).stp y = s.stp y := rfl
@[simp] theorem setPort_get_seg (p : Nat) (x : Port) (y z : Nat) : (s.setPort p x).seg y z = s.seg y z := rfl
@[simp] theorem setPort_get_blk (p : Nat) (x : Port) (y : Nat) : (s.setPort p x).blk y = s.blk y := rfl
@[simp] theorem setPort_get_dir (p : Nat) (x : Port) (y : Nat) : (s.setPort p x).dir y = s.dir y := rfl
@[simp] theorem setPort_get_grd (p : Nat) (x : Port) (y : Nat) : (s.setPort p x).grd y = s.grd y := rfl
@[simp] theorem setPort_get_xch (p : Nat) (x : Port) (y : Nat) : (s.setPort p x).xch y = s.xch y := rfl
@[simp] theorem setPort_get_day (p : Nat) (x : Port) (y : Nat) : (s.setPort p x).day y = s.day y := rfl
@[simp] theorem setPort_get_bind (p : Nat) (x : Port) (y : Nat) : (s.setPort p x).bind y = s.bind y := rfl
@[simp] theorem setPort_get_ro (p : Nat) (x : Port) (y : Nat) : (s.setPort p x).ro? y = s.ro? y := rfl
@[simp] theorem setPort_get_app (p : Nat) (x : Port) (y z : Nat) : (s.setPort p x).app y z = s.app y z := rfl
@[simp] theorem setPort_get_live (p : Nat) (x : Port) (y : Nat) : (s.setPort p x).live y = s.live y := rfl
@[simp] theorem setPort_get_shadow (p : Nat) (x : Port) (y : Nat) : (s.setPort p x).shadow y = s.shadow y := rfl
@[simp] theorem setPort_get_rd (p : Nat) (x : Port) (y : Nat) : (s.setPort p x).rd y = s.rd y := rfl

/-! ## setXch -/

@[simp] theorem setXch_pending (d : Nat) (x : Xch) : (s.setXch d x).pending = s.pending := rfl
@[simp] theorem setXch_ticks (d : Nat) (x : Xch) : (s.setXch d x).ticks = s.ticks := rfl
@[simp] theorem setXch_evt (d : Nat) (x : Xch) : (s.setXch d x).evt = s.evt := rfl
@[simp] theorem setXch_free (d : Nat) (x : Xch) : (s.setXch d x).free = s.free := rfl
@[simp] theorem setXch_out (d : Nat) (x : Xch) : (s.setXch d x).out = s.out := rfl
@[simp] theorem setXch_pwr (d : Nat) (x : Xch) : (s.setXch d x).pwr = s.pwr := rfl
@[simp] theorem setXch_sec (d : Nat) (x : Xch) : (s.setXch d x).sec = s.sec := rfl
@[simp] theorem setXch_mgt (d : Nat) (x : Xch) : (s.setXch d x).mgt = s.mgt := rfl
@[simp] theorem setXch_ro (d : Nat) (x : Xch) : (s.setXch d x).ro = s.ro := rfl
@[simp] theorem setXch_flt (d : Nat) (x : Xch) : (s.setXch d x).flt = s.flt := rfl
@[simp] theorem setXch_cp (d : Nat) (x : Xch) : (s.setXch d x).cp = s.cp := rfl
@[simp] theorem setXch_progs (d : Nat) (x : Xch) : (s.setXch d x).progs = s.progs := rfl
@[simp] theorem setXch_steps (d : Nat) (x : Xch) : (s.setXch d x).steps = s.steps := rfl
@[simp] theorem setXch_segs (d : Nat) (x : Xch) : (s.setXch d x).segs = s.segs := rfl
@[simp] theorem setXch_blks (d : Nat) (x : Xch) : (s.setXch d x).blks = s.blks := rfl
@[simp] theorem setXch_sigs (d : Nat) (x : Xch) : (s.setXch d x).sigs = s.sigs := rfl
@[simp] theorem setXch_mem (d : Nat) (x : Xch) : (s.setXch d x).mem = s.mem := rfl
@[simp] theorem setXch_dirs (d : Nat) (x : Xch) : (s.setXch d x).dirs = s.dirs := rfl
@[simp] theorem setXch_binds (d : Nat) (x : Xch) : (s.setXch d x).binds = s.binds := rfl
@[simp] theorem setXch_back (d : Nat) (x : Xch) : (s.setXch d x).back = s.back := rfl
@[simp] theorem setXch_grds (d : Nat) (x : Xch) : (s.setXch d x).grds = s.grds := rfl
@[simp] theorem setXch_fab (d : Nat) (x : Xch) : (s.setXch d x).fab = s.fab := rfl
@[simp] theorem setXch_days (d : Nat) (x : Xch) : (s.setXch d x).days = s.days := rfl
@[simp] theorem setXch_get_reg (d : Nat) (x : Xch) (y : Nat) : (s.setXch d x).reg y = s.reg y := rfl
@[simp] theorem setXch_get_dump (d : Nat) (x : Xch) (y : Nat) : (s.setXch d x).dump y = s.dump y := rfl
@[simp] theorem setXch_get_dom (d : Nat) (x : Xch) (y : Nat) : (s.setXch d x).dom y = s.dom y := rfl
@[simp] theorem setXch_get_ctx (d : Nat) (x : Xch) (y : Nat) : (s.setXch d x).ctx y = s.ctx y := rfl
@[simp] theorem setXch_get_res (d : Nat) (x : Xch) (y z : Nat) : (s.setXch d x).res y z = s.res y z := rfl
@[simp] theorem setXch_get_msix (d : Nat) (x : Xch) (y z : Nat) : (s.setXch d x).msix y z = s.msix y z := rfl
@[simp] theorem setXch_get_prog (d : Nat) (x : Xch) (y : Nat) : (s.setXch d x).prog y = s.prog y := rfl
@[simp] theorem setXch_get_stp (d : Nat) (x : Xch) (y : Nat) : (s.setXch d x).stp y = s.stp y := rfl
@[simp] theorem setXch_get_seg (d : Nat) (x : Xch) (y z : Nat) : (s.setXch d x).seg y z = s.seg y z := rfl
@[simp] theorem setXch_get_blk (d : Nat) (x : Xch) (y : Nat) : (s.setXch d x).blk y = s.blk y := rfl
@[simp] theorem setXch_get_dir (d : Nat) (x : Xch) (y : Nat) : (s.setXch d x).dir y = s.dir y := rfl
@[simp] theorem setXch_get_grd (d : Nat) (x : Xch) (y : Nat) : (s.setXch d x).grd y = s.grd y := rfl
@[simp] theorem setXch_get_port (d : Nat) (x : Xch) (y : Nat) : (s.setXch d x).port y = s.port y := rfl
@[simp] theorem setXch_get_day (d : Nat) (x : Xch) (y : Nat) : (s.setXch d x).day y = s.day y := rfl
@[simp] theorem setXch_get_bind (d : Nat) (x : Xch) (y : Nat) : (s.setXch d x).bind y = s.bind y := rfl
@[simp] theorem setXch_get_ro (d : Nat) (x : Xch) (y : Nat) : (s.setXch d x).ro? y = s.ro? y := rfl
@[simp] theorem setXch_get_app (d : Nat) (x : Xch) (y z : Nat) : (s.setXch d x).app y z = s.app y z := rfl
@[simp] theorem setXch_get_live (d : Nat) (x : Xch) (y : Nat) : (s.setXch d x).live y = s.live y := rfl
@[simp] theorem setXch_get_shadow (d : Nat) (x : Xch) (y : Nat) : (s.setXch d x).shadow y = s.shadow y := rfl
@[simp] theorem setXch_get_rd (d : Nat) (x : Xch) (y : Nat) : (s.setXch d x).rd y = s.rd y := rfl

/-! ## setDay -/

@[simp] theorem setDay_pending (d : Nat) (x : Day) : (s.setDay d x).pending = s.pending := rfl
@[simp] theorem setDay_ticks (d : Nat) (x : Day) : (s.setDay d x).ticks = s.ticks := rfl
@[simp] theorem setDay_evt (d : Nat) (x : Day) : (s.setDay d x).evt = s.evt := rfl
@[simp] theorem setDay_free (d : Nat) (x : Day) : (s.setDay d x).free = s.free := rfl
@[simp] theorem setDay_out (d : Nat) (x : Day) : (s.setDay d x).out = s.out := rfl
@[simp] theorem setDay_pwr (d : Nat) (x : Day) : (s.setDay d x).pwr = s.pwr := rfl
@[simp] theorem setDay_sec (d : Nat) (x : Day) : (s.setDay d x).sec = s.sec := rfl
@[simp] theorem setDay_mgt (d : Nat) (x : Day) : (s.setDay d x).mgt = s.mgt := rfl
@[simp] theorem setDay_ro (d : Nat) (x : Day) : (s.setDay d x).ro = s.ro := rfl
@[simp] theorem setDay_flt (d : Nat) (x : Day) : (s.setDay d x).flt = s.flt := rfl
@[simp] theorem setDay_cp (d : Nat) (x : Day) : (s.setDay d x).cp = s.cp := rfl
@[simp] theorem setDay_progs (d : Nat) (x : Day) : (s.setDay d x).progs = s.progs := rfl
@[simp] theorem setDay_steps (d : Nat) (x : Day) : (s.setDay d x).steps = s.steps := rfl
@[simp] theorem setDay_segs (d : Nat) (x : Day) : (s.setDay d x).segs = s.segs := rfl
@[simp] theorem setDay_blks (d : Nat) (x : Day) : (s.setDay d x).blks = s.blks := rfl
@[simp] theorem setDay_sigs (d : Nat) (x : Day) : (s.setDay d x).sigs = s.sigs := rfl
@[simp] theorem setDay_mem (d : Nat) (x : Day) : (s.setDay d x).mem = s.mem := rfl
@[simp] theorem setDay_dirs (d : Nat) (x : Day) : (s.setDay d x).dirs = s.dirs := rfl
@[simp] theorem setDay_binds (d : Nat) (x : Day) : (s.setDay d x).binds = s.binds := rfl
@[simp] theorem setDay_back (d : Nat) (x : Day) : (s.setDay d x).back = s.back := rfl
@[simp] theorem setDay_grds (d : Nat) (x : Day) : (s.setDay d x).grds = s.grds := rfl
@[simp] theorem setDay_fab (d : Nat) (x : Day) : (s.setDay d x).fab = s.fab := rfl
@[simp] theorem setDay_xchs (d : Nat) (x : Day) : (s.setDay d x).xchs = s.xchs := rfl
@[simp] theorem setDay_get_reg (d : Nat) (x : Day) (y : Nat) : (s.setDay d x).reg y = s.reg y := rfl
@[simp] theorem setDay_get_dump (d : Nat) (x : Day) (y : Nat) : (s.setDay d x).dump y = s.dump y := rfl
@[simp] theorem setDay_get_dom (d : Nat) (x : Day) (y : Nat) : (s.setDay d x).dom y = s.dom y := rfl
@[simp] theorem setDay_get_ctx (d : Nat) (x : Day) (y : Nat) : (s.setDay d x).ctx y = s.ctx y := rfl
@[simp] theorem setDay_get_res (d : Nat) (x : Day) (y z : Nat) : (s.setDay d x).res y z = s.res y z := rfl
@[simp] theorem setDay_get_msix (d : Nat) (x : Day) (y z : Nat) : (s.setDay d x).msix y z = s.msix y z := rfl
@[simp] theorem setDay_get_prog (d : Nat) (x : Day) (y : Nat) : (s.setDay d x).prog y = s.prog y := rfl
@[simp] theorem setDay_get_stp (d : Nat) (x : Day) (y : Nat) : (s.setDay d x).stp y = s.stp y := rfl
@[simp] theorem setDay_get_seg (d : Nat) (x : Day) (y z : Nat) : (s.setDay d x).seg y z = s.seg y z := rfl
@[simp] theorem setDay_get_blk (d : Nat) (x : Day) (y : Nat) : (s.setDay d x).blk y = s.blk y := rfl
@[simp] theorem setDay_get_dir (d : Nat) (x : Day) (y : Nat) : (s.setDay d x).dir y = s.dir y := rfl
@[simp] theorem setDay_get_grd (d : Nat) (x : Day) (y : Nat) : (s.setDay d x).grd y = s.grd y := rfl
@[simp] theorem setDay_get_port (d : Nat) (x : Day) (y : Nat) : (s.setDay d x).port y = s.port y := rfl
@[simp] theorem setDay_get_xch (d : Nat) (x : Day) (y : Nat) : (s.setDay d x).xch y = s.xch y := rfl
@[simp] theorem setDay_get_bind (d : Nat) (x : Day) (y : Nat) : (s.setDay d x).bind y = s.bind y := rfl
@[simp] theorem setDay_get_ro (d : Nat) (x : Day) (y : Nat) : (s.setDay d x).ro? y = s.ro? y := rfl
@[simp] theorem setDay_get_app (d : Nat) (x : Day) (y z : Nat) : (s.setDay d x).app y z = s.app y z := rfl
@[simp] theorem setDay_get_live (d : Nat) (x : Day) (y : Nat) : (s.setDay d x).live y = s.live y := rfl
@[simp] theorem setDay_get_shadow (d : Nat) (x : Day) (y : Nat) : (s.setDay d x).shadow y = s.shadow y := rfl
@[simp] theorem setDay_get_rd (d : Nat) (x : Day) (y : Nat) : (s.setDay d x).rd y = s.rd y := rfl

/-! ## setHdr -/

@[simp] theorem setHdr_pending (d h : Nat) (x : WcHdr) : (s.setHdr d h x).pending = s.pending := rfl
@[simp] theorem setHdr_ticks (d h : Nat) (x : WcHdr) : (s.setHdr d h x).ticks = s.ticks := rfl
@[simp] theorem setHdr_evt (d h : Nat) (x : WcHdr) : (s.setHdr d h x).evt = s.evt := rfl
@[simp] theorem setHdr_free (d h : Nat) (x : WcHdr) : (s.setHdr d h x).free = s.free := rfl
@[simp] theorem setHdr_out (d h : Nat) (x : WcHdr) : (s.setHdr d h x).out = s.out := rfl
@[simp] theorem setHdr_pwr (d h : Nat) (x : WcHdr) : (s.setHdr d h x).pwr = s.pwr := rfl
@[simp] theorem setHdr_sec (d h : Nat) (x : WcHdr) : (s.setHdr d h x).sec = s.sec := rfl
@[simp] theorem setHdr_mgt (d h : Nat) (x : WcHdr) : (s.setHdr d h x).mgt = s.mgt := rfl
@[simp] theorem setHdr_ro (d h : Nat) (x : WcHdr) : (s.setHdr d h x).ro = s.ro := rfl
@[simp] theorem setHdr_flt (d h : Nat) (x : WcHdr) : (s.setHdr d h x).flt = s.flt := rfl
@[simp] theorem setHdr_cp (d h : Nat) (x : WcHdr) : (s.setHdr d h x).cp = s.cp := rfl
@[simp] theorem setHdr_steps (d h : Nat) (x : WcHdr) : (s.setHdr d h x).steps = s.steps := rfl
@[simp] theorem setHdr_segs (d h : Nat) (x : WcHdr) : (s.setHdr d h x).segs = s.segs := rfl
@[simp] theorem setHdr_blks (d h : Nat) (x : WcHdr) : (s.setHdr d h x).blks = s.blks := rfl
@[simp] theorem setHdr_sigs (d h : Nat) (x : WcHdr) : (s.setHdr d h x).sigs = s.sigs := rfl
@[simp] theorem setHdr_mem (d h : Nat) (x : WcHdr) : (s.setHdr d h x).mem = s.mem := rfl
@[simp] theorem setHdr_dirs (d h : Nat) (x : WcHdr) : (s.setHdr d h x).dirs = s.dirs := rfl
@[simp] theorem setHdr_binds (d h : Nat) (x : WcHdr) : (s.setHdr d h x).binds = s.binds := rfl
@[simp] theorem setHdr_back (d h : Nat) (x : WcHdr) : (s.setHdr d h x).back = s.back := rfl
@[simp] theorem setHdr_grds (d h : Nat) (x : WcHdr) : (s.setHdr d h x).grds = s.grds := rfl
@[simp] theorem setHdr_fab (d h : Nat) (x : WcHdr) : (s.setHdr d h x).fab = s.fab := rfl
@[simp] theorem setHdr_xchs (d h : Nat) (x : WcHdr) : (s.setHdr d h x).xchs = s.xchs := rfl
@[simp] theorem setHdr_days (d h : Nat) (x : WcHdr) : (s.setHdr d h x).days = s.days := rfl
@[simp] theorem setHdr_get_reg (d h : Nat) (x : WcHdr) (y : Nat) : (s.setHdr d h x).reg y = s.reg y := rfl
@[simp] theorem setHdr_get_dump (d h : Nat) (x : WcHdr) (y : Nat) : (s.setHdr d h x).dump y = s.dump y := rfl
@[simp] theorem setHdr_get_dom (d h : Nat) (x : WcHdr) (y : Nat) : (s.setHdr d h x).dom y = s.dom y := rfl
@[simp] theorem setHdr_get_ctx (d h : Nat) (x : WcHdr) (y : Nat) : (s.setHdr d h x).ctx y = s.ctx y := rfl
@[simp] theorem setHdr_get_res (d h : Nat) (x : WcHdr) (y z : Nat) : (s.setHdr d h x).res y z = s.res y z := rfl
@[simp] theorem setHdr_get_msix (d h : Nat) (x : WcHdr) (y z : Nat) : (s.setHdr d h x).msix y z = s.msix y z := rfl
@[simp] theorem setHdr_get_stp (d h : Nat) (x : WcHdr) (y : Nat) : (s.setHdr d h x).stp y = s.stp y := rfl
@[simp] theorem setHdr_get_seg (d h : Nat) (x : WcHdr) (y z : Nat) : (s.setHdr d h x).seg y z = s.seg y z := rfl
@[simp] theorem setHdr_get_blk (d h : Nat) (x : WcHdr) (y : Nat) : (s.setHdr d h x).blk y = s.blk y := rfl
@[simp] theorem setHdr_get_dir (d h : Nat) (x : WcHdr) (y : Nat) : (s.setHdr d h x).dir y = s.dir y := rfl
@[simp] theorem setHdr_get_grd (d h : Nat) (x : WcHdr) (y : Nat) : (s.setHdr d h x).grd y = s.grd y := rfl
@[simp] theorem setHdr_get_port (d h : Nat) (x : WcHdr) (y : Nat) : (s.setHdr d h x).port y = s.port y := rfl
@[simp] theorem setHdr_get_xch (d h : Nat) (x : WcHdr) (y : Nat) : (s.setHdr d h x).xch y = s.xch y := rfl
@[simp] theorem setHdr_get_day (d h : Nat) (x : WcHdr) (y : Nat) : (s.setHdr d h x).day y = s.day y := rfl
@[simp] theorem setHdr_get_bind (d h : Nat) (x : WcHdr) (y : Nat) : (s.setHdr d h x).bind y = s.bind y := rfl
@[simp] theorem setHdr_get_ro (d h : Nat) (x : WcHdr) (y : Nat) : (s.setHdr d h x).ro? y = s.ro? y := rfl
@[simp] theorem setHdr_get_app (d h : Nat) (x : WcHdr) (y z : Nat) : (s.setHdr d h x).app y z = s.app y z := rfl
@[simp] theorem setHdr_get_live (d h : Nat) (x : WcHdr) (y : Nat) : (s.setHdr d h x).live y = s.live y := rfl
@[simp] theorem setHdr_get_shadow (d h : Nat) (x : WcHdr) (y : Nat) : (s.setHdr d h x).shadow y = s.shadow y := rfl
@[simp] theorem setHdr_get_rd (d h : Nat) (x : WcHdr) (y : Nat) : (s.setHdr d h x).rd y = s.rd y := rfl

/-! ## setBind -/

@[simp] theorem setBind_pending (k : Nat) (x : Bind) : (s.setBind k x).pending = s.pending := rfl
@[simp] theorem setBind_ticks (k : Nat) (x : Bind) : (s.setBind k x).ticks = s.ticks := rfl
@[simp] theorem setBind_evt (k : Nat) (x : Bind) : (s.setBind k x).evt = s.evt := rfl
@[simp] theorem setBind_free (k : Nat) (x : Bind) : (s.setBind k x).free = s.free := rfl
@[simp] theorem setBind_out (k : Nat) (x : Bind) : (s.setBind k x).out = s.out := rfl
@[simp] theorem setBind_pwr (k : Nat) (x : Bind) : (s.setBind k x).pwr = s.pwr := rfl
@[simp] theorem setBind_sec (k : Nat) (x : Bind) : (s.setBind k x).sec = s.sec := rfl
@[simp] theorem setBind_mgt (k : Nat) (x : Bind) : (s.setBind k x).mgt = s.mgt := rfl
@[simp] theorem setBind_ro (k : Nat) (x : Bind) : (s.setBind k x).ro = s.ro := rfl
@[simp] theorem setBind_flt (k : Nat) (x : Bind) : (s.setBind k x).flt = s.flt := rfl
@[simp] theorem setBind_cp (k : Nat) (x : Bind) : (s.setBind k x).cp = s.cp := rfl
@[simp] theorem setBind_progs (k : Nat) (x : Bind) : (s.setBind k x).progs = s.progs := rfl
@[simp] theorem setBind_steps (k : Nat) (x : Bind) : (s.setBind k x).steps = s.steps := rfl
@[simp] theorem setBind_segs (k : Nat) (x : Bind) : (s.setBind k x).segs = s.segs := rfl
@[simp] theorem setBind_blks (k : Nat) (x : Bind) : (s.setBind k x).blks = s.blks := rfl
@[simp] theorem setBind_sigs (k : Nat) (x : Bind) : (s.setBind k x).sigs = s.sigs := rfl
@[simp] theorem setBind_mem (k : Nat) (x : Bind) : (s.setBind k x).mem = s.mem := rfl
@[simp] theorem setBind_dirs (k : Nat) (x : Bind) : (s.setBind k x).dirs = s.dirs := rfl
@[simp] theorem setBind_back (k : Nat) (x : Bind) : (s.setBind k x).back = s.back := rfl
@[simp] theorem setBind_grds (k : Nat) (x : Bind) : (s.setBind k x).grds = s.grds := rfl
@[simp] theorem setBind_fab (k : Nat) (x : Bind) : (s.setBind k x).fab = s.fab := rfl
@[simp] theorem setBind_xchs (k : Nat) (x : Bind) : (s.setBind k x).xchs = s.xchs := rfl
@[simp] theorem setBind_days (k : Nat) (x : Bind) : (s.setBind k x).days = s.days := rfl
@[simp] theorem setBind_get_reg (k : Nat) (x : Bind) (y : Nat) : (s.setBind k x).reg y = s.reg y := rfl
@[simp] theorem setBind_get_dump (k : Nat) (x : Bind) (y : Nat) : (s.setBind k x).dump y = s.dump y := rfl
@[simp] theorem setBind_get_dom (k : Nat) (x : Bind) (y : Nat) : (s.setBind k x).dom y = s.dom y := rfl
@[simp] theorem setBind_get_ctx (k : Nat) (x : Bind) (y : Nat) : (s.setBind k x).ctx y = s.ctx y := rfl
@[simp] theorem setBind_get_res (k : Nat) (x : Bind) (y z : Nat) : (s.setBind k x).res y z = s.res y z := rfl
@[simp] theorem setBind_get_msix (k : Nat) (x : Bind) (y z : Nat) : (s.setBind k x).msix y z = s.msix y z := rfl
@[simp] theorem setBind_get_prog (k : Nat) (x : Bind) (y : Nat) : (s.setBind k x).prog y = s.prog y := rfl
@[simp] theorem setBind_get_stp (k : Nat) (x : Bind) (y : Nat) : (s.setBind k x).stp y = s.stp y := rfl
@[simp] theorem setBind_get_seg (k : Nat) (x : Bind) (y z : Nat) : (s.setBind k x).seg y z = s.seg y z := rfl
@[simp] theorem setBind_get_blk (k : Nat) (x : Bind) (y : Nat) : (s.setBind k x).blk y = s.blk y := rfl
@[simp] theorem setBind_get_dir (k : Nat) (x : Bind) (y : Nat) : (s.setBind k x).dir y = s.dir y := rfl
@[simp] theorem setBind_get_grd (k : Nat) (x : Bind) (y : Nat) : (s.setBind k x).grd y = s.grd y := rfl
@[simp] theorem setBind_get_port (k : Nat) (x : Bind) (y : Nat) : (s.setBind k x).port y = s.port y := rfl
@[simp] theorem setBind_get_xch (k : Nat) (x : Bind) (y : Nat) : (s.setBind k x).xch y = s.xch y := rfl
@[simp] theorem setBind_get_day (k : Nat) (x : Bind) (y : Nat) : (s.setBind k x).day y = s.day y := rfl
@[simp] theorem setBind_get_ro (k : Nat) (x : Bind) (y : Nat) : (s.setBind k x).ro? y = s.ro? y := rfl
@[simp] theorem setBind_get_app (k : Nat) (x : Bind) (y z : Nat) : (s.setBind k x).app y z = s.app y z := rfl
@[simp] theorem setBind_get_live (k : Nat) (x : Bind) (y : Nat) : (s.setBind k x).live y = s.live y := rfl
@[simp] theorem setBind_get_shadow (k : Nat) (x : Bind) (y : Nat) : (s.setBind k x).shadow y = s.shadow y := rfl
@[simp] theorem setBind_get_rd (k : Nat) (x : Bind) (y : Nat) : (s.setBind k x).rd y = s.rd y := rfl

/-! ## delBind -/

@[simp] theorem delBind_pending (k : Nat) : (s.delBind k).pending = s.pending := rfl
@[simp] theorem delBind_ticks (k : Nat) : (s.delBind k).ticks = s.ticks := rfl
@[simp] theorem delBind_evt (k : Nat) : (s.delBind k).evt = s.evt := rfl
@[simp] theorem delBind_free (k : Nat) : (s.delBind k).free = s.free := rfl
@[simp] theorem delBind_out (k : Nat) : (s.delBind k).out = s.out := rfl
@[simp] theorem delBind_pwr (k : Nat) : (s.delBind k).pwr = s.pwr := rfl
@[simp] theorem delBind_sec (k : Nat) : (s.delBind k).sec = s.sec := rfl
@[simp] theorem delBind_mgt (k : Nat) : (s.delBind k).mgt = s.mgt := rfl
@[simp] theorem delBind_ro (k : Nat) : (s.delBind k).ro = s.ro := rfl
@[simp] theorem delBind_flt (k : Nat) : (s.delBind k).flt = s.flt := rfl
@[simp] theorem delBind_cp (k : Nat) : (s.delBind k).cp = s.cp := rfl
@[simp] theorem delBind_progs (k : Nat) : (s.delBind k).progs = s.progs := rfl
@[simp] theorem delBind_steps (k : Nat) : (s.delBind k).steps = s.steps := rfl
@[simp] theorem delBind_segs (k : Nat) : (s.delBind k).segs = s.segs := rfl
@[simp] theorem delBind_blks (k : Nat) : (s.delBind k).blks = s.blks := rfl
@[simp] theorem delBind_sigs (k : Nat) : (s.delBind k).sigs = s.sigs := rfl
@[simp] theorem delBind_mem (k : Nat) : (s.delBind k).mem = s.mem := rfl
@[simp] theorem delBind_dirs (k : Nat) : (s.delBind k).dirs = s.dirs := rfl
@[simp] theorem delBind_back (k : Nat) : (s.delBind k).back = s.back := rfl
@[simp] theorem delBind_grds (k : Nat) : (s.delBind k).grds = s.grds := rfl
@[simp] theorem delBind_fab (k : Nat) : (s.delBind k).fab = s.fab := rfl
@[simp] theorem delBind_xchs (k : Nat) : (s.delBind k).xchs = s.xchs := rfl
@[simp] theorem delBind_days (k : Nat) : (s.delBind k).days = s.days := rfl
@[simp] theorem delBind_get_reg (k : Nat) (y : Nat) : (s.delBind k).reg y = s.reg y := rfl
@[simp] theorem delBind_get_dump (k : Nat) (y : Nat) : (s.delBind k).dump y = s.dump y := rfl
@[simp] theorem delBind_get_dom (k : Nat) (y : Nat) : (s.delBind k).dom y = s.dom y := rfl
@[simp] theorem delBind_get_ctx (k : Nat) (y : Nat) : (s.delBind k).ctx y = s.ctx y := rfl
@[simp] theorem delBind_get_res (k : Nat) (y z : Nat) : (s.delBind k).res y z = s.res y z := rfl
@[simp] theorem delBind_get_msix (k : Nat) (y z : Nat) : (s.delBind k).msix y z = s.msix y z := rfl
@[simp] theorem delBind_get_prog (k : Nat) (y : Nat) : (s.delBind k).prog y = s.prog y := rfl
@[simp] theorem delBind_get_stp (k : Nat) (y : Nat) : (s.delBind k).stp y = s.stp y := rfl
@[simp] theorem delBind_get_seg (k : Nat) (y z : Nat) : (s.delBind k).seg y z = s.seg y z := rfl
@[simp] theorem delBind_get_blk (k : Nat) (y : Nat) : (s.delBind k).blk y = s.blk y := rfl
@[simp] theorem delBind_get_dir (k : Nat) (y : Nat) : (s.delBind k).dir y = s.dir y := rfl
@[simp] theorem delBind_get_grd (k : Nat) (y : Nat) : (s.delBind k).grd y = s.grd y := rfl
@[simp] theorem delBind_get_port (k : Nat) (y : Nat) : (s.delBind k).port y = s.port y := rfl
@[simp] theorem delBind_get_xch (k : Nat) (y : Nat) : (s.delBind k).xch y = s.xch y := rfl
@[simp] theorem delBind_get_day (k : Nat) (y : Nat) : (s.delBind k).day y = s.day y := rfl
@[simp] theorem delBind_get_ro (k : Nat) (y : Nat) : (s.delBind k).ro? y = s.ro? y := rfl
@[simp] theorem delBind_get_app (k : Nat) (y z : Nat) : (s.delBind k).app y z = s.app y z := rfl
@[simp] theorem delBind_get_live (k : Nat) (y : Nat) : (s.delBind k).live y = s.live y := rfl
@[simp] theorem delBind_get_shadow (k : Nat) (y : Nat) : (s.delBind k).shadow y = s.shadow y := rfl
@[simp] theorem delBind_get_rd (k : Nat) (y : Nat) : (s.delBind k).rd y = s.rd y := rfl

/-! ## emit -/

@[simp] theorem emit_pending (o : Output) : (s.emit o).pending = s.pending := rfl
@[simp] theorem emit_ticks (o : Output) : (s.emit o).ticks = s.ticks := rfl
@[simp] theorem emit_evt (o : Output) : (s.emit o).evt = s.evt := rfl
@[simp] theorem emit_free (o : Output) : (s.emit o).free = s.free := rfl
@[simp] theorem emit_pwr (o : Output) : (s.emit o).pwr = s.pwr := rfl
@[simp] theorem emit_sec (o : Output) : (s.emit o).sec = s.sec := rfl
@[simp] theorem emit_mgt (o : Output) : (s.emit o).mgt = s.mgt := rfl
@[simp] theorem emit_ro (o : Output) : (s.emit o).ro = s.ro := rfl
@[simp] theorem emit_flt (o : Output) : (s.emit o).flt = s.flt := rfl
@[simp] theorem emit_cp (o : Output) : (s.emit o).cp = s.cp := rfl
@[simp] theorem emit_progs (o : Output) : (s.emit o).progs = s.progs := rfl
@[simp] theorem emit_steps (o : Output) : (s.emit o).steps = s.steps := rfl
@[simp] theorem emit_segs (o : Output) : (s.emit o).segs = s.segs := rfl
@[simp] theorem emit_blks (o : Output) : (s.emit o).blks = s.blks := rfl
@[simp] theorem emit_sigs (o : Output) : (s.emit o).sigs = s.sigs := rfl
@[simp] theorem emit_mem (o : Output) : (s.emit o).mem = s.mem := rfl
@[simp] theorem emit_dirs (o : Output) : (s.emit o).dirs = s.dirs := rfl
@[simp] theorem emit_binds (o : Output) : (s.emit o).binds = s.binds := rfl
@[simp] theorem emit_back (o : Output) : (s.emit o).back = s.back := rfl
@[simp] theorem emit_grds (o : Output) : (s.emit o).grds = s.grds := rfl
@[simp] theorem emit_fab (o : Output) : (s.emit o).fab = s.fab := rfl
@[simp] theorem emit_xchs (o : Output) : (s.emit o).xchs = s.xchs := rfl
@[simp] theorem emit_days (o : Output) : (s.emit o).days = s.days := rfl
@[simp] theorem emit_get_reg (o : Output) (y : Nat) : (s.emit o).reg y = s.reg y := rfl
@[simp] theorem emit_get_dump (o : Output) (y : Nat) : (s.emit o).dump y = s.dump y := rfl
@[simp] theorem emit_get_dom (o : Output) (y : Nat) : (s.emit o).dom y = s.dom y := rfl
@[simp] theorem emit_get_ctx (o : Output) (y : Nat) : (s.emit o).ctx y = s.ctx y := rfl
@[simp] theorem emit_get_res (o : Output) (y z : Nat) : (s.emit o).res y z = s.res y z := rfl
@[simp] theorem emit_get_msix (o : Output) (y z : Nat) : (s.emit o).msix y z = s.msix y z := rfl
@[simp] theorem emit_get_prog (o : Output) (y : Nat) : (s.emit o).prog y = s.prog y := rfl
@[simp] theorem emit_get_stp (o : Output) (y : Nat) : (s.emit o).stp y = s.stp y := rfl
@[simp] theorem emit_get_seg (o : Output) (y z : Nat) : (s.emit o).seg y z = s.seg y z := rfl
@[simp] theorem emit_get_blk (o : Output) (y : Nat) : (s.emit o).blk y = s.blk y := rfl
@[simp] theorem emit_get_dir (o : Output) (y : Nat) : (s.emit o).dir y = s.dir y := rfl
@[simp] theorem emit_get_grd (o : Output) (y : Nat) : (s.emit o).grd y = s.grd y := rfl
@[simp] theorem emit_get_port (o : Output) (y : Nat) : (s.emit o).port y = s.port y := rfl
@[simp] theorem emit_get_xch (o : Output) (y : Nat) : (s.emit o).xch y = s.xch y := rfl
@[simp] theorem emit_get_day (o : Output) (y : Nat) : (s.emit o).day y = s.day y := rfl
@[simp] theorem emit_get_bind (o : Output) (y : Nat) : (s.emit o).bind y = s.bind y := rfl
@[simp] theorem emit_get_ro (o : Output) (y : Nat) : (s.emit o).ro? y = s.ro? y := rfl
@[simp] theorem emit_get_app (o : Output) (y z : Nat) : (s.emit o).app y z = s.app y z := rfl
@[simp] theorem emit_get_live (o : Output) (y : Nat) : (s.emit o).live y = s.live y := rfl
@[simp] theorem emit_get_shadow (o : Output) (y : Nat) : (s.emit o).shadow y = s.shadow y := rfl
@[simp] theorem emit_get_rd (o : Output) (y : Nat) : (s.emit o).rd y = s.rd y := rfl

/-! ## setRo -/

@[simp] theorem setRo_pending (k v : Nat) : (s.setRo k v).pending = s.pending := rfl
@[simp] theorem setRo_ticks (k v : Nat) : (s.setRo k v).ticks = s.ticks := rfl
@[simp] theorem setRo_evt (k v : Nat) : (s.setRo k v).evt = s.evt := rfl
@[simp] theorem setRo_free (k v : Nat) : (s.setRo k v).free = s.free := rfl
@[simp] theorem setRo_out (k v : Nat) : (s.setRo k v).out = s.out := rfl
@[simp] theorem setRo_pwr (k v : Nat) : (s.setRo k v).pwr = s.pwr := rfl
@[simp] theorem setRo_sec (k v : Nat) : (s.setRo k v).sec = s.sec := rfl
@[simp] theorem setRo_mgt (k v : Nat) : (s.setRo k v).mgt = s.mgt := rfl
@[simp] theorem setRo_flt (k v : Nat) : (s.setRo k v).flt = s.flt := rfl
@[simp] theorem setRo_cp (k v : Nat) : (s.setRo k v).cp = s.cp := rfl
@[simp] theorem setRo_progs (k v : Nat) : (s.setRo k v).progs = s.progs := rfl
@[simp] theorem setRo_steps (k v : Nat) : (s.setRo k v).steps = s.steps := rfl
@[simp] theorem setRo_segs (k v : Nat) : (s.setRo k v).segs = s.segs := rfl
@[simp] theorem setRo_blks (k v : Nat) : (s.setRo k v).blks = s.blks := rfl
@[simp] theorem setRo_sigs (k v : Nat) : (s.setRo k v).sigs = s.sigs := rfl
@[simp] theorem setRo_mem (k v : Nat) : (s.setRo k v).mem = s.mem := rfl
@[simp] theorem setRo_dirs (k v : Nat) : (s.setRo k v).dirs = s.dirs := rfl
@[simp] theorem setRo_binds (k v : Nat) : (s.setRo k v).binds = s.binds := rfl
@[simp] theorem setRo_back (k v : Nat) : (s.setRo k v).back = s.back := rfl
@[simp] theorem setRo_grds (k v : Nat) : (s.setRo k v).grds = s.grds := rfl
@[simp] theorem setRo_fab (k v : Nat) : (s.setRo k v).fab = s.fab := rfl
@[simp] theorem setRo_xchs (k v : Nat) : (s.setRo k v).xchs = s.xchs := rfl
@[simp] theorem setRo_days (k v : Nat) : (s.setRo k v).days = s.days := rfl
@[simp] theorem setRo_get_reg (k v : Nat) (y : Nat) : (s.setRo k v).reg y = s.reg y := rfl
@[simp] theorem setRo_get_dump (k v : Nat) (y : Nat) : (s.setRo k v).dump y = s.dump y := rfl
@[simp] theorem setRo_get_dom (k v : Nat) (y : Nat) : (s.setRo k v).dom y = s.dom y := rfl
@[simp] theorem setRo_get_ctx (k v : Nat) (y : Nat) : (s.setRo k v).ctx y = s.ctx y := rfl
@[simp] theorem setRo_get_res (k v : Nat) (y z : Nat) : (s.setRo k v).res y z = s.res y z := rfl
@[simp] theorem setRo_get_msix (k v : Nat) (y z : Nat) : (s.setRo k v).msix y z = s.msix y z := rfl
@[simp] theorem setRo_get_prog (k v : Nat) (y : Nat) : (s.setRo k v).prog y = s.prog y := rfl
@[simp] theorem setRo_get_stp (k v : Nat) (y : Nat) : (s.setRo k v).stp y = s.stp y := rfl
@[simp] theorem setRo_get_seg (k v : Nat) (y z : Nat) : (s.setRo k v).seg y z = s.seg y z := rfl
@[simp] theorem setRo_get_blk (k v : Nat) (y : Nat) : (s.setRo k v).blk y = s.blk y := rfl
@[simp] theorem setRo_get_dir (k v : Nat) (y : Nat) : (s.setRo k v).dir y = s.dir y := rfl
@[simp] theorem setRo_get_grd (k v : Nat) (y : Nat) : (s.setRo k v).grd y = s.grd y := rfl
@[simp] theorem setRo_get_port (k v : Nat) (y : Nat) : (s.setRo k v).port y = s.port y := rfl
@[simp] theorem setRo_get_xch (k v : Nat) (y : Nat) : (s.setRo k v).xch y = s.xch y := rfl
@[simp] theorem setRo_get_day (k v : Nat) (y : Nat) : (s.setRo k v).day y = s.day y := rfl
@[simp] theorem setRo_get_bind (k v : Nat) (y : Nat) : (s.setRo k v).bind y = s.bind y := rfl
@[simp] theorem setRo_get_app (k v : Nat) (y z : Nat) : (s.setRo k v).app y z = s.app y z := rfl
@[simp] theorem setRo_get_live (k v : Nat) (y : Nat) : (s.setRo k v).live y = s.live y := rfl
@[simp] theorem setRo_get_shadow (k v : Nat) (y : Nat) : (s.setRo k v).shadow y = s.shadow y := rfl
@[simp] theorem setRo_get_rd (k v : Nat) (y : Nat) : (s.setRo k v).rd y = s.rd y := rfl

/-! ## count -/

@[simp] theorem count_pending (k n : Nat) : (s.count k n).pending = s.pending := rfl
@[simp] theorem count_ticks (k n : Nat) : (s.count k n).ticks = s.ticks := rfl
@[simp] theorem count_evt (k n : Nat) : (s.count k n).evt = s.evt := rfl
@[simp] theorem count_free (k n : Nat) : (s.count k n).free = s.free := rfl
@[simp] theorem count_out (k n : Nat) : (s.count k n).out = s.out := rfl
@[simp] theorem count_pwr (k n : Nat) : (s.count k n).pwr = s.pwr := rfl
@[simp] theorem count_sec (k n : Nat) : (s.count k n).sec = s.sec := rfl
@[simp] theorem count_mgt (k n : Nat) : (s.count k n).mgt = s.mgt := rfl
@[simp] theorem count_flt (k n : Nat) : (s.count k n).flt = s.flt := rfl
@[simp] theorem count_cp (k n : Nat) : (s.count k n).cp = s.cp := rfl
@[simp] theorem count_progs (k n : Nat) : (s.count k n).progs = s.progs := rfl
@[simp] theorem count_steps (k n : Nat) : (s.count k n).steps = s.steps := rfl
@[simp] theorem count_segs (k n : Nat) : (s.count k n).segs = s.segs := rfl
@[simp] theorem count_blks (k n : Nat) : (s.count k n).blks = s.blks := rfl
@[simp] theorem count_sigs (k n : Nat) : (s.count k n).sigs = s.sigs := rfl
@[simp] theorem count_mem (k n : Nat) : (s.count k n).mem = s.mem := rfl
@[simp] theorem count_dirs (k n : Nat) : (s.count k n).dirs = s.dirs := rfl
@[simp] theorem count_binds (k n : Nat) : (s.count k n).binds = s.binds := rfl
@[simp] theorem count_back (k n : Nat) : (s.count k n).back = s.back := rfl
@[simp] theorem count_grds (k n : Nat) : (s.count k n).grds = s.grds := rfl
@[simp] theorem count_fab (k n : Nat) : (s.count k n).fab = s.fab := rfl
@[simp] theorem count_xchs (k n : Nat) : (s.count k n).xchs = s.xchs := rfl
@[simp] theorem count_days (k n : Nat) : (s.count k n).days = s.days := rfl
@[simp] theorem count_get_reg (k n : Nat) (y : Nat) : (s.count k n).reg y = s.reg y := rfl
@[simp] theorem count_get_dump (k n : Nat) (y : Nat) : (s.count k n).dump y = s.dump y := rfl
@[simp] theorem count_get_dom (k n : Nat) (y : Nat) : (s.count k n).dom y = s.dom y := rfl
@[simp] theorem count_get_ctx (k n : Nat) (y : Nat) : (s.count k n).ctx y = s.ctx y := rfl
@[simp] theorem count_get_res (k n : Nat) (y z : Nat) : (s.count k n).res y z = s.res y z := rfl
@[simp] theorem count_get_msix (k n : Nat) (y z : Nat) : (s.count k n).msix y z = s.msix y z := rfl
@[simp] theorem count_get_prog (k n : Nat) (y : Nat) : (s.count k n).prog y = s.prog y := rfl
@[simp] theorem count_get_stp (k n : Nat) (y : Nat) : (s.count k n).stp y = s.stp y := rfl
@[simp] theorem count_get_seg (k n : Nat) (y z : Nat) : (s.count k n).seg y z = s.seg y z := rfl
@[simp] theorem count_get_blk (k n : Nat) (y : Nat) : (s.count k n).blk y = s.blk y := rfl
@[simp] theorem count_get_dir (k n : Nat) (y : Nat) : (s.count k n).dir y = s.dir y := rfl
@[simp] theorem count_get_grd (k n : Nat) (y : Nat) : (s.count k n).grd y = s.grd y := rfl
@[simp] theorem count_get_port (k n : Nat) (y : Nat) : (s.count k n).port y = s.port y := rfl
@[simp] theorem count_get_xch (k n : Nat) (y : Nat) : (s.count k n).xch y = s.xch y := rfl
@[simp] theorem count_get_day (k n : Nat) (y : Nat) : (s.count k n).day y = s.day y := rfl
@[simp] theorem count_get_bind (k n : Nat) (y : Nat) : (s.count k n).bind y = s.bind y := rfl
@[simp] theorem count_get_app (k n : Nat) (y z : Nat) : (s.count k n).app y z = s.app y z := rfl
@[simp] theorem count_get_live (k n : Nat) (y : Nat) : (s.count k n).live y = s.live y := rfl
@[simp] theorem count_get_shadow (k n : Nat) (y : Nat) : (s.count k n).shadow y = s.shadow y := rfl
@[simp] theorem count_get_rd (k n : Nat) (y : Nat) : (s.count k n).rd y = s.rd y := rfl

/-! ## wr -/

@[simp] theorem wr_pending (a : Nat) (b : Byte) : (s.wr a b).pending = s.pending := rfl
@[simp] theorem wr_ticks (a : Nat) (b : Byte) : (s.wr a b).ticks = s.ticks := rfl
@[simp] theorem wr_evt (a : Nat) (b : Byte) : (s.wr a b).evt = s.evt := rfl
@[simp] theorem wr_free (a : Nat) (b : Byte) : (s.wr a b).free = s.free := rfl
@[simp] theorem wr_out (a : Nat) (b : Byte) : (s.wr a b).out = s.out := rfl
@[simp] theorem wr_pwr (a : Nat) (b : Byte) : (s.wr a b).pwr = s.pwr := rfl
@[simp] theorem wr_sec (a : Nat) (b : Byte) : (s.wr a b).sec = s.sec := rfl
@[simp] theorem wr_mgt (a : Nat) (b : Byte) : (s.wr a b).mgt = s.mgt := rfl
@[simp] theorem wr_ro (a : Nat) (b : Byte) : (s.wr a b).ro = s.ro := rfl
@[simp] theorem wr_flt (a : Nat) (b : Byte) : (s.wr a b).flt = s.flt := rfl
@[simp] theorem wr_cp (a : Nat) (b : Byte) : (s.wr a b).cp = s.cp := rfl
@[simp] theorem wr_progs (a : Nat) (b : Byte) : (s.wr a b).progs = s.progs := rfl
@[simp] theorem wr_steps (a : Nat) (b : Byte) : (s.wr a b).steps = s.steps := rfl
@[simp] theorem wr_segs (a : Nat) (b : Byte) : (s.wr a b).segs = s.segs := rfl
@[simp] theorem wr_blks (a : Nat) (b : Byte) : (s.wr a b).blks = s.blks := rfl
@[simp] theorem wr_sigs (a : Nat) (b : Byte) : (s.wr a b).sigs = s.sigs := rfl
@[simp] theorem wr_dirs (a : Nat) (b : Byte) : (s.wr a b).dirs = s.dirs := rfl
@[simp] theorem wr_binds (a : Nat) (b : Byte) : (s.wr a b).binds = s.binds := rfl
@[simp] theorem wr_back (a : Nat) (b : Byte) : (s.wr a b).back = s.back := rfl
@[simp] theorem wr_grds (a : Nat) (b : Byte) : (s.wr a b).grds = s.grds := rfl
@[simp] theorem wr_fab (a : Nat) (b : Byte) : (s.wr a b).fab = s.fab := rfl
@[simp] theorem wr_xchs (a : Nat) (b : Byte) : (s.wr a b).xchs = s.xchs := rfl
@[simp] theorem wr_days (a : Nat) (b : Byte) : (s.wr a b).days = s.days := rfl
@[simp] theorem wr_get_reg (a : Nat) (b : Byte) (y : Nat) : (s.wr a b).reg y = s.reg y := rfl
@[simp] theorem wr_get_dump (a : Nat) (b : Byte) (y : Nat) : (s.wr a b).dump y = s.dump y := rfl
@[simp] theorem wr_get_dom (a : Nat) (b : Byte) (y : Nat) : (s.wr a b).dom y = s.dom y := rfl
@[simp] theorem wr_get_ctx (a : Nat) (b : Byte) (y : Nat) : (s.wr a b).ctx y = s.ctx y := rfl
@[simp] theorem wr_get_res (a : Nat) (b : Byte) (y z : Nat) : (s.wr a b).res y z = s.res y z := rfl
@[simp] theorem wr_get_msix (a : Nat) (b : Byte) (y z : Nat) : (s.wr a b).msix y z = s.msix y z := rfl
@[simp] theorem wr_get_prog (a : Nat) (b : Byte) (y : Nat) : (s.wr a b).prog y = s.prog y := rfl
@[simp] theorem wr_get_stp (a : Nat) (b : Byte) (y : Nat) : (s.wr a b).stp y = s.stp y := rfl
@[simp] theorem wr_get_seg (a : Nat) (b : Byte) (y z : Nat) : (s.wr a b).seg y z = s.seg y z := rfl
@[simp] theorem wr_get_blk (a : Nat) (b : Byte) (y : Nat) : (s.wr a b).blk y = s.blk y := rfl
@[simp] theorem wr_get_dir (a : Nat) (b : Byte) (y : Nat) : (s.wr a b).dir y = s.dir y := rfl
@[simp] theorem wr_get_grd (a : Nat) (b : Byte) (y : Nat) : (s.wr a b).grd y = s.grd y := rfl
@[simp] theorem wr_get_port (a : Nat) (b : Byte) (y : Nat) : (s.wr a b).port y = s.port y := rfl
@[simp] theorem wr_get_xch (a : Nat) (b : Byte) (y : Nat) : (s.wr a b).xch y = s.xch y := rfl
@[simp] theorem wr_get_day (a : Nat) (b : Byte) (y : Nat) : (s.wr a b).day y = s.day y := rfl
@[simp] theorem wr_get_bind (a : Nat) (b : Byte) (y : Nat) : (s.wr a b).bind y = s.bind y := rfl
@[simp] theorem wr_get_ro (a : Nat) (b : Byte) (y : Nat) : (s.wr a b).ro? y = s.ro? y := rfl
@[simp] theorem wr_get_app (a : Nat) (b : Byte) (y z : Nat) : (s.wr a b).app y z = s.app y z := rfl
@[simp] theorem wr_get_live (a : Nat) (b : Byte) (y : Nat) : (s.wr a b).live y = s.live y := rfl
@[simp] theorem wr_get_shadow (a : Nat) (b : Byte) (y : Nat) : (s.wr a b).shadow y = s.shadow y := rfl

/-! ## wrBytes -/

@[simp] theorem wrBytes_pending (a : Nat) (bs : List Byte) : (s.wrBytes a bs).pending = s.pending := rfl
@[simp] theorem wrBytes_ticks (a : Nat) (bs : List Byte) : (s.wrBytes a bs).ticks = s.ticks := rfl
@[simp] theorem wrBytes_evt (a : Nat) (bs : List Byte) : (s.wrBytes a bs).evt = s.evt := rfl
@[simp] theorem wrBytes_free (a : Nat) (bs : List Byte) : (s.wrBytes a bs).free = s.free := rfl
@[simp] theorem wrBytes_out (a : Nat) (bs : List Byte) : (s.wrBytes a bs).out = s.out := rfl
@[simp] theorem wrBytes_pwr (a : Nat) (bs : List Byte) : (s.wrBytes a bs).pwr = s.pwr := rfl
@[simp] theorem wrBytes_sec (a : Nat) (bs : List Byte) : (s.wrBytes a bs).sec = s.sec := rfl
@[simp] theorem wrBytes_mgt (a : Nat) (bs : List Byte) : (s.wrBytes a bs).mgt = s.mgt := rfl
@[simp] theorem wrBytes_ro (a : Nat) (bs : List Byte) : (s.wrBytes a bs).ro = s.ro := rfl
@[simp] theorem wrBytes_flt (a : Nat) (bs : List Byte) : (s.wrBytes a bs).flt = s.flt := rfl
@[simp] theorem wrBytes_cp (a : Nat) (bs : List Byte) : (s.wrBytes a bs).cp = s.cp := rfl
@[simp] theorem wrBytes_progs (a : Nat) (bs : List Byte) : (s.wrBytes a bs).progs = s.progs := rfl
@[simp] theorem wrBytes_steps (a : Nat) (bs : List Byte) : (s.wrBytes a bs).steps = s.steps := rfl
@[simp] theorem wrBytes_segs (a : Nat) (bs : List Byte) : (s.wrBytes a bs).segs = s.segs := rfl
@[simp] theorem wrBytes_blks (a : Nat) (bs : List Byte) : (s.wrBytes a bs).blks = s.blks := rfl
@[simp] theorem wrBytes_sigs (a : Nat) (bs : List Byte) : (s.wrBytes a bs).sigs = s.sigs := rfl
@[simp] theorem wrBytes_dirs (a : Nat) (bs : List Byte) : (s.wrBytes a bs).dirs = s.dirs := rfl
@[simp] theorem wrBytes_binds (a : Nat) (bs : List Byte) : (s.wrBytes a bs).binds = s.binds := rfl
@[simp] theorem wrBytes_grds (a : Nat) (bs : List Byte) : (s.wrBytes a bs).grds = s.grds := rfl
@[simp] theorem wrBytes_fab (a : Nat) (bs : List Byte) : (s.wrBytes a bs).fab = s.fab := rfl
@[simp] theorem wrBytes_xchs (a : Nat) (bs : List Byte) : (s.wrBytes a bs).xchs = s.xchs := rfl
@[simp] theorem wrBytes_days (a : Nat) (bs : List Byte) : (s.wrBytes a bs).days = s.days := rfl
@[simp] theorem wrBytes_get_reg (a : Nat) (bs : List Byte) (y : Nat) : (s.wrBytes a bs).reg y = s.reg y := rfl
@[simp] theorem wrBytes_get_dump (a : Nat) (bs : List Byte) (y : Nat) : (s.wrBytes a bs).dump y = s.dump y := rfl
@[simp] theorem wrBytes_get_dom (a : Nat) (bs : List Byte) (y : Nat) : (s.wrBytes a bs).dom y = s.dom y := rfl
@[simp] theorem wrBytes_get_ctx (a : Nat) (bs : List Byte) (y : Nat) : (s.wrBytes a bs).ctx y = s.ctx y := rfl
@[simp] theorem wrBytes_get_res (a : Nat) (bs : List Byte) (y z : Nat) : (s.wrBytes a bs).res y z = s.res y z := rfl
@[simp] theorem wrBytes_get_msix (a : Nat) (bs : List Byte) (y z : Nat) : (s.wrBytes a bs).msix y z = s.msix y z := rfl
@[simp] theorem wrBytes_get_prog (a : Nat) (bs : List Byte) (y : Nat) : (s.wrBytes a bs).prog y = s.prog y := rfl
@[simp] theorem wrBytes_get_stp (a : Nat) (bs : List Byte) (y : Nat) : (s.wrBytes a bs).stp y = s.stp y := rfl
@[simp] theorem wrBytes_get_seg (a : Nat) (bs : List Byte) (y z : Nat) : (s.wrBytes a bs).seg y z = s.seg y z := rfl
@[simp] theorem wrBytes_get_blk (a : Nat) (bs : List Byte) (y : Nat) : (s.wrBytes a bs).blk y = s.blk y := rfl
@[simp] theorem wrBytes_get_dir (a : Nat) (bs : List Byte) (y : Nat) : (s.wrBytes a bs).dir y = s.dir y := rfl
@[simp] theorem wrBytes_get_grd (a : Nat) (bs : List Byte) (y : Nat) : (s.wrBytes a bs).grd y = s.grd y := rfl
@[simp] theorem wrBytes_get_port (a : Nat) (bs : List Byte) (y : Nat) : (s.wrBytes a bs).port y = s.port y := rfl
@[simp] theorem wrBytes_get_xch (a : Nat) (bs : List Byte) (y : Nat) : (s.wrBytes a bs).xch y = s.xch y := rfl
@[simp] theorem wrBytes_get_day (a : Nat) (bs : List Byte) (y : Nat) : (s.wrBytes a bs).day y = s.day y := rfl
@[simp] theorem wrBytes_get_bind (a : Nat) (bs : List Byte) (y : Nat) : (s.wrBytes a bs).bind y = s.bind y := rfl
@[simp] theorem wrBytes_get_ro (a : Nat) (bs : List Byte) (y : Nat) : (s.wrBytes a bs).ro? y = s.ro? y := rfl
@[simp] theorem wrBytes_get_app (a : Nat) (bs : List Byte) (y z : Nat) : (s.wrBytes a bs).app y z = s.app y z := rfl
@[simp] theorem wrBytes_get_live (a : Nat) (bs : List Byte) (y : Nat) : (s.wrBytes a bs).live y = s.live y := rfl
@[simp] theorem wrBytes_get_shadow (a : Nat) (bs : List Byte) (y : Nat) : (s.wrBytes a bs).shadow y = s.shadow y := rfl

/-! ## wrNat -/

@[simp] theorem wrNat_pending (a n v : Nat) : (s.wrNat a n v).pending = s.pending := rfl
@[simp] theorem wrNat_ticks (a n v : Nat) : (s.wrNat a n v).ticks = s.ticks := rfl
@[simp] theorem wrNat_evt (a n v : Nat) : (s.wrNat a n v).evt = s.evt := rfl
@[simp] theorem wrNat_free (a n v : Nat) : (s.wrNat a n v).free = s.free := rfl
@[simp] theorem wrNat_out (a n v : Nat) : (s.wrNat a n v).out = s.out := rfl
@[simp] theorem wrNat_pwr (a n v : Nat) : (s.wrNat a n v).pwr = s.pwr := rfl
@[simp] theorem wrNat_sec (a n v : Nat) : (s.wrNat a n v).sec = s.sec := rfl
@[simp] theorem wrNat_mgt (a n v : Nat) : (s.wrNat a n v).mgt = s.mgt := rfl
@[simp] theorem wrNat_ro (a n v : Nat) : (s.wrNat a n v).ro = s.ro := rfl
@[simp] theorem wrNat_flt (a n v : Nat) : (s.wrNat a n v).flt = s.flt := rfl
@[simp] theorem wrNat_cp (a n v : Nat) : (s.wrNat a n v).cp = s.cp := rfl
@[simp] theorem wrNat_progs (a n v : Nat) : (s.wrNat a n v).progs = s.progs := rfl
@[simp] theorem wrNat_steps (a n v : Nat) : (s.wrNat a n v).steps = s.steps := rfl
@[simp] theorem wrNat_segs (a n v : Nat) : (s.wrNat a n v).segs = s.segs := rfl
@[simp] theorem wrNat_blks (a n v : Nat) : (s.wrNat a n v).blks = s.blks := rfl
@[simp] theorem wrNat_sigs (a n v : Nat) : (s.wrNat a n v).sigs = s.sigs := rfl
@[simp] theorem wrNat_dirs (a n v : Nat) : (s.wrNat a n v).dirs = s.dirs := rfl
@[simp] theorem wrNat_binds (a n v : Nat) : (s.wrNat a n v).binds = s.binds := rfl
@[simp] theorem wrNat_grds (a n v : Nat) : (s.wrNat a n v).grds = s.grds := rfl
@[simp] theorem wrNat_fab (a n v : Nat) : (s.wrNat a n v).fab = s.fab := rfl
@[simp] theorem wrNat_xchs (a n v : Nat) : (s.wrNat a n v).xchs = s.xchs := rfl
@[simp] theorem wrNat_days (a n v : Nat) : (s.wrNat a n v).days = s.days := rfl
@[simp] theorem wrNat_get_reg (a n v : Nat) (y : Nat) : (s.wrNat a n v).reg y = s.reg y := rfl
@[simp] theorem wrNat_get_dump (a n v : Nat) (y : Nat) : (s.wrNat a n v).dump y = s.dump y := rfl
@[simp] theorem wrNat_get_dom (a n v : Nat) (y : Nat) : (s.wrNat a n v).dom y = s.dom y := rfl
@[simp] theorem wrNat_get_ctx (a n v : Nat) (y : Nat) : (s.wrNat a n v).ctx y = s.ctx y := rfl
@[simp] theorem wrNat_get_res (a n v : Nat) (y z : Nat) : (s.wrNat a n v).res y z = s.res y z := rfl
@[simp] theorem wrNat_get_msix (a n v : Nat) (y z : Nat) : (s.wrNat a n v).msix y z = s.msix y z := rfl
@[simp] theorem wrNat_get_prog (a n v : Nat) (y : Nat) : (s.wrNat a n v).prog y = s.prog y := rfl
@[simp] theorem wrNat_get_stp (a n v : Nat) (y : Nat) : (s.wrNat a n v).stp y = s.stp y := rfl
@[simp] theorem wrNat_get_seg (a n v : Nat) (y z : Nat) : (s.wrNat a n v).seg y z = s.seg y z := rfl
@[simp] theorem wrNat_get_blk (a n v : Nat) (y : Nat) : (s.wrNat a n v).blk y = s.blk y := rfl
@[simp] theorem wrNat_get_dir (a n v : Nat) (y : Nat) : (s.wrNat a n v).dir y = s.dir y := rfl
@[simp] theorem wrNat_get_grd (a n v : Nat) (y : Nat) : (s.wrNat a n v).grd y = s.grd y := rfl
@[simp] theorem wrNat_get_port (a n v : Nat) (y : Nat) : (s.wrNat a n v).port y = s.port y := rfl
@[simp] theorem wrNat_get_xch (a n v : Nat) (y : Nat) : (s.wrNat a n v).xch y = s.xch y := rfl
@[simp] theorem wrNat_get_day (a n v : Nat) (y : Nat) : (s.wrNat a n v).day y = s.day y := rfl
@[simp] theorem wrNat_get_bind (a n v : Nat) (y : Nat) : (s.wrNat a n v).bind y = s.bind y := rfl
@[simp] theorem wrNat_get_ro (a n v : Nat) (y : Nat) : (s.wrNat a n v).ro? y = s.ro? y := rfl
@[simp] theorem wrNat_get_app (a n v : Nat) (y z : Nat) : (s.wrNat a n v).app y z = s.app y z := rfl
@[simp] theorem wrNat_get_live (a n v : Nat) (y : Nat) : (s.wrNat a n v).live y = s.live y := rfl
@[simp] theorem wrNat_get_shadow (a n v : Nat) (y : Nat) : (s.wrNat a n v).shadow y = s.shadow y := rfl

/-! ## Reading back -/

@[simp] theorem setReg_reg_same (r : Nat) (x : Reg) : (s.setReg r x).reg r = x := spGet_set_same _ _ _
theorem setReg_reg_other {r y : Nat} (x : Reg) (h : y ≠ r) : (s.setReg r x).reg y = s.reg y := spGet_set_other _ _ h
theorem setReg_reg (r y : Nat) (x : Reg) : (s.setReg r x).reg y = if y = r then x else s.reg y := spGet_set _ _ _ _

@[simp] theorem setDump_dump_same (n : Nat) (x : Dump) : (s.setDump n x).dump n = x := spGet_set_same _ _ _
theorem setDump_dump_other {n y : Nat} (x : Dump) (h : y ≠ n) : (s.setDump n x).dump y = s.dump y := spGet_set_other _ _ h
theorem setDump_dump (n y : Nat) (x : Dump) : (s.setDump n x).dump y = if y = n then x else s.dump y := spGet_set _ _ _ _

@[simp] theorem setDom_dom_same (d : Nat) (x : Dom) : (s.setDom d x).dom d = x := spGet_set_same _ _ _
theorem setDom_dom_other {d y : Nat} (x : Dom) (h : y ≠ d) : (s.setDom d x).dom y = s.dom y := spGet_set_other _ _ h
theorem setDom_dom (d y : Nat) (x : Dom) : (s.setDom d x).dom y = if y = d then x else s.dom y := spGet_set _ _ _ _

@[simp] theorem setCtx_ctx_same (k : Nat) (x : Ctx) : (s.setCtx k x).ctx k = x := spGet_set_same _ _ _
theorem setCtx_ctx_other {k y : Nat} (x : Ctx) (h : y ≠ k) : (s.setCtx k x).ctx y = s.ctx y := spGet_set_other _ _ h
theorem setCtx_ctx (k y : Nat) (x : Ctx) : (s.setCtx k x).ctx y = if y = k then x else s.ctx y := spGet_set _ _ _ _

@[simp] theorem setProg_prog_same (d : Nat) (x : Prog) : (s.setProg d x).prog d = x := spGet_set_same _ _ _
theorem setProg_prog_other {d y : Nat} (x : Prog) (h : y ≠ d) : (s.setProg d x).prog y = s.prog y := spGet_set_other _ _ h
theorem setProg_prog (d y : Nat) (x : Prog) : (s.setProg d x).prog y = if y = d then x else s.prog y := spGet_set _ _ _ _

@[simp] theorem setStp_stp_same (d : Nat) (x : StepSt) : (s.setStp d x).stp d = x := spGet_set_same _ _ _
theorem setStp_stp_other {d y : Nat} (x : StepSt) (h : y ≠ d) : (s.setStp d x).stp y = s.stp y := spGet_set_other _ _ h
theorem setStp_stp (d y : Nat) (x : StepSt) : (s.setStp d x).stp y = if y = d then x else s.stp y := spGet_set _ _ _ _

@[simp] theorem setBlk_blk_same (b : Nat) (x : Blk) : (s.setBlk b x).blk b = x := spGet_set_same _ _ _
theorem setBlk_blk_other {b y : Nat} (x : Blk) (h : y ≠ b) : (s.setBlk b x).blk y = s.blk y := spGet_set_other _ _ h
theorem setBlk_blk (b y : Nat) (x : Blk) : (s.setBlk b x).blk y = if y = b then x else s.blk y := spGet_set _ _ _ _

@[simp] theorem setDir_dir_same (p : Nat) (x : Dirent) : (s.setDir p x).dir p = x := spGet_set_same _ _ _
theorem setDir_dir_other {p y : Nat} (x : Dirent) (h : y ≠ p) : (s.setDir p x).dir y = s.dir y := spGet_set_other _ _ h
theorem setDir_dir (p y : Nat) (x : Dirent) : (s.setDir p x).dir y = if y = p then x else s.dir y := spGet_set _ _ _ _

@[simp] theorem setGrd_grd_same (r : Nat) (x : Grd) : (s.setGrd r x).grd r = x := spGet_set_same _ _ _
theorem setGrd_grd_other {r y : Nat} (x : Grd) (h : y ≠ r) : (s.setGrd r x).grd y = s.grd y := spGet_set_other _ _ h
theorem setGrd_grd (r y : Nat) (x : Grd) : (s.setGrd r x).grd y = if y = r then x else s.grd y := spGet_set _ _ _ _

@[simp] theorem setPort_port_same (p : Nat) (x : Port) : (s.setPort p x).port p = x := spGet_set_same _ _ _
theorem setPort_port_other {p y : Nat} (x : Port) (h : y ≠ p) : (s.setPort p x).port y = s.port y := spGet_set_other _ _ h
theorem setPort_port (p y : Nat) (x : Port) : (s.setPort p x).port y = if y = p then x else s.port y := spGet_set _ _ _ _

@[simp] theorem setXch_xch_same (d : Nat) (x : Xch) : (s.setXch d x).xch d = x := spGet_set_same _ _ _
theorem setXch_xch_other {d y : Nat} (x : Xch) (h : y ≠ d) : (s.setXch d x).xch y = s.xch y := spGet_set_other _ _ h
theorem setXch_xch (d y : Nat) (x : Xch) : (s.setXch d x).xch y = if y = d then x else s.xch y := spGet_set _ _ _ _

@[simp] theorem setDay_day_same (d : Nat) (x : Day) : (s.setDay d x).day d = x := spGet_set_same _ _ _
theorem setDay_day_other {d y : Nat} (x : Day) (h : y ≠ d) : (s.setDay d x).day y = s.day y := spGet_set_other _ _ h
theorem setDay_day (d y : Nat) (x : Day) : (s.setDay d x).day y = if y = d then x else s.day y := spGet_set _ _ _ _

@[simp] theorem setRo_ro_same (k : Nat) (x : Nat) : (s.setRo k x).ro? k = x := spGet_set_same _ _ _
theorem setRo_ro_other {k y : Nat} (x : Nat) (h : y ≠ k) : (s.setRo k x).ro? y = s.ro? y := spGet_set_other _ _ h
theorem setRo_ro (k y : Nat) (x : Nat) : (s.setRo k x).ro? y = if y = k then x else s.ro? y := spGet_set _ _ _ _

/-- A counter reads its old value and what was added, saturated (R321, R341). -/
@[simp] theorem count_ro_same (k n : Nat) : (s.count k n).ro? k = min (s.ro? k + n) (entMax k) := spGet_set_same _ _ _
theorem count_ro_other {k y : Nat} (n : Nat) (h : y ≠ k) : (s.count k n).ro? y = s.ro? y := spGet_set_other _ _ h

/-- A byte written is read back. -/
@[simp] theorem wr_rd_same (a : Nat) (b : Byte) : (s.wr a b).rd a = b := spGet_set_same _ _ _
theorem wr_rd_other {a y : Nat} (b : Byte) (h : y ≠ a) : (s.wr a b).rd y = s.rd y := spGet_set_other _ _ h

end Sys2Proof.Machine
end

