-- ==== Sys2Proof/Laws/Records.lean ====
section
/-!
SUPPORT. Words put together by `pack`, the fault record, and what the faults of a region and of the chip leave.
-/

set_option autoImplicit true
set_option Elab.async false

namespace Sys2Proof.Machine

theorem pack_foldl (l : List (Nat × Nat)) (a : Nat) : l.foldl (fun a f => a + f.2 * 2 ^ f.1) a = a + pack l := by
  unfold pack
  induction l generalizing a with
  | nil => rfl
  | cons f l ih => simp only [List.foldl_cons]; rw [ih, ih (0 + _)]; omega

theorem pack_cons (f : Nat × Nat) (l : List (Nat × Nat)) : pack (f :: l) = f.2 * 2 ^ f.1 + pack l := by
  rw [← pack_foldl]; simp only [pack, List.foldl_cons, Nat.zero_add]

theorem pack_lt {f : Nat × Nat} {l : List (Nat × Nat)} (w n : Nat) (h : pack l < 2 ^ f.1) (hv : f.2 < 2 ^ w) (hn : f.1 + w ≤ n) :
    pack (f :: l) < 2 ^ n := by
  rw [pack_cons]
  have e : 2 ^ (f.1 + w) ≤ 2 ^ n := Nat.pow_le_pow_right (by omega) hn
  have : (f.2 + 1) * 2 ^ f.1 ≤ 2 ^ w * 2 ^ f.1 := Nat.mul_le_mul_right _ hv
  rw [Nat.pow_add, Nat.mul_comm] at e
  rw [Nat.add_mul, Nat.one_mul] at this
  omega

theorem bits_pack_here {k v : Nat} {l : List (Nat × Nat)} (m : Nat) (h : pack l < 2 ^ k) (hv : v < 2 ^ (m + 1 - k)) :
    bits (pack ((k, v) :: l)) m k = v := by
  rw [bits, pack_cons, Nat.add_comm, Nat.add_mul_div_right _ _ (Nat.two_pow_pos k), Nat.div_eq_of_lt h, Nat.zero_add, Nat.mod_eq_of_lt hv]

theorem bits_pack_above {f : Nat × Nat} (l : List (Nat × Nat)) (m k : Nat) (h : m < f.1) (hk : k ≤ m) :
    bits (pack (f :: l)) m k = bits (pack l) m k := by
  have e : f.2 * 2 ^ f.1 = f.2 * 2 ^ (f.1 - m - 1) * 2 ^ (m + 1 - k) * 2 ^ k := by
    rw [Nat.mul_assoc, ← Nat.pow_add, Nat.mul_assoc, ← Nat.pow_add]; congr 2; omega
  rw [bits, bits, pack_cons, e, Nat.add_comm, Nat.add_mul_div_right _ _ (Nat.two_pow_pos k), Nat.add_mul_mod_self_right]

theorem pack_nil_lt (n : Nat) : pack [] < 2 ^ n := Nat.two_pow_pos n

theorem mod_lt_pow (a n : Nat) : a % 2 ^ n < 2 ^ n := Nat.mod_lt _ (Nat.two_pow_pos n)

theorem if_lt {b : Bool} {x n : Nat} (h : x < n) : (if b = true then x else 0) < n := by split <;> omega

theorem recordOf_low (s : State) (n : Nat) (f : Fact) :
    ∃ l, pack l < 2 ^ 402 ∧ recordOf s n f = pack ((480, n % 2 ^ 32) :: (416, f.tick.getD s.ticks % 2 ^ 64) :: (414, f.level % 4) ::
      (410, f.action % 16) :: (402, f.cause % 256) :: l) := by
  refine ⟨_, ?_, rfl⟩
  refine pack_lt 4 _ (pack_lt 5 _ (pack_lt 9 _ (pack_lt 16 _ (pack_lt 32 _ (pack_lt 4 _ (pack_lt 64 _ (pack_nil_lt _)
    (mod_lt_pow _ _) (by dsimp only; omega)) (if_lt (mod_lt_pow _ 4)) (by dsimp only; omega))
    (if_lt (mod_lt_pow _ 32)) (by dsimp only; omega)) (mod_lt_pow _ 16) (by dsimp only; omega)) (mod_lt_pow _ 9) (by dsimp only; omega))
    (mod_lt_pow _ 5) (by dsimp only; omega)) (mod_lt_pow _ 4) (by dsimp only; omega)

theorem recordOf_cause (s : State) (n : Nat) (f : Fact) : bits (recordOf s n f) 409 402 = f.cause % 256 := by
  obtain ⟨l, hl, e⟩ := recordOf_low s n f
  rw [e, bits_pack_above _ _ _ (by dsimp only; omega) (by omega), bits_pack_above _ _ _ (by dsimp only; omega) (by omega),
    bits_pack_above _ _ _ (by dsimp only; omega) (by omega), bits_pack_above _ _ _ (by dsimp only; omega) (by omega)]
  exact bits_pack_here _ hl (mod_lt_pow _ 8)

theorem recordOf_action (s : State) (n : Nat) (f : Fact) : bits (recordOf s n f) 413 410 = f.action % 16 := by
  obtain ⟨l, hl, e⟩ := recordOf_low s n f
  rw [e, bits_pack_above _ _ _ (by dsimp only; omega) (by omega), bits_pack_above _ _ _ (by dsimp only; omega) (by omega),
    bits_pack_above _ _ _ (by dsimp only; omega) (by omega)]
  exact bits_pack_here _ (pack_lt 8 _ hl (mod_lt_pow _ 8) (by dsimp only; omega)) (mod_lt_pow _ 4)

theorem recordOf_region (s : State) (n : Nat) (f : Fact) : bits (recordOf s n f) 401 398 = f.region % 16 := by
  unfold recordOf
  extract_lets d st on
  rw [bits_pack_above _ _ _ (by dsimp only; omega) (by omega), bits_pack_above _ _ _ (by dsimp only; omega) (by omega),
    bits_pack_above _ _ _ (by dsimp only; omega) (by omega), bits_pack_above _ _ _ (by dsimp only; omega) (by omega),
    bits_pack_above _ _ _ (by dsimp only; omega) (by omega)]
  exact bits_pack_here _ (pack_lt 5 _ (pack_lt 9 _ (pack_lt 16 _ (pack_lt 32 _ (pack_lt 4 _ (pack_lt 64 _ (pack_nil_lt _)
    (mod_lt_pow _ _) (by dsimp only; omega)) (if_lt (mod_lt_pow _ 4)) (by dsimp only; omega))
    (if_lt (mod_lt_pow _ 32)) (by dsimp only; omega)) (mod_lt_pow _ 16) (by dsimp only; omega)) (mod_lt_pow _ 9) (by dsimp only; omega))
    (mod_lt_pow _ 5) (by dsimp only; omega)) (mod_lt_pow _ 4)

theorem recordOf_number (s : State) (n : Nat) (f : Fact) : bits (recordOf s n f) 511 480 = n % 2 ^ 32 := by
  obtain ⟨l, hl, e⟩ := recordOf_low s n f
  rw [e]
  exact bits_pack_here _ (pack_lt 64 _ (pack_lt 2 _ (pack_lt 4 _ (pack_lt 8 _ hl (mod_lt_pow _ 8) (by dsimp only; omega))
    (mod_lt_pow _ 4) (by dsimp only; omega)) (mod_lt_pow _ 2) (by dsimp only; omega)) (mod_lt_pow _ 64) (by dsimp only; omega)) (mod_lt_pow _ 32)

theorem recordOf_time (s : State) (n : Nat) (f : Fact) : bits (recordOf s n f) 479 416 = f.tick.getD s.ticks % 2 ^ 64 := by
  obtain ⟨l, hl, e⟩ := recordOf_low s n f
  rw [e, bits_pack_above _ _ _ (by dsimp only; omega) (by omega)]
  exact bits_pack_here _ (pack_lt 2 _ (pack_lt 4 _ (pack_lt 8 _ hl (mod_lt_pow _ 8) (by dsimp only; omega))
    (mod_lt_pow _ 4) (by dsimp only; omega)) (mod_lt_pow _ 2) (by dsimp only; omega)) (mod_lt_pow _ 64)

theorem recordAt_logFault (s : State) (f : Fact) : recordAt (logFault s f) (s.flt.head + 1) = recordOf s (s.flt.head + 1) f := by
  simp only [logFault, recordAt]
  rw [spGet_set_same]

theorem logFault_head (s : State) (f : Fact) : (logFault s f).flt.head = s.flt.head + 1 := rfl

theorem Frame.get_recordAt {w} (g : Frame w s t) (h : .log ∉ w) (n : Nat) : recordAt t n = recordAt s n := by
  simp only [recordAt, g.log h]

theorem State.each_induct {α : Type} (P : State → Prop) (f : State → α → State) (hf : ∀ t x, P t → P (f t x)) :
    ∀ (l : List α) (s : State), P s → P (s.each l f) := by
  intro l
  induction l with
  | nil => intro s h; exact h
  | cons a l ih => intro s h; exact ih _ (hf _ _ h)

/-- What follows the register of a killed region leaves every region's registers. -/
theorem killRegion_rest (s : State) (r n a j : Nat) : (killRegion s r n a).reg j =
    (s.setReg r { s.reg r with st := .resetting, stage := .killed, recNo := n, slot := 4, affected := a, cut := clipCut s r }).reg j := by
  unfold killRegion
  extract_lets _ s1
  have h3 := (State.each_frame (l := List.range 16) (f := dailyAbandon) (w := [.ro, .days]) (s := emptyGrader (killHomed r s1) r)
    (fun _ _ => dailyAbandon_frame))
  rw [(State.each_frame (fun _ _ => abortAttempt_frame)).get_reg (by decide), h3.get_reg (by decide), emptyGrader_frame.get_reg (by decide),
    killHomed_frame.get_reg (by decide)]

theorem killRegion_reg (s : State) (r n a : Nat) : (killRegion s r n a).reg r =
    { s.reg r with st := .resetting, stage := .killed, recNo := n, slot := 4, affected := a, cut := clipCut s r } := by
  rw [killRegion_rest, setReg_reg_same]

theorem killRegion_reg_other (s : State) (r n a j : Nat) (h : j ≠ r) : ((killRegion s r n a).reg j) = s.reg j := by
  rw [killRegion_rest, setReg_reg_other _ _ h]

theorem regionFault_facts (s : State) (r src : Nat) (f : Fact) (h1 : inChipReset s = false) (h2 : alive s r = true) :
    let t := regionFault s r src f
    t.flt.head = s.flt.head + 1 ∧ bits (recordAt t t.flt.head) 409 402 = f.cause % 256 ∧ bits (recordAt t t.flt.head) 413 410 = 3 ∧
      bits (recordAt t t.flt.head) 401 398 = r % 16 ∧ (t.reg r).st = .resetting ∧ (t.reg r).stage = .killed ∧
      (t.reg r).recNo = t.flt.head ∧ (∀ j, j ≠ r → t.reg j = s.reg j) := by
  have h3 : ((s.reg r).st == .resetting) = false := by
    simp only [alive] at h2
    cases h : (s.reg r).st <;> rw [h] at h2 <;> simp_all
  simp only [alive] at h2
  intro t
  have ht : t = (killRegion (strike (logFault s { f with action := 3, region := r, doms := regionUse s r }) src) r
     (s.flt.head + 1) (regionUse s r)).count (kRegCnt r 0) 1 := by
    show regionFault s r src f = _
    unfold regionFault
    rw [h1, h3, h2]
    simp only [Bool.false_eq_true, if_false, if_true]
    rw [(strike_frame).head (by decide), logFault_head]
  have hh : t.flt.head = s.flt.head + 1 := by
    rw [ht, (State.count_frame).head (by decide), killRegion_frame.head (by decide), strike_frame.head (by decide), logFault_head]
  have hrec : recordAt t t.flt.head = recordOf s (s.flt.head + 1) { f with action := 3, region := r, doms := regionUse s r } := by
    rw [hh, ht, Frame.get_recordAt State.count_frame (by decide), Frame.get_recordAt killRegion_frame (by decide),
      Frame.get_recordAt strike_frame (by decide), recordAt_logFault]
  have hreg : (t.reg r).st = .resetting ∧ (t.reg r).stage = .killed ∧ (t.reg r).recNo = s.flt.head + 1 := by
    rw [ht, (State.count_frame).get_reg (by decide), killRegion_reg]
    exact ⟨rfl, rfl, rfl⟩
  refine ⟨hh, ?_, ?_, ?_, hreg.1, hreg.2.1, by rw [hh]; exact hreg.2.2, ?_⟩
  · rw [hrec, recordOf_cause]
  · rw [hrec, recordOf_action]; rfl
  · rw [hrec, recordOf_region]
  · intro j hj
    rw [ht, (State.count_frame).get_reg (by decide), killRegion_reg_other _ _ _ _ _ hj, strike_frame.get_reg (by decide),
      logFault_frame.get_reg (by decide)]

theorem chipFault_facts (s : State) (src r : Nat) (f : Fact) (h1 : inChipReset s = false) :
    let t := chipFault s src r f
    t.flt.head = s.flt.head + 1 ∧ bits (recordAt t t.flt.head) 409 402 = f.cause % 256 ∧ bits (recordAt t t.flt.head) 413 410 = 4 ∧
      t.flt.chip.isSome = true ∧ (∀ j, j < 4 → (t.reg j).st = .resetting) := by
  unfold chipFault
  rw [h1]
  simp -zeta only [Bool.false_eq_true, if_false]
  extract_lets aff s0 s1 n cuts s2 s3 s4
  clear_value aff
  have g1 : Frame [.ro, .clap, .blks] s0 s1 := strike_frame.after (frame_ite (Frame.refl _ _) strike_frame)
  have h0 : n = s.flt.head + 1 := (g1.head (by decide)).trans (logFault_head _ _)
  have r0 : recordAt s1 n = recordOf s n { f with level := 3, action := 4, doms := aff } := by
    rw [h0, Frame.get_recordAt g1 (by decide)]; exact recordAt_logFault _ _
  clear_value n s1
  have hp : ∀ (t : State) k, Frame [.fab] t (if k = r then t else holdPorts t k) := fun _ _ => frame_ite (Frame.refl _ _) holdPorts_frame
  have gf : ∀ (t : State) k, Frame [.regs, .ctxs, .fab] t (killHomed k ((if k = r then t else holdPorts t k).setReg k { t.reg k with
        st := .resetting, stage := if k = r then .killed else .reset, recNo := n, slot := 4, affected := aff, onlining := false
        wasOff := (t.reg k).st == .offline })) :=
    fun t k => killHomed_frame.after (State.setReg_frame.after ((hp t k).mono (by decide)))
  have g2 : Frame [.regs, .ctxs, .fab] s1 s2 := State.each_frame gf
  have kr : ∀ j, j < 4 → (s2.reg j).st = .resetting := by
    have key : ∀ (t : State) k x j, ((killHomed k ((if k = r then t else holdPorts t k).setReg k x)).reg j) = if j = k then x else t.reg j := by
      intro t k x j
      rw [killHomed_frame.get_reg (by decide)]
      by_cases hj : j = k
      · subst hj; rw [setReg_reg_same, if_pos rfl]
      · rw [setReg_reg_other _ _ hj, (hp t k).get_reg (by decide), if_neg hj]
    intro j hj
    have : j = 0 ∨ j = 1 ∨ j = 2 ∨ j = 3 := by omega
    unfold s2
    simp only [State.each, List.range, List.range.loop, List.foldl, key]
    rcases this with rfl | rfl | rfl | rfl <;> simp
  clear_value s2
  have ga : Frame [.ro, .grds] s2 (s2.each (List.range 4) emptyGrader) := State.each_frame (fun _ _ => emptyGrader_frame)
  have gb : Frame [.ro, .days] (s2.each (List.range 4) emptyGrader) ((s2.each (List.range 4) emptyGrader).each (List.range 16) dailyAbandon) :=
    State.each_frame (fun _ _ => dailyAbandon_frame)
  have gc : Frame [.ro, .steps, .blks, .fab] _ s3 := State.each_frame (fun _ _ => abortAttempt_frame)
  have g3 : Frame [.ro, .grds, .days, .steps, .blks, .fab] s2 s3 := (gc.mono (by decide)).trans ((gb.mono (by decide)).trans (ga.mono (by decide)))
  clear_value s3
  have g4 : Frame [.ro, .grds, .days, .steps, .blks, .fab] s2 s4 := State.count_frame.after g3
  clear_value s4
  have hh : s4.flt.head = n := by
    rw [g4.head (by decide), g2.head (by decide), h0, g1.head (by decide)]; exact logFault_head _ _
  have hr : recordAt s4 s4.flt.head = recordOf s n { f with level := 3, action := 4, doms := aff } := by
    rw [hh, Frame.get_recordAt g4 (by decide), Frame.get_recordAt g2 (by decide), r0]
  refine ⟨hh.trans h0, (congrArg (fun w => bits w 409 402) hr).trans (recordOf_cause _ _ _),
    (congrArg (fun w => bits w 413 410) hr).trans (recordOf_action _ _ _), rfl, fun j hj => ?_⟩
  show (s4.reg j).st = _
  rw [g4.get_reg (by decide)]
  exact kr j hj

end Sys2Proof.Machine
end

