-- ==== Sys2Proof/Laws/Stores.lean ====
section
/-!
SUPPORT. Where operations store: `Within W s t` says that `t` has come from `s` by stores inside the set `W` of physical addresses, with the
translation of every address kept. One lemma per operation that stores; `Within.storesOnly` gives the claims of Safety.
-/

set_option autoImplicit true
set_option Elab.async false

namespace Sys2Proof.Machine

theorem spFind_put_same (l : Sparse α) (k : Nat) (v : α) : spFind (spPut l k v) k = some v := by
  induction l with
  | nil => simp [spPut, spFind]
  | cons e l ih =>
    obtain ⟨i, w⟩ := e
    simp only [spPut]
    split
    · simp [spFind, *]
    · split <;> simp [spFind, *]

theorem spFind_put_other (l : Sparse α) {k j : Nat} (v : α) (h : j ≠ k) : spFind (spPut l k v) j = spFind l j := by
  induction l with
  | nil => simp [spPut, spFind, Ne.symm h]
  | cons e l ih =>
    obtain ⟨i, w⟩ := e
    simp only [spPut]
    split
    · subst_vars; simp [spFind, Ne.symm h]
    · split <;> simp [spFind, Ne.symm h, ih]

/-! ## The layout in force -/

/-- MEM_LAYOUT_LIVE is the same. -/
def Lay (s t : State) : Prop := ∀ r, r < 4 → t.ro? (key 0x6002 (0x10 + r)) = s.ro? (key 0x6002 (0x10 + r))

theorem Lay.refl (s : State) : Lay s s := fun _ _ => rfl

theorem Lay.frame (g : Frame v t u) (h : Lay s t) (hv : Part.ro ∉ v := by decide) : Lay s u := fun r hr =>
  (by simp only [State.ro?, g.ro hv] : u.ro? (key 0x6002 (0x10 + r)) = t.ro? (key 0x6002 (0x10 + r))).trans (h r hr)

theorem Lay.pools (h : Lay s t) (r : Nat) : poolSlots t r = poolSlots s r := by
  unfold poolSlots layoutLive
  split
  · rw [h r (by assumption)]
  · rfl

/-- A key that no region's MEM_LAYOUT_LIVE has. -/
def OffLayout (k : Nat) : Prop := ∀ r, r < 4 → k ≠ key 0x6002 (0x10 + r)

theorem count_lay (k n : Nat) (hk : OffLayout k) (h : Lay s t) : Lay s (t.count k n) := fun r hr => by
  rw [← h r hr]
  unfold State.count State.setRo State.ro?
  rw [spGet_set_other]
  exact fun e => hk r hr e.symm

theorem key_off {i n : Nat} (hn : n < 16) : OffLayout (key i n) := by
  intro r hr
  unfold key addrKey
  omega

/-- A property of a fold's state that each of its steps keeps. -/
theorem foldl_mem {α β : Type} {P : β → Prop} {f : β → α → β} {xs : List α} {y : β} (hy : P y) (hf : ∀ z, ∀ x ∈ xs, P z → P (f z x)) :
    P (xs.foldl f y) := by
  induction xs generalizing y with
  | nil => exact hy
  | cons x xs ih => exact ih (hf y x (by simp) hy) (fun z k hk => hf z k (by simp [hk]))

/-! ## Stores inside a set of addresses -/

/-- `t` has come from `s` by stores inside `W`: memory is in its canonical form, segments and layout are the same, a bound slot has kept its
place, a slot bound since has one that `InSlot` names. -/
structure Within (W : Nat → Prop) (s t : State) : Prop where
  wf : MemoryOk t
  segs : t.segs = s.segs
  lay : Lay s t
  kept : ∀ ky b, s.bind ky = some b → ∃ c, t.bind ky = some c ∧ c.spill = b.spill ∧ c.pool = b.pool
  fresh : ∀ ky c, s.bind ky = none → t.bind ky = some c → c.spill = true ∨ c.pool < poolFor s (keyCell ky)
  clean : s.back.poison = [] → t.back.poison = []
  rest : ∀ x, ¬ W x → t.rd x = s.rd x

theorem Within.refl (h : MemoryOk s) : Within W s s where
  wf := h
  segs := rfl
  lay := Lay.refl s
  kept _ b hb := ⟨b, hb, rfl, rfl⟩
  fresh _ _ hn hc := by rw [hn] at hc; cases hc
  clean h := h
  rest _ _ := rfl

/-- An operation that leaves memory, segments, bindings and layout as they are. -/
theorem Within.keep (h : Within W s t) (g : Frame v t u) (l : Lay s t → Lay s u)
    (hv : Part.segs ∉ v ∧ Part.mem ∉ v ∧ Part.binds ∉ v ∧ Part.back ∉ v := by decide) : Within W s u := by
  have hb : ∀ ky, u.bind ky = t.bind ky := fun ky => by simp only [State.bind, g.binds hv.2.2.1]
  have hm : ∀ x, u.rd x = t.rd x := fun x => by simp only [State.rd, g.mem hv.2.1]
  exact ⟨by have := h.wf; unfold MemoryOk at this ⊢; rwa [g.mem hv.2.1], (g.segs hv.1).trans h.segs, l h.lay,
    fun ky b k => by rw [hb]; exact h.kept ky b k, fun ky c k => by rw [hb]; exact h.fresh ky c k,
    fun k => (congrArg Backing.poison (g.back hv.2.2.2)).trans (h.clean k), fun x k => (hm x).trans (h.rest x k)⟩

theorem Within.put (h : Within W s t) {me : List Host.Cell} {ba : Backing} (hwf : spWf zeroByte me = true)
    (hr : ∀ x, ¬ W x → spGet zeroByte me x = t.rd x) (hp : t.back.poison = [] → ba.poison = []) :
    Within W s { t with mem := me, back := ba } where
  wf := hwf
  segs := h.segs
  lay := h.lay
  kept := h.kept
  fresh := h.fresh
  clean k := hp (h.clean k)
  rest x k := (hr x k).trans (h.rest x k)

theorem rd_wrBytes (h : MemoryOk s) (a : Nat) (bs : List Byte) (x : Nat) :
    (s.wrBytes a bs).rd x = if a ≤ x ∧ x < a + bs.length then bs.getD (x - a) 0 else s.rd x := by
  unfold State.rd State.wrBytes
  rw [spGet_setList h]
  by_cases hx : a ≤ x ∧ x - a < bs.length
  · rw [dif_pos hx, if_pos (by omega), List.getD_eq_getElem?_getD, List.getElem?_eq_getElem hx.2, Option.getD_some]
  · rw [dif_neg hx, if_neg (by omega)]

theorem Within.write (h : Within W s t) (hw : ∀ i, i < bs.length → W (a + i)) : Within W s (t.wrBytes a bs) :=
  h.put (spSetList_wf _ _ h.wf) (fun x k => by
    have := rd_wrBytes h.wf a bs x
    unfold State.rd State.wrBytes at this
    rw [show (t.rd x) = spGet zeroByte t.mem x from rfl, this, if_neg]
    rintro ⟨h1, h2⟩
    exact k (by have := hw (x - a) (by omega); rwa [show a + (x - a) = x by omega] at this)) (fun k => by simp [cleanWords, k])

theorem Within.zero (h : Within W s t) (hw : ∀ i, i < n → W (a + i)) : Within W s (zeroRange t a n) :=
  h.put (spFilter_wf _ h.wf) (fun x k => by
    refine spGet_filter _ _ (fun v => ?_)
    simp only [Bool.or_eq_true, decide_eq_true_eq]
    refine Classical.byContradiction (fun c => k ?_)
    have := hw (x - a) (by omega)
    rwa [show a + (x - a) = x by omega] at this) (fun k => by simp [cleanWords, k])

/-! ## Slots -/

theorem Within.seg (h : Within W s t) (d n : Nat) : t.seg d n = s.seg d n := by simp only [State.seg, h.segs]

theorem Within.loc (h : Within W s t) (d a : Nat) : maLoc t d a = maLoc s d a := by simp only [maLoc, h.seg]

theorem Within.spillBase (h : Within W s t) (ky : Nat) : spillBase t ky = spillBase s ky := by simp only [Machine.spillBase, h.seg]

theorem Within.poolBase (h : Within W s t) (cell p : Nat) : poolBase t cell p = poolBase s cell p := by
  simp only [Machine.poolBase, h.lay.pools]

theorem Within.poolFor (h : Within W s t) (cell : Nat) : poolFor t cell = poolFor s cell := by simp only [Machine.poolFor, h.lay.pools]

theorem Within.slotBase (h : Within W s t) (ky : Nat) (b : Bind) : slotBase t ky b = slotBase s ky b := by
  simp only [Machine.slotBase, h.spillBase, h.poolBase]

theorem slotBase_same (s : State) (ky : Nat) {b c : Bind} (h1 : c.spill = b.spill) (h2 : c.pool = b.pool) :
    slotBase s ky c = slotBase s ky b := by simp only [Machine.slotBase, h1, h2]

/-- The place of a slot that is bound now is one that `InSlot` named at the start. -/
theorem Within.place (h : Within W s t) (hb : t.bind ky = some b) (hi : i < 65536) : InSlot s ky (Machine.slotBase t ky b + i) := by
  rw [h.slotBase]
  have hr : ∀ a x, a ≤ x → x < a + 65536 → InRanges [(a, 65536)] x := fun a x h1 h2 => ⟨(a, 65536), by simp, h1, h2⟩
  unfold InSlot
  cases hs : s.bind ky with
  | some c =>
    obtain ⟨e, he, h1, h2⟩ := h.kept ky c hs
    rw [hb] at he
    cases he
    rw [slotBase_same s ky h1 h2]
    exact hr _ _ (by omega) (by omega)
  | none =>
    dsimp only
    rcases h.fresh ky b hs hb with h1 | h1
    · exact .inl (by unfold Machine.slotBase; rw [if_pos h1]; exact hr _ _ (by omega) (by omega))
    · by_cases h2 : b.spill = true
      · exact .inl (by unfold Machine.slotBase; rw [if_pos h2]; exact hr _ _ (by omega) (by omega))
      · exact .inr ⟨b.pool, h1, by unfold Machine.slotBase; rw [if_neg h2]; exact hr _ _ (by omega) (by omega)⟩

theorem bind_setBind (s : State) (ky k : Nat) (c : Bind) : (s.setBind ky c).bind k = if k = ky then some c else s.bind k := by
  unfold State.setBind State.bind
  split
  · rename_i h; subst h; exact spFind_put_same _ _ _
  · rename_i h; exact spFind_put_other _ _ h

/-- A binding changed in its counts alone, or made: at the place that the slot had, or at one that `InSlot` names. -/
theorem Within.setBind (h : Within W s t) (ky : Nat) (c : Bind)
    (hk : ∀ b, t.bind ky = some b → c.spill = b.spill ∧ c.pool = b.pool)
    (hn : t.bind ky = none → c.spill = true ∨ c.pool < Machine.poolFor s (keyCell ky)) : Within W s (t.setBind ky c) where
  wf := h.wf
  segs := h.segs
  lay := h.lay
  kept k b hb := by
    rw [bind_setBind]
    obtain ⟨e, he, h1, h2⟩ := h.kept k b hb
    split
    · rename_i hh; subst hh
      obtain ⟨h3, h4⟩ := hk e he
      exact ⟨c, rfl, h3.trans h1, h4.trans h2⟩
    · exact ⟨e, he, h1, h2⟩
  fresh k e hs he := by
    rw [bind_setBind] at he
    split at he
    · rename_i hh; subst hh
      cases he
      cases hb : t.bind k with
      | none => exact hn hb
      | some b => obtain ⟨h3, h4⟩ := hk b hb; rw [h3, h4]; exact h.fresh k b hs hb
    · exact h.fresh k e hs he
  clean := h.clean
  rest := h.rest

/-- The accesses of a slot stay in its 64 KiB. -/
def OpsFit (ops : List (Nat × Bool × List Byte)) : Prop := ∀ op ∈ ops, op.1 + op.2.2.length ≤ 65536

theorem addWords_length (old new : List Byte) : (addWords old new).length ≤ new.length := by
  unfold addWords
  simp only [List.length_take]
  omega

theorem Within.slotOps (h : Within W s t) (hf : OpsFit ops) (hW : ∀ x, InSlot s ky x → W x) : Within W s (slotOps t ky ops) := by
  unfold Machine.slotOps
  split
  · rename_i b hb
    induction ops generalizing t with
    | nil => exact h
    | cons op ops ih =>
      rw [List.foldl_cons]
      have h1 : Within W s (slotOp t (Machine.slotBase t ky b) op) := by
        unfold slotOp
        refine h.write (fun i hi => ?_)
        have h2 : i < op.2.2.length := by
          split at hi
          · have := addWords_length (t.rdBytes (Machine.slotBase t ky b + op.1) op.2.2.length) op.2.2; omega
          · exact hi
        have := hf op (by simp)
        rw [Nat.add_assoc]
        exact hW _ (h.place hb (by omega))
      exact ih h1 (fun o ho => hf o (by simp [ho])) hb
  · exact h

theorem Within.zeroSlot (h : Within W s t) (hb : t.bind ky = some b) (hW : ∀ x, InSlot s ky x → W x) :
    Within W s (zeroRange t (Machine.slotBase t ky b) 65536) := h.zero (fun _ hi => hW _ (h.place hb hi))

/-- A change of a bound slot's counts. -/
theorem Within.rebind (h : Within W s t) (hb : t.bind ky = some b) (c : Bind) (h1 : c.spill = b.spill) (h2 : c.pool = b.pool) :
    Within W s (t.setBind ky c) :=
  h.setBind ky c (fun e he => by rw [hb] at he; cases he; exact ⟨h1, h2⟩) (fun hn => by rw [hb] at hn; cases hn)

theorem blk_off {b off n : Nat} (hn : n < 16) : OffLayout (blkKey b off n) := key_off hn

theorem Within.count (h : Within W s t) {k : Nat} (n : Nat) (hk : OffLayout k) : Within W s (t.count k n) :=
  h.keep State.count_frame (count_lay k n hk)

theorem Within.anomaly (h : Within W s t) : Within W s (anomaly t ky) :=
  (h.keep State.setBlk_frame (Lay.frame State.setBlk_frame)).count _ (blk_off (by decide))

theorem Within.unready (h : Within W s t) : Within W s (unready t ky) := h.keep unready_frame (Lay.frame unready_frame)

theorem Within.depositDone (h : Within W s t) : Within W s (depositDone t ky) := by
  unfold Machine.depositDone
  split
  · exact h
  · rename_i b hb
    have h1 : Within W s ((t.setBlk (blkOfCell (keyCell ky)) { t.blk (blkOfCell (keyCell ky)) with wdt := 0 }).setBind ky
        { b with remain := b.remain - 1 }) :=
      (h.keep State.setBlk_frame (Lay.frame State.setBlk_frame)).rebind (b := b) hb _ rfl rfl
    extract_lets
    split
    · exact h1.keep State.setBlk_frame (Lay.frame State.setBlk_frame)
    · exact h1

theorem Within.countDeposit (h : Within W s t) : Within W s (countDeposit t e) := by
  unfold Machine.countDeposit
  split
  · exact h.depositDone
  · exact h

theorem Within.onBound (h : Within W s t) {e : Held} (hb : t.bind e.key = some b) (hf : OpsFit e.ops) (hW : ∀ x, InSlot s e.key x → W x) :
    Within W s (onBound t b e) := by
  unfold Machine.onBound
  split
  · exact h.slotOps hf hW
  · split
    · split
      · split
        · exact h.anomaly
        · exact h
      · refine Within.countDeposit ?_
        split
        · exact (h.slotOps hf hW).anomaly
        · exact h.slotOps hf hW
    · split
      · refine Within.countDeposit (Within.slotOps ?_ hf hW)
        refine Within.count ?_ _ (blk_off (by decide))
        refine Within.rebind (b := b) (h.zeroSlot hb hW).unready ?_ _ rfl rfl
        exact hb
      · split
        · exact h.count _ (blk_off (by decide))
        · exact h

theorem freePool_lt (h : freePool s cell = some p) : p < poolFor s cell := by
  have := List.mem_of_find?_eq_some h
  simpa using this

/-- Accesses to a slot store in its 64 KiB alone, where it is bound or comes to be bound (R134). -/
theorem Within.slotWrite (h : Within W s t) {e : Held} (hf : OpsFit e.ops) (hW : ∀ x, InSlot s e.key x → W x) :
    Within W s (slotWrite t e) := by
  have hold : ∀ {u : State} (x : Held), Within W s u → Within W s (holdSlot u x) := fun x hu =>
    ⟨hu.wf, hu.segs, hu.lay, hu.kept, hu.fresh, hu.clean, hu.rest⟩
  unfold Machine.slotWrite
  split
  · exact hold _ h
  · split
    · rename_i b hb
      exact h.onBound hb hf hW
    · rename_i hn
      extract_lets cell tag nb
      split
      · exact hold _ h
      · split
        · rename_i p hp
          refine Within.countDeposit (Within.slotOps ?_ hf hW)
          refine h.setBind _ _ (fun b hb => by rw [hn] at hb; cases hb) (fun _ => .inr ?_)
          rw [← h.poolFor]
          exact freePool_lt hp
        · refine Within.keep (hold _ (Within.count ?_ _ (key_off (by decide)))) markSpl_frame (Lay.frame markSpl_frame)
          exact h.setBind _ _ (fun b hb => by rw [hn] at hb; cases hb) (fun _ => .inl rfl)

/-! ## Lines and ranges of module addresses -/

/-- Bytes of one line lie side by side. -/
theorem maLoc_line (s : State) (d : Nat) {a j x : Nat} (hj : a % 64 + j < 64) (h : maLoc s d a = .pa x) : maLoc s d (a + j) = .pa (x + j) := by
  have h1 : maSeg (a + j) = maSeg a := by unfold maSeg; omega
  have h2 : maOff (a + j) = maOff a + j := by unfold maOff; omega
  have h3 : maOff a % 64 = a % 64 := by unfold maOff; omega
  unfold maLoc at h ⊢
  rw [h1, h2]
  generalize s.seg d (maSeg a) = g at h ⊢
  generalize maOff a = o at h h3 ⊢
  unfold segLoc at h ⊢
  dsimp only at h ⊢
  have hsz : decide (o + j ≥ g.size * 64) = decide (o ≥ g.size * 64) := decide_eq_decide.2 (by constructor <;> intro <;> omega)
  have hdiv : (o + j) / (g.span * 65536) = o / (g.span * 65536) := by
    rcases Nat.eq_zero_or_pos (g.span * 65536) with h0 | h0
    · simp [h0]
    · have e1 := Nat.div_add_mod o (g.span * 65536)
      have e2 := Nat.mod_lt o h0
      have e3 : (o % (g.span * 65536)) % 64 = o % 64 := Nat.mod_mod_of_dvd _ ⟨g.span * 1024, by omega⟩
      have e4 : o % (g.span * 65536) + j < g.span * 65536 := by omega
      rw [show o + j = o % (g.span * 65536) + j + g.span * 65536 * (o / (g.span * 65536)) by omega, Nat.add_mul_div_left _ _ h0,
        Nat.div_eq_of_lt e4]
      omega
  have hmod : g.span * 65536 ≠ 0 → (o + j) % (g.span * 65536) = o % (g.span * 65536) + j := by
    intro h0
    have e1 := Nat.div_add_mod o (g.span * 65536)
    have e5 := Nat.div_add_mod (o + j) (g.span * 65536)
    rw [hdiv] at e5
    omega
  rw [hsz, hdiv]
  by_cases c1 : (!g.valid || decide (o ≥ g.size * 64)) = true
  · rw [if_pos c1] at h; cases h
  · rw [if_neg c1] at h ⊢
    by_cases c2 : g.kind = 0
    · rw [if_pos c2] at h ⊢
      cases h
      split <;> simp [Nat.add_assoc]
    · rw [if_neg c2] at h ⊢
      by_cases c3 : (decide (g.span * 65536 = 0) || decide (o / (g.span * 65536) ≥ g.ncell)) = true
      · rw [if_pos c3] at h; cases h
      · rw [if_neg c3] at h ⊢
        have h0 : g.span * 65536 ≠ 0 := fun e => c3 (by simp [e])
        by_cases c4 : g.kind = 1
        · rw [if_pos c4] at h ⊢
          cases h
          rw [hmod h0]
          split <;> simp [Nat.add_assoc]
        · rw [if_neg c4] at h; cases h

theorem maLoc_slot {s : State} {d a ky off : Nat} (h : maLoc s d a = .slot ky off) : off = maOff a % 65536 := by
  unfold maLoc segLoc at h
  dsimp only at h
  split at h
  · cases h
  · split at h
    · cases h
    · split at h
      · cases h
      · split at h
        · cases h
        · cases h; rfl

/-- The pieces of a range: each in one line, not empty, inside the range, with its bytes. -/
theorem piece_of (h : p ∈ pieces a bs) : 0 < p.2.length ∧ p.1 % 64 + p.2.length ≤ 64 ∧ a ≤ p.1 ∧ p.1 + p.2.length ≤ a + bs.length ∧
    p.2 = (bs.drop (p.1 - a)).take p.2.length := by
  unfold pieces linesOf at h
  split at h
  · cases h
  · simp only [List.map_map, List.mem_map, List.mem_range, Function.comp] at h
    obtain ⟨i, hi, rfl⟩ := h
    have hl : ((bs.drop (max ((a / 64 + i) * 64) a - a)).take ((a / 64 + i) * 64 + 64 - max ((a / 64 + i) * 64) a)).length
        = min ((a / 64 + i) * 64 + 64 - max ((a / 64 + i) * 64) a) (bs.length - (max ((a / 64 + i) * 64) a - a)) := by simp
    dsimp only
    rw [hl]
    refine ⟨by omega, by omega, by omega, by omega, ?_⟩
    rw [List.take_eq_take_iff]
    simp

theorem inStore_sub {s : State} {d a n b m : Nat} (h1 : a ≤ b) (h2 : b + m ≤ a + n) (h : InStore s d [(b, m)] x) : InStore s d [(a, n)] x := by
  obtain ⟨r, hr, i, hi, hx⟩ := h
  simp only [List.mem_singleton] at hr
  subst hr
  exact ⟨(a, n), by simp, b - a + i, by dsimp only at hi ⊢; omega, by dsimp only at hx ⊢; rwa [show a + (b - a + i) = b + i by omega]⟩

/-- One piece of a plain write stores where its bytes lie. -/
theorem Within.stLine (h : Within W s t) (h0 : 0 < p.2.length) (hl : p.1 % 64 + p.2.length ≤ 64)
    (hW : ∀ x, InStore s d [(p.1, p.2.length)] x → W x) : Within W s (stLine b d src t p) := by
  unfold Machine.stLine
  rw [h.loc]
  split
  · refine h.keep boundEvt_frame (fun l => ?_)
    unfold boundEvt
    split
    · exact l
    · exact count_lay _ _ (key_off (by decide)) (l.frame State.setBlk_frame)
  · rename_i x hx
    refine h.write (fun i hi => hW _ ⟨_, List.mem_singleton.2 rfl, i, hi, .inl ?_⟩)
    unfold byteAt
    dsimp only
    rw [maLoc_line s d (by omega) hx]
  · rename_i ky off hx
    have ho := maLoc_slot hx
    refine h.slotWrite ?_ (fun x hx' => hW _ ⟨_, List.mem_singleton.2 rfl, 0, h0, .inr ⟨ky, off, hx, hx'⟩⟩)
    intro op hop
    simp only [List.mem_singleton] at hop
    subst hop
    have : maOff p.1 % 64 = p.1 % 64 := by unfold maOff; omega
    dsimp only
    omega

theorem Within.stBytes (h : Within W s t) (hW : ∀ x, InStore s d [(a, bs.length)] x → W x) : Within W s (stBytes t b d src a bs) := by
  unfold Machine.stBytes
  refine foldl_mem h (fun u p hp hu => ?_)
  obtain ⟨h0, hl, h1, h2, _⟩ := piece_of hp
  exact hu.stLine h0 hl (fun x hx => hW x (inStore_sub h1 h2 hx))

/-- Adds that fit in their slots, whose places lie in `W`. -/
def AddsIn (W : Nat → Prop) (s : State) (l : List (Nat × Nat × Bool × List Byte)) : Prop :=
  ∀ e ∈ l, e.2.1 + e.2.2.2.length ≤ 65536 ∧ ∀ x, InSlot s e.1 x → W x

theorem addParts_in (h : Within W s t) (hW : ∀ x, InStore s d [(a, bs.length)] x → W x) : AddsIn W s (addParts t d a bs).1 := by
  intro e he
  unfold addParts at he
  simp only [List.mem_filterMap, List.mem_map] at he
  obtain ⟨q, ⟨p, hp, rfl⟩, hq⟩ := he
  dsimp only at hq
  rw [h.loc] at hq
  obtain ⟨h0, hl, h1, h2, _⟩ := piece_of hp
  split at hq
  · rename_i ky off hx
    cases hq
    have ho := maLoc_slot hx
    have : maOff p.1 % 64 = p.1 % 64 := by unfold maOff; omega
    exact ⟨by dsimp only; omega, fun x hx' => hW x (inStore_sub h1 h2 ⟨_, List.mem_singleton.2 rfl, 0, h0, .inr ⟨ky, off, hx, hx'⟩⟩)⟩
  · cases hq

theorem AddsIn.append (h1 : AddsIn W s l) (h2 : AddsIn W s m) : AddsIn W s (l ++ m) := fun e he =>
  (List.mem_append.1 he).elim (h1 e) (h2 e)

theorem boundEvt_lay (h : Lay s t) : Lay s (boundEvt t b n) := by
  unfold boundEvt
  split
  · exact h
  · exact count_lay _ _ (key_off (by decide)) (h.frame State.setBlk_frame)

theorem Within.boundEvt (h : Within W s t) : Within W s (boundEvt t b n) := h.keep boundEvt_frame boundEvt_lay

theorem Within.depositAdds (h : Within W s t) (hl : AddsIn W s l) : Within W s (depositAdds t b src st att ex counts l misses) := by
  unfold Machine.depositAdds
  refine foldl_mem h.boundEvt (fun u e he hu => ?_)
  unfold bySlot at he
  simp only [List.mem_map, List.mem_eraseDups] at he
  obtain ⟨ky, ⟨e0, he0, rfl⟩, rfl⟩ := he
  refine hu.slotWrite (fun op hop => ?_) (hl e0 he0).2
  simp only [List.mem_map, List.mem_filter] at hop
  obtain ⟨e1, ⟨he1, _⟩, rfl⟩ := hop
  exact (hl e1 he1).1

theorem leBytes_length (n v : Nat) : (leBytes n v).length = n := by
  induction n generalizing v with
  | zero => rfl
  | succ n ih => simp [leBytes, ih]

theorem Within.modRec (h : Within W s t) (hW : ∀ x, InStore s d [(a, 128)] x → W x) : Within W s (modRec t b d a f) := by
  unfold Machine.modRec
  exact h.boundEvt.stBytes (by rw [leBytes_length]; exact hW)

theorem Within.setNonfin (h : Within W s t) : Within W s (setNonfin t b c) := h.keep setNonfin_frame (Lay.frame setNonfin_frame)

theorem Within.updRecord (h : Within W s t) (hW : ∀ x, InStore s d [(a, 128)] x → W x) : Within W s (updRecord t b d a f u) :=
  h.modRec hW

/-! ## What an operation has stored -/

/-- Every byte outside a set of physical addresses reads as before. -/
def Rest (W : Nat → Prop) (s t : State) : Prop := ∀ x, ¬ W x → t.rd x = s.rd x

/-- What follows the stores and leaves memory as it is changes nothing of where they went. -/
theorem Within.after (h : Within W s t) (g : Frame v t u) (hv : Part.mem ∉ v := by decide) : Rest W s u := fun x hx =>
  (by simp only [State.rd, g.mem hv] : u.rd x = t.rd x).trans (h.rest x hx)

theorem rest_frame (g : Frame v s u) (hv : Part.mem ∉ v := by decide) : Rest W s u := fun x _ => by
  simp only [State.rd, g.mem hv]

theorem guardReads_rest (h : Rest W s t) : Rest W s (guardReads s d rs t) := by
  unfold guardReads
  split
  · exact rest_frame poisonFault_frame
  · exact h

theorem guardPhys_rest (h : Rest W s t) : Rest W s (guardPhys s rs t) := by
  unfold guardPhys
  split
  · exact rest_frame poisonFault_frame
  · exact h

theorem InStore.of (h : r ∈ rs) (hx : InStore s d [r] x) : InStore s d rs x := by
  obtain ⟨q, hq, i, hi, e⟩ := hx
  rw [List.mem_singleton] at hq
  subst hq
  exact ⟨q, h, i, hi, e⟩

theorem InRanges.of (h : ∀ r ∈ rs, r ∈ ps) (hx : InRanges rs x) : InRanges ps x := by
  obtain ⟨q, hq, e⟩ := hx
  exact ⟨q, h q hq, e⟩

/-- The addresses of some ranges of module addresses and of some physical ranges. -/
def Dest (s : State) (d : Nat) (rs ps : List (Nat × Nat)) (x : Nat) : Prop := InStore s d rs x ∨ InRanges ps x

theorem storesOnly_of (h : Rest (Dest s d rs ps) s t) : StoresOnly s t d rs ps := fun x h1 h2 =>
  h x (fun h => h.elim h1 h2)

theorem StoresOnly.same (h : t.mem = s.mem) : StoresOnly s t d rs ps := fun x _ _ => by simp only [State.rd, h]

/-! ## Lengths of results -/

theorem chunksAux_flatten (n : Nat) (hn : 0 < n) (k : Nat) (l : List α) (h : l.length ≤ k) : (chunksAux n k l).flatten = l := by
  induction k generalizing l with
  | zero => cases l with
    | nil => rfl
    | cons a l => simp at h
  | succ k ih => cases l with
    | nil => rfl
    | cons a l =>
      unfold chunksAux
      rw [List.flatten_cons, ih _ (by simp at h ⊢; omega), List.take_append_drop]

theorem chunks_flatten (l : List α) : (chunks 32 l).flatten = l := chunksAux_flatten 32 (by decide) _ _ (Nat.le_refl _)

theorem chunksAux_length (n : Nat) (k : Nat) (l : List α) (m : Nat) (h : l.length ≤ m * n) (hn : 0 < n) : (chunksAux n k l).length ≤ m := by
  induction k generalizing l m with
  | zero => simp [chunksAux]
  | succ k ih => cases l with
    | nil => simp [chunksAux]
    | cons a l => cases m with
      | zero => simp at h
      | succ m =>
        unfold chunksAux
        rw [List.length_cons]
        have := ih ((a :: l).drop n) m (by rw [List.length_drop, Nat.succ_mul] at *; omega)
        omega

theorem quant_length (f : Fmt) (rcp : Word) (xs : List Word) : (quant f rcp xs).codes.length = xs.length := by
  unfold quant
  split
  · simp [quantBlock]
  · by_cases h : f = .int8 <;> simp [quantPlain, h]

theorem codes_length (f : Fmt) (rcp : Word) (xs : List (List Word)) : ((xs.map (quant f rcp)).flatMap (·.codes)).length = xs.flatten.length := by
  induction xs with
  | nil => rfl
  | cons x xs ih => simp only [List.map_cons, List.flatMap_cons, List.length_append, List.flatten_cons, quant_length, ih]

theorem packElems_length (f : Fmt) (cs : List Nat) : (packElems f cs).length = (cs.length * fmtBits f + 7) / 8 := leBytes_length _ _

theorem bytesOf_length (ws : List Word) : (bytesOf ws).length = 4 * ws.length := by
  unfold bytesOf
  induction ws with
  | nil => rfl
  | cons w ws ih => rw [List.flatMap_cons, List.length_append, leBytes_length, ih, List.length_cons]; omega

theorem packElems_block (f : Fmt) {cs : List Nat} (h : cs.length ≤ 1024) : (packElems f cs).length ≤ blockBytes f := by
  rw [packElems_length]
  unfold blockBytes
  have := Nat.mul_le_mul_right (fmtBits f) h
  omega

/-- A block of 1024 values or fewer quantised fills no more than a block in memory and its 32 scale bytes. -/
theorem quantTile_length (f : Fmt) (rcp : Word) (cols : Bool) {xs : List Word} (h : xs.length ≤ 1024) :
    (quantTile f rcp cols xs).bytes.length ≤ blockBytes f ∧ (quantTile f rcp cols xs).scales.length ≤ 32 := by
  have hc : ∀ ys : List Word, ys.length ≤ 1024 → (chunks 32 ys).length ≤ 32 := fun ys hy => chunksAux_length _ _ _ _ (by omega) (by decide)
  have ht : ∀ {α : Type} (a : α) (l : List α), (transposed a l).length = 1024 := fun a l => by simp [transposed]
  unfold quantTile
  dsimp only
  refine ⟨packElems_block f ?_, ?_⟩
  · split
    · exact Nat.le_of_eq (by rw [ht])
    · rw [codes_length, chunks_flatten]; exact h
  · split
    · rw [List.length_map, List.length_map]
      refine hc _ ?_
      split
      · exact Nat.le_of_eq (by rw [ht])
      · exact h
    · exact Nat.zero_le _

/-- Frames one after the other, each with its own parts. -/
theorem Frame.trans' (g : Frame v t u) (h : Frame w s t) : Frame (v ++ w) s u :=
  (g.mono (fun _ hx => List.mem_append_left _ hx)).trans (h.mono (fun _ hx => List.mem_append_right _ hx))

/-! ## Scales and records -/

theorem Within.stScale (h : Within W s t) (hi : i < 32) (hW : ∀ x, InRanges (scaleRange s d a) x → W x) : Within W s (stScale t d a i c) := by
  unfold Machine.stScale
  have hg : segAt t d a = segAt s d a := by simp only [segAt, h.seg]
  rw [hg]
  dsimp only
  split
  · rename_i hh
    refine h.write (fun j hj => hW _ ?_)
    simp only [List.length_singleton] at hj
    unfold scaleRange
    dsimp only
    rw [if_pos hh]
    exact ⟨_, List.mem_singleton.2 rfl, by dsimp only; omega, by dsimp only; omega⟩
  · exact h

theorem Within.stScales (h : Within W s t)
    (hW : ∀ k, k < (cs.length + 31) / 32 → ∀ x, InRanges (scaleRange s d (ma (a + k * blockBytes f))) x → W x) :
    Within W s (stScales t d f a cs) := by
  unfold Machine.stScales
  refine foldl_mem h (fun u p hp hu => hu.stScale (by omega) (hW _ ?_))
  have := List.of_mem_zip hp
  rw [List.mem_range] at this
  omega

/-- The scale codes of one block. -/
theorem Within.blkScales (h : Within W s t) (hl : cs.length ≤ 32) (hW : ∀ x, InRanges (scaleRange s d a) x → W x) :
    Within W s (((List.range cs.length).zip cs).foldl (fun s q => Machine.stScale s d a q.1 q.2) t) := by
  refine foldl_mem h (fun u p hp hu => hu.stScale ?_ hW)
  have := List.of_mem_zip hp
  rw [List.mem_range] at this
  omega

theorem Within.records (h : Within W s t) {α : Type} {xs : List α} {at' : α → Nat} {f : State → α → State}
    (hf : ∀ u a, a ∈ xs → Within W s u → (∀ x, InStore s d [(at' a, 128)] x → W x) → Within W s (f u a))
    (hW : ∀ x, InStore s d (xs.map (fun a => (at' a, 128))) x → W x) : Within W s (xs.foldl f t) :=
  foldl_mem h (fun u a ha hu => hf u a ha hu (fun x hx => hW x (hx.of (List.mem_map.2 ⟨a, ha, rfl⟩))))

/-! ## Items -/

theorem Within.blk (h : Within W s t) : Within W s (t.setBlk b k) := h.keep State.setBlk_frame (Lay.frame State.setBlk_frame)

theorem doRecord_rest (h : MemoryOk s) :
    StoresOnly s (doRecord op b s i it) (s.blk b).dom ((recsOf it).map (fun a => (a, 128))) [] := by
  refine storesOnly_of (guardReads_rest (Within.rest (W := Dest s _ _ _) ?_))
  refine (Within.refl h).records (d := (s.blk b).dom) (at' := id) (fun u a _ hu hW => ?_) (fun x hx => .inl hx)
  split
  · exact hu.modRec hW
  · exact hu.modRec hW

theorem doSurvey_rest (h : MemoryOk s) : StoresOnly s (doSurvey b s i it) (s.blk b).dom [(it.pass.norm, 4)] [] := by
  refine storesOnly_of (guardReads_rest (Within.rest (W := Dest s _ _ _) ?_))
  refine (Within.refl h).boundEvt.stBytes (fun x hx => .inl ?_)
  rw [leBytes_length] at hx
  exact hx

/-- A chain's writes of one output. -/
theorem Within.writeLine {y : State × Adds × Nat} (h : Within W s y.1 ∧ AddsIn W s y.2.1)
    (hm : outMem c l.o = true → (∀ x, InStore s d [(c.outAddr.getD l.o 0, l.blk.bytes.length)] x → W x) ∧
      ∀ k, k < (l.blk.scales.length + 31) / 32 → ∀ x, InRanges (scaleRange s d (ma (c.outAddr.getD l.o 0 + k * blockBytes l.fmt))) x → W x) :
    Within W s (writeLine b d src c y l).1 ∧ AddsIn W s (writeLine b d src c y l).2.1 := by
  unfold Machine.writeLine
  dsimp only
  split
  · exact h
  · rename_i hh
    obtain ⟨h1, h2⟩ := hm (by simpa using hh)
    split
    · exact ⟨h.1, h.2.append (addParts_in h.1 h1)⟩
    · refine ⟨(h.1.stBytes ?_).stScales h2, h.2⟩
      have hl : (lineBytes y.1 d c l).length = l.blk.bytes.length := by
        unfold lineBytes
        dsimp only
        split
        · rfl
        · rename_i hn
          rw [List.length_append, List.length_take, leBytes_length]
          simp only [Bool.or_eq_true, decide_eq_true_eq, not_or] at hn
          omega
      rw [hl]
      exact h1

theorem Within.setSts (h : Within W s t) : Within W s (setSts t b pos v c) := h.keep setSts_frame (Lay.frame setSts_frame)

theorem Within.runChain (h : MemoryOk s) (hW : ∀ x, Dest s d (chainDest s d c) (chainScaleDest s d c) x → W x) :
    Within W s (runChain s b pos d src c tile).st ∧ AddsIn W s (runChain s b pos d src c tile).adds := by
  unfold Machine.runChain
  dsimp only
  have hw := foldl_mem (P := fun y : State × Adds × Nat => Within W s y.1 ∧ AddsIn W s y.2.1)
    (xs := (outsOf c).map (outLine s d c (chainVals s d c (chainCount s d c).1))) (f := Machine.writeLine b d src c)
    (y := (Machine.boundEvt s b (chainMiss s d c (chainCount s d c).1 (chainVals s d c (chainCount s d c).1).cursor), [], 0))
    ⟨(Within.refl h).boundEvt, fun e he => by simp at he⟩ (fun y l hl hy => by
      obtain ⟨o, ho, rfl⟩ := List.mem_map.1 hl
      have hq : (outLine s d c (chainVals s d c (chainCount s d c).1) o).o = o := by
        unfold outLine; dsimp only; split; rfl; split <;> rfl
      refine Within.writeLine hy (fun hm => ?_)
      rw [hq] at hm ⊢
      have hf : o ∈ (outsOf c).filter (outMem c) := List.mem_filter.2 ⟨ho, hm⟩
      refine ⟨fun x hx => hW x (.inl (hx.of ?_)), fun k hk x hx => hW x (.inr (InRanges.of ?_ hx))⟩
      · unfold chainDest; exact List.mem_append_left _ (List.mem_map.2 ⟨o, hf, rfl⟩)
      · intro r hr; unfold chainScaleDest
        exact List.mem_flatMap.2 ⟨o, hf, List.mem_flatMap.2 ⟨k, List.mem_range.2 hk, hr⟩⟩)
  refine ⟨Within.setSts ?_, hw.2⟩
  split
  · exact hw.1
  · rename_i hr
    refine hw.1.stBytes (fun x hx => hW x (.inl (hx.of ?_)))
    unfold chainDest
    dsimp only
    rw [if_neg hr, bytesOf_length]
    exact List.mem_append_right _ (List.mem_singleton.2 rfl)

theorem Within.depositItem (h : Within W s t) (hl : AddsIn W s l) : Within W s (depositItem t b src it l misses) := h.depositAdds hl

theorem Within.chainWork (h : MemoryOk s) (hW : ∀ x, Dest s (s.blk b).dom (chainDest s (s.blk b).dom it.chain) (chainScaleDest s (s.blk b).dom it.chain) x → W x) :
    Rest W s (chainWork b pos i it s) := by
  unfold Machine.chainWork
  have hr := Within.runChain (b := b) (pos := pos) (src := srcOf b pos i) (tile := none) h hW
  dsimp only
  split
  · exact (hr.1.depositItem hr.2).after oweItem_frame
  · exact (hr.1.depositItem hr.2).after (oweItem_frame.after touchItem_frame)

theorem runOnce_rest (hf : Rest W s (f s)) : Rest W s (runOnce s a b c f) := by
  unfold runOnce
  dsimp only
  split
  · exact rest_frame State.setBlk_frame
  · exact hf

theorem rest_after (h : Rest W s t) (g : Frame v t u) (hv : Part.mem ∉ v := by decide) : Rest W s u :=
  fun x hx => (by simp only [State.rd, g.mem hv] : u.rd x = t.rd x).trans (h x hx)

/-- A CHAIN item stores in its outputs, their scale bytes and its results alone. -/
theorem doChain_rest (h : MemoryOk s) : StoresOnly s (doChain b pos p s i it) (s.blk b).dom (chainDest s (s.blk b).dom it.chain)
    (chainScaleDest s (s.blk b).dom it.chain) := by
  refine storesOnly_of (guardReads_rest (guardPhys_rest ?_))
  exact rest_after (rest_after (runOnce_rest (Within.chainWork h (fun _ hx => hx))) applyVecPerf_frame) applyMemEvents_frame

theorem rawBlk_length (i : Bool) (ws : List Word) : (rawBlk i ws).bytes.length = 4 * ws.length ∧ (rawBlk i ws).scales.length = 0 :=
  ⟨bytesOf_length ws, rfl⟩

/-- A drained block goes to its place, and is no larger than it. -/
theorem drainBlk_dest (s : State) (d : Nat) (t : TileDesc) (cab : Word) (p : Place) {acc : List (Word × Sts)} (hl : acc.length ≤ 1024) :
    let x := drainBlk s d t cab (if bit (mapHdr s d t) 63 then 1 else 0) p acc
    x.place = p ∧ x.addr = (drainDest s d t p).1 ∧ x.blk.bytes.length ≤ (drainDest s d t p).2 ∧ x.blk.scales.length ≤ 32 := by
  have hq : ∀ rcp cols, ∀ ys : List (Word × Sts), ys.length ≤ 1024 →
      (quantTile (fO t) rcp cols (ys.map (·.1))).bytes.length ≤ blockBytes (fO t) ∧
          (quantTile (fO t) rcp cols (ys.map (·.1))).scales.length ≤ 32 :=
    fun rcp cols ys hy => quantTile_length _ _ _ (by rwa [List.length_map])
  unfold drainBlk drainDest
  dsimp only
  by_cases h1 : t.drain = 1
  · rw [if_pos h1, if_neg (by omega)]
    refine ⟨rfl, rfl, ?_, ?_⟩
    · dsimp only
      rw [(rawBlk_length _ _).1, List.length_map, if_pos h1]
      omega
    · dsimp only; rw [(rawBlk_length _ _).2]; exact Nat.zero_le _
  · rw [if_neg h1]
    by_cases h2 : t.drain = 2
    · rw [if_pos h2, if_pos h2]
      refine ⟨rfl, ?_, ?_, ?_⟩
      · dsimp only; split <;> simp [*]
      · dsimp only
        rw [(rawBlk_length _ _).1, List.length_map, List.length_map, List.length_zip, List.length_map]
        omega
      · dsimp only; rw [(rawBlk_length _ _).2]; exact Nat.zero_le _
    · rw [if_neg h2, if_neg h2]
      dsimp only
      rw [if_neg h1]
      have := hq (storeRcp s d (ldNat s d t.recAddr 128).1) t.axisO
        ((acc.map (fun x => drainVal (fS t == .int8) cab x.1)).map (fun x => storeSeed s d (ldNat s d t.recAddr 128).1 x.1)) (by simpa using hl)
      exact ⟨rfl, rfl, this.1, this.2⟩

theorem accOf_length (s : State) (d : Nat) (t : TileDesc) (fed : Option OutBlk) (p : Place) : (accOf s d t fed p).length = 1024 := by
  unfold accOf accBlock
  simp

theorem Within.writeDrain {y : State × Adds × Nat} (h : Within W s y.1 ∧ AddsIn W s y.2.1) (hl : x.blk.scales.length ≤ 32)
    (h1 : ∀ z, InStore s d [(x.addr, x.blk.bytes.length)] z → W z) (h2 : ∀ z, InRanges (scaleRange s d x.addr) z → W z) :
    Within W s (writeDrain b d src y x).1 ∧ AddsIn W s (writeDrain b d src y x).2.1 := by
  unfold Machine.writeDrain
  dsimp only
  split
  · exact ⟨h.1, h.2.append (addParts_in h.1 h1)⟩
  · exact ⟨(h.1.stBytes h1).blkScales hl h2, h.2⟩

theorem Within.word (h : Within W s t) {n v : Nat} (hW : ∀ x, InStore s d [(a, n)] x → W x) :
    Within W s (Machine.stBytes t b d src a (leBytes n v)) :=
  h.stBytes (by rw [leBytes_length]; exact hW)

theorem Within.mapIssue (h : Within W s u) (hW : ∀ x, InStore s d [(t.fmapAddr, 8)] x → W x) : Within W s (mapIssue u b d t) :=
  h.boundEvt.word hW

theorem Within.countIf (h : Within W s t) {k : Nat} (c : Bool) (hk : OffLayout k) : Within W s (t.countIf c k) := by
  unfold State.countIf
  split
  · exact h.count _ hk
  · exact h

theorem Within.mapDrain (hu : Within W s u) (h1 : ∀ z, InStore s d [(entryOf t h x.place, 8)] z → W z)
    (h2 : ∀ z, InStore s d [(t.fmapAddr, 8)] z → W z) : Within W s (mapDrain b pos d t h u x) := by
  unfold Machine.mapDrain
  dsimp only
  refine Within.countIf (Within.count ?_ _ (blk_off (by decide))) _ (blk_off (by decide))
  have hw : ∀ c e, Within W s (Machine.stBytes (Machine.boundEvt u b c) b d 0 (entryOf t h x.place) (leBytes 8 e)) :=
      fun _ _ => hu.boundEvt.word h1
  by_cases hb : (bits (ldNat u d (entryOf t h x.place) 8).1 55 48 != bits h 55 48) = true
  · rw [if_pos hb]; exact (hw _ _).word h2
  · rw [if_neg hb]; exact hw _ _

theorem Within.countTile (h : Within W s t) : Within W s (countTile t b pos) := h.keep countTile_frame (Lay.frame countTile_frame)

/-- A tile operation's stores, relative to a state before it with the same translation. -/
theorem Within.runTile (h : Within W s u) (hW : ∀ x, Dest s d (tileDest u d t) (tileScaleDest u d t) x → W x) :
    Within W s (runTile u b pos d src t fed).st ∧ AddsIn W s (runTile u b pos d src t fed).adds := by
  have hs : ∀ a, scaleRange u d a = scaleRange s d a := fun a => by unfold scaleRange segAt; rw [h.seg]
  unfold Machine.runTile
  dsimp only
  generalize hps : tilePlaces t (bits (mapHdr u d t) 47 32) = ps
  generalize hxs : (ps.map (fun p => (p, accOf u d t (fed.map (·.1)) p))).map
    (fun x => drainBlk u d t (cabOf u d t (fed.map (·.2))).1 (if bit (mapHdr u d t) 63 = true then 1 else 0) x.1 x.2) = xs
  have hx : ∀ x ∈ xs, ∃ p ∈ ps, x.place = p ∧ x.addr = (drainDest u d t p).1 ∧ x.blk.bytes.length ≤ (drainDest u d t p).2 ∧
      x.blk.scales.length ≤ 32 := by
    intro x hx
    rw [← hxs, List.map_map] at hx
    obtain ⟨p, hp, rfl⟩ := List.mem_map.1 hx
    refine ⟨p, hp, ?_⟩
    simp only [Function.comp]
    exact drainBlk_dest u d t _ p (Nat.le_of_eq (accOf_length u d t _ p))
  have hr : ∀ r ∈ tileDest u d t, ∀ z, InStore s d [r] z → W z := fun r hr z hz => hW z (.inl (hz.of hr))
  have hb : ∀ p ∈ ps, drainDest u d t p ∈ tileDest u d t := fun p hp => by
    unfold tileDest; dsimp only; rw [hps]
    exact List.mem_append_left _ (List.mem_append_left _ (List.mem_map.2 ⟨p, hp, rfl⟩))
  have hm : t.drain = 2 → (t.fmapAddr, 8) ∈ tileDest u d t := fun h2 => by
    unfold tileDest; dsimp only; rw [if_pos h2]
    exact List.mem_append_left _ (List.mem_append_right _ (List.mem_cons_self ..))
  have he : t.drain = 2 → ∀ p ∈ ps, (entryOf t (mapHdr u d t) p, 8) ∈ tileDest u d t := fun h2 p hp => by
    unfold tileDest; dsimp only; rw [if_pos h2, hps]
    exact List.mem_append_left _ (List.mem_append_right _ (List.mem_cons_of_mem _ (List.mem_map.2 ⟨p, hp, rfl⟩)))
  have hrec : ps.isEmpty = false → (t.recAddr, 128) ∈ tileDest u d t := fun h2 => by
    unfold tileDest; dsimp only; rw [hps, h2]
    exact List.mem_append_right _ (List.mem_singleton.2 rfl)
  have h1 : ∀ n, Within W s (Machine.boundEvt (if ps.isEmpty = true then u else holdArrays u b pos d (bits (mapHdr u d t) 47 32) t
      (ps.map (fun p => (p, accOf u d t (fed.map (·.1)) p)))) b n) := fun n => by
    refine Within.boundEvt ?_
    split
    · exact h
    · exact h.keep holdArrays_frame (Lay.frame holdArrays_frame)
  have h2 : ∀ n, Within W s (if t.drain = 2 then Machine.mapIssue (Machine.boundEvt (if ps.isEmpty = true then u
      else holdArrays u b pos d (bits (mapHdr u d t) 47 32) t (ps.map (fun p => (p, accOf u d t (fed.map (·.1)) p)))) b n) b d t
      else Machine.boundEvt (if ps.isEmpty = true then u
      else holdArrays u b pos d (bits (mapHdr u d t) 47 32) t (ps.map (fun p => (p, accOf u d t (fed.map (·.1)) p)))) b n) := fun n => by
    split
    · rename_i h2; exact (h1 _).mapIssue (hr _ (hm h2))
    · exact h1 _
  have h2 := h2 (tileMiss u d t (fed.map (·.1)).isSome ps + emaMiss u d t (if bit (mapHdr u d t) 63 = true then 1 else 0) ps)
  revert h2
  generalize (if t.drain = 2 then _ else _ : State) = v
  intro h2
  have hw := foldl_mem (P := fun y : State × Adds × Nat => Within W s y.1 ∧ AddsIn W s y.2.1) (xs := xs) (f := Machine.writeDrain b d src)
    (y := (v, [], 0)) ⟨h2, fun e he => by simp at he⟩ (fun y x hxm hy => by
      obtain ⟨p, hp, hpl, ha, hl, hsc⟩ := hx x hxm
      refine Within.writeDrain hy hsc (fun z hz => hr _ (hb p hp) z ?_) (fun z hz => hW z (.inr (InRanges.of ?_ hz)))
      · rw [ha] at hz; exact inStore_sub (Nat.le_refl _) (Nat.add_le_add_left hl _) hz
      · intro r hrr
        unfold tileScaleDest
        rw [hps]
        exact List.mem_flatMap.2 ⟨p, hp, by rw [hs, ← ha]; exact hrr⟩)
  refine ⟨Within.countTile (Within.setSts (Within.setNonfin ?_)), hw.2⟩
  have h3 : Within W s (if t.drain = 2 then xs.foldl (Machine.mapDrain b pos d t (mapHdr u d t)) (xs.foldl (Machine.writeDrain b d src) (v, [],
      0)).1
      else (xs.foldl (Machine.writeDrain b d src) (v, [], 0)).1) := by
    split
    · rename_i h2
      refine foldl_mem hw.1 (fun v x hxm hv => ?_)
      obtain ⟨p, hp, hpl, _⟩ := hx x hxm
      exact hv.mapDrain (by rw [hpl]; exact hr _ (he h2 p hp)) (hr _ (hm h2))
    · exact hw.1
  split
  · exact h3
  · rename_i hne
    refine Within.updRecord h3 (hr _ (hrec ?_))
    have hl : ps.length = xs.length := by rw [← hxs]; simp
    cases hps' : ps with
    | nil => rw [hps'] at hl; cases xs with
      | nil => simp at hne
      | cons _ _ => simp at hl
    | cons _ _ => rfl

theorem Within.touch (h : Within W s t) : Within W s (touchItem t b pos i) := h.keep touchItem_frame (Lay.frame touchItem_frame)

theorem tileWork_rest (h : MemoryOk s) (hW : ∀ x, Dest s (s.blk b).dom (tileDest s (s.blk b).dom it.tile) (tileScaleDest s (s.blk b).dom it.tile) x → W x) :
    Rest W s (tileWork b pos i it s) := by
  unfold Machine.tileWork
  have hr := Within.runTile (b := b) (pos := pos) (src := srcOf b pos i) (fed := none) (Within.refl h) hW
  exact ((hr.1.depositItem hr.2).touch).after oweItem_frame

theorem runTileOnce_rest (hf : Rest W s (f s)) : Rest W s (runTileOnce s a b c f) := by
  unfold runTileOnce
  split
  · exact rest_after (runOnce_rest hf) countTile_frame
  · exact hf

/-- A TILE item stores in its output blocks, their scale bytes, its factor map and its record alone. -/
theorem doTile_rest (h : MemoryOk s) : StoresOnly s (doTile b pos p s i it) (s.blk b).dom (tileDest s (s.blk b).dom it.tile)
    (tileScaleDest s (s.blk b).dom it.tile) := by
  refine storesOnly_of (guardReads_rest (guardPhys_rest ?_))
  exact rest_after (rest_after (runTileOnce_rest (tileWork_rest h (fun _ hx => hx))) applyArrPerf_frame) applyMemEvents_frame

theorem doTileVec_rest (h : MemoryOk s) : StoresOnly s (doTileVec b pos p s i it) (s.blk b).dom
    (chainDest s (s.blk b).dom it.chain ++ tileDest (chainFirst s b pos i it) (s.blk b).dom it.tile)
    (chainScaleDest s (s.blk b).dom it.chain ++ tileScaleDest (chainFirst s b pos i it) (s.blk b).dom it.tile) := by
  refine storesOnly_of (guardReads_rest (guardPhys_rest ?_))
  refine rest_after (rest_after (rest_after (runTileOnce_rest ?_) applyVecPerf_frame) applyArrPerf_frame) applyMemEvents_frame
  unfold tileVecWork
  have hl : ∀ {r1 r2 p1 p2 : List (Nat × Nat)} {d x}, Dest s d r1 p1 x → Dest s d (r1 ++ r2) (p1 ++ p2) x := fun hx => by
    rcases hx with ⟨r, hr, hx⟩ | ⟨r, hr, hx⟩
    · exact .inl ⟨r, List.mem_append_left _ hr, hx⟩
    · exact .inr ⟨r, List.mem_append_left _ hr, hx⟩
  have hrr : ∀ {r1 r2 p1 p2 : List (Nat × Nat)} {d x}, Dest s d r2 p2 x → Dest s d (r1 ++ r2) (p1 ++ p2) x := fun hx => by
    rcases hx with ⟨r, hr, hx⟩ | ⟨r, hr, hx⟩
    · exact .inl ⟨r, List.mem_append_right _ hr, hx⟩
    · exact .inr ⟨r, List.mem_append_right _ hr, hx⟩
  have hc := Within.runChain (b := b) (pos := pos) (src := srcOf b pos i) (tile := some it.tile) (d := (s.blk b).dom) (c := it.chain) h
    (fun x hx => hl (r2 := tileDest (chainFirst s b pos i it) (s.blk b).dom it.tile)
      (p2 := tileScaleDest (chainFirst s b pos i it) (s.blk b).dom it.tile) hx)
  have ht := fun fed => Within.runTile (b := b) (pos := pos) (src := srcOf b pos i) (d := (s.blk b).dom) (t := it.tile) (fed := fed) hc.1
    (fun x hx => hrr hx)
  exact (((ht _).1.depositItem (hc.2.append (ht _).2)).touch).after oweItem_frame

/-! ## The Cutter -/

theorem countEvts_lay (h : Lay s t) (he : ∀ e ∈ es, OffLayout e.1) : Lay s (countEvts t es) :=
  foldl_mem h (fun _ e hm hu => count_lay e.1 e.2 (he e hm) hu)

theorem stsEvts_off (b : Nat) (v : Sts) : ∀ e ∈ stsEvts b v, OffLayout e.1 := by
  intro e he
  unfold stsEvts mlist at he
  obtain ⟨n, hn, rfl⟩ := List.mem_map.1 he
  have := (List.mem_filter.1 hn).1
  rw [List.mem_range] at this
  exact blk_off (by omega)

theorem Within.dirTile (h : Within W s t) (h1 : ∀ z, InStore s d [if two then (ma (p.dout + x.2 * 4096), 4096)
    else (ma (p.dtmp + x.2 * 2048), 2048)] z → W z) : Within W s (dirTile b d src p two cur t x) := by
  unfold Machine.dirTile
  dsimp only
  refine Within.count ?_ _ (blk_off (by decide))
  refine Within.countTile (Within.keep ?_ countEvts_frame (fun l => countEvts_lay l (stsEvts_off b _)))
  refine Within.setSts (Within.setNonfin ?_)
  have h2 : ∀ n x y z, Within W s (Machine.boundEvt (holdDir t n x y z) b n) := fun n x y z =>
    (h.keep holdDir_frame (Lay.frame holdDir_frame)).boundEvt
  have h3 : ∀ l : List (Tblk × Tblk), (accBlock l false false false false []).length = 1024 := fun l => by simp [accBlock]
  cases two with
  | true =>
    simp only [if_true] at h1 ⊢
    refine Within.stBytes (h.keep holdDir_frame (Lay.frame holdDir_frame)).boundEvt (fun z hz => h1 z ?_)
    refine inStore_sub (Nat.le_refl _) (Nat.add_le_add_left ?_ _) hz
    exact Nat.le_of_eq (by rw [(rawBlk_length _ _).1, List.length_map, h3])
  | false =>
    simp only [Bool.false_eq_true, if_false] at h1 ⊢
    refine Within.stBytes (h.keep holdDir_frame (Lay.frame holdDir_frame)).boundEvt (fun z hz => h1 z ?_)
    exact inStore_sub (Nat.le_refl _) (Nat.add_le_add_left
      (Nat.le_trans (quantTile_length _ _ _ (Nat.le_of_eq (by rw [List.length_map, h3]))).1 (by decide)) _) hz

/-- DIR1 and DIR2 store in DTMP and DOUT alone. -/
theorem doDir_rest (h : MemoryOk s) : StoresOnly s (doDir two b perf s i it) (s.blk b).dom (dirDest s b (s.blk b).dom it.pass two) [] := by
  refine storesOnly_of (guardReads_rest ?_)
  refine rest_after (rest_after (Within.rest (W := Dest s (s.blk b).dom (dirDest s b (s.blk b).dom it.pass two) []) ?_) applyArrPerf_frame)
    applyMemEvents_frame
  refine foldl_mem (Within.refl h) (fun u x hx hu => hu.dirTile (fun z hz => .inl (hz.of ?_)))
  exact List.mem_map.2 ⟨x, hx, rfl⟩

theorem spRun_length (dflt : Nat → α) (n k : Nat) (l : Sparse α) : (spRun dflt n k l).length = n := by
  induction n generalizing k l with
  | zero => rfl
  | succ n ih => cases l with
    | nil => simp [spRun, ih]
    | cons e l => obtain ⟨i, v⟩ := e; simp only [spRun]; split <;> simp [ih]

theorem rdBytes_length (s : State) (a n : Nat) : (s.rdBytes a n).length = n := by
  unfold State.rdBytes spGetList
  dsimp only
  split
  · exact spRun_length _ _ _ _
  · rw [List.length_map, List.length_zip, List.length_range, spRun_length, Nat.min_self]

theorem flatLe_length (w : Nat) (l : List Nat) : (l.flatMap (leBytes w)).length = w * l.length := by
  induction l with
  | nil => rfl
  | cons x l ih => rw [List.flatMap_cons, List.length_append, leBytes_length, ih, List.length_cons, Nat.mul_succ, Nat.add_comm]

theorem reel_length (s : State) (a : Nat) : ((chunks 8 (s.rdBytes a 0x20000)).map leNat).length ≤ 16384 := by
  rw [List.length_map]
  exact chunksAux_length 8 _ _ _ (by have h := rdBytes_length s a 0x20000; omega) (by decide)

theorem Within.writeReel (h : Within W s t) (hl : xs.length ≤ 16384) (hW : ∀ z, InRanges [(reelAt e r, 0x20000)] z → W z) :
    Within W s (writeReel t e r xs) := by
  unfold Machine.writeReel
  refine h.write (fun i hi => hW _ ⟨_, List.mem_singleton.2 rfl, Nat.le_add_right _ _, ?_⟩)
  rw [flatLe_length] at hi
  dsimp only
  omega

theorem Within.writeDin (h : Within W s t) (hl : ms.length ≤ 16384) (hW : ∀ z, InStore s d [(ma (p.din + 2 * 16384 * n), 32768)] z → W z) :
    Within W s (writeDin t b d src p n ms) := by
  refine h.stBytes (fun z hz => hW z (inStore_sub (Nat.le_refl _) (Nat.add_le_add_left ?_ _) hz))
  rw [flatLe_length]
  omega

/-- The stage slot that a page is copied aside to. -/
def asideAt (s : State) (page : Nat) : Nat := stageAt s (s.dir page).dom (pageRank s (s.dir page).dom page)

theorem Within.dailyAside (h : Within W s t) (g : Frame v s t) (hv : Part.dirs ∉ v ∧ Part.mgt ∉ v ∧ Part.progs ∉ v) (hd : (s.dir page).dom = d)
    (hW : ∀ z, InStore s d [(asideAt s page, 0x20000)] z → W z) : Within W s (dailyAside t b page) := by
  have h1 : t.dir page = s.dir page := by simp only [State.dir, g.dirs hv.1]
  have h2 : stageAt t (s.dir page).dom (pageRank t (s.dir page).dom page) = asideAt s page := by
    simp only [stageAt, asideAt, pageRank, rankedPages, State.live, State.prog, g.mgt hv.2.1, g.progs hv.2.2]
  unfold Machine.dailyAside
  rw [h1]
  dsimp only
  rw [h2, hd]
  split
  · refine Within.count (Within.keep (h.stBytes ?_) setPageState_frame (Lay.frame setPageState_frame)) _ (key_off (by decide))
    rw [rdBytes_length]
    exact hW
  · exact h

theorem Within.emitPage (h : Within W s t) (g : Frame v s t) (hv : Part.progs ∉ v)
    (h1 : ∀ z, InStore s d (emitDest s d p buf n) z → W z) (h2 : ∀ z, InRanges (emitScaleDest s d p buf n) z → W z) :
    Within W s (emitPage t b d src p buf n ms).1 := by
  have hh : ∀ w, t.hdr d w = s.hdr d w := fun w => by simp only [State.hdr, State.prog, g.progs hv]
  have hr : ∀ e, bufRec t d e = bufRec s d e := fun e => by simp only [bufRec, h.seg]
  unfold Machine.emitPage
  dsimp only
  rw [hh, hr, h.seg]
  generalize hsn : (s.hdr d p.wchdr).seg buf = sn
  have hf : ∀ rcp ws r0, Within W s r0.1 → Within W s ((List.range 16).foldl (emitBlock b d src sn (segFmt (s.seg d sn)) rcp p n ws) r0).1 := by
    intro rcp ws r0 h0
    refine foldl_mem (P := fun y : State × RecAdd => Within W s y.1) h0 (fun y i hi hy => ?_)
    unfold emitBlock
    dsimp only
    have hl : ((ws.drop (1024 * i)).take 1024).length ≤ 1024 := by rw [List.length_take]; exact Nat.min_le_left _ _
    have hq := quantTile_length (segFmt (s.seg d sn)) rcp p.axis hl
    refine Within.blkScales (hy.stBytes (fun z hz => h1 z ?_)) hq.2 (fun z hz => h2 z (InRanges.of ?_ hz))
    · refine (inStore_sub (Nat.le_refl _) (Nat.add_le_add_left hq.1 _) hz).of ?_
      unfold emitDest
      rw [hsn]
      exact List.mem_append_left _ (List.mem_map.2 ⟨i, hi, rfl⟩)
    · intro r hrr
      unfold emitScaleDest
      rw [hsn]
      exact List.mem_flatMap.2 ⟨i, hi, hrr⟩
  split
  · rename_i a ha
    refine Within.updRecord (hf _ _ _ h) (fun z hz => h1 z (hz.of ?_))
    unfold emitDest segRecs
    rw [hsn]
    dsimp only
    rw [ha]
    exact List.mem_append_right _ (List.mem_singleton.2 rfl)
  · exact hf _ _ _ h

theorem Within.emitStep (h : Within W s t) (g : Frame v s t) (hv : Part.progs ∉ v)
    (h1 : ∀ z, InStore s d (emitDest s d p (emitBuf s d p) n) z → W z) (h2 : ∀ z, InRanges (emitScaleDest s d p (emitBuf s d p) n) z → W z) :
    Within W s (emitStep t b d src p n) := by
  have hb : emitBuf t d p = emitBuf s d p := by simp only [emitBuf, State.hdr, State.prog, g.progs hv]
  unfold Machine.emitStep
  refine Within.setNonfin ?_
  rw [hb]
  exact h.emitPage g hv h1 h2

/-- What one page of a layer may store, in the words of `pageDest` and `reelDest`. -/
structure PageIn (W : Nat → Prop) (s : State) (d : Nat) (p : PassDesc) (n : Nat) : Prop where
  ma : ∀ z, InStore s d (pageDest s d p n) z → W z
  pa : ∀ z, InRanges (reelDest s d p n) z → W z

theorem PageIn.din (h : PageIn W s d p n) : ∀ z, InStore s d [(Machine.ma (p.din + 2 * 16384 * n), 32768)] z → W z := fun z hz =>
  h.ma z (hz.of (by simp [pageDest]))

theorem PageIn.aside (h : PageIn W s d p n) : ∀ z, InStore s d [(asideAt s (p.page0 + n), 0x20000)] z → W z := fun z hz =>
  h.ma z (hz.of (by simp [pageDest, asideAt]))

theorem PageIn.emit (h : PageIn W s d p n) : ∀ z, InStore s d (emitDest s d p (emitBuf s d p) n) z → W z := fun z ⟨r, hr, hz⟩ =>
  h.ma z ⟨r, by simp [pageDest, hr], hz⟩

theorem PageIn.reel (h : PageIn W s d p n) : ∀ z, InRanges [(reelAt (s.dir (p.page0 + n)) (s.dir (p.page0 + n)).other, 0x20000)] z → W z :=
  fun z hz => h.pa z (InRanges.of (by simp [reelDest]) hz)

theorem PageIn.scales (h : PageIn W s d p n) : ∀ z, InRanges (emitScaleDest s d p (emitBuf s d p) n) z → W z :=
  fun z hz => h.pa z (InRanges.of (fun r hr => by simp [reelDest, hr]) hz)

theorem Within.finishPage (h : Within W s t) (g : Frame v s t) (hv : Part.dirs ∉ v ∧ Part.mgt ∉ v ∧ Part.progs ∉ v)
    (hd : (s.dir (p.page0 + n)).dom = d) (hW : PageIn W s d p n) : Within W s (finishPage t b d p n) := by
  have h1 : t.dir (p.page0 + n) = s.dir (p.page0 + n) := by simp only [State.dir, g.dirs hv.1]
  unfold Machine.finishPage
  dsimp only
  refine Within.countIf (Within.setNonfin ?_) _ (blk_off (by decide))
  rw [h1]
  refine Within.writeReel (Within.dailyAside h.boundEvt (boundEvt_frame.trans' g) ?_ hd hW.aside) ?_ hW.reel
  · exact ⟨by simp [hv.1], by simp [hv.2.1], by simp [hv.2.2]⟩
  · rw [List.length_map, List.length_zip, List.length_map]
    exact Nat.le_trans (Nat.min_le_left _ _) (reel_length t _)

/-! ## The pass that runs -/

/-- What a block's run is taken from: its pass, its domain, its list set. -/
def runOf (k : Blk) : Option Pass × Nat × Nat := (k.pass, k.dom, k.lset)

/-- They are the same in every block. -/
def Ran (s t : State) : Prop := ∀ c, runOf (t.blk c) = runOf (s.blk c)

theorem Ran.refl (s : State) : Ran s s := fun _ => rfl

theorem Ran.frame (h : Ran s t) (g : Frame v t u) (hv : Part.blks ∉ v := by decide) : Ran s u := fun c =>
  (by rw [g.get_blk hv] : runOf (u.blk c) = runOf (t.blk c)).trans (h c)

theorem Ran.setBlk (h : Ran s t) (hk : runOf k = runOf (t.blk b)) : Ran s (t.setBlk b k) := fun c => by
  rw [setBlk_blk]
  split
  · rename_i e; subst e; rw [hk]; exact h c
  · exact h c

theorem Ran.boundEvt (h : Ran s t) : Ran s (boundEvt t b n) := by
  unfold Machine.boundEvt
  split
  · exact h
  · exact (h.setBlk (k := { t.blk b with nonfin := true }) rfl).frame State.count_frame

theorem Ran.setNonfin (h : Ran s t) : Ran s (setNonfin t b c) := by
  unfold Machine.setNonfin
  split
  · exact h.setBlk rfl
  · exact h

theorem Ran.anomaly (h : Ran s t) : Ran s (anomaly t ky) := (h.setBlk (k := { t.blk _ with nonfin := true }) rfl).frame State.count_frame

theorem Ran.countDeposit (h : Ran s t) : Ran s (countDeposit t e) := by
  unfold Machine.countDeposit
  split
  · unfold Machine.depositDone
    split
    · exact h
    · extract_lets k s0 s1
      have h1 : Ran s s1 := h.setBlk (k := { t.blk k with wdt := 0 }) rfl
      split
      · exact h1.setBlk rfl
      · exact h1
  · exact h

theorem Ran.onBound (h : Ran s t) : Ran s (onBound t b e) := by
  have ho : ∀ {u : State}, Ran s u → Ran s (slotOps u e.key e.ops) := fun hu => hu.frame slotOps_frame
  unfold Machine.onBound
  split
  · exact ho h
  · split
    · split
      · split
        · exact h.anomaly
        · exact h
      · refine Ran.countDeposit ?_
        split
        · exact (ho h).anomaly
        · exact ho h
    · split
      · refine Ran.countDeposit (ho (Ran.frame ?_ State.count_frame))
        exact Ran.setBlk (t := zeroRange t _ _) h rfl
      · split
        · exact h.frame State.count_frame
        · exact h

theorem Ran.slotWrite (h : Ran s t) : Ran s (slotWrite t e) := by
  have hold : ∀ {u : State} (x : Held), Ran s u → Ran s (holdSlot u x) := fun _ hu => hu
  unfold Machine.slotWrite
  split
  · exact hold _ h
  · split
    · exact h.onBound
    · extract_lets cell tag nb
      split
      · exact hold _ h
      · split
        · exact Ran.countDeposit (Ran.frame (t := t.setBind _ _) h slotOps_frame)
        · exact Ran.frame (hold _ (Ran.frame (t := t.setBind _ _) h State.count_frame)) markSpl_frame

theorem Ran.stBytes (h : Ran s t) : Ran s (stBytes t b d src a bs) := by
  unfold Machine.stBytes
  refine foldl_mem h (fun u p _ hu => ?_)
  unfold Machine.stLine
  split
  · exact hu.boundEvt
  · exact hu
  · exact hu.slotWrite

theorem Ran.updRecord (h : Ran s t) : Ran s (updRecord t b d a f u) := by
  unfold Machine.updRecord Machine.modRec
  exact h.boundEvt.stBytes

theorem Ran.dailyAside (h : Ran s t) : Ran s (dailyAside t b page) := by
  unfold Machine.dailyAside
  dsimp only
  split
  · exact (h.stBytes.frame setPageState_frame).frame State.count_frame
  · exact h

theorem Ran.emitStep (h : Ran s t) : Ran s (emitStep t b d src p n) := by
  unfold Machine.emitStep
  refine Ran.setNonfin ?_
  unfold emitPage
  dsimp only
  generalize hr0 : (t, ({ amax := 0, cnt := 0, kind := 0, at? := none } : RecAdd)) = r0
  have h0 : Ran s r0.1 := by rw [← hr0]; exact h
  have hf : ∀ a1 a2 a3 a4, Ran s ((List.range 16).foldl (emitBlock b d src a1 a2 a3 p n a4) r0).1 := fun a1 a2 a3 a4 => by
    refine foldl_mem (P := fun y : State × RecAdd => Ran s y.1) h0 (fun y i _ hy => ?_)
    unfold emitBlock
    dsimp only
    exact foldl_mem hy.stBytes (fun v q _ hv => hv.frame stScale_frame)
  split
  · exact (hf _ _ _ _).updRecord
  · exact hf _ _ _ _

theorem Ran.finishPage (h : Ran s t) : Ran s (finishPage t b d p n) := by
  unfold Machine.finishPage
  dsimp only
  exact ((h.boundEvt.dailyAside.frame writeReel_frame).setNonfin).frame State.countIf_frame

/-- What one page of FINISH stores, and that the block goes on with the same pass. -/
theorem Within.finishSlot (h : Within W s t) (g : Frame v s t) (hv : Part.dirs ∉ v ∧ Part.mgt ∉ v ∧ Part.progs ∉ v) (hc : t.back.poison = [])
    (hp : passNow t b = some (q, p)) (hm : (t.blk b).dom = d) (hd : (s.dir (p.page0 + n)).dom = d) (hW : PageIn W s d p n) :
    Within W s (finishSlot b t n) ∧ ∃ q', passNow (finishSlot b t n) b = some (q', p) ∧ ((finishSlot b t n).blk b).dom = d := by
  have keep : ∀ {u : State} {v' : List Part} (q' : Pass), q'.idx = q.idx → Frame v' t u → Part.progs ∉ v' → Ran (setPass t b (some q')) u →
      passNow u b = some (q', p) ∧ (u.blk b).dom = d := by
    intro u v' q' hi gu hpv hr
    have h1 := hr b
    have h2 : runOf ((setPass t b (some q')).blk b) = (some q', d, (t.blk b).lset) := by
      unfold setPass runOf; rw [setBlk_blk_same]; dsimp only; rw [hm]
    rw [h2] at h1
    have e1 : (u.blk b).pass = some q' := congrArg (·.1) h1
    have e2 : (u.blk b).dom = d := congrArg (·.2.1) h1
    have e3 : (u.blk b).lset = (t.blk b).lset := congrArg (·.2.2) h1
    refine ⟨?_, e2⟩
    unfold passNow at hp ⊢
    rw [e1]
    cases hq : (t.blk b).pass with
    | none => rw [hq] at hp; cases hp
    | some q0 =>
      rw [hq] at hp
      dsimp only at hp ⊢
      have hl : listOf u b 16 = listOf t b 16 := by simp only [listOf, State.prog, gu.progs hpv, e2, e3, hm]
      rw [hl]
      cases hx : (listOf t b 16)[q0.idx]? with
      | none => rw [hx] at hp; cases hp
      | some it =>
        rw [hx] at hp
        simp only [Option.map_some, Option.some.injEq, Prod.mk.injEq] at hp
        rw [hi, ← hp.1, hx]
        simp [hp.2]
  have hn : finishPoison t (t.blk b).dom p n = none := by simp [finishPoison, physHit, poisonHit, hc]
  have hp0 : ∀ q', Within W s (setPass t b (some q')) := fun q' => h.keep setPass_frame (Lay.frame setPass_frame)
  unfold Machine.finishSlot
  rw [hp]
  dsimp only
  rw [hn, hm]
  dsimp only
  split
  · exact ⟨h, q, hp, hm⟩
  · split
    · have := keep (v' := [.blks]) { q with wait := 2 } rfl setPass_frame (by decide) (Ran.refl _)
      exact ⟨hp0 _, _, this⟩
    · split
      · have := keep (v' := [.blks]) { q with wait := 4 } rfl setPass_frame (by decide) (Ran.refl _)
        exact ⟨hp0 _, _, this⟩
      · have h1 : Within W s (if (t.dir (p.page0 + n)).frozen = true then t else Machine.finishPage t b d p n) := by
          split
          · exact h
          · exact h.finishPage g hv hd hW
        have g1 : Frame [.ro, .ctxs, .blks, .mem, .binds, .back, .days] t (if (t.dir (p.page0 + n)).frozen = true then t
            else Machine.finishPage t b d p n) := frame_ite (Frame.refl _ _) finishPage_frame
        have r1 : Ran t (if (t.dir (p.page0 + n)).frozen = true then t else Machine.finishPage t b d p n) := by
          split
          · exact Ran.refl _
          · exact (Ran.refl t).finishPage
        revert h1 g1 r1
        generalize (if (t.dir (p.page0 + n)).frozen = true then t else Machine.finishPage t b d p n) = t1
        intro h1 g1 r1
        have r2 : ∀ q', Ran (setPass t b (some q')) (setPass t1 b (some q')) := fun q' c => by
          unfold setPass
          rw [setBlk_blk, setBlk_blk]
          have := r1 b
          unfold runOf at this ⊢
          split
          · simp only [Prod.mk.injEq] at this ⊢; exact ⟨trivial, this.2⟩
          · exact r1 c
        have w2 : ∀ q', Within W s (setPass t1 b (some q')) := fun q' => h1.keep setPass_frame (Lay.frame setPass_frame)
        split
        · have := keep { q with taken := q.taken ++ [n], wait := 3 } rfl (setPass_frame.trans' g1) (by decide) (r2 _)
          exact ⟨w2 _, _, this⟩
        · refine ⟨(w2 _).emitStep (setPass_frame.trans' (g1.trans' g)) ?_ hW.emit hW.scales, _,
            keep { q with taken := q.taken ++ [n] } rfl (emitStep_frame.trans' (setPass_frame.trans' g1)) (by decide) (r2 _).emitStep⟩
          simp [hv.2.2]

/-- FINISH stores, for each page of its layer in the block, in what `pageDest` and `reelDest` name (R220, R222). -/
theorem finishRun_rest (h : MemoryOk s) (hc : s.back.poison = []) (hp : passNow s b = some (q, p))
    (hd : ∀ n ∈ blkSlots s b (s.blk b).dom p, (s.dir (p.page0 + n)).dom = (s.blk b).dom) :
    StoresOnly s (finishRun s b) (s.blk b).dom ((blkSlots s b (s.blk b).dom p).flatMap (pageDest s (s.blk b).dom p))
      ((blkSlots s b (s.blk b).dom p).flatMap (reelDest s (s.blk b).dom p)) := by
  refine storesOnly_of ?_
  unfold finishRun
  rw [hp]
  dsimp only
  refine rest_after ?_ passEnd_frame
  generalize hl : blkSlots s b (s.blk b).dom p = l at hd ⊢
  have hw := foldl_mem (P := fun u => Within (Dest s (s.blk b).dom (l.flatMap (pageDest s (s.blk b).dom p)) (l.flatMap (reelDest s (s.blk b).dom p)))
      s u ∧ Frame [.ro, .log, .head, .clap, .regs, .ctxs, .steps, .blks, .mem, .binds, .back, .grds, .fab, .days] s u ∧
      ∃ q', passNow u b = some (q', p) ∧ (u.blk b).dom = (s.blk b).dom) (xs := l) (f := finishSlot b) (y := s)
    ⟨Within.refl h, Frame.refl _ _, q, hp, rfl⟩ (fun u n hn hu => by
      obtain ⟨h1, h2, q', h3, h4⟩ := hu
      have := h1.finishSlot (n := n) h2 (by decide) (h1.clean hc) h3 h4 (hd n hn)
        ⟨fun z ⟨r, hr, hz⟩ => .inl ⟨r, List.mem_flatMap.2 ⟨n, hn, hr⟩, hz⟩,
          fun z ⟨r, hr, hz⟩ => .inr ⟨r, List.mem_flatMap.2 ⟨n, hn, hr⟩, hz⟩⟩
      exact ⟨this.1, finishSlot_frame.trans h2, this.2⟩)
  exact hw.1.rest

/-- One page of a PASS. -/
theorem passPage_rest (h : Within W s t) (g : Frame v s t) (hv : Part.dirs ∉ v ∧ Part.mgt ∉ v ∧ Part.progs ∉ v)
    (hd : (s.dir (p.page0 + n)).dom = d) (hW : PageIn W s d p n) : Within W s (passPage t b d src q p n xs) := by
  have h1 : t.dir (p.page0 + n) = s.dir (p.page0 + n) := by simp only [State.dir, g.dirs hv.1]
  have hl : ∀ f : Word × Nat → Nat, (((wordsOf xs).zip (readCommitted t b (p.page0 + n))).map f).length ≤ 16384 := fun f => by
    rw [List.length_map, List.length_zip]
    exact Nat.le_trans (Nat.min_le_right _ _) (reel_length t _)
  unfold passPage
  dsimp only
  rw [h1]
  refine Within.count (Within.keep ?_ State.setDir_frame (Lay.frame State.setDir_frame)) _ (blk_off (by decide))
  have h2 : Within W s (writeReel ((Machine.dailyAside t b (p.page0 + n)).setBlk b
      { (Machine.dailyAside t b (p.page0 + n)).blk b with norm := sumSq ((Machine.dailyAside t b (p.page0 + n)).blk b).norm (gradVals t d xs) })
      (s.dir (p.page0 + n)) (s.dir (p.page0 + n)).other (((wordsOf xs).zip (readCommitted t b (p.page0 + n))).map (fun x =>
        passRec (passRule q p) (hyper t d (b / 6) p.hpset) (sgOf t d q.ct (conservative t d (b / 6))) x.1 x.2))) :=
    (Within.blk (h.dailyAside g hv hd hW.aside)).writeReel (hl _) hW.reel
  split
  · refine h2.setNonfin.writeDin ?_ hW.din
    rw [List.length_map]
    exact hl _
  · exact h2.setNonfin

theorem consumeSlot_wf (h : MemoryOk s) : MemoryOk (consumeSlot s ky).2 := by
  unfold consumeSlot
  split
  · exact h
  · exact spFilter_wf _ h

theorem passFrozen_rest (h : Within W s t) (hW : PageIn W s d p n) : Within W s (passFrozen t b d src q p n) := by
  unfold passFrozen
  dsimp only
  refine Within.count ?_ _ (blk_off (by decide))
  split
  · exact h.writeDin (Nat.le_of_eq (by rw [List.length_replicate])) hW.din
  · exact h

theorem Within.passEmit (h : Within W s t) (g : Frame v s t) (hv : Part.progs ∉ v) (hW : PageIn W s d p n) :
    Within W s (passEmit t b d src q p n) := by
  unfold Machine.passEmit
  split
  · exact h
  · split
    · exact h.keep setPass_frame (Lay.frame setPass_frame)
    · exact h.emitStep g hv hW.emit hW.scales

/-- A slot taken: it is zeroed where it was bound; the rest is stored in what `pageDest` and `reelDest` name (R224). -/
theorem takeSlot_rest (h : MemoryOk s) (hb : pageBlocked s b (p.page0 + slotNo p k) = 0) (hd : (s.dir (p.page0 + slotNo p k)).dom = (s.blk b).dom) :
    let u := (consumeSlot s k).2
    StoresOnly u (takeSlot s b q p k) (s.blk b).dom (pageDest u (s.blk b).dom p (slotNo p k)) (reelDest u (s.blk b).dom p (slotNo p k)) := by
  intro u
  have hu : MemoryOk u := consumeSlot_wf h
  have gu : Frame [.blks, .mem, .binds, .back] s u := consumeSlot_frame
  have hdu : (u.dir (p.page0 + slotNo p k)).dom = (s.blk b).dom := by simp only [State.dir, gu.dirs (by decide)]; exact hd
  refine storesOnly_of ?_
  generalize hd1 : pageDest u (s.blk b).dom p (slotNo p k) = r1
  generalize hd2 : reelDest u (s.blk b).dom p (slotNo p k) = r2
  have hW : PageIn (Dest u (s.blk b).dom r1 r2) u (s.blk b).dom p (slotNo p k) :=
    ⟨fun z hz => .inl (by rwa [← hd1]), fun z hz => .inr (by rwa [← hd2])⟩
  unfold takeSlot
  dsimp only
  rw [hb]
  simp only [ne_eq, not_true_eq_false, if_false]
  refine rest_after ?_ passEnd_frame
  have g1 : ∀ k', Frame [.blks] u (u.setBlk b k') := fun _ => State.setBlk_frame
  have w1 : ∀ k', Within (Dest u (s.blk b).dom r1 r2) u (u.setBlk b k') := fun _ => (Within.refl hu).blk
  generalize hs2 : (if (s.dir (p.page0 + slotNo p k)).frozen = true then _ else _ : State) = s2
  have w2 : Within (Dest u (s.blk b).dom r1 r2) u s2 ∧ Frame [.ro, .ctxs, .blks, .mem, .dirs, .binds, .back, .days] u s2 := by
    rw [← hs2]
    split
    · exact ⟨passFrozen_rest (w1 _) hW, passFrozen_frame.after ((g1 _).mono (by decide))⟩
    · exact ⟨passPage_rest (w1 _) (g1 _) (by decide) hdu hW, passPage_frame.after ((g1 _).mono (by decide))⟩
  generalize hk : ({ s2.blk b with staged := (s2.blk b).staged.filter (fun x => x.2 != p.page0 + slotNo p k) } : Blk) = k'
  have w3 : Within (Dest u (s.blk b).dom r1 r2) u (s2.setBlk b k') := w2.1.blk
  have g3 : Frame [.ro, .ctxs, .blks, .mem, .dirs, .binds, .back, .days] u (s2.setBlk b k') := State.setBlk_frame.after w2.2
  generalize s2.setBlk b k' = s3 at w3 g3
  have w4 : Within (Dest u (s.blk b).dom r1 r2) u (if (s.dir (p.page0 + slotNo p k)).tier = true then markSpl s3 (s.blk b).dom else s3) := by
    split
    · exact w3.keep markSpl_frame (Lay.frame markSpl_frame)
    · exact w3
  have g4 : Frame [.ro, .ctxs, .blks, .mem, .dirs, .binds, .back, .days] u
      (if (s.dir (p.page0 + slotNo p k)).tier = true then markSpl s3 (s.blk b).dom else s3) := frame_ite (markSpl_frame.after g3) g3
  generalize (if (s.dir (p.page0 + slotNo p k)).tier = true then markSpl s3 (s.blk b).dom else s3) = s4 at w4 g4
  exact (w4.passEmit g4 (by decide) hW).rest

/-! ## What a chain owes, the Graders, packets -/

/-- What a chain owes at its end: its records and its count word (R114). -/
theorem payOwed_rest (h : MemoryOk s) : StoresOnly s (payOwed s b d o) d (o.recs.map (fun r => (r.1, 128)) ++ o.cnt.toList.map (fun c => (c.1,
    4))) [] := by
  refine storesOnly_of (Within.rest (W := Dest s d _ []) ?_)
  have hr : Within (Dest s d (o.recs.map (fun r => (r.1, 128)) ++ o.cnt.toList.map (fun c => (c.1, 4))) []) s
      (setNonfin (o.recs.foldl (fun s r => updRecord s b d r.1 r.2.1 r.2.2) s) b o.nonfin) :=
    Within.setNonfin (foldl_mem (Within.refl h) (fun u r hr hu => hu.updRecord (fun x hx => .inl (hx.of
      (List.mem_append_left _ (List.mem_map.2 ⟨r, hr, rfl⟩))))))
  unfold payOwed
  dsimp only
  split
  · rename_i c hc
    rw [hc] at hr ⊢
    exact hr.word (fun x hx => .inl (hx.of (List.mem_append_right _ (by simp))))
  · rename_i hc
    rw [hc] at hr ⊢
    exact hr

theorem ldLine_len {l : List Byte} (h : ldLine s d a = some l) : l.length = 64 := by
  unfold ldLine at h
  split at h
  · cases h
  · cases h
    exact rdBytes_length _ _ _
  · cases h
    split
    · unfold slotRd
      split
      · simp [fill]
      · exact rdBytes_length _ _ _
    · simp [fill]

theorem lines_length (s : State) (d : Nat) :
    ∀ ls : List Nat, ((ls.map (ldLine s d)).flatMap (fun l => l.getD (fill 64 0))).length = 64 * ls.length
  | [] => rfl
  | a :: ls => by
    have h : ((ldLine s d a).getD (fill 64 0)).length = 64 := by
      cases e : ldLine s d a with
      | none => simp [fill]
      | some l => exact ldLine_len e
    rw [List.map_cons, List.flatMap_cons, List.length_append, lines_length s d ls, List.length_cons, h]
    omega

/-- A read of `n` bytes answers `n` bytes, zeros from lines not performed. -/
theorem ldBytes_length (s : State) (d a n : Nat) : (ldBytes s d a n).1.length = n := by
  unfold ldBytes
  dsimp only
  rw [List.length_take, List.length_drop, lines_length]
  unfold linesOf
  split
  · omega
  · rw [List.length_map, List.length_range]
    omega

theorem Within.upTo (h : Within W s t) (hl : bs.length ≤ n) (hW : ∀ x, InStore s d [(a, n)] x → W x) :
    Within W s (Machine.stBytes t b d src a bs) :=
  h.stBytes (fun x hx => hW x (inStore_sub (Nat.le_refl _) (Nat.add_le_add_left hl _) hx))

theorem Within.feedTile (h : Within W s t)
    (hA : ∀ z, InStore s d [(ma (entMirror x.2.1 + (x.2.2.1 * entNB x.2.1 + x.2.2.2) * 4096), 4096)] z → W z)
    (hB : ∀ z, InStore s d [(ma (entMirror x.2.1 + (x.2.2.2 * entNB x.2.1 + x.2.2.1) * 4096), 4096)] z → W z)
    (hC : ∀ z, InStore s d [(tileEntry x.2.1 x.2.2, 8)] z → W z) : Within W s (feedTile reg d torn drifts t x) := by
  have hT : ∀ bs, (tileTrans bs).length ≤ 4096 := fun bs => by unfold tileTrans; rw [bytesOf_length]; simp [transposed]
  unfold Machine.feedTile
  dsimp only
  split
  · exact h
  · have h1 := h.upTo (b := faultBlk t d) (src := 0) (Nat.le_of_eq (ldBytes_length t d (ma (entCopy x.2.1 (b2n (bit (ldNat t d (entFmap x.2.1) 8).1 63)) +
      (x.2.2.1 * entNB x.2.1 + x.2.2.2) * 4096)) 4096)) hA
    have h4 : Within W s (if x.2.2.1 = x.2.2.2 then Machine.stBytes t (faultBlk t d) d 0 (ma (entMirror x.2.1 + (x.2.2.1 * entNB x.2.1 + x.2.2.2) * 4096))
          (ldBytes t d (ma (entCopy x.2.1 (b2n (bit (ldNat t d (entFmap x.2.1) 8).1 63)) + (x.2.2.1 * entNB x.2.1 + x.2.2.2) * 4096)) 4096).1
        else Machine.stBytes (Machine.stBytes t (faultBlk t d) d 0 (ma (entMirror x.2.1 + (x.2.2.1 * entNB x.2.1 + x.2.2.2) * 4096))
          (ldBytes t d (ma (entCopy x.2.1 (b2n (bit (ldNat t d (entFmap x.2.1) 8).1 63)) + (x.2.2.1 * entNB x.2.1 + x.2.2.2) * 4096)) 4096).1)
          (faultBlk t d) d 0 (ma (entMirror x.2.1 + (x.2.2.2 * entNB x.2.1 + x.2.2.1) * 4096)) (tileTrans
          (ldBytes t d (ma (entCopy x.2.1 (b2n (bit (ldNat t d (entFmap x.2.1) 8).1 63)) + (x.2.2.1 * entNB x.2.1 + x.2.2.2) * 4096)) 4096).1)) := by
      split
      · exact h1
      · exact h1.upTo (hT _) hB
    split
    · exact (h4.count _ (key_off (by decide))).count _ (key_off (by decide))
    · exact (h4.count _ (key_off (by decide))).word hC

/-- A feed stores both mirror tiles and the entry of each upper tile (R187). -/
theorem feedSlot_rest (h : MemoryOk s) : StoresOnly s (feedSlot reg torn s x) x.dom (feedDest x) [] := by
  refine storesOnly_of (Within.rest (W := Dest s x.dom (feedDest x) []) ?_)
  have hm : ∀ r, ∀ y ∈ (List.range (feedTiles x.prob).length).zip (feedTiles x.prob),
      r ∈ [(ma (entMirror y.2.1 + (y.2.2.1 * entNB y.2.1 + y.2.2.2) * 4096), 4096),
      (ma (entMirror y.2.1 + (y.2.2.2 * entNB y.2.1 + y.2.2.1) * 4096), 4096), (tileEntry y.2.1 y.2.2, 8)] → r ∈ feedDest x := fun r y hy hr =>
    List.mem_flatMap.2 ⟨y.2, (List.of_mem_zip hy).2, hr⟩
  unfold feedSlot
  refine foldl_mem (Within.refl h) (fun u y hy hu =>
    hu.feedTile (fun z hz => .inl (hz.of (hm _ y hy (.head _)))) (fun z hz => .inl (hz.of (hm _ y hy (.tail _ (.head _)))))
      (fun z hz => .inl (hz.of (hm _ y hy (.tail _ (.tail _ (.head _)))))))

theorem Within.feedStart (h : Within W s t) (hW : ∀ z, InStore s x.dom [(x.prob.rhdr, 64)] z → W z) : Within W s (feedStart t r n x) :=
  (h.word hW).keep State.setGrd_frame (Lay.frame State.setGrd_frame)

/-- A solve's end stores nothing but the header, where a held feed starts. -/
theorem Within.solveEnd (h : Within W s t) (hW : x.feedHeld = true → ∀ z, InStore s x.dom [(x.prob.rhdr, 64)] z → W z) :
    Within W s (solveEnd t r n x p) := by
  have h2 : Within W s (setSlot (t.setGrd r { t.grd r with run := none }) r n { x with pub := some p }) :=
    (h.keep State.setGrd_frame (Lay.frame State.setGrd_frame)).keep setSlot_frame (Lay.frame setSlot_frame)
  have hs : ∀ (u : State) (w : GSlot), spFind ((setSlot u r n w).grd r).slots n = some w := fun u w => by
    unfold setSlot
    rw [setGrd_grd_same]
    exact spFind_put_same _ _ _
  have e2 := hs (t.setGrd r { t.grd r with run := none }) { x with pub := some p }
  unfold Machine.solveEnd
  dsimp only
  generalize setSlot (t.setGrd r { t.grd r with run := none }) r n { x with pub := some p } = s2 at h2 e2 ⊢
  by_cases ha : x.again = true
  · rw [if_pos ha]
    have h3 : Within W s (solveAccept s2 r n { x with pub := some p }) := h2.keep solveAccept_frame (Lay.frame solveAccept_frame)
    have e3 : spFind ((solveAccept s2 r n { x with pub := some p }).grd r).slots n =
      some { x with pub := some p, queued := some (s2.evt, s2.ticks), commits := 0, again := false } := hs s2 _
    rw [e3]
    split
    · rename_i hf
      exact h3.feedStart (hW hf)
    · exact h3
  · rw [if_neg ha, e2]
    split
    · rename_i hf
      exact h2.feedStart (hW hf)
    · exact h2

theorem solveFinish_rest (h : MemoryOk s) : StoresOnly s (solveFinish s r n x news dropped carry dl) x.dom (solveDest s x news carry) [] := by
  refine storesOnly_of (Within.rest (W := Dest s x.dom (solveDest s x news carry) []) ?_)
  have hd : x.feedHeld = true → ∀ z, InStore s x.dom [(x.prob.rhdr, 64)] z → Dest s x.dom (solveDest s x news carry) [] z := fun hf z hz =>
    .inl (hz.of (by unfold solveDest; dsimp only; rw [if_pos hf]; simp))
  have hc : Within (Dest s x.dom (solveDest s x news carry) []) s (countBlocks s r (news.map (·.2) ++ dropped)) := by
    unfold countBlocks
    exact (((Within.refl h).count _ (key_off (by decide))).count _ (key_off (by decide))).count _ (key_off (by decide))
  unfold solveFinish
  dsimp only
  split
  · exact (hc.count _ (key_off (by decide))).solveEnd hd
  · refine Within.solveEnd (Within.count ?_ _ (key_off (by decide))) hd
    have hn := foldl_mem (P := fun y : State × List Fig => Within (Dest s x.dom (solveDest s x news carry) []) s y.1) (xs := news)
      (f := writeResult x.dom (b2n (bit (slotHdr s x) 510)) x.prob) (y := (countBlocks s r (news.map (·.2) ++ dropped),
          [])) hc (fun y o ho hy => by
        unfold writeResult
        refine hy.stBytes (fun z hz => .inl (hz.of ?_))
        unfold solveDest
        exact List.mem_append_left _ (List.mem_append_left _ (List.mem_map.2 ⟨o, ho, rfl⟩)))
    have hk := foldl_mem (P := fun y : State => Within (Dest s x.dom (solveDest s x news carry) []) s y) (xs := carry)
      (f := carryBlock x.dom (b2n (bit (slotHdr s x) 510)) x.prob) (y := _) hn (fun y e he hy => by
        unfold carryBlock
        refine hy.upTo (Nat.le_of_eq (ldBytes_length _ _ _ _)) (fun z hz => .inl (hz.of ?_))
        unfold solveDest
        exact List.mem_append_left _ (List.mem_append_right _ (List.mem_map.2 ⟨e, he, rfl⟩)))
    exact hk.keep largestResid_frame (Lay.frame largestResid_frame)

/-- A Grader request stores the header of the slot alone, where a feed starts (R185 to R187). -/
theorem grdRequest_rest (h : MemoryOk s) (hp : problemAt s d l = some p) (hs : slotAt s p.greg d l = some (n, x)) :
    StoresOnly s (grdRequest s d l op) d [(x.prob.rhdr, 64)] [] := by
  refine storesOnly_of ?_
  have hx : x.dom = d := by
    have := List.find?_some hs
    simp only [Bool.and_eq_true, beq_iff_eq] at this
    exact this.1
  have hf : Within (Dest s d [(x.prob.rhdr, 64)] []) s (reqFeed s p.greg n x) := by
    unfold reqFeed
    split
    · exact (Within.refl h).keep setSlot_frame (Lay.frame setSlot_frame)
    · split
      · exact (Within.refl h).count _ (key_off (by decide))
      · exact (Within.refl h).feedStart (fun z hz => .inl (by rwa [hx] at hz))
  have hq : ∀ {u : State} (y : GSlot), Frame [.evt, .ro, .grds] u (reqSolve u p.greg n y) := fun y => by
    unfold reqSolve
    exact frame_ite (setSlot_frame.mono (by decide)) (frame_ite (State.count_frame.mono (by decide)) (solveAccept_frame.mono (by decide)))
  unfold grdRequest
  rw [hp]
  dsimp only
  split
  · exact rest_frame State.count_frame
  · rw [hs]
    dsimp only
    split
    · exact hf.rest
    · split
      · exact rest_frame (hq x)
      · split
        · exact rest_after hf.rest (hq _)
        · exact rest_frame setSlot_frame

theorem performPacket_rest (h : MemoryOk s) : StoresOnly s (performPacket s k) k.dom [(k.addr, k.data.length)] [] := by
  refine storesOnly_of ?_
  have h1 : Rest (Dest s k.dom [(k.addr, k.data.length)] []) s (if k.ty = 0x01 then stBytes s (faultBlk s k.dom) k.dom (transferSrc k) k.addr k.data
      else if k.ty = 0x02 then fabricAdds s k.dom (transferSrc k) k.step k.dexp k.addr k.slotLast k.data else s) := by
    split
    · exact ((Within.refl h).stBytes (fun z hz => .inl hz)).rest
    · split
      · unfold fabricAdds
        exact guardReads_rest ((Within.refl h).depositAdds (addParts_in (Within.refl h) (fun z hz => .inl hz))).rest
      · exact fun _ _ => rfl
  unfold performPacket
  dsimp only
  refine rest_after ?_ postSignal_frame
  split
  · exact h1
  · exact rest_after h1 storedBy_frame

/-! ## Commands -/

theorem guardReads_from (h1 : Rest W s u) (h : Rest W s t) : Rest W s (guardReads u d rs t) := by
  unfold guardReads
  split
  · exact rest_after h1 poisonFault_frame
  · exact h

theorem guardPhys_from (h1 : Rest W s u) (h : Rest W s t) : Rest W s (guardPhys u rs t) := by
  unfold guardPhys
  split
  · exact rest_after h1 poisonFault_frame
  · exact h

/-- An admissible command runs in the state that its admission leaves. -/
theorem runCommand_admissible (h : Admissible s d q k desc x) : runCommand s d q desc x = x.run (grant s k (cmdAt s d q desc x)) k := by
  unfold runCommand
  rw [h.ctx]
  dsimp only
  rw [if_neg (by simp [h.fetch]), if_neg (by simp [h.read]), if_neg (by simp [h.opc]), if_neg (by simp [h.clean, h.range]),
    if_neg (by have := h.quota; omega), h.static]
  dsimp only
  rw [if_neg (by
      simp only [Bool.and_eq_true, decide_eq_true_eq, not_and]
      intro h1
      rw [h.drains h1]
      simp),
    if_neg (by simp [h.credits]), if_neg (by simp [h.fence])]
  rfl

/-- The command of a context stands, and its record is not to be discarded. -/
def Open (s : State) (k : Nat) : Prop := ∃ c, (s.ctx k).cmd = some c ∧ c.muted = false

theorem Open.frame (h : Open s k) (g : Frame v s t) (hv : Part.ctxs ∉ v := by decide) : Open t k := by
  unfold Open State.ctx at h ⊢
  rwa [g.ctxs hv]

theorem endCmd_ended (h : Open s k) : EndedWith (endCmd s k st re pl) k st re := by
  obtain ⟨c, h1, h2⟩ := h
  unfold endCmd EndedWith
  rw [h1]
  dsimp only
  rw [if_neg (by simp [h2])]
  exact ⟨_, by rw [setCtx_ctx_same], rfl⟩

theorem modCmd_open (h : Open s k) (hf : ∀ c, (f c).muted = c.muted) : Open (modCmd s j f) k := by
  obtain ⟨c, h1, h2⟩ := h
  unfold modCmd
  split
  · exact ⟨c, h1, h2⟩
  · rename_i c' hc
    unfold Open
    rw [setCtx_ctx]
    split
    · rename_i hj
      subst hj
      rw [h1] at hc
      cases hc
      exact ⟨f c, rfl, by rw [hf, h2]⟩
    · exact ⟨c, h1, h2⟩

theorem markSpl_open (h : Open s k) : Open (markSpl s d) k := by
  unfold markSpl
  split
  · exact h
  · exact modCmd_open h (fun _ => rfl)

theorem slotWrite_open (h : Open s k) : Open (slotWrite s e) k := by
  unfold slotWrite
  split
  · exact h.frame holdSlot_frame
  · split
    · exact h.frame onBound_frame
    · dsimp only
      split
      · exact h.frame holdSlot_frame
      · split
        · refine Open.frame ?_ countDeposit_frame
          exact Open.frame (s := State.setBind _ _ _) h slotOps_frame
        · refine markSpl_open (Open.frame (Open.frame (s := State.setBind _ _ _) h State.count_frame) holdSlot_frame)

theorem stBytes_open (h : Open s k) : Open (stBytes s b d src a bs) k := by
  unfold stBytes
  refine foldl_mem (P := fun u => Open u k) h (fun u p _ hu => ?_)
  unfold stLine
  split
  · exact hu.frame boundEvt_frame
  · exact hu.frame State.wrBytes_frame
  · exact slotWrite_open hu

theorem grant_ctx (s : State) (k : Nat) (c : Cmd) : ((grant s k c).ctx k).cmd = some { c with admitted := true } := by
  unfold grant
  dsimp only
  split <;> simp [State.count]

theorem grant_open (hc : c.muted = false) : Open (grant s k c) k := ⟨_, grant_ctx s k c, hc⟩

theorem grant_lay : Lay s (grant s k c) := by
  unfold grant
  dsimp only
  refine count_lay _ _ (key_off (by decide)) ?_
  split
  · exact fun _ _ => rfl
  · exact fun _ _ => rfl

theorem Within.grant (h : MemoryOk s) : Within W s (grant s k c) := (Within.refl h).keep grant_frame (fun _ => grant_lay)

/-- The same bytes are read where memory and its translation are the same. -/
theorem Within.ldBytes (h : Within W s t) (hm : t.mem = s.mem) (hb : t.back = s.back) (hi : t.binds = s.binds) (d a n : Nat) :
    ldBytes t d a n = ldBytes s d a n := by
  have h1 : ∀ x m, t.rdBytes x m = s.rdBytes x m := fun x m => by simp only [State.rdBytes, State.rdP, hm, hb]
  have h2 : ∀ la, ldLine t d la = ldLine s d la := fun la => by
    unfold ldLine
    rw [h.loc]
    split
    · rfl
    · rw [h1]
    · rename_i ky off _
      have : t.bind ky = s.bind ky := by simp only [State.bind, hi]
      rw [this]
      congr 1
      split
      · unfold slotRd fillOwed
        rw [h.slotBase, h1, hb]
      · rfl
  unfold Machine.ldBytes
  rw [List.map_congr_left (fun la _ => h2 la)]

theorem Within.poisonHit (h : Within W s t) (hb : t.back = s.back) (hi : t.binds = s.binds) : poisonHit t d rs = poisonHit s d rs := by
  have h2 : ∀ la, lineAt t d la = lineAt s d la := fun la => by
    unfold lineAt
    rw [h.loc]
    split
    · rfl
    · rfl
    · rename_i ky off _
      have : t.bind ky = s.bind ky := by simp only [State.bind, hi]
      rw [this]
      simp only [h.slotBase]
  have h3 : ∀ a n, poisonAt t a n = poisonAt s a n := fun a n => by simp only [poisonAt, hb]
  unfold Machine.poisonHit
  rw [hb]
  simp only [h2, h3]

/-- Every line of a range is a plain one. -/
theorem dataOk_line (h : dataOk s d a n = true) (hla : la ∈ linesOf a n) : ∃ y, maLoc s d la = .pa y := by
  unfold dataOk at h
  have := List.all_eq_true.1 h la hla
  split at this
  · rename_i y hy
    exact ⟨y, hy⟩
  · cases this

theorem linesOf_sub (h : m ≤ n) (hl : la ∈ linesOf a m) : la ∈ linesOf a n := by
  unfold linesOf at hl ⊢
  split at hl
  · cases hl
  · rw [if_neg (by omega)]
    simp only [List.mem_map, List.mem_range] at hl ⊢
    obtain ⟨i, hi, rfl⟩ := hl
    exact ⟨i, by omega, rfl⟩

/-- The line of every byte of a range. -/
theorem line_of (hi : i < n) : (a + i) / 64 * 64 ∈ linesOf a n := by
  unfold linesOf
  rw [if_neg (by omega)]
  simp only [List.mem_map, List.mem_range]
  exact ⟨(a + i) / 64 - a / 64, by omega, by omega⟩

/-- A write to plain lines stores each byte in its place, where no other byte of it lies. -/
theorem stBytes_stored (h : MemoryOk s) (hok : dataOk s d a bs.length = true) : StoredAt s (stBytes s b d src a bs) d a bs := by
  intro i x hi hx hd
  -- every piece lies in a plain line
  have hpa : ∀ p ∈ pieces a bs, ∃ y, maLoc s d p.1 = .pa y := by
    intro p hp
    unfold pieces at hp
    obtain ⟨la, hla, rfl⟩ := List.mem_map.1 hp
    obtain ⟨y, hy⟩ := dataOk_line hok hla
    have h64 : la % 64 = 0 := by
      unfold linesOf at hla
      split at hla
      · cases hla
      · obtain ⟨j, _, rfl⟩ := List.mem_map.1 hla; omega
    by_cases hc : la ≤ a
    · have hlt : a - la < 64 := by
        unfold linesOf at hla
        split at hla
        · cases hla
        · obtain ⟨j, _, rfl⟩ := List.mem_map.1 hla; omega
      have := maLoc_line (j := a - la) s d (by omega) hy
      exact ⟨y + (a - la), by dsimp only; rw [show max la a = la + (a - la) by omega]; exact this⟩
    · exact ⟨y, by dsimp only; rw [show max la a = la by omega]; exact hy⟩
  have step : ∀ l : List (Nat × List Byte), (∀ p ∈ l, p ∈ pieces a bs) → ∀ u, Within (fun _ => True) s u →
      (u.rd x = bs.getD i 0 ∨ ∃ p ∈ l, p.1 ≤ a + i ∧ a + i < p.1 + p.2.length) → (l.foldl (stLine b d src) u).rd x = bs.getD i 0 := by
    intro l
    induction l with
    | nil => intro _ u _ hu; rcases hu with hu | ⟨p, hp, _⟩; exact hu; cases hp
    | cons p l ih =>
      intro hl u wu hu
      obtain ⟨y, hy⟩ := hpa p (hl p (by simp))
      obtain ⟨h0, hln, h1, h2, h3⟩ := piece_of (hl p (by simp))
      have hpl : ∀ j, j < p.2.length → byteAt s d (p.1 + j) = some (y + j) := fun j hj => by
        unfold byteAt
        rw [maLoc_line s d (by omega) hy]
      have hbit : ∀ j, j < p.2.length → p.2.getD j 0 = bs.getD (p.1 - a + j) 0 := fun j hj => by
        conv => lhs; rw [h3]
        rw [List.getD_eq_getElem?_getD, List.getD_eq_getElem?_getD, List.getElem?_take, if_pos hj, List.getElem?_drop]
      have e1 : stLine b d src u p = u.wrBytes y p.2 := by
        unfold stLine
        rw [wu.loc, hy]
      have w1 : Within (fun _ => True) s (stLine b d src u p) := wu.stLine h0 hln (fun _ _ => trivial)
      rw [List.foldl_cons]
      refine ih (fun q hq => hl q (by simp [hq])) _ w1 ?_
      have key : ∀ j, j < p.2.length → x = y + j → p.1 - a + j = i := fun j hj hxj => by
        refine Classical.byContradiction (fun hne => hd (p.1 - a + j) (by omega) hne ?_)
        rw [show a + (p.1 - a + j) = p.1 + j by omega, hpl j hj, hxj]
      rw [e1, rd_wrBytes wu.wf]
      by_cases hin : y ≤ x ∧ x < y + p.2.length
      · refine .inl ?_
        rw [if_pos hin, hbit _ (by omega), key (x - y) (by omega) (by omega)]
      · rw [if_neg hin]
        rcases hu with hu | ⟨q, hq, hq1, hq2⟩
        · exact .inl hu
        · rcases List.mem_cons.1 hq with rfl | hq
          · exfalso
            have := hpl (a + i - q.1) (by omega)
            rw [show q.1 + (a + i - q.1) = a + i by omega, hx] at this
            cases this
            exact hin (by omega)
          · exact .inr ⟨q, hq, hq1, hq2⟩
  refine step _ (fun p hp => hp) s (Within.refl h) (.inr ?_)
  refine ⟨_, List.mem_map.2 ⟨(a + i) / 64 * 64, line_of hi, rfl⟩, ?_, ?_⟩
  · dsimp only; omega
  · dsimp only
    rw [List.length_take, List.length_drop]
    omega

/-! ## The pages of a program -/

theorem rd_zeroRange (h : MemoryOk s) (a n x : Nat) : (zeroRange s a n).rd x = if a ≤ x ∧ x < a + n then 0 else s.rd x := by
  unfold State.rd zeroRange
  dsimp only
  split
  · rename_i hx
    refine spGet_absent (fun e he hk => ?_)
    have := (List.mem_filter.1 he).2
    simp only [Bool.or_eq_true, decide_eq_true_eq] at this
    omega
  · rename_i hx
    refine spGet_filter _ _ (fun v => ?_)
    simp only [Bool.or_eq_true, decide_eq_true_eq]
    omega

theorem zeroRange_wf (h : MemoryOk s) : MemoryOk (zeroRange s a n) := spFilter_wf _ h
theorem wrBytes_wf (h : MemoryOk s) : MemoryOk (s.wrBytes a bs) := spSetList_wf _ _ h

theorem writeReels_wf (h : MemoryOk s) : MemoryOk (writeReels s a bs) := wrBytes_wf (wrBytes_wf (zeroRange_wf h))

/-- What both reels of a page hold after their records have been written. -/
theorem rd_writeReels (h : MemoryOk s) (hl : bs.length ≤ 0x20000) (a x : Nat) : (writeReels s a bs).rd x =
    if a ≤ x ∧ x < a + 0x40000 then bs.getD ((x - a) % 0x20000) 0 else s.rd x := by
  unfold writeReels
  rw [rd_wrBytes (wrBytes_wf (zeroRange_wf h)), rd_wrBytes (zeroRange_wf h), rd_zeroRange h]
  by_cases h1 : a ≤ x ∧ x < a + 0x40000
  · simp only [if_pos h1]
    by_cases h2 : a + 0x20000 ≤ x ∧ x < a + 0x20000 + bs.length
    · rw [if_pos h2, show (x - a) % 0x20000 = x - (a + 0x20000) by omega]
    · rw [if_neg h2]
      by_cases h3 : a ≤ x ∧ x < a + bs.length
      · rw [if_pos h3, show (x - a) % 0x20000 = x - a by omega]
      · rw [if_neg h3, List.getD_eq_getElem?_getD, List.getElem?_eq_none (by omega)]; rfl
  · rw [if_neg (by omega), if_neg (by omega), if_neg h1, if_neg h1]

theorem dir_zero (s : State) (a n p : Nat) : (zeroRange s a n).dir p = s.dir p := rfl
theorem dir_reels (s : State) (a : Nat) (bs : List Byte) (p : Nat) : (writeReels s a bs).dir p = s.dir p := rfl

theorem nodup_map_inj {α β : Type} {f : α → β} {l : List α} (h : (l.map f).Nodup) {a b : α} (ha : a ∈ l) (hb : b ∈ l) (e : f a = f b) : a = b := by
  induction l with
  | nil => cases ha
  | cons c l ih =>
    rw [List.map_cons, List.nodup_cons] at h
    rcases List.mem_cons.1 ha with h1 | h1 <;> rcases List.mem_cons.1 hb with h2 | h2
    · rw [h1, h2]
    · exact (h.1 (List.mem_map.2 ⟨b, h2, by rw [← e, h1]⟩)).elim
    · exact (h.1 (List.mem_map.2 ⟨a, h1, by rw [e, h2]⟩)).elim
    · exact ih h.2 h1 h2

theorem zeroPages (h : MemoryOk u) (ps : List PageRow) : let v := ps.foldl (fun s r => zeroRange s ((s.dir r.page).addr * 2 ^ 18) 0x40000) u
    MemoryOk v ∧ (∀ p, v.dir p = u.dir p) ∧
    ∀ x, v.rd x = if ∃ r ∈ ps, pageAt u r ≤ x ∧ x < pageAt u r + 0x40000 then 0 else u.rd x := by
  induction ps generalizing u with
  | nil => exact ⟨h, fun _ => rfl, fun x => by simp⟩
  | cons r ps ih =>
    dsimp only
    rw [List.foldl_cons]
    obtain ⟨h1, h2, h3⟩ := ih (u := zeroRange u ((u.dir r.page).addr * 2 ^ 18) 0x40000) (zeroRange_wf h)
    refine ⟨h1, fun p => h2 p, fun x => ?_⟩
    rw [h3, rd_zeroRange h]
    have hp : ∀ q, pageAt (zeroRange u ((u.dir r.page).addr * 2 ^ 18) 0x40000) q = pageAt u q := fun _ => rfl
    simp only [hp]
    by_cases c : ∃ q ∈ ps, pageAt u q ≤ x ∧ x < pageAt u q + 0x40000
    · rw [if_pos c, if_pos]
      obtain ⟨q, hq, hx⟩ := c
      exact ⟨q, by simp [hq], hx⟩
    · rw [if_neg c]
      by_cases c2 : pageAt u r ≤ x ∧ x < pageAt u r + 0x40000
      · rw [if_pos (show (u.dir r.page).addr * 2 ^ 18 ≤ x ∧ x < (u.dir r.page).addr * 2 ^ 18 + 0x40000 from c2), if_pos ⟨r, by simp, c2⟩]
      · rw [if_neg (by exact c2), if_neg]
        rintro ⟨q, hq, hx⟩
        rcases List.mem_cons.1 hq with rfl | hq
        · exact c2 hx
        · exact c ⟨q, hq, hx⟩

theorem imagePages (bs : Nat → List Byte) (hb : ∀ i, (bs i).length ≤ 0x20000) (l : List (Nat × PageRow)) (h : MemoryOk u) :
    let v := l.foldl (fun s p => writeReels s ((s.dir p.2.page).addr * 2 ^ 18) (bs p.1)) u
    MemoryOk v ∧ (∀ p, v.dir p = u.dir p) ∧
    (∀ x, (∀ e ∈ l, ¬ (pageAt u e.2 ≤ x ∧ x < pageAt u e.2 + 0x40000)) → v.rd x = u.rd x) ∧
    ((l.map (fun e => (u.dir e.2.page).addr)).Nodup → ∀ e ∈ l, ∀ x, x < 0x40000 → v.rd (pageAt u e.2 + x) = (bs e.1).getD (x % 0x20000) 0) := by
  induction l generalizing u with
  | nil => exact ⟨h, fun _ => rfl, fun _ _ => rfl, fun _ e he => by cases he⟩
  | cons f l ih =>
    dsimp only
    rw [List.foldl_cons]
    obtain ⟨h1, h2, h3, h4⟩ := ih (u := writeReels u ((u.dir f.2.page).addr * 2 ^ 18) (bs f.1)) (writeReels_wf h)
    have hp : ∀ q, pageAt (writeReels u ((u.dir f.2.page).addr * 2 ^ 18) (bs f.1)) q = pageAt u q := fun _ => rfl
    have hd : ∀ q, (writeReels u ((u.dir f.2.page).addr * 2 ^ 18) (bs f.1)).dir q = u.dir q := fun _ => rfl
    simp only [hp, hd] at h3 h4
    refine ⟨h1, fun p => h2 p, fun x hx => ?_, fun hn e he x hx => ?_⟩
    · rw [h3 x (fun e he => hx e (by simp [he])), rd_writeReels h (hb _), if_neg (show ¬ ((u.dir f.2.page).addr * 2 ^ 18 ≤ x ∧
        x < (u.dir f.2.page).addr * 2 ^ 18 + 0x40000) from hx f (by simp))]
    · rw [List.map_cons, List.nodup_cons] at hn
      rcases List.mem_cons.1 he with rfl | he
      · rw [h3, rd_writeReels h (hb _), if_pos (by unfold pageAt; omega)]
        · congr 1; unfold pageAt; omega
        · intro g hg hc
          refine hn.1 (List.mem_map.2 ⟨g, hg, ?_⟩)
          unfold pageAt at hc
          omega
      · exact h4 hn.2 e he x hx

/-- The record pages of a program that has been placed: both reels of the i-th page with INIT = IMAGE hold the i-th 128 KiB of RECORDS, those of
the others zeros; nothing else is written (R126, R300). -/
theorem writePages_rd (h : MemoryOk u) (m : Image) : let v := writePages u m
    (∀ x, (∀ r ∈ m.pages, ¬ (pageAt u r ≤ x ∧ x < pageAt u r + 0x40000)) → v.rd x = u.rd x) ∧
    ((m.pages.map (fun r => (u.dir r.page).addr)).Nodup →
      (∀ i r, (m.pages.filter (·.image))[i]? = some r → ∀ x, x < 0x40000 →
        v.rd (pageAt u r + x) = ((m.records.drop (131072 * i)).take 131072).getD (x % 0x20000) 0) ∧
      ∀ r ∈ m.pages, r.image = false → ∀ x, x < 0x40000 → v.rd (pageAt u r + x) = 0) := by
  intro v
  obtain ⟨z1, z2, z3⟩ := zeroPages h m.pages
  generalize hz : m.pages.foldl (fun s r => zeroRange s ((s.dir r.page).addr * 2 ^ 18) 0x40000) u = z at z1 z2 z3
  have hp : ∀ q, pageAt z q = pageAt u q := fun q => by unfold pageAt; rw [z2]
  obtain ⟨w1, w2, w3, w4⟩ := imagePages (fun i => (m.records.drop (131072 * i)).take 131072)
    (fun i => by rw [List.length_take]; exact Nat.min_le_left _ _) ((List.range (m.pages.filter (·.image)).length).zip (m.pages.filter (·.image))) z1
  simp only [hp, z2] at w3 w4
  have hv : v = ((List.range (m.pages.filter (·.image)).length).zip (m.pages.filter (·.image))).foldl
      (fun s p => writeReels s ((s.dir p.2.page).addr * 2 ^ 18) ((m.records.drop (131072 * p.1)).take 131072)) z := by rw [← hz]; rfl
  rw [← hv] at w3 w4
  have hmem : ∀ e ∈ (List.range (m.pages.filter (·.image)).length).zip (m.pages.filter (·.image)), e.2 ∈ m.pages ∧ e.2.image = true :=
      fun e he => by
    have := (List.of_mem_zip he).2
    rw [List.mem_filter] at this
    exact this
  refine ⟨fun x hx => ?_, fun hn => ⟨fun i r hi x hx => ?_, fun r hr hz' x hx => ?_⟩⟩
  · rw [w3 x (fun e he => hx _ (hmem e he).1), z3, if_neg]
    rintro ⟨r, hr, hc⟩
    exact hx r hr hc
  · have hlt : i < (m.pages.filter (·.image)).length := by
      obtain ⟨h, _⟩ := List.getElem?_eq_some_iff.1 hi; exact h
    refine w4 ?_ (i, r) ?_ x hx
    · have : ((List.range (m.pages.filter (·.image)).length).zip (m.pages.filter (·.image))).map (fun e => (u.dir e.2.page).addr)
          = (m.pages.filter (·.image)).map (fun r => (u.dir r.page).addr) := by
        rw [show (fun e : Nat × PageRow => (u.dir e.2.page).addr) = (fun r : PageRow => (u.dir r.page).addr) ∘ Prod.snd from rfl, ← List.map_map,
          List.map_snd_zip (by simp)]
      rw [this]
      exact hn.sublist (List.Sublist.map _ List.filter_sublist)
    · rw [List.mem_iff_getElem?]
      refine ⟨i, ?_⟩
      rw [List.getElem?_zip_eq_some]
      exact ⟨by simp [hlt], hi⟩
  · rw [w3, z3, if_pos ⟨r, hr, by omega⟩]
    intro e he hc
    -- two pages at one address are one page
    have hne : r ≠ e.2 := fun c => by have := (hmem e he).2; rw [← c, hz'] at this; cases this
    have ha : (u.dir r.page).addr = (u.dir e.2.page).addr := by unfold pageAt at hc; omega
    exact hne (nodup_map_inj hn hr (hmem e he).1 ha)

/-! ## Imports and exports -/

/-- An IMPORT packet stores in the committed reel of its page and, with the last one, in the working copy that is current (R240). -/
theorem importPage_rest (h : MemoryOk s) : StoresOnly s (importPage p s k) k.dom (importDest s k.dom k.page) (importReelDest s k.dom k.page) := by
  refine storesOnly_of ?_
  unfold importPage onImport
  split
  · exact rest_frame State.count_frame
  · split
    · exact rest_after (rest_frame State.count_frame) impRefuse_frame
    · dsimp only
      split
      · unfold importWrite
        dsimp only
        have w1 : Within (Dest s k.dom (importDest s k.dom k.page) (importReelDest s k.dom k.page)) s
            (s.wrBytes (reelAt (s.dir k.page) (s.dir k.page).cur + k.addr % 0x20000) (k.data.take (0x20000 - k.addr % 0x20000))) :=
          (Within.refl h).write (fun i hi => .inr ⟨_, List.mem_cons_self .., by dsimp only; omega, by
            rw [List.length_take] at hi
            dsimp only
            have := Nat.mod_lt k.addr (show 0x20000 > 0 by decide)
            omega⟩)
        have e1 : ∀ x, (s.wrBytes (reelAt (s.dir k.page) (s.dir k.page).cur + k.addr % 0x20000) (k.data.take (0x20000 - k.addr % 0x20000))).dir x =
            s.dir x := fun _ => rfl
        have g1 : Frame [.mem, .back] s (s.wrBytes (reelAt (s.dir k.page) (s.dir k.page).cur + k.addr % 0x20000)
            (k.data.take (0x20000 - k.addr % 0x20000))) := State.wrBytes_frame
        generalize s.wrBytes (reelAt (s.dir k.page) (s.dir k.page).cur + k.addr % 0x20000) (k.data.take (0x20000 - k.addr % 0x20000)) = s1 at w1 e1 g1 ⊢
        split
        · refine guardReads_from w1.rest (guardPhys_from w1.rest (rest_after ?_ impPut_frame))
          generalize he : ({ s.dir k.page with version := k.version, pend := false } : Dirent) = e'
          have ho : e'.owner = (s.dir k.page).owner ∧ e'.layer = (s.dir k.page).layer := by rw [← he]; exact ⟨rfl, rfl⟩
          have w2 : Within (Dest s k.dom (importDest s k.dom k.page) (importReelDest s k.dom k.page)) s (s1.setDir k.page e') :=
            w1.keep State.setDir_frame (Lay.frame State.setDir_frame)
          have hp : (s1.setDir k.page e').progs = s.progs := g1.progs (by decide)
          unfold importEmit
          rw [setDir_dir_same]
          dsimp only
          rw [ho.1, ho.2, show lastPass (s1.setDir k.page e') k.dom (blkOfCell (s.dir k.page).owner) (s.dir k.page).layer =
            lastPass s k.dom (blkOfCell (s.dir k.page).owner) (s.dir k.page).layer by simp only [lastPass, State.prog, hp]]
          split
          · rename_i q hq
            rw [show (s1.setDir k.page e').hdr k.dom q.wchdr = s.hdr k.dom q.wchdr by simp only [State.hdr, State.prog, hp]]
            refine (w2.emitPage (State.setDir_frame.trans' g1) (by decide) (fun z hz => .inl ?_) (fun z hz => .inr ?_)).rest
            · unfold importDest
              rw [hq]
              exact hz
            · unfold importReelDest
              rw [hq]
              obtain ⟨r, hr, hx⟩ := hz
              exact ⟨r, List.mem_cons_of_mem _ hr, hx⟩
          · exact w2.rest
        · exact w1.rest
      · exact rest_frame State.count_frame

/-- An EXPORT stores nothing where no import is armed, or where none of its packets is for the module itself (R281). -/
theorem startExport_mem (h : (∀ e, (s.day e).imps = []) ∨ ∀ p ∈ exportPackets s d desc, hopOf s (s.ctx k).home p.dst false none ≠ .here) :
    (startExport s d k desc).mem = s.mem ∧ (startExport s d k desc).dirs = s.dirs := by
  have hs : Frame [.ro, .blks, .fab] s ((exportPackets s d desc).foldl (sendDaily importHere (s.ctx k).home (exportSrc k))
      (boundEvt s (faultBlk s d) (exportMiss s d desc))) := by
    refine foldl_mem (P := fun u => Frame [.ro, .blks, .fab] s u) (boundEvt_frame.mono (by decide)) (fun u p hp hu => ?_)
    have ho : Frame [.ro, .fab] u (originate u (s.ctx k).home (exportSrc k) p) := originate_frame
    unfold sendDaily
    split
    · rename_i hh
      rcases h with h | h
      · have hi : impOf u p = none := by
          unfold impOf State.day
          rw [hu.days (by decide)]
          have := h p.dom
          unfold State.day at this
          rw [this]
          rfl
        unfold importHere importClose importPage onImport
        rw [hi]
        split <;> exact (State.count_frame.after (Frame.refl _ _)).trans hu
      · have e : hopOf u (s.ctx k).home p.dst false none = hopOf s (s.ctx k).home p.dst false none := by
          unfold hopOf fabCoord fabTorus auxPort State.app
          rw [hu.mgt (by decide)]
        exact absurd (e.symm.trans hh) (h p hp)
    · exact ho.after hu
  have hf : Frame [.ro, .log, .head, .clap, .regs, .doms, .ctxs, .ress, .steps, .blks, .grds, .fab, .days] s (startExport s d k desc) := by
    unfold startExport
    dsimp only
    refine guardReads_frame (Frame.refl _ _) (guardPhys_frame (Frame.refl _ _) (frame_ite (hs.mono (by decide)) ?_))
    exact endCmd_frame.after (hs.mono (by decide))
  exact ⟨hf.mem (by decide), hf.dirs (by decide)⟩

end Sys2Proof.Machine
end

