-- ==== Sys2Proof/WellFormed.lean ====
section
/-!
DEFINITION. Which commands are well formed: every operand lies in the range that the spec gives it (unit numbers of R14,
queues of R290, words of their register's width, message fields of Table 11-6). A command that is not well formed
stands for nothing that the spec lets happen.
-/

namespace Sys2Proof

/-- A queue's numbers lie in their ranges. -/
def qWf : QRef → Bool
  | .admin => true
  | .dom d q => d < 16 && q < 4096

/-- A descriptor of 64 bytes, or 2^512: the ring read of it failed (R296; DESIGN CHOICE, log entry 4). -/
def descWf (desc : Nat) : Bool := desc ≤ 2 ^ 512

/-- The fields of a dictionary operation fit their places (Table 11-6). -/
def dictWf (op : DictOp) : Bool :=
  op.index < 2 ^ 16 && op.sub < 256 && op.ty < 16 && op.offset < 2 ^ 32 && op.value.length ≤ 1024

/-- A frame carries ten bytes of control and ten slots of 256 bytes (R247). -/
def frameWf (f : Frame) : Bool := f.control < 2 ^ 80 && f.slots.length == 10 && f.slots.all (fun s => s.length == 256)

/-- The well-formed commands. -/
def Instr.wf : Instr → Bool
  | .powerUp => true
  | .alwaysOnPowerGood strap _ _ _ => strap < 8
  | .bootLockTimeout => true
  | .railsInRegulation => true
  | .identityKeyReady => true
  | .memoryTrainingDone => true
  | .overvoltage _ => true
  | .undervoltage => true
  | .inputInterruption _ => true
  | .currentTrip => true
  | .governorEvaluation _ _ _ => true
  | .governorFastPath => true
  | .thermalEvaluation _ _ _ _ => true
  | .junctionLimit _ _ _ _ => true
  | .thermalTrip => true
  | .refclk100Loss => true
  | .pcieRefclkLoss => true
  | .pcieRefclkReturn _ => true
  | .blockClockStop blk => blk < 24
  | .rampTurn blk _ => blk < 24
  | .perstLAssert => true
  | .perstLRelease _ => true
  | .flr fn => fn ≤ 16
  | .cmdSqDb q value => qWf q && value < 2 ^ 32
  | .cmdCqDb q value => qWf q && value < 2 ^ 32
  | .cmdSqBase q _ value => qWf q && value < 2 ^ 64
  | .cmdQCtl q value => qWf q && value < 2 ^ 64
  | .barWrite fn off size value => fn ≤ 16 && off < 0x4100000 && (size == 1 || size == 2 || size == 4 || size == 8) && value < 2 ^ (8 * size)
  | .domCreate desc => descWf desc
  | .domTeardown desc => descWf desc
  | .teardownGenAcked x => x.dom < 16
  | .domSet desc => descWf desc
  | .qCreate desc => descWf desc
  | .qDelete desc => descWf desc
  | .qReset desc => descWf desc
  | .progLoad dom q desc _ => dom < 16 && q < 4096 && descWf desc
  | .progUnload dom q desc => dom < 16 && q < 4096 && descWf desc
  | .step dom q desc => dom < 16 && q < 4096 && descWf desc
  | .copy dom q desc => dom < 16 && q < 4096 && descWf desc
  | .hostWrite dom q desc _ => dom < 16 && q < 4096 && descWf desc
  | .hostRead dom q desc _ => dom < 16 && q < 4096 && descWf desc
  | .exportRun dom q desc => dom < 16 && q < 4096 && descWf desc
  | .importArm dom q desc => dom < 16 && q < 4096 && descWf desc
  | .freeze dom q desc => dom < 16 && q < 4096 && descWf desc
  | .grade dom q desc => dom < 16 && q < 4096 && descWf desc
  | .fence dom q desc => dom < 16 && q < 4096 && descWf desc
  | .deferredAdmission dom => dom < 16
  | .commandCompletion q _ => qWf q
  | .coalesceTimer q => qWf q
  | .stepRelease dom _ => dom < 16
  | .signalArrival _ => true
  | .tile blk pos _ => blk < 24 && pos < 16
  | .chain blk pos _ => blk < 24 && pos < 16
  | .tileVec blk pos _ => blk < 24 && pos < 16
  | .recordOpen blk => blk < 24
  | .recordClose blk => blk < 24
  | .mark blk => blk < 24
  | .survey blk => blk < 24
  | .pass blk => blk < 24
  | .dir1 blk _ => blk < 24
  | .dir2 blk _ => blk < 24
  | .finish blk _ => blk < 24
  | .grdFeed blk => blk < 24
  | .grdSolve blk => blk < 24
  | .grdFeedSolve blk => blk < 24
  | .grdCold blk => blk < 24
  | .xferWrite blk => blk < 24
  | .xferRadd blk => blk < 24
  | .xferSignal blk => blk < 24
  | .xferTree blk => blk < 24
  | .deferPromotion blk => blk < 24
  | .itemComplete blk _ _ => blk < 24
  | .bindWaitEnd cell _ => cell < 384
  | .spillZeroFillDone cell => cell < 384
  | .blockReport blk => blk < 24
  | .cutterSlotTake blk _ => blk < 24
  | .stagingArrival blk x => blk < 24 && x.page < 2 ^ 21
  | .migWaitEnd blk _ => blk < 24
  | .pageMove page m => page < 2 ^ 21 && (match m with
    | .start dest => dest < 2 ^ 40
    | .finish _ => true)
  | .emissionResume blk _ => blk < 24
  | .dailyStreamWaitEnd blk _ => blk < 24
  | .clipPassComplete dom => dom.n < 16
  | .sliceUe cell _ _ => cell < 384
  | .parityError blk pos _ => blk < 24 && pos < 16
  | .cellTimeout blk pos _ => blk < 24 && pos < 16
  | .substitutionComplete blk => blk < 24
  | .dramUe pa => pa < 2 ^ 40
  | .granuleMoveComplete granule => granule < 2048
  | .memChRetrain region => region < 4
  | .memChRetire region => region < 4
  | .packageEmptied package => package < 16
  | .channelRetrainDone _ => true
  | .degradedRetry channel => channel < 64
  | .scrubLine cell off _ _ => cell < 384 && off < 0x1000000
  | .frameReceive port frame => port < 8 && frameWf frame
  | .retryTimeout port => port < 8
  | .laneChange port => port < 8
  | .fabLaneRecal _ => true
  | .fabLaneRetire => true
  | .laneRecalDone port _ => port < 8
  | .portTrained port => port < 8
  | .packetSend port _ => port < 8
  | .packetForward port cls => port < 8 && cls < 3
  | .pktWrite port cls => port < 8 && cls < 3
  | .pktRadd port cls => port < 8 && cls.n < 3
  | .pktSignal port cls => port < 8 && cls < 3
  | .tup port => port.n < 8
  | .tdown port => port.n < 8
  | .xnorm port => port < 8
  | .xnormRes port => port < 8
  | .xsig port => port < 8
  | .xsigRes port => port < 8
  | .daily port cls => port < 8 && cls < 3
  | .dailyEnd port cls => port < 8 && cls < 3
  | .importPkt port cls => port < 8 && cls.n < 3
  | .importEnd port cls => port < 8 && cls < 3
  | .dailyPageStream dom region => dom < 16 && region.n < 4
  | .dailyEnginesDone dom => dom < 16
  | .feedComplete region .. => region < 4
  | .solveStart region => region < 4
  | .solveDeadline region .. => region < 4
  | .solveComplete region .. => region < 4
  | .blockHang blk => blk < 24
  | .graderHang region => region < 4
  | .hubHang region => region < 4
  | .memCtrlHang region => region < 4
  | .exchangeHang dom => dom < 16
  | .commandUnitHang => true
  | .firmwareHang => true
  | .firmwareFallback => true
  | .clapperIn _ => true
  | .fltClapCmd _ _ => true
  | .dumpStart region incomplete => region < 4 && incomplete < 128
  | .dumpComplete region => region < 4
  | .regionResetComplete region => region < 4
  | .regionResetOverrun region => region < 4
  | .chipWarmResetComplete _ => true
  | .chipWarmResetOverrun => true
  | .fltLogAck _ _ => true
  | .fltDumpRel _ slot value => slot < 4 && value < 256
  | .regionOffline region => region < 4
  | .regionDrained region => region < 4
  | .regionOnline region => region < 4
  | .regionOnlineDone region => region < 4
  | .regionReset region => region < 4
  | .forceOffline region => region < 4
  | .ucodeVerify _ => true
  | .ucodeVerifyDone => true
  | .ucodeArm _ => true
  | .ucodeArmDone => true
  | .ucodeRevert _ => true
  | .dictMessage _ _ _ => true
  | .read _ op => dictWf op
  | .write _ op => dictWf op
  | .describe _ op => dictWf op
  | .mgtMbCtl value => value < 2 ^ 64
  | .mgtCue _ _ => true
  | .cueApply group x => group < 12 && x.unit < 440
  | .takeRevert _ => true
  | .takeDiscard _ => true
  | .takeDefaults _ => true
  | .takeStoreWriteDone _ => true
  | .configSweepStart => true
  | .configSweepComplete => true
  | .cutLsWrite _ _ _ => true
  | .plcaBeacon => true
  | .beaconTimeout => true
  | .duplicateAddressDetection _ => true
  | .icmpv6Request _ _ _ => true
  | .secBootLock _ _ => true
  | .secPolicyNext _ _ => true
  | .secIdeCtl _ _ => true
  | .secFwVerify _ => true
  | .secFwVerifyDone => true
  | .secFwSwitch _ => true
  | .secFwClear _ => true
  | .trialConfirm => true
  | .getVersion => true
  | .getCapabilities => true
  | .negotiateAlgorithms _ _ => true
  | .getDigests => true
  | .getCertificate _ _ _ => true
  | .challenge _ _ => true
  | .getMeasurements _ _ _ => true
  | .laneLoss lane => lane < 32
  | .inputLow _ => true
  | .pcieLinkDown => true
  | .chipLevelUnitFault _ => true
  | .firmwareHeartbeat => true

end Sys2Proof
end

