-- ==== Sys2Proof/Tests/Slice0.lean ====
section
/-!
SUPPORT. Tests of the model on small states: an ill-formed command for each check of well-formedness, worked values of the spec, one step of
each kind of command, and for each statement of the certificates states and operands that meet its hypotheses.
-/

namespace Sys2Proof.Tests

set_option Elab.async false

open Sys2Proof Sys2Proof.Machine

/-! ## Small states -/

/-- Powered by the 40 V input, the ROM running, nothing else on. -/
def tRom : State := { State.reset with pwr := { pwrReset with supply := .on } }

/-- Powered, in secure mode. -/
def tSecure : State := { tRom with sec := { secReset with phase := .secure } }

/-- In operation: rails up, LPDDR5X trained, boot lock set, PCIe link up. -/
def tUp : State :=
  { State.reset with
    pwr := { pwrReset with supply := .on, rails := .up, trained := true }
    sec := { secReset with phase := .locked, lock := true }
    mgt := { mgtReset with phyOn := true }
    cp := { cpReset with perst := false, link := true } }

/-- In operation, without training and without a PCIe link. -/
def tRails : State :=
  { tUp with pwr := { tUp.pwr with trained := false }, cp := { tUp.cp with link := false } }

/-- Whether a command answers a next state that satisfies a test. -/
def after (c : Instr) (s : State) (p : State → Bool) : Bool :=
  match exec c s with
  | .next t => p t
  | _ => false

def noPerf : Perf :=
  { computing := 0, feederDry := 0, drainHeld := 0, swapWait := 0, vecIssue := 0, vecHeld := 0, vecQueue := 0, conflicts := 0
    corrected := 0, retried := 0, linkCe := [] }

def tFrame (n : Nat) : Frame :=
  { bad := 0, corrected := 0, control := n, slots := List.replicate 10 (List.replicate 256 0) }

def tOp : DictOp := { index := 0x2000, sub := 0, ty := 2, shadow := false, offset := 0, value := [] }

/-! ## Well-formedness: an ill-formed command for each check -/

theorem test_wf_strap : (Instr.alwaysOnPowerGood 8 ⟨true, true⟩ false []).wf = false := by decide +kernel
theorem test_wf_block : (Instr.blockClockStop 24).wf = false ∧ (Instr.rampTurn 24 0).wf = false ∧ (Instr.survey 24).wf = false ∧
    (Instr.itemComplete 24 0 ⟨0, noPerf⟩).wf = false ∧ (Instr.blockHang 24).wf = false ∧ (Instr.survey 23).wf = true := by decide +kernel
theorem test_wf_position : (Instr.tile 0 16 noPerf).wf = false ∧ (Instr.parityError 0 16 ⟨0, true⟩).wf = false ∧
    (Instr.cellTimeout 24 0 true).wf = false ∧ (Instr.chain 23 15 noPerf).wf = true := by decide +kernel
theorem test_wf_function : (Instr.flr 17).wf = false ∧ (Instr.flr 16).wf = true := by decide +kernel
theorem test_wf_queue : (Instr.cmdSqDb (.dom 16 0) 0).wf = false ∧ (Instr.cmdCqDb (.dom 0 4096) 0).wf = false ∧
    (Instr.coalesceTimer (.dom 15 4095)).wf = true := by decide +kernel
theorem test_wf_registers : (Instr.cmdSqDb .admin (2 ^ 32)).wf = false ∧ (Instr.cmdSqBase .admin false (2 ^ 64)).wf = false ∧
    (Instr.cmdQCtl .admin (2 ^ 64)).wf = false ∧ (Instr.mgtMbCtl (2 ^ 64)).wf = false := by decide +kernel
theorem test_wf_bar : (Instr.barWrite 17 0 4 0).wf = false ∧ (Instr.barWrite 0 0x4100000 4 0).wf = false ∧
    (Instr.barWrite 0 0 3 0).wf = false ∧ (Instr.barWrite 0 0 4 (2 ^ 32)).wf = false ∧
    (Instr.barWrite 0 0x4000000 8 (2 ^ 64 - 1)).wf = true := by decide +kernel
theorem test_wf_descriptor : (Instr.domCreate (2 ^ 512 + 1)).wf = false ∧ (Instr.domCreate (2 ^ 512)).wf = true ∧ (Instr.step 16 0 0).wf = false ∧
    (Instr.fence 0 4096 0).wf = false ∧ (Instr.copy 15 4095 (2 ^ 512 - 1)).wf = true := by decide +kernel
theorem test_wf_domain : (Instr.teardownGenAcked ⟨16, 0, []⟩).wf = false ∧ (Instr.deferredAdmission 16).wf = false ∧
    (Instr.stepRelease 16 0).wf = false ∧ (Instr.clipPassComplete ⟨16, noPerf⟩).wf = false ∧ (Instr.dailyEnginesDone 16).wf = false := by decide +kernel
theorem test_wf_cell : (Instr.sliceUe 384 0 false).wf = false ∧ (Instr.bindWaitEnd 384 0).wf = false ∧
    (Instr.scrubLine 383 0x1000000 false false).wf = false := by decide +kernel
theorem test_wf_memory : (Instr.dramUe (2 ^ 40)).wf = false ∧ (Instr.granuleMoveComplete 2048).wf = false ∧
    (Instr.packageEmptied 16).wf = false ∧ (Instr.degradedRetry 64).wf = false ∧ (Instr.pageMove (2 ^ 21) (.start 0)).wf = false := by decide +kernel
theorem test_wf_port : (Instr.retryTimeout 8).wf = false ∧ (Instr.packetForward 7 3).wf = false ∧ (Instr.tup ⟨8, noPerf⟩).wf = false ∧
    (Instr.laneLoss 32).wf = false := by decide +kernel
theorem test_wf_frame : (Instr.frameReceive 0 (tFrame (2 ^ 80))).wf = false ∧
    (Instr.frameReceive 0 { tFrame 0 with slots := [] }).wf = false ∧ (Instr.frameReceive 0 (tFrame 0)).wf = true := by decide +kernel
theorem test_wf_region : (Instr.hubHang 4).wf = false ∧ (Instr.dumpStart 0 128).wf = false ∧ (Instr.dailyPageStream 0 ⟨4, noPerf⟩).wf = false ∧
    (Instr.regionReset 4).wf = false ∧ (Instr.memChRetire 4).wf = false := by decide +kernel
theorem test_wf_dump_slot : (Instr.fltDumpRel .secure 4 1).wf = false ∧ (Instr.fltDumpRel .secure 3 256).wf = false := by decide +kernel
theorem test_wf_cue : (Instr.cueApply 12 ⟨0, 0⟩).wf = false ∧ (Instr.cueApply 11 ⟨440, 0⟩).wf = false ∧ (Instr.cueApply 11 ⟨4, 0⟩).wf = true ∧
    (Instr.cueApply 9 ⟨cellUnit 23 16, 0⟩).wf = true := by decide +kernel
theorem test_wf_dictionary : (Instr.read .secure { tOp with index := 0x10000 }).wf = false ∧
    (Instr.write .secure { tOp with sub := 256 }).wf = false ∧ (Instr.describe .secure { tOp with ty := 16 }).wf = false ∧
    (Instr.read .secure { tOp with offset := 2 ^ 32 }).wf = false := by decide +kernel

/-! ## The queue and the whole machine -/

theorem test_hyp_queue : ({ tUp with pending := [.powerUp, .mark 0] }).pending = Instr.powerUp :: [.mark 0] := by decide +kernel
theorem test_step_takes_front :
    step { State.reset with pending := [.powerUp, .mark 0] } = exec .powerUp { State.reset with pending := [.mark 0] } := rfl
theorem test_hyp_idle : State.reset.pending = [] ∧ State.reset.pwr.supply ≠ .on ∧ tUp.pending = [] ∧ tUp.pwr.supply = .on := by decide +kernel
theorem test_idle_tick : (match step tUp with
    | .next t => decide (t = { tUp with ticks := 1 })
    | _ => false) = true := by decide +kernel
theorem test_hyp_rest : ∃ t, step { State.reset with pending := [.powerUp, .mark 0] } = .next t ∧ t.pending = [.mark 0] :=
  ⟨_, rfl, rfl⟩

/-- The invariants' statements: a state in operation meets them, and a step of it answers a next state. -/
theorem test_hyp_invariants : PowerOk tUp ∧ MemoryOk tUp ∧ ∃ t, step { tUp with pending := [.governorFastPath] } = .next t :=
  ⟨⟨by unfold legalStep; decide +kernel, by unfold legalStep; decide +kernel, by decide +kernel, by decide +kernel, by decide +kernel⟩,
    by unfold MemoryOk; decide +kernel, ⟨_, rfl⟩⟩

/-- Two domains with ranges that meet at a border, in which a context belongs to the one or the other. -/
def tTwo : State :=
  (tUp.setDom 0 { domDflt 0 with st := .active, qbase := 0, qcount := 2 }).setDom 15 { domDflt 0 with st := .active, qbase := 2, qcount := 1 }

theorem test_hyp_ranges : holdsCtx tTwo 0 1 ∧ holdsCtx tTwo 15 2 ∧ ¬ holdsCtx tTwo 0 2 ∧ ¬ holdsCtx tTwo 15 1 ∧
    (∀ d, d < 16 → ¬ holdsCtx tTwo d 3) := by unfold holdsCtx; decide +kernel

/-! ## Input, power and clocks -/

theorem test_hyp_supply : State.reset.pwr.supply = .off ∧ tUp.pwr.supply = .on ∧ (43000 < 43001 ∧ 43001 ≤ 44000) ∧
    (43000 < 44000 ∧ 44000 ≤ 44000) := by decide +kernel
theorem test_overvoltage_faults : exec (.overvoltage 44001) tUp = .fault .inputAboveAbsoluteMaximum := rfl
theorem test_undervoltage_keeps_the_policy :
    after .undervoltage { tUp with sec := { tUp.sec with policy := some 1 } } (fun t =>
      t == { State.reset with free := 1, cp := { cpReset with perst := false }, sec := { secReset with policy := some 1 } }) = true := by
  decide +kernel
theorem test_hyp_band : tUp.pwr.inputLow = false ∧ 100 ≤ 100 := by decide +kernel

/-- One evaluation below the limit is missing to a step up. -/
def tNine : State := { tUp with pwr := { tUp.pwr with nGov := 28, lowCount := 9 } }

theorem test_hyp_governor : tUp.pwr.rails = .up ∧ lt32 (f32 (pwrLimit tUp)) 0x447A0000 = true ∧
    (lt32 (f32 (pwrLimit tNine)) 0 = false ∧ lt32 0 (f32 (pwrLimit tNine - pwrHyst tNine)) = true ∧ tNine.pwr.lowCount + 1 = 10) ∧
    (lt32 (f32 (pwrLimit tUp)) 0 = false ∧ lt32 0 (f32 (pwrLimit tUp - pwrHyst tUp)) = true ∧ tUp.pwr.lowCount + 1 ≠ 10) ∧
    (lt32 (f32 (pwrLimit tUp)) (f32 (pwrLimit tUp)) = false ∧ lt32 (f32 (pwrLimit tUp)) (f32 (pwrLimit tUp - pwrHyst tUp)) = false) := by
  decide +kernel
theorem test_governor_step : after (.governorEvaluation 0x447A0000 0x42200000 0x41800000) tUp (fun t =>
    t.pwr.nGov == 55 && t.pwr.lowCount == 0) = true := by decide +kernel
theorem test_hyp_thermal :
    (isNaN32 (hottest 0 0 0x42D20000 0) = false ∧ lt32 (hottest 0 0 0x42D20000 0) tjMax = false) ∧
    (lt32 (hottest 0x42D1FFFF 0 0 0) tjMax = true ∧ lt32 (f32 (pwrThrottle tUp)) (hottest 0x42D1FFFF 0 0 0) = true) ∧
    (lt32 (hottest 0 0 0 0) tjMax = true ∧ lt32 (f32 (pwrThrottle tUp)) (hottest 0 0 0 0) = false ∧
      lt32 (hottest 0 0 0 0) (f32 (pwrThrottle tUp - 3)) = true) := by decide +kernel
theorem test_hyp_clocks : tUp.cp.pcieRef = true ∧ ({ tUp with cp := { tUp.cp with pcieRef := false } }).cp.pcieRef = false ∧
    tUp.cp.perst = false ∧ cpReset.perst = true ∧ tUp.pwr.refclk = true ∧ tUp.flt.chip = none ∧ tUp.sec.lock = true ∧ tUp.pwr.rails = .up ∧
    secReset.lock = false ∧ tUp.pwr.supply = .on ∧ State.reset.pwr.supply ≠ .on ∧
    ({ tUp with pwr := { tUp.pwr with refclk := false } }).pwr.refclk = false := by decide +kernel

/-- Blocks 1 and 2 stopped and waiting for a ramp turn, PWR_GATE_IDLE 1. -/
def tRamp : State :=
  ({ tUp with mgt := { tUp.mgt with live := [(key 0x3010 1, 1)], applied := [(4 * 0x1000000 + key 0x3010 1, 1)] } }.setBlk 1
    { blkDflt 1 with clkOff := true, ramp := true }).setBlk 2 { blkDflt 2 with clkOff := true, ramp := true }

theorem test_hyp_block_clocks : (tRamp.blk 23).phase = .idle ∧ (tRamp.blk 23).gateOld.getD (pwrGateIdle tRamp) ≠ 0 ∧ (tRamp.blk 23).clkOff = false ∧
    (tRamp.blk 1).clkOff = true ∧ (tRamp.blk 1).ramp = true ∧ (∀ c, c < 1 → (tRamp.blk c).ramp = false) := by decide +kernel

/-! ## Boot and security -/

theorem test_hyp_boot : ({ State.reset with pwr := { pwrReset with supply := .charging } }).pwr.supply = .charging ∧
    tSecure.sec.phase = .secure ∧ tSecure.pwr.coldWait = false ∧ tSecure.pwr.rails = .off ∧ tUp.sec.phase ≠ .halted ∧
    tRails.pwr.rails = .up ∧ tRails.pwr.trained = false ∧ State.reset.sec.mono0.valid = true ∧
    ({ secReset with mono0 := { secReset.mono0 with crc := secReset.mono0.crc + 1 } }).mono0.valid = false := by
  decide +kernel
theorem test_halted_boot : after (.alwaysOnPowerGood 5 ⟨false, true⟩ false [])
    { State.reset with pwr := { pwrReset with supply := .charging } }
    (fun t => decide (t.sec.phase = .halted ∧ t.sec.strap = 5 ∧ t.ticks = 0)) = true := by decide +kernel
theorem test_hyp_microcode : ({ tRails with pwr := { tRails.pwr with rails := .starting } }).pwr.rails = .starting ∧
    tRails.sec.ubank < 2 := by decide +kernel

/-- Management firmware in operation, from slot 0 or on trial. -/
def tFw (trial : Bool) (st : FwRun) : State :=
  { tUp with sec := { tUp.sec with fwRun := st, onTrial := trial } }

theorem test_hyp_firmware : (tFw false .running).sec.fwRun = .running ∧ (tFw false .running).sec.lock = true ∧
    (tFw false .running).sec.onTrial = false ∧ (tFw true .running).sec.onTrial = true ∧ (tFw true .running).sec.fwRun = .running ∧
    (tFw false .restarting).sec.fwRun = .restarting ∧ (tFw false .restarting).sec.onTrial = false := by decide +kernel
theorem test_hyp_update : ({ tUp.sec with fwSts := 2 }).fwSts = 2 ∧ tUp.sec.phase ≠ .recovery ∧ tUp.sec.active < 2 ∧
    ({ tUp.sec with fwSts := 1 }).fwSts = 1 ∧ ({ tUp.sec with fwSts := 2, phase := .recovery }).phase = .recovery := by decide +kernel

/-- The secure firmware may write, and sees the protected entries as ADMIN. -/
theorem test_may_write_secure : MayWrite tSecure .secure := ⟨by decide +kernel, by decide +kernel, by intro a p m h; cases h⟩
theorem test_may_write_mailbox : MayWrite tUp .mailbox := ⟨by decide +kernel, by decide +kernel, by intro a p m h; cases h⟩

/-- Every IDE key loaded; a valid idle slot. -/
def tKeys : State :=
  { tSecure with sec := { tSecure.sec with ideFresh := [0, 1, 2, 3, 4, 5], slot1 := { image := [], valid := true } } }

theorem test_hyp_security : reaches tSecure .secure = true ∧ tSecure.sec.lock = false ∧ Trusted tSecure .secure 0xA060 ∧
    Trusted tSecure .secure 0xA051 ∧ Trusted tSecure .secure 0xA040 ∧ 259 % 256 < 4 ∧ 259 / 256 < 2 ∧
    (∀ k, k < 6 → k ∈ tKeys.sec.ideFresh) ∧ fwBusy tKeys.sec = false ∧ (tKeys.sec.slot (1 - tKeys.sec.active)).valid = true ∧
    tKeys.sec.trial = none ∧ MayWrite tKeys .secure :=
  ⟨by decide +kernel, by decide +kernel, by unfold Trusted; decide +kernel, by unfold Trusted; decide +kernel, by unfold Trusted; decide +kernel, by decide +kernel,
    by decide +kernel, by decide +kernel, by decide +kernel, by decide +kernel, by decide +kernel, ⟨by decide +kernel, by decide +kernel, by intro a p m h; cases h⟩⟩
theorem test_hyp_locked : tUp.sec.lock = true ∧ tUp.sec.phase ≠ .recovery ∧ (fixedOp 0xA000 2 0 1).index = 0xA000 ∧
    (fixedOp 0xA000 2 0 1).sub < 3 := by decide +kernel

/-- SPDM with negotiated algorithms, before and after the identity key. -/
def tSpdm (ready : Bool) : State := { tUp with sec := { tUp.sec with algos := true, identity := ready } }

theorem test_hyp_spdm : doeUp tUp = true ∧ tUp.sec.algos = false ∧ (true && false) = false ∧ doeUp (tSpdm true) = true ∧
    (tSpdm true).sec.algos = true ∧ (tSpdm true).sec.identity = true ∧ (tSpdm false).sec.identity = false ∧
    (1 ≠ 0 ∧ 6 < 7 ∧ 7 ≠ 0xFF) ∧ (1 ≤ 6 ∧ 6 ≤ 6) ∧ 0 ≤ certChain.length := by
  refine ⟨by decide +kernel, by decide +kernel, by decide +kernel, by decide +kernel, by decide +kernel, by decide +kernel, by decide +kernel,
    by decide, by decide +kernel, Nat.zero_le _⟩

/-! ## Queues and registers -/

/-- A context that is made, enabled and has one descriptor waiting; both ring bases set. -/
def tCtx (k : Nat) : Ctx := { ctxDflt k with made := true, enable := true, tail := 1, sqBase := 0x10000, cqBase := 0x20000 }

/-- A descriptor of an opcode with the result object 0xFFFF and words 1 to 4. -/
def dsc (opc w1 w2 w3 w4 : Nat) : Nat :=
  opc * 2 ^ 56 + 0xFFFF * 2 ^ 16 + w1 * 2 ^ 64 + w2 * 2 ^ 128 + w3 * 2 ^ 192 + w4 * 2 ^ 256

/-- A 256 MiB segment of backing memory at physical address 0. -/
def tSeg : Seg := { segNone with valid := true, tier := true, size := 2 ^ 22 }

/-- Domain 0 ACTIVE with contexts 0 to 3 and quota 8; queue 0 is its step queue with one descriptor; segment 1 in backing memory; a program of
block 0 in list set 0 with an empty problem 0; the admin queue with one descriptor. -/
def tQ : State :=
  ((((tUp.setDom 0 { domDflt 0 with st := .active, gen := 1, qcount := 4, quota := 8, stepqEn := true }).setCtx 0
    { tCtx 0 with stepq := true }).setCtx adminKey (tCtx adminKey)).setSeg 0 1 tSeg).setProg 0
      { progDflt 0 with loaded := true, blocks := 1, lsets := 1 }

/-- The same without a program. -/
def tNoProg : State := tQ.setProg 0 (progDflt 0)

theorem test_hyp_perst : tUp.cp.perst = false ∧ State.reset.cp.perst = true ∧
    (State.reset.sec.lock && State.reset.pwr.rails == .up && State.reset.cp.pcieRef) = false ∧
    ({ tUp with cp := cpReset }).cp.perst = true ∧ ({ tUp with cp := cpReset }).cp.pcieRef = true := by decide +kernel
theorem test_hyp_flr : hostUp tQ = true ∧ (1 ≤ 1 ∧ 1 ≤ 16) ∧ (tQ.dom (1 - 1)).st = .active ∧
    ((tQ.setDom 15 { domDflt 15 with st := .active }).dom (16 - 1)).st = .active ∧ (tQ.dom 15).st ≠ .active := by decide +kernel

theorem test_bar_open : BarOpen tQ := by unfold BarOpen; decide +kernel
/-- Queue 1 of domain 0, not enabled. -/
def tOff : State := tQ.setCtx 1 { ctxDflt 1 with made := true }
theorem test_hyp_queue_registers : ctxOf tQ (.dom 0 0) = some 0 ∧ 15 < 2 ^ (tQ.ctx 0).sqLog ∧ 2 ^ (tQ.ctx 0).sqLog ≤ 16 ∧
    (tQ.ctx 0).errc = 0 ∧ (tQ.ctx 0).defer = none ∧ (tQ.ctx 0).enable = true ∧ ctxOf tOff (.dom 0 1) = some 1 ∧
    (tOff.ctx 1).enable = false ∧ 2 ^ 64 - 1 < 2 ^ 64 ∧ ctxOf tQ (.dom 0 4) = none ∧ ctxOf tQ (.dom 15 0) = none ∧ BarOpen tOff := by
  unfold BarOpen; decide +kernel

/-- A deferral's notice that waits for room in the completion ring, which a head of 2 gives. -/
def tNote : State :=
  tQ.setCtx 0 { tQ.ctx 0 with
    cqTail := 0, cqHead := 1, defer := some { unitCause := false, cost := 2, order := 1, cmd := cmdOf 0 0 0 2 0, note := true } }
theorem test_hyp_notice : ctxOf tNote (.dom 0 0) = some 0 ∧ ((tNote.ctx 0).defer.map (·.note)) = some true ∧ (tQ.ctx 0).defer = none ∧
    2 < 2 ^ (tNote.ctx 0).cqLog ∧ ((tNote.ctx 0).cqTail + 1) % 2 ^ (tNote.ctx 0).cqLog ≠ 2 ∧ BarOpen tNote := by
  unfold BarOpen; decide +kernel

/-- A queue with both bases set, not enabled. -/
def tBases : State := tQ.setCtx 1 { ctxDflt 1 with made := true, sqBase := 0x10000, cqBase := 0x20000 }
theorem test_hyp_queue_control : let v := 2 ^ 63 + 4 * 2 ^ 56 + 16 * 2 ^ 51 + 119 * 2 ^ 42
    ctxOf tBases (.dom 0 1) = some 1 ∧ 1 ≠ adminKey ∧ (4 ≤ bits v 60 56 ∧ bits v 60 56 ≤ 16) ∧ (4 ≤ bits v 55 51 ∧ bits v 55 51 ≤ 16) ∧
    bits v 48 42 < vecsOf (fnOfCtx tBases 1) ∧ (tBases.ctx 1).enable = false ∧
    (bit v 63 = true → (tBases.ctx 1).sqBase ≠ 0 ∧ (tBases.ctx 1).cqBase ≠ 0) ∧ (tOff.ctx 1).errc = 0 ∧ bit v 63 = true ∧
    (tOff.ctx 1).sqBase = 0 ∧ bits (17 * 2 ^ 56) 60 56 > 16 ∧ vecsOf (fnOfCtx tBases 1) ≤ bits (v + 2 ^ 42) 48 42 ∧ BarOpen tBases := by
  unfold BarOpen; decide +kernel

/-- Queue 3 of domain 0 in ERROR. -/
def tMadeErr (e : Nat) : State := tQ.setCtx 3 { ctxDflt 3 with made := true, errc := e }
/-- An enabled queue, its own values and others; the admin queue. -/
theorem test_hyp_queue_enabled : let v := 2 ^ 63 + 4 * 2 ^ 56 + 4 * 2 ^ 51
    (tQ.ctx 0).enable = true ∧ bits v 60 56 = (tQ.ctx 0).sqLog ∧ bits v 55 51 = (tQ.ctx 0).cqLog ∧ bits v 48 42 = (tQ.ctx 0).vec ∧
    bits v 50 49 = (tQ.ctx 0).home ∧ bits (v + 2 ^ 49) 50 49 ≠ (tQ.ctx 0).home ∧ bits (v + 2 ^ 56) 60 56 ≠ (tQ.ctx 0).sqLog ∧
    ctxOf tQ .admin = some adminKey ∧ ((tMadeErr 1).ctx 3).errc ≠ 0 ∧ bits v 48 42 < vecsOf (fnOfCtx tQ adminKey) := by decide +kernel

/-- A chip warm reset under way. -/
def tChip : State := { tUp with flt := { tUp.flt with chip := some { region := 0, recNo := 1, overrun := false, affected := 0, cut := 0 } } }
theorem test_hyp_bar : tUp.sec.lock = true ∧ 0xFFF < 0x1000 ∧ tUp.mgt.mb.st ≠ .busy ∧ BarOpen tUp ∧ 0x1FFFFFC + 4 ≤ 0x2000000 ∧
    hostUp tChip = true ∧ tChip.sec.lock = true ∧ barHeld tChip = true ∧ 16 ≤ 16 ∧ ctlUp tUp = true ∧ (0x1000 &&& mbCtlMask) = 0x1000 ∧
    ({ tUp with mgt := { tUp.mgt with mb := { tUp.mgt.mb with st := .busy } } }).mgt.mb.st = .busy ∧ hostUp State.reset = false ∧
    bar2Up State.reset = false ∧ bar2Up tChip = true ∧ bar2Up tUp = true ∧ barHeld tUp = false ∧ (0x2000 &&& mbCtlMask) ≠ 0x2000 ∧
    ctlUp (tFw false .restarting) = false ∧ bar2Up (tFw false .restarting) = true ∧ 0xFFC + 4 ≤ 0x1000 ∧ 0x1FFFFF % 0x200000 ≥ 0x1C0000 := by
  unfold BarOpen; decide +kernel
/-- A vector of the PF whose message is pending behind its mask. -/
theorem test_hyp_msix : let s := tUp.setMsix 0 127 { msixDflt 127 with masked := true, pend := true }
    127 < 128 ∧ (s.msix 0 127).pend = true ∧ (s.msix 0 127).addr < 2 ^ 64 ∧ (s.msix 0 127).data < 2 ^ 32 ∧ (tUp.msix 0 127).pend = false ∧
    BarOpen s := by unfold BarOpen; decide +kernel
theorem test_go_starts_a_request : after (.mgtMbCtl (2 ^ 63 + 16)) tUp (fun t => t.mgt.mb.st == .busy && t.mgt.mb.ctl == 16) = true := by
  decide +kernel

/-! ## Admin commands -/

theorem rdy {s : State} {opc desc : Nat} (h : canFetch s adminKey = true ∧ fetchFails desc = false ∧ dOpc desc = opc ∧ descClean desc = true) :
    AdminReady s opc desc :=
  ⟨h.1, h.2.1, h.2.2.1, h.2.2.2⟩

theorem adm {s : State} {d q k desc : Nat} {x : CmdSpec}
    (h : (ctxOf s (.dom d q) = some k ∧ canFetch s k = true ∧ fetchFails desc = false ∧ dOpc desc = x.opc ∧ descClean desc = true ∧
        x.inRange = true) ∧
      x.cost ≤ (s.dom d).quota ∧ x.static s k = none ∧ (x.opc = 0x10 → stepDrains s d = false) ∧ creditsFit s d x.cost = true ∧
      fenced s d k (s.dom d).deferOrder desc = false) : Admissible s d q k desc x :=
  ⟨h.1.1, h.1.2.1, h.1.2.2.1, h.1.2.2.2.1, h.1.2.2.2.2.1, h.1.2.2.2.2.2, h.2.1, h.2.2.1, h.2.2.2.1, h.2.2.2.2.1, h.2.2.2.2.2⟩

/-- DOM_CREATE of domain 1 with generation 1, contexts 4 to 4,095 and quota 0xFFFF. -/
def dCreate : Nat := dsc 0x80 (1 + 1 * 2 ^ 16 + 4 * 2 ^ 32 + 4092 * 2 ^ 44) 0xFFFF 0 0
theorem test_hyp_dom_create : AdminReady tQ 0x80 dCreate ∧ aDom dCreate = 1 ∧ bits (dw dCreate 2) 15 0 ≠ 0 ∧
    bits (dw dCreate 1) 43 32 + bits (dw dCreate 1) 56 44 = 4096 ∧ (tQ.dom 1).st = .free ∧ bits (dw dCreate 1) 27 16 ≠ (tQ.dom 1).lastGen ∧
    (∀ e, e < 16 → e ≠ 1 → (tQ.dom e).st = .free ∨ 4096 ≤ (tQ.dom e).qbase ∨ (tQ.dom e).qbase + (tQ.dom e).qcount ≤ 4) :=
  ⟨rdy (by decide +kernel), by decide +kernel⟩

/-- An empty context range within another domain's range overlaps nothing. -/
theorem test_empty_range_is_free : after (.domCreate (dsc 0x80 (1 + 1 * 2 ^ 16 + 1 * 2 ^ 32) 1 0 0)) tQ (fun t => (t.dom 1).st == .active) = true := by
  decide +kernel

/-- DOM_CREATE of a domain that is not FREE, with a stale generation, or with contexts from 3 on, one of domain 0's. -/
theorem test_hyp_dom_refused : AdminReady tQ 0x80 (dsc 0x80 (0 + 1 * 2 ^ 16 + 4 * 2 ^ 32) 1 0 0) ∧ (tQ.dom 0).st ≠ .free ∧
    AdminReady tQ 0x80 (dsc 0x80 (1 + 0xFFF * 2 ^ 16 + 4 * 2 ^ 32) 1 0 0) ∧ (tQ.dom 1).lastGen = 0xFFF ∧
    AdminReady tQ 0x80 (dsc 0x80 (1 + 1 * 2 ^ 16 + 3 * 2 ^ 32 + 1 * 2 ^ 44) 1 0 0) ∧ holdsCtx tQ 0 3 :=
  ⟨rdy (by decide +kernel), by decide +kernel, rdy (by decide +kernel),
    by decide +kernel, rdy (by decide +kernel), by unfold holdsCtx; decide +kernel⟩

/-- Queue 3 of domain 0, made, and in ERROR. -/
def tMade (e : Nat) : State := tQ.setCtx 3 { ctxDflt 3 with made := true, errc := e }
/-- Domain 0 without a step queue. -/
def tNoStepq : State := tQ.setDom 0 { tQ.dom 0 with stepqEn := false }
theorem test_hyp_queues : AdminReady tQ 0x82 (dsc 0x82 0 0xFFFF 0xFFFFFFFF 0) ∧ AdminReady tQ 0x83 (dsc 0x83 (3 * 2 ^ 16 + 3 * 2 ^ 32) 0 0 0) ∧
    AdminReady tNoStepq 0x83 (dsc 0x83 (3 * 2 ^ 16 + 2 ^ 34) 0 0 0) ∧ AdminReady (tMade 0) 0x84 (dsc 0x84 (3 * 2 ^ 16) 0 0 0) ∧
    AdminReady (tMade 1) 0x85 (dsc 0x85 (3 * 2 ^ 16) 0 0 0) ∧ ((tQ.dom 0).st = .active ∧ 3 < (tQ.dom 0).qcount ∧ (tQ.ctx 3).made = false ∧
    (tNoStepq.dom 0).stepqEn = false ∧ ((tMade 0).ctx 3).made = true ∧ ((tMade 0).ctx 3).cmd = none ∧ ((tMade 0).ctx 3).defer = none ∧
    ((tMade 0).ctx 3).stepq = false ∧ ((tMade 1).ctx 3).errc ≠ 0) :=
  ⟨rdy (by decide +kernel), rdy (by decide +kernel),
    rdy (by decide +kernel), rdy (by decide +kernel),
    rdy (by decide +kernel), by decide +kernel⟩

/-- Q_DELETE and Q_RESET of a queue outside the range, of a FREE one, of one with a command in flight, of one that works. -/
theorem test_hyp_queues_refused : AdminReady tQ 0x84 (dsc 0x84 (4 * 2 ^ 16) 0 0 0) ∧ AdminReady tQ 0x85 (dsc 0x85 (3 * 2 ^ 16) 0 0 0) ∧
    ((tQ.dom 0).qcount ≤ aQueue (dsc 0x84 (4 * 2 ^ 16) 0 0 0) ∧ (tQ.ctx 3).made = false ∧
    inFlight { tQ.ctx 0 with cmd := some { cmdOf 0 0 0 1 0 with admitted := true } } = true ∧ (tQ.ctx 0).kill = .no ∧ (tQ.ctx 0).errc = 0) :=
  ⟨rdy (by decide +kernel), rdy (by decide +kernel), by decide +kernel⟩

/-- Domain 15 in its teardown, its contexts acknowledged. -/
def tTear : State := tQ.setDom 15 { domDflt 15 with st := .tearing, gen := 0, qbase := 4, qcount := 2 }
theorem test_hyp_teardown : AdminReady tQ 0x81 (dsc 0x81 0 0 0 0) ∧ (tQ.dom (aDom (dsc 0x81 0 0 0 0))).st = .active ∧
    (tTear.dom 15).st = .tearing ∧ (tTear.dom 15).tearCtx = false :=
  ⟨rdy (by decide +kernel), by decide +kernel⟩
/-- A teardown that a DOM_TEARDOWN waits for. -/
def tTearCmd : State := (tTear.setDom 15 { tTear.dom 15 with tearCtx := true }).setCtx adminKey
  { tCtx adminKey with cmd := some (cmdOf 16 0 0 0 0) }
theorem test_hyp_teardown_ends : let s := tTearCmd; (s.dom 15).st = .tearing ∧ (s.dom 15).tearCtx = true ∧ (s.dom 15).qbase + (s.dom 15).qcount ≤ adminKey ∧
    (s.ctx adminKey).cmd = some (cmdOf 16 0 0 0 0) ∧ (cmdOf 16 0 0 0 0).muted = false := by decide +kernel
theorem test_last_generation_wraps : after (.teardownGenAcked ⟨15, 0, []⟩) tTear (fun t => (t.dom 15).lastGen == 0xFFF && (t.dom 15).st == .free) = true := by
  decide +kernel

/-! ## Commands of the domain queues: each opcode's command that is admitted -/

/-- Module address of offset o of segment 1. -/
def tMa (o : Nat) : Nat := 2 ^ 28 + o

/-- Problem 0 of the program, for GRADE. -/
def tProb : State := tQ.setProg 0 { tQ.prog 0 with problems := [problemNone] }

theorem test_hyp_prog_load (ok : Bool) :
    Admissible tNoProg 0 0 0 (dsc 0x01 0 64 0 0) (specProgLoad 0 (dsc 0x01 0 64 0 0) (if ok then some [] else none)) :=
  adm (by revert ok; decide +kernel)
theorem test_hyp_prog_unload : Admissible tQ 0 0 0 (dsc 0x02 0 0 0 0) (specProgUnload 0) :=
  adm (by decide +kernel)
theorem test_hyp_step : Admissible tQ 0 0 0 (dsc 0x10 0 0 0 0) (specStep 0 (dsc 0x10 0 0 0 0)) ∧ progBlocks tQ 0 = [0] :=
  ⟨adm (by decide +kernel), by decide +kernel⟩
/-- A copy to the last line of the segment. -/
def dCopy : Nat := dsc 0x20 (tMa 0) (tMa (2 ^ 28 - 64)) 64 0
theorem test_hyp_copy : Admissible tQ 0 0 0 dCopy (specCopy 0 dCopy) :=
  adm (by decide +kernel)
theorem test_hyp_host_write (ok : Bool) :
    Admissible tQ 0 0 0 (dsc 0x21 0 (tMa 64) 64 0) (specHostWrite 0 (dsc 0x21 0 (tMa 64) 64 0) (if ok then some [] else none)) :=
  adm (by revert ok; decide +kernel)
theorem test_hyp_host_read (ok : Bool) : Admissible tQ 0 0 0 (dsc 0x22 (tMa 0) 0x1000 128 0) (specHostRead 0 (dsc 0x22 (tMa 0) 0x1000 128 0) ok) :=
  adm (by revert ok; decide +kernel)
theorem test_hyp_reads : poisonHit tQ 0 [(tMa 0, 128)] = none ∧ fetchFails (2 ^ 512) = true ∧ fetchFails dCopy = false := by decide +kernel
theorem test_failed_ring_read : after (.copy 0 0 (2 ^ 512)) tQ (fun t => (t.ctx 0).errc == 2 && (t.ctx 0).head == 0) = true := by decide +kernel
theorem test_hyp_export : Admissible tQ 0 0 0 (dsc 0x30 0 0 0 0) (specExport 0 (dsc 0x30 0 0 0 0)) :=
  adm (by decide +kernel)
theorem test_hyp_import_arm : Admissible tQ 0 0 0 (dsc 0x31 (1 + 2097151 * 2 ^ 32) 0 0 0) (specImportArm 0 (dsc 0x31 (1 + 2097151 * 2 ^ 32) 0 0 0)) :=
  adm (by decide +kernel)
theorem test_hyp_freeze : Admissible tQ 0 0 0 (dsc 0x32 (2 ^ 63 + 1) 0 0 0) (specFreeze 0 (dsc 0x32 (2 ^ 63 + 1) 0 0 0)) ∧ stepRuns tQ 0 = false :=
  ⟨adm (by decide +kernel), by decide +kernel⟩
theorem test_hyp_grade : Admissible tProb 0 0 0 (dsc 0x40 (4 * 2 ^ 56) 0 0 0) (specGrade 0 (dsc 0x40 (4 * 2 ^ 56) 0 0 0)) :=
  adm (by decide +kernel)
theorem test_hyp_fence : Admissible tQ 0 0 0 (dsc 0x50 0 0 0 0) specFence :=
  adm (by decide +kernel)
theorem test_copy_ends : after (.copy 0 0 dCopy) (tQ.wr 0 0x5A) (fun t => t.rd (2 ^ 28 - 64) == 0x5A &&
    decide (t.rd (2 ^ 28 - 63) = 0)) = true := by decide +kernel

/-- The checks of a COPY in their order: a reserved bit, an odd length, a cost of 9 credits, an address outside every segment, credits in use;
a reserved opcode. -/
theorem test_hyp_checks : ctxOf tQ (.dom 0 0) = some 0 ∧ canFetch tQ 0 = true ∧ dOpc dCopy = 0x20 ∧ descClean (dCopy + 1) = false ∧
    (specCopy 0 (dsc 0x20 (tMa 0) (tMa 64) 63 0)).inRange = false ∧
    (let x := specCopy 0 (dsc 0x20 (tMa 0) (tMa 0) (8 * 2 ^ 20) 0); x.inRange = true ∧ (tQ.dom 0).quota < x.cost) ∧
    (let x := specCopy 0 (dsc 0x20 0 (tMa 0) 64 0); x.inRange = true ∧ x.cost ≤ (tQ.dom 0).quota ∧ x.static tQ 0 = some 0x13) ∧
    knownOpc false (dOpc (dsc 0x60 0 0 0 0)) = false ∧ descClean dCopy = true ∧ creditsFit (tQ.setDom 0 { tQ.dom 0 with inflight := 7 }) 0 (specCopy 0 dCopy).cost = false := by decide +kernel

/-- A COPY of a cost deferred in context 0. -/
def tDefer (cost : Nat) : State :=
  tQ.setCtx 0 { tQ.ctx 0 with defer := some (Defer.mk false cost 1 { cmdOf 0 0 dCopy cost 0 with deferred := true } false) }

theorem test_hyp_deferred : dataUp (tDefer 2) = true ∧ ((tDefer 2).dom 0).st = .active ∧
    ((deferredOf (tDefer 2) 0).find? (deferReady (tDefer 2) 0)).map (·.1) = some 0 ∧ 2 ≤ ((tDefer 2).dom 0).quota ∧
    (specOf 0 dCopy none).static (tDefer 2) 0 = none ∧
    ((deferredOf (tDefer 9) 0).find? (deferReady (tDefer 9) 0)).map (·.1) = some 0 ∧ ((tDefer 9).dom 0).quota < 9 := by decide +kernel

/-- A command of context 0 that has ended, its record at slot `tail` of a ring of 16. -/
def tEnded (tail : Nat) : State :=
  (tQ.setCtx 0 { tQ.ctx 0 with cqTail := tail, cqHead := 2, cmd := some { cmdOf 0 0 dCopy 2 0 with fin := .ended 0 0, admitted := true } }).setDom 0
    { tQ.dom 0 with inflight := 2 }
theorem test_hyp_completion : ctxOf (tEnded 15) (.dom 0 0) = some 0 ∧ 0 ≠ adminKey ∧ ((tEnded 15).ctx 0).cmd.map (fun c => (c.admitted, c.fin, c.dom)) = some (true, .ended 0 0, 0) ∧
    ((tEnded 15).ctx 0).head < 2 ^ 16 ∧ (0 : Nat) < 2 ^ 32 ∧ hostUp (tEnded 15) = true ∧ (tEnded 15).flt.chip = none ∧ cqFull ((tEnded 15).ctx 0) = false ∧ ((tEnded 15).ctx 0).kill ≠ .host ∧
    ((tEnded 15).ctx 0).errc = 0 := by decide +kernel
theorem test_phase_inverts_at_the_wrap : after (.commandCompletion (.dom 0 0) ⟨true, noPerf⟩) (tEnded 15) (fun t =>
    (t.ctx 0).cqTail == 0 && !(t.ctx 0).cqPhase && (t.dom 0).inflight == 0) = true := by decide +kernel

/-- A record unsignalled for COAL_T = 3 ticks, its vector masked or not. -/
def tCoal (m : Bool) : State :=
  ({ tQ with ticks := 3 }.setCtx 0 { tQ.ctx 0 with unsig := 1, coalT := 3 }).setMsix 1 0 { msixDflt 0 with masked := m }
theorem test_hyp_coalesce : 0 < ((tCoal true).ctx 0).unsig ∧ 0 < ((tCoal true).ctx 0).coalT ∧
    ((tCoal true).ctx 0).coalT ≤ (tCoal true).ticks - ((tCoal true).ctx 0).unsigTick ∧ hostUp (tCoal true) = true ∧
    ((tCoal true).msix (fnOfCtx (tCoal true) 0) 0).masked = true ∧ ((tCoal false).msix (fnOfCtx (tCoal false) 0) 0).masked = false := by
  decide +kernel

/-! ## The step -/

/-- Block 0 runs a step whose list l holds one item, in a given state. -/
def tRun (l : Nat) (w : Nat) (st : IState) : State :=
  (tQ.setProg 0 { tQ.prog 0 with lists := [(l, [itemOf w])] }).setBlk 0
    { blkDflt 0 with phase := .running, items := [(itemKey l 0, { itemDflt 0 with st := st })] }

/-- An item of a kind with one byte of payload at bit `at`. -/
def tItem (kind place v : Nat) : Nat := kind * 2 ^ 252 + v * 2 ^ (256 + place)

/-- What StartsNext asks, as one proposition to be decided. -/
theorem nxt {s : State} {b l i w : Nat}
    (h : blkRuns s b = true ∧ nextItem s b = some (l, i) ∧ (listOf s b l)[i]? = some (itemOf w)) : StartsNext s b l i (itemOf w) :=
  ⟨h.1, h.2.1, h.2.2⟩

/-- TILE and TILE_VEC items on array 0 of cell 15, a CHAIN item in cell 0. -/
theorem test_hyp_cells : StartsNext (tRun 15 (tItem 0 480 1) .ready) 0 15 0 (itemOf (tItem 0 480 1)) ∧ (itemOf (tItem 0 480 1)).hdr.kind = 0 ∧
    StartsNext (tRun 0 (tItem 1 0 0) .ready) 0 0 0 (itemOf (tItem 1 0 0)) ∧ (itemOf (tItem 1 0 0)).hdr.kind = 1 ∧
    StartsNext (tRun 15 (tItem 2 480 1) .ready) 0 15 0 (itemOf (tItem 2 480 1)) ∧ (itemOf (tItem 2 480 1)).hdr.kind = 2 :=
  ⟨nxt (by decide +kernel), by decide +kernel, nxt (by decide +kernel), by decide +kernel, nxt (by decide +kernel), by decide +kernel⟩
/-- The five Cutter operations. -/
theorem test_hyp_cut (o : Nat) (h : o ∈ [0x40, 0x41, 0x42, 0x43, 0x44]) :
    StartsNext (tRun 16 (tItem 4 1016 o) .ready) 0 16 0 (itemOf (tItem 4 1016 o)) ∧ (itemOf (tItem 4 1016 o)).hdr.kind = 4 ∧
    (itemOf (tItem 4 1016 o)).pass.opc = o := by
  simp only [List.mem_cons, List.not_mem_nil, or_false] at h
  obtain rfl | rfl | rfl | rfl | rfl := h <;> exact ⟨nxt (by decide +kernel), by decide +kernel, by decide +kernel⟩
theorem test_hyp_record (o : Nat) (h : o ∈ [1, 2]) :
    StartsNext (tRun 17 (tItem 3 56 o) .ready) 0 17 0 (itemOf (tItem 3 56 o)) ∧ isRecord o (itemOf (tItem 3 56 o)) = true := by
  simp only [List.mem_cons, List.not_mem_nil, or_false] at h
  obtain rfl | rfl := h <;> exact ⟨nxt (by decide +kernel), by decide +kernel⟩
theorem test_hyp_grd_item (o : Nat) (h : o ∈ [1, 2, 3, 4]) :
    StartsNext (tRun 17 (tItem 5 56 o) .ready) 0 17 0 (itemOf (tItem 5 56 o)) ∧ isGrd o (itemOf (tItem 5 56 o)) = true := by
  simp only [List.mem_cons, List.not_mem_nil, or_false] at h
  obtain rfl | rfl | rfl | rfl := h <;> exact ⟨nxt (by decide +kernel), by decide +kernel⟩
theorem test_hyp_xfer (o : Nat) (h : o ∈ [1, 2, 3, 16]) :
    StartsNext (tRun 17 (tItem 6 248 o) .ready) 0 17 0 (itemOf (tItem 6 248 o)) ∧ isXfer o (itemOf (tItem 6 248 o)) = true := by
  simp only [List.mem_cons, List.not_mem_nil, or_false] at h
  obtain rfl | rfl | rfl | rfl := h <;> exact ⟨nxt (by decide +kernel), by decide +kernel⟩
theorem test_hyp_mark : StartsNext (tRun 17 (tItem 7 0 0) .ready) 0 17 0 (itemOf (tItem 7 0 0)) ∧ (itemOf (tItem 7 0 0)).hdr.kind = 7 :=
  ⟨nxt (by decide +kernel), by decide +kernel⟩
theorem test_mark_starts : after (.mark 0) (tRun 17 (tItem 7 0 0) .ready) (fun t => ((t.blk 0).item 17 0).st == .running) = true := by
  decide +kernel
theorem test_other_row_does_not_start : after (.recordOpen 0) (tRun 17 (tItem 7 0 0) .ready) (fun t => t == tRun 17 (tItem 7 0 0) .ready) = true := by
  decide +kernel

/-- The step of domain 0 at a place of its order. -/
def tAt (o : Order) (s : State) : State := s.setStp 0 { s.stp 0 with order := o }
theorem test_hyp_release : let s := tAt .starting (tRun 17 (tItem 7 0 0) .waiting)
    (s.stp 0).order = .starting ∧ dataUp s = true ∧ (∀ b ∈ progBlocks s 0, alive s (regOfBlk b) = true ∧ (s.blk b).clkOff = false) := by
  decide +kernel
/-- A DEFER item that is ready, CMD_DEFER_MAX 1. -/
def tDeferItem (m : Nat) : State :=
  let s := tRun 17 (tItem 7 0 0 + 3 * 2 ^ 250) .ready
  { s with mgt := { s.mgt with live := [(key 0x4800 2, m)], applied := [(appKey (seqUnit 0) (key 0x4800 2), m)] } }
theorem test_hyp_defer : let s := tDeferItem 1
    blkRuns s 0 = true ∧ s.app (seqUnit 0) (key 0x4800 2) ≠ 0 ∧ bestOf s 0 (deferCands s 0) = some (17, 0) ∧
    (tDeferItem 0).app (seqUnit 0) (key 0x4800 2) = 0 := by decide +kernel
theorem test_hyp_item_complete : let s := tRun 17 (tItem 7 0 0) .running
    dataUp s = true ∧ alive s (regOfBlk 0) = true ∧ 0 < 65536 ∧
    (((s.blk 0).items.filter (fun e => e.2.st == .running)).map (·.1))[0]? = some (itemKey 17 0) ∧
    (listOf s 0 17)[0]? = some (itemOf (tItem 7 0 0)) ∧ itemDone s 0 17 0 (itemOf (tItem 7 0 0)) = true ∧
    ((s.blk 0).item 17 0).owed = none := by decide +kernel
theorem test_hyp_report : let s := tRun 17 (tItem 7 0 0) .done
    dataUp s = true ∧ alive s (regOfBlk 0) = true ∧ (s.blk 0).phase = .running ∧ (s.blk 0).pass = none ∧ itemsDone s 0 = true := by
  decide +kernel
theorem test_hyp_clip : let s := (tAt .clip (tRun 17 (tItem 7 0 0) .done)).setStp 0 { stepDflt 0 with order := .clip, clipped := 1 }
    dataUp s = true ∧ (s.stp 0).order = .clip ∧ (∀ b ∈ progBlocks s 0, mbit (s.stp 0).clipped b = true ∧ alive s (b / 6) = true) := by
  decide +kernel

/-- A signal to counter 5 of block 23, whose bank 0 holds step 2, attempt 1, and counts 0xFFFF. -/
def tSig (st : Nat) : State :=
  { tUp.setBlk 23 { blkDflt 23 with bank0 := { valid := true, step := 2, att := 1, ctr := [(5, 0xFFFF)] } } with
    sigs := [{ blk := 23, ctr := 5, step := st, att := 1 }] }
theorem test_hyp_signal : (tSig 2).sigs[0]? = some { blk := 23, ctr := 5, step := 2, att := 1 } ∧ alive (tSig 2) (regOfBlk 23) = true ∧
    ((tSig 2).blk 23).bank0.valid = true ∧ ((tSig 2).blk 23).bank1.valid = false ∧ tagNewer 4 1 2 1 = true ∧ tagNewer 0 1 2 1 = false ∧
    ¬ (2 = 0 % 65536 ∧ 1 = 1 % 16) ∧ alive ((tSig 2).setReg 3 { regDflt 3 with st := .resetting }) (regOfBlk 23) = false := by decide +kernel
theorem test_counter_saturates : after (.signalArrival 0) (tSig 2) (fun t => spGet zeroNat (t.blk 23).bank0.ctr 5 == 0xFFFF) = true := by
  decide +kernel
theorem test_newer_signal_clears : after (.signalArrival 0) (tSig 4) (fun t => spGet zeroNat (t.blk 23).bank0.ctr 5 == 1 &&
    (t.blk 23).bank0.step == 4) = true := by decide +kernel

/-! ## The Cutter's pass -/

/-- A PASS item of layer 0 with pages 0 and 1 and gradient segment 2, under way in block 0; its slot 1 is complete. -/
def tPass (wait : Nat) (taken : List Nat) (e : Dirent) : State :=
  let s := tRun 16 (tItem 4 1016 0x41 + 2 * 2 ^ (256 + 935) + 2 * 2 ^ (256 + 883)) .running
  (s.setBlk 0 { s.blk 0 with
    pass := some { idx := 0, falls := false, ct := 0x3F800000, taken := taken, wait := wait }, ready := [slotKey 0 0 2 1] }).setDir 1 e
def tPage : Dirent := { dirDflt 1 with valid := true }
theorem test_hyp_pass : let s := tPass 0 [] tPage
    blkRuns s 0 = true ∧ (passNow s 0).map (fun x => (x.1.wait, x.2.opc)) = some (0, 0x41) ∧
    (passNow s 0).map (fun x => readySlots s 0 0 x.2) = some [slotKey 0 0 2 1] ∧
    (passNow s 0).map (fun x => pageBlocked s 0 (x.2.page0 + slotNo x.2 (slotKey 0 0 2 1))) = some 0 ∧ (s.dir 1).frozen = false ∧
    s.back.poison = [] := by
  decide +kernel
theorem test_hyp_staging : let s := tPass 1 [] { tPage with tier := true }
    blkRuns s 0 = true ∧ mayStage s 0 1 = true ∧ freeStage (s.blk 0) = some 0 ∧ (passNow s 0).map (fun x => x.1.wait) = some 1 ∧
    (let t := s.setBlk 0 { s.blk 0 with staged := [(0, 1)] }
     (passNow t 0).map (fun x => (x.1.wait, waitPage t 0 x.1 x.2)) = some (1, some 1)) ∧
    (passNow (tPass 0 [] { tPage with tier := true }) 0).map (fun x => x.1.wait) ≠ some 1 := by decide +kernel
theorem test_hyp_pass_waits : (passNow (tPass 2 [] tPage) 0).map (fun x => (waitPage (tPass 2 [] tPage) 0 x.1 x.2, x.1.wait)) = some (some 1, 2) ∧
    ((tPass 2 [] tPage).dir 1).mig = false ∧
    (passNow (tPass 3 [1] tPage) 0).map (fun x => (x.1.taken.getLast?, x.1.wait, emitHeld (tPass 3 [1] tPage) 0 x.2)) = some (some 1, 3, false) ∧
    (passNow (tPass 4 [] tPage) 0).map (fun x => (waitPage (tPass 4 [] tPage) 0 x.1 x.2, x.1.wait)) = some (some 1, 4) ∧
    owesClip (tPass 4 [] tPage) 0 = false := by decide +kernel
theorem test_hyp_page_move : let s := tQ.setDir 1 { tPage with addr := 0x200000 + 100 }
    dataUp s = true ∧ (s.dir 1).valid = true ∧ (s.dir 1).mig = false ∧ layerPassRuns s (s.dir 1) = false ∧ pageState s (s.dir 1).dom 1 ≠ 2 ∧
    pageFits s (2 ^ 38) = true ∧
    (let t := { s.setDir 1 { s.dir 1 with mig := true } with back := { s.back with pmoves := [(1, 2 ^ 38)] } }
     (pageMoves t).find? (fun m => m.1 == 1) = some (1, 2 ^ 38)) := by decide +kernel

/-! ## Memory -/

theorem test_hyp_memory : MemoryOk (tUp.wr 7 1) ∧ (tUp.bind 0) = none ∧ (1 : Nat) ≠ 0 := by unfold MemoryOk; decide +kernel
theorem test_read_back : (tUp.wrBytes 6 [1, 0, 3]).rdBytes 6 3 = [1, 0, 3] ∧ (tUp.wrBytes 6 [1, 0, 3]).mem.length = 2 := by decide +kernel

/-- An access held for a slot of cell 0, its table not full, or its slot bound. -/
def tHeld (zero : Bool) : State :=
  { tUp with back := { tUp.back with held := [{ key := slotKey 0 0 2 1, zero := zero, src := 0, ops := [], deposit := none, counts := false }] } }
theorem test_hyp_held : (firstHeld (tHeld false) 0 false).isSome = true ∧ (bindsOf (tHeld false) 0).length < 256 ∧
    (firstHeld (tHeld true) 0 true).isSome = true ∧
    (((tHeld true).setBind (slotKey 0 0 2 1) { spill := true, att := 0, pool := 0, step := 0, exp := 0, remain := 0, used := 0 }).bind
      (slotKey 0 0 2 1)).isSome = true := by decide +kernel

/-- An item runs in cell 0 of block 0, whose stand-in is free, or has been taken, and whose position 0 was hit by a parity error before. -/
def tCell (k : Blk → Blk) : State :=
  let s := tRun 0 (tItem 0 480 1) .running
  s.setBlk 0 (k (s.blk 0))
theorem test_hyp_slice : tUp.pwr.rails = .up ∧ inDirectory 383 0 = false ∧ inSegTable tUp 383 0 = false ∧ contained tUp (383 / 96) = false ∧
    alive tUp (383 / 96) = true ∧ inDirectory 304 0x800000 = true ∧ inDirectory 0 0x7FFFFF = false := by decide +kernel
theorem test_hyp_cell_errors : let s := tCell id
    contained s (0 / 6) = false ∧ cellsRun s 0 = true ∧ runsAt s 0 0 = [itemKey 0 0] ∧ itemKey 0 0 / 65536 ≠ 16 ∧ substAt s 0 0 = false ∧ standInFree (s.blk 0) = true ∧
    (s.blk 0).subst = none ∧ standInFree ((tCell (fun k => { k with map := 0x8000FFFF })).blk 0) = false ∧
    runOverwrites s 0 (itemKey 0 0) = false ∧ spFind (s.blk 0).parity (physOf (s.blk 0) 0) = none ∧
    spFind ((tCell (fun k => { k with parity := [(0, 5)] })).blk 0).parity 0 = some 5 ∧
    spGet zeroNat ((tCell (fun k => { k with parity := [(0, 5)] })).blk 0).tiles 0 ≤ 5 + 1024 := by decide +kernel
def tSub : Subst := { pos := 15, cause := 2, worked := true, tick := 9 }
theorem test_hyp_substitution : let s := tCell (fun k => { k with subst := some tSub })
    (s.blk 0).subst = some tSub ∧ tSub.pos = 15 ∧ alive s (0 / 6) = true ∧ dataUp s = true ∧ 15 < 16 := by decide +kernel
theorem test_stand_in_takes_the_position : after (.substitutionComplete 0) (tCell (fun k => { k with subst := some tSub }))
    (fun t => bits (t.blk 0).map 21 17 == 15) = true := by decide +kernel

/-- A retrain of channel 63 handed over by its cue, and one under way. -/
def tChan (op : Nat) : State := { tUp with mgt := { tUp.mgt with cmdPend := [(key 0x6023 0, op * 256 + 63)] } }
def tOpr (st : Nat) : State :=
  { tUp with back := { tUp.back with ops := [{ op := 1, ch := 63, host := true, report := true }] } }.setRo (key 0x6020 63) st
theorem test_hyp_channels : channelCmd (tChan 1) 3 1 = some (key 0x6023 0, 256 + 63) ∧ channelCmd (tChan 2) 3 2 = some (key 0x6023 0, 512 + 63) ∧
    chState (tChan 1) 63 < 4 ∧ (tChan 1).back.ops = [] ∧ (opOf (tOpr 1) 15).isSome = true ∧ chState (tOpr 1) 63 = 1 ∧
    ((tOpr 2).back.ops.find? (fun o => chState (tOpr 2) o.ch == 2)).isSome = true ∧ chState (tOpr 6) 63 = 6 ∧ dataUp (tOpr 6) = true := by
  decide +kernel
theorem test_hyp_space : hasSpace (tChan 1) 15 = true ∧ usedIn (tOpr 1) 15 = [] := by decide +kernel
theorem test_hyp_granule : let s := { tUp with back := { tUp.back with moves := [(3, 2047)] } }
    s.back.moves.find? (fun m => m.1 == 3) = some (3, 2047) ∧ dataUp s = true ∧ (3 : Nat) ≠ 2047 := by decide +kernel
theorem test_hyp_dram : 0x8000000000 - 1 < 0x8000000000 ∧ dataUp tUp = true ∧ regOfPkg (devOf tUp ((0x8000000000 - 1) / 2 ^ 28) / 128) = 3 ∧
    contained tUp 3 = false ∧ alive tUp 3 = true ∧ tUp.back.suspect.contains 2047 = false ∧
    ({ tUp with back := { tUp.back with suspect := [2047] } }).back.suspect.contains 2047 = true := by decide +kernel

/-! ## The fabric -/

/-- Port 2 in UP4, the module at (0, 0, 0) of a torus of 4 × 1 × 1 in the units of regions 0 and 1. -/
def tPort (x : Port → Port) : State :=
  { tQ with mgt := { tQ.mgt with live := [(key 0x5000 1, 0x300)]
                                 applied := [(key 0x5000 1, 0x300), (0x1000000 + key 0x5000 1, 0x300)] } }.setPort 2
    (x { portDflt 2 with st := .up4 })

/-- Control of a frame of one header slot, number 0, with its CRC; link state `l`. -/
def tCtl (l : Nat) : Nat :=
  let c := 2 ^ 19 + l * 2 ^ 17
  setBits c 15 0 (frameCrc c (tFrame 0).slots)

theorem frameCrc_lt (c : Nat) (sl : List (List Byte)) : frameCrc c sl < 2 ^ (15 + 1 - 0) := crc16_lt _
theorem tCtl_crc (l n : Nat) : frameCrc (tCtl l) (tFrame n).slots = bits (tCtl l) 15 0 := by
  rw [show (tFrame n).slots = (tFrame 0).slots from rfl]
  have h : frameCrc (tCtl l) (tFrame 0).slots = frameCrc (2 ^ 19 + l * 2 ^ 17) (tFrame 0).slots := by
    unfold frameCrc tCtl; rw [setBits_setBits _ _ _ _ _ (by omega)]
  rw [h, tCtl, bits_setBits_same _ _ _ _ (by omega)]
  exact (Nat.mod_eq_of_lt (frameCrc_lt _ _)).symm
theorem tCtl_bits (l n k : Nat) (h : 15 < k) : bits (tCtl l) n k = bits (2 ^ 19 + l * 2 ^ 17) n k :=
  bits_setBits_other _ _ _ _ _ _ (by omega) (Or.inr h)

theorem test_hyp_frames : portListens (tPort id) 2 = true ∧ ({ tFrame 0 with bad := 1 }).bad ≠ 0 ∧ (tFrame (tCtl 0)).bad = 0 ∧
    frameCrc (tCtl 0) (tFrame (tCtl 0)).slots = bits (tCtl 0) 15 0 ∧ bits (tCtl 0) 18 17 = 0 ∧ isControl (tCtl 0) = false ∧
    bits (tCtl 0) 79 68 = (((tPort id).port 2).rxSeq + 1) % 4096 ∧ frameCrc (tCtl 2) (tFrame (tCtl 2)).slots = bits (tCtl 2) 15 0 ∧
    bits (tCtl 2) 18 17 = 2 ∧ (0 : Nat) ≠ (0xFFE + 1) % 4096 ∧ ((tPort (fun x => { x with st := .hold, back := .up3 })).port 2).st = .hold := by
  refine ⟨by decide +kernel, by decide, rfl, tCtl_crc 0 _, ?_, ?_, ?_, tCtl_crc 2 _, ?_, by decide, by decide +kernel⟩
  · rw [tCtl_bits _ _ _ (by omega)]; decide +kernel
  · unfold isControl; rw [tCtl_bits _ _ _ (by omega)]; decide +kernel
  · rw [tCtl_bits _ _ _ (by omega)]; decide +kernel
  · rw [tCtl_bits _ _ _ (by omega)]; decide +kernel

/-- A packet of a type and class for a coordinate, of domain 0 in its generation. -/
def tPkt (ty cls dst : Nat) : Packet := mkPacket tQ ty cls 0 dst [] [] []
def tTx : TxPkt := { cls := 0, bulk := false, src := 5, last := true, pkt := tPkt 3 0 1 }
def tSent : TxFrame := { fseq := 0, dom := some 0, srcs := [5], kinds := [], slots := [], tries := 0 }
theorem test_hyp_send : portUp (tPort id) 2 = true ∧ ((tPort (fun x => { x with retry := [tSent] })).port 2).retry ≠ [] ∧
    (∀ f ∈ ((tPort (fun x => { x with retry := [tSent] })).port 2).retry, f.tries < (tPort id).app (regOfPort 2) (key 0x5000 3)) ∧
    nextTx ((tPort (fun x => { x with tx := [tTx] })).port 2) = some (0, tTx) ∧ tTx.cls < ((tPort id).port 2).credit.length := by decide +kernel

/-- A packet received on port 2. -/
def tRx (k : Packet) (cls : Nat) : State := tPort (fun x => { x with rx := listSet cls [k] x.rx })
theorem test_hyp_forward : alive (tPort id) (regOfPort 2) = true ∧ dataUp (tPort id) = true ∧ rxOf (tRx (tPkt 3 0 0x100) 0) 2 0 = [tPkt 3 0 0x100] ∧
    hopOf (tPort id) (regOfPort 2) 0x300 ((tPkt 3 0 0x300).auxed || 2 ≥ 6) (some (2, 0)) = .out 1 1 ∧
    hopOf (tPort id) (regOfPort 2) 0x001 ((tPkt 3 0 0x001).auxed || 2 ≥ 6) (some (2, 0)) = .outside := by decide +kernel
theorem test_hyp_routing : fabCoord (tPort id) 1 = 0 ∧ (3 < 4 ∧ 0 < 4 ∧ 3 ≠ 0) ∧ 2 * ((0 + 4 - 3) % 4) ≤ 4 ∧ 4 < 2 * ((3 + 4 - 0) % 4) ∧
    hopOf (tPort id) 1 0x100 true none = .out 0 0 := by decide +kernel
/-- Across a ring of four, both ways as long, the + way is taken (R257). -/
theorem test_tie_goes_plus : ringHop 4 1 3 0 = (0, false) ∧ ringHop 4 3 1 0 = (0, true) := by decide

/-- A lane command on lane 9 (lane 1 of port 2) handed over by its cue. -/
def tLane (op : Nat) (x : Port → Port) : State :=
  { tPort x with mgt := { (tPort x).mgt with cmdPend := [(key 0x5032 0, op * 256 + 9)] } }
theorem test_hyp_lane_commands : laneCmd (tLane 1 id) 1 = some (256 + 9) ∧ laneCmd (tLane 2 id) 2 = some (512 + 9) ∧ ((tLane 1 id).port 2).st = .up4 ∧
    ((tLane 1 id).port 2).lreq = none ∧ (tLane 1 id).fab.lane = none ∧ portUp (tLane 1 id) 2 = true ∧
    ((tLane 1 (fun x => { x with st := .up3 })).port 2).st ≠ .up4 := by decide +kernel
theorem test_hyp_lane_changes : ((tPort (fun x => { x with st := .training })).port 2).st = .training ∧
    (∀ l, l < 4 → (tPort id).ro? (laneKey (4 * 2 + l)) ≠ 2) ∧ ((tPort id).setRo (laneKey 11) 2).ro? (laneKey (4 * 2 + 3)) = 2 ∧
    (∀ m, m < 4 → m ≠ 3 → ((tPort id).setRo (laneKey 11) 2).ro? (laneKey (4 * 2 + m)) ≠ 2) ∧
    ((tPort (fun x => { x with lreq := some (3, true) })).port 2).lreq = some (3, true) ∧
    portUp (tPort (fun x => { x with lreq := some (3, true) })) 2 = true ∧
    (let s := { (tPort id).setRo (laneKey 11) 1 with fab := { ((tPort id).setRo (laneKey 11) 1).fab with lane := some { op := 1, lane := 11 } } }
     s.fab.lane = some { op := 1, lane := 11 } ∧ 11 / 4 = 2 ∧ (s.port 2).lreq = none ∧ s.ro? (laneKey 11) = 1) := by decide +kernel
theorem test_hyp_lane_loss : 11 < 32 ∧ dataUp (tPort id) = true ∧ ((tPort id).port (11 / 4)).st = .up4 ∧
    ((tPort (fun x => { x with st := .up3, lost := 0 })).port (11 / 4)).st = .up3 ∧
    ((tPort (fun x => { x with st := .up3, lost := 0 })).port (11 / 4)).lost ≠ 11 % 4 ∧ ((tPort id).reg (regOfPort (11 / 4))).st ≠ .resetting := by
  decide +kernel

/-- Packets for this module: of the current generation, and of a stale one. -/
theorem test_hyp_packets : (tPkt 0x01 0 0).dst = fabCoord (tPort id) (regOfPort 2) ∧ (tPkt 0x01 0 0).ty = 0x01 ∧
    rxOf (tRx (tPkt 0x33 1 0) 1) 2 1 = [tPkt 0x33 1 0] ∧ (tPkt 0x33 1 0).current (tRx (tPkt 0x33 1 0) 1) = true ∧
    ({ tPkt 0x33 1 0 with hdr := setBits (tPkt 0x33 1 0).hdr 487 476 9 }).current (tPort id) = false ∧
    (∀ ty, ty ∈ [0x20, 0x21, 0x22, 0x23] → combineOf (tRx (tPkt ty 2 0) 2) 2 (fun x => x.ty == ty) = some (0, tPkt ty 2 0)) := by decide +kernel
theorem test_hyp_tdown : combineOf (tRx (tPkt 0x11 2 0) 2) 2 (fun x => x.ty == 0x11) = some (0, tPkt 0x11 2 0) ∧
    childPorts (tRx (tPkt 0x11 2 0) 2) (tPkt 0x11 2 0).grp = [] ∧ (tPkt 0x11 2 0).current (tRx (tPkt 0x11 2 0) 2) = true := by decide +kernel

/-- A child's chunk that meets its entry, and one of a chunk that has been completed. -/
def tComb : Comb :=
  { dom := 0, grp := 0, xid := 0, root := false, len := 0, addr := 0, dexp := 0, bulk := false, step := 0, src := 0, last := true
    slotLast := true, sig := 0, own := none, kids := [] }
def tTup (cs : List Comb) (done : List (Nat × Nat × Nat)) : State :=
  let s := tRx (tPkt 0x10 2 0) 2
  { s with fab := { s.fab with combs := cs, done := done } }
theorem test_hyp_tup : tupFate (tTup [tComb] []) 2 (tPkt 0x10 2 0) = (1, some tComb) ∧ tupFate (tTup [] [(0, 0, 0)]) 2 (tPkt 0x10 2 0) = (3, none) ∧
    combineOf (tTup [tComb] []) 2 (fun x => x.ty == 0x10 && (!x.current (tTup [tComb] []) || (tupFate (tTup [tComb] []) 2 x).1 != 0)) =
      some (0, tPkt 0x10 2 0) ∧
    combineOf (tTup [] [(0, 0, 0)]) 2 (fun x => x.ty == 0x10 && (!x.current (tTup [] [(0, 0, 0)]) || (tupFate (tTup [] [(0, 0, 0)]) 2 x).1 != 0)) =
      some (0, tPkt 0x10 2 0) := by decide +kernel

theorem test_hyp_packet_effects :
    (let k := mkPacket tQ 0x03 0 0 0 [(500, 1), (395, 1), (390, 23)] [] []
     k.ty = 0x03 ∧ k.last = true ∧ k.sigEn = true ∧ k.sigBlk < 24 ∧ tQ.back.held.any (fun h => h.src == transferSrc k) = false) ∧
    (let k := mkPacket tQ 0x01 0 0 0 [(336, 2 ^ 40 - 256)] [] [1]
     k.ty = 0x01 ∧ maOff k.addr + k.data.length ≤ 2 ^ 28 ∧ k.addr < 2 ^ 40 ∧ (tQ.seg k.dom (maSeg k.addr)).valid = false) := by decide +kernel
theorem test_hyp_no_segment (o : Nat) : segLoc segNone 0 4095 o = .miss := by simp [segLoc, segNone]

/-- A daily of domain 0 that is running, with a page of region 0 in a state, or finished by its engines. -/
def tDay (st : Nat) (mig : Bool) (en : Nat) : State :=
  ((tQ.setDir 1 { tPage with mig := mig }).setDay 0 { dayDflt 0 with running := true, states := [(1, st)], engines := en }).setProg 0
    { tQ.prog 0 with pages := [{ page := 1, owner := 0, layer := 0, image := false }] }
theorem test_hyp_daily : alive (tDay 1 false 0) 0 = true ∧ ((tDay 1 false 0).day 0).running = true ∧ mbit ((tDay 1 false 0).day 0).engines 0 = false ∧
    nextDaily (streamDone (tDay 1 false 0) 0 0) 0 0 = some 1 ∧ nextDaily (streamDone (tDay 3 false 0) 0 0) 0 0 = some 1 ∧
    nextDaily (streamDone (tDay 2 false 0) 0 0) 0 0 = none ∧ nextDaily (streamDone (tDay 1 true 0) 0 0) 0 0 = some 1 ∧
    ((streamDone (tDay 1 true 0) 0 0).dir 1).mig = true ∧ ((tDay 1 false 15).day 0).engines = 15 := by decide +kernel

/-! ## The Graders -/

def tSlot : GSlot :=
  { dom := 0, lslot := 0, prob := { problemNone with blks := [0] }, feeding := false, drifts := [], feedHeld := false, queued := none, commits := 0
    again := false, cold := false, pub := none, figs := [] }
/-- Slot 3 of region 0's Grader, which solves it or is free. -/
def tGrd (run : Option Nat) (f : GSlot → GSlot) : State :=
  tQ.setGrd 0 { grdDflt 0 with slots := [(3, f tSlot)], run := run }
theorem test_hyp_graders : spFind ((tGrd none (fun x => { x with feeding := true })).grd 0).slots 3 = some { tSlot with feeding := true } ∧
    alive (tGrd none id) 0 = true ∧ ((tGrd none id).grd 0).run = none ∧
    (∃ e ∈ ((tGrd none (fun x => { x with queued := some (1, 0) })).grd 0).slots, e.2.queued.isSome = true ∧ e.2.feeding = false) ∧
    runSlot (tGrd (some 3) id) 0 = some (3, tSlot) ∧ 3 ≤ 3 ∧ 1 ≤ tSlot.prob.blks.length ∧ (tGrd (some 3) id).back.poison = [] := by
  decide +kernel
/-- The result header at segment 1, offset 0, is VALID. -/
def tDue : State :=
  (tGrd (some 3) (fun x => { x with prob := { hdr := tProbHdr, blks := [0] } })).wr 63 0x80
where
  /-- A problem header that names result header address 2^28. -/
  tProbHdr : Nat := 2 ^ 28 * 2 ^ 280
theorem test_hyp_deadline : (runSlot tDue 0).map (fun x => deadlineDue tDue 0 x.2) = some true ∧ tDue.back.poison = [] := by decide +kernel

/-! ## Faults and recovery -/

/-- Records written and acknowledged. -/
def tLog (head ack : Nat) : State := { tUp with flt := { tUp.flt with head := head, ack := ack } }
theorem test_hyp_log : (255 ≤ 255 ∧ 255 < 1 + 255) ∧ (tLog 255 0).flt.head < (tLog 255 0).flt.ack + 256 ∧
    (tLog 256 0).flt.ack + 256 ≤ (tLog 256 0).flt.head := by decide

theorem test_hyp_hangs : dataUp tUp = true ∧ alive tUp 3 = true ∧ (tUp.reg 3).st ≠ .resetting ∧ 23 / 6 = 3 ∧
    (let s := tUp.setBlk 23 { blkDflt 23 with phase := .running, wdt := 0xFFFFFFFF }; wdtExpired s 23 = true) ∧
    grdBusy ((tGrd (some 3) id).grd 0) = true ∧ inChipReset tUp = false ∧
    ((tUp.setReg 3 { regDflt 3 with st := .resetting }).reg 3).st = .resetting ∧
    (let s := { tQ with ticks := 2 ^ 32 }.setXch 15 { xchDflt 15 with contributed := some 0 }; xchLate s 15 = true) ∧
    tUp.pwr.coldWait = false ∧ tUp.flt.chip = none := by decide +kernel

/-- Region 3 at a stage of its reset, its dump in slot 3. -/
def tStage (g : RStage) : State :=
  (tUp.setReg 3 { regDflt 3 with st := .resetting, stage := g, recNo := 7, slot := 3 }).setDump 3 { dumpDflt 3 with held := true, region := 3, recNo := 7 }
theorem test_hyp_dump : ((tStage .killed).reg 3).stage = .killed ∧ ((tStage .killed).dump 0).held = false ∧
    (let s := ((tStage .killed).setDump 0 { dumpDflt 0 with held := true }); (s.dump 1).held = false ∧ ∀ m, m < 1 → (s.dump m).held = true) ∧
    ((tStage .dumping).reg 3).stage = .dumping ∧ ((tStage .dumping).dump ((tStage .dumping).reg 3).slot).region = 3 ∧
    ((tStage .dumping).dump ((tStage .dumping).reg 3).slot).recNo = ((tStage .dumping).reg 3).recNo := by decide +kernel
theorem test_hyp_reset_ends : ((tStage .reset).reg 3).stage = .reset ∧ ((tStage .reset).reg 3).st = .resetting ∧ inChipReset (tStage .reset) = false ∧
    ((tStage .reset).reg 3).affected = 0 ∧ (∀ d, d < 16 → ((tStage .reset).stp d).order = .none) := by decide +kernel
theorem test_region_returns : after (.regionResetComplete 3) (tStage .reset) (fun t => (t.reg 3).st == .online) = true := by decide +kernel
theorem test_hyp_chip_reset : tChip.flt.chip.isSome = true ∧ tChip.pwr.refclk = true ∧ tChip.pwr.supply = .on ∧ tChip.cp.heldBar = [] ∧ (∀ d, d < 16 → (tChip.dom d).st = .free ∧ (tChip.stp d).order = .none) ∧
    (let s := (List.range 4).foldl (fun s r => s.setReg r { regDflt r with stage := .reset }) tChip; ∀ r, r < 4 → (s.reg r).stage = .reset) := by
  decide +kernel

/-- A command of region 3 handed over by its cue, the region in a state. -/
def tRegCmd (v : Nat) (st : RState) : State :=
  { tUp with mgt := { tUp.mgt with cmdPend := [(kRegCmd 3, v)] } }.setReg 3 { regDflt 3 with st := st }
theorem test_hyp_region_commands : cmdPending (tRegCmd 1 .online) (kRegCmd 3) 1 = true ∧ ((tRegCmd 1 .online).reg 3).st = .online ∧
    cmdPending (tRegCmd 2 .offline) (kRegCmd 3) 2 = true ∧ ((tRegCmd 2 .offline).reg 3).st = .offline ∧
    cmdPending (tRegCmd 3 .draining) (kRegCmd 3) 3 = true ∧ ((tRegCmd 3 .draining).reg 3).st = .draining ∧
    inChipReset (tRegCmd 3 .draining) = false ∧ cmdPending (tRegCmd 4 .online) (kRegCmd 3) 4 = true ∧
    drains (tRegCmd 0 .draining) 3 = false ∧
    (let s := tUp.setReg 3 { regDflt 3 with st := .offline, onlining := true }
     (s.reg 3).st = .offline ∧ (s.reg 3).onlining = true ∧ ∀ d, d < 16 → (s.stp d).order = .none) := by decide +kernel
theorem test_drained_region_is_offline : after (.regionDrained 3) (tRegCmd 0 .draining) (fun t => (t.reg 3).st == .offline) = true := by
  decide +kernel

/-- A strike of the clapper at tick 0. -/
def tStruck (now : Nat) : State := { tUp with ticks := now, flt := { tUp.flt with strike := some 0 } }
theorem test_hyp_clapper : mbit (clapSrc tUp) 8 = true ∧ tUp.flt.strike = none ∧ tUp.flt.clapSeq < 0xFFFFFFFF ∧ 280 ≤ 280 ∧ 199 < 200 ∧
    (tStruck 1250).flt.strike = some 0 ∧ (tStruck 1250).ticks - 0 ≤ 1250 := by decide +kernel
theorem test_hyp_fault_entries : (3 ≤ (tLog 3 0).flt.head ∧ 3 < 2 ^ 32) ∧ (tLog 3 0).flt.head < 4 ∧
    ((tStage .dumping).dump 3).held = true ∧ ((tStage .dumping).dump 3).valid = false ∧
    ((tUp.setDump 3 { dumpDflt 3 with held := true, valid := true }).dump 3).valid = true ∧ ucodeBusy tUp = false ∧
    ({ tUp.flt with usts := 2 }).usts = 2 ∧
    (let s := { tUp with flt := { tUp.flt with ubank1 := true } }; (if s.flt.usel = 0 then s.flt.ubank1 else s.flt.ubank0) = true) ∧
    ({ tUp.flt with usts := 1 }).usts = 1 ∧ ({ tUp.flt with usts := 3 }).usts = 3 := by decide +kernel

/-! ## The dictionary -/

def tRead (i sub ty : Nat) : DictOp := { index := i, sub := sub, ty := ty, shadow := false, offset := 0, value := [] }
theorem test_hyp_dictionary : reaches tUp .mailbox = true ∧ tUp.sec.phase ≠ .recovery ∧
    (entryAt 0x9000 3).map (fun e => (e.acc, e.ty)) = some (2, 0) ∧ isProtected tUp 0x9000 3 = false ∧
    entryAt 0x0FFF 0 = none ∧ isProtected tUp 0x0FFF 0 = false ∧
    isProtected tUp 0xA040 0 = true ∧ classAt { tUp with sec := { tUp.sec with privSrc := 0 } } (.t1s 1 9000 false) 0xA040 = .ordinary := by
  decide +kernel
/-- A write of PWR_LIMIT within its range. -/
def tWrite : DictOp := fixedOp 0x3000 0 1 400
theorem test_hyp_shadow_write : ((entryAt 0x3000 0).map (fun e => (e.acc, decide (e.ty < 6), e.ty == tWrite.ty, e.grp != 0,
      inRange e (leNat tWrite.value), tWrite.value.length == tyWidth e.ty)) = some (1, true, true, true, true, true)) ∧
    isLsEntry 0x3000 0 = false ∧ rulesHold tUp 0x3000 0 400 = true ∧ isProtected tUp 0x3000 0 = false ∧
    (0x2010 ≤ 0x3000 ∧ 0x3000 < 0xA000) ∧ ¬ (0x3000 = 0x9000 ∧ (0 : Nat) = 3) := by decide +kernel
theorem test_write_goes_to_the_shadow : after (.write .mailbox tWrite) tUp (fun t => t.shadow (key 0x3000 0) == 400 &&
    t.live (key 0x3000 0) != 400) = true := by decide +kernel
/-- A mailbox request of 16 bytes under way. -/
def tMail : State := { tUp with mgt := { tUp.mgt with mb := { tUp.mgt.mb with st := .busy, len := 16 } } }
theorem test_hyp_parts : exec .powerUp State.reset =
    .next { State.reset with pwr := { State.reset.pwr with supply := .charging } } := rfl
theorem test_hyp_messages : tMail.mgt.mb.st = .busy ∧ ctlUp tMail = true ∧ tMail.mgt.mb.drop = false ∧ 16 ≤ tMail.mgt.mb.len ∧ tMail.mgt.mb.len ≤ 4096 ∧ tUp.mgt.phyOn = true ∧ reaches tUp (.t1s 1 9000 false) = true ∧
    1452 < (fill 1453 0).length ∧ (fill 1452 0).length ≤ 1452 ∧ reaches tSecure .secure = true ∧
    cachedFor { tUp.mgt with cache := [{ addr := 1, seq := 0, bytes := [] }] } 1 0 = some [] ∧ tUp.mgt.mb.st ≠ .busy ∧ tUp.mgt.rxq = [] ∧
    tUp.pwr.supply = .on ∧ 0 ≠ tUp.live (key 0x8100 3) ∧ reaches { tUp with mgt := { tUp.mgt with phyOn := true }, sec := { tUp.sec with lock := false } }
      (.t1s 1 9000 false) = false := by decide +kernel
/-- A datagram waits behind a BUSY mailbox request. -/
theorem test_datagram_waits : after (.dictMessage (.t1s 1 9000 false) (tMail.live (key 0x8100 3)) ⟨true, []⟩) tMail (fun t =>
    t.mgt.rxq.length == 1 && t.out == []) = true := by decide +kernel
theorem test_fcs_error_is_counted : after (.dictMessage (.t1s 1 9000 false) 0 ⟨false, []⟩) tUp (fun t => t.ro? (kT1s 2) == 1 && t.ro? (kT1s 0) == 0) = true := by
  decide +kernel
theorem test_hyp_takes : 0xFFF ≤ 0xFFF ∧ (let s := { tUp with mgt := { tUp.mgt with apply := [(7, 3)] } }
      (7, 3) ∈ s.mgt.apply ∧ unitAlive s 3 = true ∧ atBoundary s 7 3 = true ∧
      unitAlive (s.setReg 3 { regDflt 3 with st := .resetting }) 3 = false ∧ atBoundary (tPort (fun x => { x with asm := [[]] })) 5 1 = false) ∧ ({ tUp.mgt with prevNum := 1 }).prevNum ≠ 0 ∧ tUp.mgt.prevNum = 0 ∧
    ({ tUp.mgt with nvWrite := some (liveImage tUp.mgt), nvNext := true }).nvWrite = some (liveImage tUp.mgt) ∧ tUp.mgt.nvNext = false ∧
    cueApplyMask tUp = 0 ∧ tUp.mgt.sweep = false ∧ ({ tUp.mgt with sweep := true }).sweep = true := by
  decide +kernel
/-- Bounds of CUT_LS_INIT: the least subnormal and the largest finite number; and a write above the maximum in the shadow. -/
theorem test_hyp_cut_ls : 0 < (0x00000001 : Word).toNat ∧ (0x007FFFFF : Word).toNat < 0x00800000 ∧ 0x00800000 ≤ (0x00800000 : Word).toNat ∧ (0x7F7FFFFF : Word).toNat ≤ 0x7F7FFFFF ∧
    tUp.shadow (key 0x7080 4) ≤ roundLs 0x40400000 ∧ roundLs 0x40400000 ≤ tUp.shadow (key 0x7080 5) ∧
    tUp.shadow (key 0x7080 5) < roundLs 0x7F7FFFFF ∧ 0x7F800000 ≤ (0x7F800000 : Word).toNat := by decide +kernel
theorem test_hyp_another_address : ∃ n, n ≠ linkLocal := ⟨linkLocal + 1, by omega⟩
theorem test_round_down : roundLs 0x40400000 = 0x40000000 ∧ roundLs 0x007FFFFF = 0x00400000 := by decide +kernel
theorem test_hyp_segment : tUp.mgt.phyOn = true ∧ ctlUp tUp = true ∧ tUp.mgt.noBeacon = false ∧ ({ tUp.mgt with noBeacon := true }).noBeacon = true ∧
    (let s := { tUp with mgt := { tUp.mgt with live := [(key 0x8100 1, 1)] } }; s.live (key 0x8100 1) = 1) := by decide +kernel

/-! ## Arithmetic and scale records -/

theorem test_hyp_scale : ((16 : Nat) - 1 < 16) ∧ (let w := 5 * 2 ^ 304 + 1 * 2 ^ 278
    5 % 65536 = bits w 319 304 ∧ 2 ≠ bits w 281 278 ∧ 6 % 65536 ≠ bits w 319 304 ∧ bits w 415 384 = 0) := by decide +kernel

/-! ## Stores of the commands of the domain queues -/

/-- A program image of page 1 in cell 0 with INIT = IMAGE and page 2 in cell 383 without, whose record bytes are all 0x5A. -/
def tWords : List Nat := [1 * 2 ^ 43 + 2 ^ 12, 2 * 2 ^ 43 + 383 * 2 ^ 34]
def tHead : List Byte :=
  leBytes 8 (0x31445055 + 1 * 2 ^ 32 + 2 * 2 ^ 48) ++ fill 56 0 ++ leBytes 16 (2 + 96 * 2 ^ 32 + 16 * 2 ^ 80) ++
    leBytes 16 (3 + 112 * 2 ^ 32 + 131072 * 2 ^ 80) ++ tWords.flatMap (leBytes 8)
def tImage : List Byte := tHead ++ fill 131072 0x5A
def tImg : Image :=
  { segs := [], pages := tWords.map pageRow
    records := fill 131072 0x5A, problems := [], hdrs := [], items := [], sets := 0 }

theorem fill_length (n : Nat) (b : Byte) : (fill n b).length = n := List.length_replicate

theorem tHead_length : tHead.length = 112 := by decide +kernel
theorem tImage_length : tImage.length = 131184 := by
  unfold tImage; rw [List.length_append, tHead_length, fill_length]
theorem tImage_sections : sections tImage = some [(2, 96, 16), (3, 112, 131072)] := by
  unfold sections
  rw [tImage_length]
  decide +kernel
theorem tImage_records : (tImage.drop 112).take 131072 = fill 131072 0x5A := by
  unfold tImage
  rw [← tHead_length, List.drop_left]
  exact List.take_of_length_le (Nat.le_of_eq (fill_length _ _))
/-- An image without segments, problems, working copies and lists. -/
theorem parse_pages {im : List Byte} {ss : List Sect} {pw : List Nat} {recs : List Byte} (hs : sections im = some ss)
    (h1 : sectBytes im ss 1 = []) (hw : (chunks 8 (sectBytes im ss 2)).map leNat = pw) (h2 : (sectBytes im ss 2).length % 8 = 0)
    (hb : (List.range pw.length).find? (fun i => pageRowBad (pw.getD i 0)) = none) (h3 : sectBytes im ss 3 = recs)
    (hl : recs.length = 131072 * (pw.filter (fun w => bits w 13 12 == 1)).length)
    (h4 : sectBytes im ss 4 = []) (h5 : sectBytes im ss 5 = []) (h6 : sectBytes im ss 6 = []) :
    parseImage im = .ok { segs := [], pages := pw.map pageRow, records := recs, problems := [], hdrs := [], items := [], sets := 0 } := by
  unfold parseImage
  rw [hs]
  dsimp only
  rw [h1, hw, h2, hb, h3, hl, h4, h5, h6]
  simp
  rfl
theorem tImage_parses : parseImage tImage = .ok tImg := by
  exact parse_pages tImage_sections rfl (by decide +kernel) rfl (by decide +kernel) tImage_records (by rw [fill_length]; decide +kernel) rfl rfl rfl

/-- Domain 0 with a memory limit and no program; PROG_LOAD of n bytes. -/
def tLimit : State :=
  let s := tNoProg.setDom 0 { tNoProg.dom 0 with memlim := 1000 }
  { s with ro := (List.range 4).map (fun r => (key 0x6002 (0x10 + r), 8194)), mgt := { s.mgt with live := (List.range 4).foldl (fun l r => (key 0x6002 r, 2) :: l) [(key 0x6001 0, 32)] } }
def dLoad (n : Nat) : Nat := dsc 0x01 0 n 0 0
/-- Its state once a PROG_LOAD is admitted. -/
def tGrant (im : List Byte) (n : Nat) : State := grant tLimit 0 (cmdAt tLimit 0 0 (dLoad n) (specProgLoad 0 (dLoad n) (some im)))

/-- Images of one segment: with reserved FMT code 7, and of 16 MiB with PIN, which no cell has room for. -/
def tSegImage (e : Nat) : List Byte :=
  leBytes 8 (0x31445055 + 1 * 2 ^ 32 + 1 * 2 ^ 48) ++ fill 56 0 ++ leBytes 16 (1 + 80 * 2 ^ 32 + 32 * 2 ^ 80) ++ leBytes 32 (2 ^ 255 + e)
def tFmtImage : List Byte := tSegImage (7 * 2 ^ 244)
def tPinImage : List Byte := tSegImage (2 ^ 250 + 2 ^ 18 * 2 ^ 192)
/-- An image as PROG_LOAD finds it: whether it parses, the reason of its check, and that of its placement. -/
def loadOf (s : State) (im : List Byte) : Option (Option Nat × Option Nat) :=
  match parseImage im with
  | .ok m => some ((checkImage s m).map (·.1), match placeImage s 0 m with
    | .ok _ => none
    | .error r => some r.1)
  | .error _ => none

theorem load_static {s : State} {d k desc : Nat} {im : List Byte} {m : Image} (hp : parseImage im = .ok m)
    (h : ((s.prog d).loaded = false) ∧ imageUnits m ≤ (s.dom d).memlim) : (specProgLoad d desc (some im)).static s k = none := by
  simp [specProgLoad, overLimit, hp, h.1, Nat.not_lt.2 h.2]
/-- An image that does not parse, one that fails a check, one that finds no room, and one that is placed, its pages apart. -/
theorem test_hyp_load : MemoryOk tLimit ∧ Admissible tLimit 0 0 0 (dLoad 64) (specProgLoad 0 (dLoad 64) (some [])) ∧ loadOf tLimit [] = none ∧
    Admissible tLimit 0 0 0 (dLoad 112) (specProgLoad 0 (dLoad 112) (some tFmtImage)) ∧
    (loadOf (tGrant tFmtImage 112) tFmtImage).map (·.1) = some (some 2) ∧
    Admissible tLimit 0 0 0 (dLoad 112) (specProgLoad 0 (dLoad 112) (some tPinImage)) ∧
    loadOf (tGrant tPinImage 112) tPinImage = some (none, some 6) ∧
    Admissible tLimit 0 0 0 (dLoad 131184) (specProgLoad 0 (dLoad 131184) (some tImage)) ∧
    checkImage (tGrant tImage 131184) tImg = none ∧ (match placeImage (tGrant tImage 131184) 0 tImg with
      | .ok u => decide (tImg.pages.map (fun r => (u.dir r.page).addr)).Nodup
      | .error _ => false) = true ∧ (tImg.pages.filter (·.image)).length = 1 :=
  ⟨by unfold MemoryOk; decide +kernel, adm (by decide +kernel), by decide +kernel, adm (by decide +kernel), by decide +kernel, adm (by decide +kernel),
    by decide +kernel, adm ⟨by decide +kernel, by decide +kernel, load_static tImage_parses (by decide +kernel), by decide +kernel, by decide +kernel,
      by decide +kernel⟩, by decide +kernel, by decide +kernel, by decide +kernel⟩

/-- A GRADE request 1 of problem 0, whose slot 3 of Grader 0 is free to feed; its header at the start of segment 1. -/
def tGradeProb : Problem := { hdr := 2 ^ 28 * 2 ^ 280, blks := [0] }
def tGrade : State :=
  (tQ.setProg 0 { tQ.prog 0 with problems := [tGradeProb] }).setGrd 0 { grdDflt 0 with slots := [(3, { tSlot with prob := tGradeProb })] }
def dGrade : Nat := dsc 0x40 (1 * 2 ^ 56) 0 0 0
theorem test_hyp_grade_stores : MemoryOk tGrade ∧ Admissible tGrade 0 0 0 dGrade (specGrade 0 dGrade) ∧ problemAt tGrade 0 0 = some tGradeProb ∧
    alive tGrade 0 = true ∧ slotAt tGrade 0 0 0 = some (3, { tSlot with prob := tGradeProb }) ∧ bits (dw dGrade 1) 63 56 = 1 ∧
    (tGrade.grd 0).run ≠ some 3 ∧ tSlot.feeding = false ∧ dataOk tGrade 0 tGradeProb.rhdr 64 = true :=
  ⟨by unfold MemoryOk; decide +kernel, adm (by decide +kernel), by decide +kernel⟩
theorem test_hyp_grade_dead : let p : Problem := { hdr := 3 * 2 ^ 496, blks := [0] }
    let s := (tQ.setProg 0 { tQ.prog 0 with problems := [p] }).setReg 3 { regDflt 3 with st := .resetting }
    Admissible s 0 0 0 dGrade (specGrade 0 dGrade) ∧ problemAt s 0 0 = some p ∧ alive s p.greg = false :=
  ⟨adm (by decide +kernel), by decide +kernel⟩
/-- EXPORT where no import is armed, and to another module where one is. -/
def dAway : Nat := dsc 0x30 0 0x100 0 0
def tArmed : State := (tPort id).setDay 0 { dayDflt 0 with imps := [{ ctx := 1, src := 0, page := 1, n := 1, done := [], count := none }] }
theorem test_hyp_export_stores : (∀ e, (tQ.day e).imps = []) ∧ Admissible tArmed 0 0 0 dAway (specExport 0 dAway) ∧
    (let g := grant tArmed 0 (cmdAt tArmed 0 0 dAway (specExport 0 dAway))
     ∀ p ∈ exportPackets g 0 dAway, hopOf g (tArmed.ctx 0).home p.dst false none ≠ .here) :=
  ⟨fun _ => rfl, adm (by decide +kernel), by decide +kernel⟩

/-! ## Stores of items, reads that go on, boot and update -/

/-- The pass of `tPass`, with slot 1 of the layer bound; its page free, or in a move. -/
def tBound (mig : Bool) : State :=
  (tPass 0 [] { tPage with mig := mig }).setBind (slotKey 0 0 2 1) { spill := true, att := 0, pool := 0, step := 0, exp := 0, remain := 0, used := 0 }
theorem test_hyp_item_stores :
    (let s := tBound false
     MemoryOk s ∧ (s.bind (slotKey 0 0 2 1)).isSome = true ∧ s.bind (slotKey 0 0 2 0) = none ∧
      ((passNow s 0).map (fun x => (pageBlocked s 0 (x.2.page0 + slotNo x.2 (slotKey 0 0 2 1)), (s.dir (x.2.page0 + slotNo x.2 (slotKey 0 0 2 1))).dom)))
        = some (0, (s.blk 0).dom) ∧
      (passNow (tBound true) 0).map (fun x => pageBlocked (tBound true) 0 (x.2.page0 + slotNo x.2 (slotKey 0 0 2 1))) = some 2 ∧
      (let u := setPass (applyMemEvents s noPerf) 0 (some { idx := 0, falls := false, ct := 0x3F800000, taken := [], wait := 0 })
       (passNow u 0).map (fun x => (blkSlots u 0 0 x.2).all (fun n => (u.dir (x.2.page0 + n)).dom == (u.blk 0).dom)) = some true ∧
        u.back.poison = [])) ∧
    (let s := tGrd (some 3) id
     MemoryOk s ∧ spFind (s.grd 0).slots 3 = some tSlot ∧ runSlot s 0 = some (3, tSlot)) ∧
    (MemoryOk tGrade ∧ problemAt tGrade 0 (bits ((itemOf 0).word 0) 55 48) = some tGradeProb ∧
      slotAt tGrade tGradeProb.greg 0 (bits ((itemOf 0).word 0) 55 48) = some (3, { tSlot with prob := tGradeProb })) := by
  unfold MemoryOk; decide +kernel
theorem test_hyp_reads_go_on :
    (let s := tRun 17 (tItem 7 0 0) .running
     poisonHit s (s.blk 0).dom (owedReads ((s.blk 0).item 17 0)) = none ∧ (s.stp 0).stopped = false) ∧
    (passNow (tPass 0 [] tPage) 0).map (fun x => takable (tPass 0 [] tPage) 0 0 x.1 x.2) = some [slotKey 0 0 2 1] ∧
    (tPass 3 [1] tPage).back.poison = [] ∧ tQ.back.poison = [] ∧ (tDay 1 false 0).back.poison = [] ∧ ((tDay 1 false 0).dom 0).st = .active ∧
    (tTear.dom 15).st ≠ .active ∧ movingIn (tOpr 1) 15 = [] ∧ poolSlots tUp 3 ≤ 128 := by decide +kernel
theorem test_hyp_mute_chunk : let c : Comb := { tComb with len := 256 }
    tupFate (tTup [c] []) 2 (tPkt 0x10 2 0) = (2, some c) ∧
    combineOf (tTup [c] []) 2 (fun x => x.ty == 0x10 && (!x.current (tTup [c] []) || (tupFate (tTup [c] []) 2 x).1 != 0)) =
      some (0, tPkt 0x10 2 0) := by decide +kernel

/-- A take image being written over a whole one. -/
def tStoring : State := { tUp with mgt := { tUp.mgt with nv0 := liveImage tUp.mgt, nvWrite := some (liveImage tUp.mgt) } }
theorem test_hyp_store : tUp.mgt.nvWrite = none ∧ tStoring.mgt.nvWrite.isSome = true ∧ tStoring.mgt.nv0.ok = true := by decide +kernel
theorem test_torn_take : after .undervoltage tStoring (fun t => !t.mgt.nv0.ok && t.mgt.nv1 == liveImage tUp.mgt) = true := by decide +kernel

theorem test_hyp_rom : (let s := { State.reset with sec := { secReset with
      mono0 := { secReset.mono0 with crc := secReset.mono0.crc + 1 }, mono1 := { secReset.mono1 with crc := secReset.mono1.crc + 1 } } }
     s.sec.mono0.valid = false ∧ s.sec.mono1.valid = false) ∧ tRails.cp.perst = false ∧ tRails.cp.pcieRef = true ∧ State.reset.cp.perst = true := by
  decide +kernel
theorem test_lanes_of_a_port_off : after .memoryTrainingDone tRails (fun t => (t.port 2).st == .disabled && t.ro? (laneKey 11) == 3) = true := by
  decide +kernel
/-- An image of one byte, of which every cryptographic check answers that it passes: those are free. -/
def tFwImage : List Byte :=
  leBytes 8 (0x55444B46 + 1 * 2 ^ 32 + 1 * 2 ^ 48) ++ fill 12 0 ++ leBytes 4 1 ++ fill 4072 0 ++ [0x5A]
theorem test_hyp_image (h1 : Config.shake256 (imgBytes tFwImage 0x60 1793) 64 = (Config.rootKeyDigest 0).toList)
    (h2 : Config.falconVerify (imgBytes tFwImage 0x60 1793) (imgBytes tFwImage 0 0x780) (imgBytes tFwImage 0x780 1280) = true)
    (h3 : Config.shake256 (tFwImage.drop 4096) 64 = imgDigest tFwImage) : imageCheck tFwImage true 1 ⟨0, 0⟩ = 0 ∧ imageCheck [] true 1 ⟨0, 0⟩ ≠ 0 := by
  have hk : imgKey tFwImage = 0 := by decide +kernel
  have hf : (decide (tFwImage.length < 4097) || !true) = false ∧ imgFormat tFwImage = true ∧ (imgNat tFwImage 6 1 != 1) = false ∧ imgSvn tFwImage = 0 := by
    decide +kernel
  refine ⟨?_, by decide⟩
  unfold imageCheck
  rw [hf.1, hf.2.1, hf.2.2.1, hk, hf.2.2.2, h1, h2, h3]
  simp
theorem test_hyp_update_goes_into : (1 : Nat) < 2 ∧ ({ tUp.sec with fwSts := 2, fwInto := [1] }).fwInto = [1] ∧
    ({ tUp.sec with fwSts := 2, fwInto := [0, 1] }).fwInto = [0, 1] := by decide +kernel
theorem test_hyp_queue_delete : AdminReady tQ 0x84 (dsc 0x84 0 0 0 0) ∧ ((tQ.dom 0).st = .active ∧ 0 < (tQ.dom 0).qcount ∧ (tQ.ctx 0).made = true ∧
    inFlight (tQ.ctx 0) = false ∧ (0 : Nat) ≠ adminKey ∧ (tQ.ctx 0).stepq = true) :=
  ⟨rdy (by decide +kernel), by decide +kernel⟩

/-! ## Worked values of the spec -/

/-- The check values of the three named CRCs over the ASCII digits 1 to 9 (the standards that R330, R238 and R248 name). -/
theorem test_crc_check_values : let bs : List Byte := [0x31, 0x32, 0x33, 0x34, 0x35, 0x36, 0x37, 0x38, 0x39]
    crc32c bs = 0xE3069283 ∧ crc64 bs = 0x6C40DF5F0B497347 ∧ crc16 bs = 0x29B1 := by decide +kernel

/-- Table 2-4: the group of 32 FP8 E4M3 products added to 65,536.0. -/
theorem test_worked_group :
    let ps : List (Nat × Nat) := (0x3C, 0x3A) :: (List.replicate 8 (0x21, 0x2B) ++ List.replicate 8 (0xB6, 0x29) ++ List.replicate 7 (0x1D, 0x1F)
      ++ List.replicate 4 (0x08, 0x08) ++ List.replicate 4 (0x00, 0x44))
    (accAdd (0x47800000, 0) (groupSum (ps.map (fun p => (decodeElem .e4m3 p.1, decodeElem .e4m3 p.2))) (-3))).1 = 0x47800006 := by decide +kernel

/-- The example after R50: the block of 0.0140625 has scale code 0x77 and element code 0x76; a largest y of 1,000 gives 0x81. -/
theorem test_worked_quantisation :
    let q := quantBlock .e4m3 0x42800000 (0x3C666666 :: List.replicate 31 0)
    q.scale = 0x77 ∧ q.codes.head? = some 0x76 ∧ (quantBlock .e4m3 0x42800000 (0x417A0000 :: List.replicate 31 0)).scale = 0x81 := by
  decide +kernel

/-- CLOSE of an FP8 E4M3 tensor with MARGIN 1 and maximum 3.5 sets COARSE to 2^-6 and COARSE_RCP to 64. -/
theorem test_worked_close :
    let r := recClose (2 * 2 ^ 296 + 1 * 2 ^ 284 + 0x40600000 * 2 ^ 416) 1 0 false
    bits r 511 480 = 0x3C800000 ∧ bits r 479 448 = 0x42800000 ∧ bits r 295 291 = 1 := by decide +kernel

/-- The example after R84: 0.9375 × 2.5 + 24,576 × 2^-17 = 2.53125. -/
theorem test_worked_ema : (emaVal 0x37000000 0x3F700000 0x40200000 0x46C00000).1 = 0x40220000 := by decide +kernel

/-- The example of R124 to R127: offset 0x26_7088 of a SPREAD segment lies in cell 4 at physical 0x80_0426_7088. -/
theorem test_worked_translation :
    segLoc { segNone with valid := true, kind := 1, ncell := 384, span := 8, size := 2 ^ 22, base := 0x200000 } 0 0x12 0x267088 =
      .pa 0x8004267088 := by decide

/-- The ADAPT2 example of the Cutter: the updated record, and the record after the clip pass. -/
theorem test_worked_adapt2 :
    let h : Hyper := { lr := 0x3A800000, b1 := 0x3F600000, b2 := 0x3F700000, eps := 0x30800000, wd := 0x3C000000, bc1 := 0x3F800000
                       bc2 := 0x3F800000, clipT := 0, orthoK := 0 }
    let old := recOf 0x3F0000003E003D80
    recBits (elemRule .adapt2 h 0x3E800000 old) = 0x3EFFB7803E103D80 ∧ clipFactor 0x3F800000 0x40800000 = 0x3F000000 ∧
    recBits (clipRec old (recOf 0x3EFFB7803E103D80) 0x3F000000) = 0x3EFFDBC03E083D80 := by decide +kernel

/-- The tree example of R265: the parent of (3, 3, 0) lies at X−, that of (1, 3, 0) at Y−; the root has none. -/
theorem test_worked_tree :
    let s := { tUp with mgt := { tUp.mgt with live := [(key 0x5000 1, 0xFFF), (key 0x5011 1, 0x330), (key 0x5011 2, 0x110)] } }
    parentPort s 1 0x330 = some 1 ∧ parentPort s 1 0x130 = some 3 ∧ parentPort s 1 0x110 = none ∧
    childPorts { s with mgt := { s.mgt with live := (key 0x5000 0, 0x110) :: s.mgt.live } } 1 = [0, 1, 2, 3] := by decide +kernel

/-- Table 14-5: 462.0 W at n = 56 lowers the step to 55. -/
theorem test_worked_governor : after (.governorEvaluation 0x43E70000 0x42200000 0x413A0000) tUp (fun t => t.pwr.nGov == 55) = true := by
  decide +kernel

/-- R43 and Table 2-1: largest values and codes of the narrow formats. -/
theorem test_worked_codes : decodeElem .e4m3 0x7E = .fin false 14 5 ∧ decodeElem .e5m2 0x7B = .fin false 7 13 ∧ decodeElem .e2m1 0x7 = .fin false 3 1 ∧
    decodeElem .e4m3 0x7F = .nan := by decide +kernel
/-- Subnormal operands are read as zeros (R40), and a signalling NaN comes out canonical (R43). -/
theorem test_flush_and_nan : (add32 0x00000001 0x3F800000).1 = 0x3F800000 ∧ (mul32 0x7F800001 0x3F800000).1 = 0x7FC00000 ∧
    (sub32 0x7F800000 0x7F800000).1 = 0x7FC00000 := by decide +kernel

/-! ## One step of further commands -/

theorem test_power_up : after .powerUp State.reset (fun t => t.pwr.supply == .charging) = true := by decide +kernel
theorem test_lock_write_sets_the_lock : after (.secBootLock .secure 1) tSecure (fun t => t.sec.lock && t.sec.phase == .locked) = true := by
  decide +kernel
theorem test_lock_is_refused_to_others : after (.secBootLock .mailbox 1) tUp (fun t => t.sec == tUp.sec) = true := by decide +kernel
theorem test_tail_beyond_the_ring : after (.cmdSqDb (.dom 0 0) 16) tQ (fun t => (t.ctx 0).errc == 1 && (t.ctx 0).tail == 16) = true := by
  decide +kernel
theorem test_base_of_an_enabled_queue : after (.cmdSqBase (.dom 0 0) false 0x5000) tQ (fun t => (t.ctx 0).sqBase == 0x10000) = true := by
  decide +kernel
theorem test_teardown_counts_the_generation : after (.domTeardown (dsc 0x81 0 0 0 0)) tQ (fun t => (t.dom 0).gen == 2 && (t.dom 0).st == .tearing) = true := by
  decide +kernel
theorem test_step_starts : after (.step 0 0 (dsc 0x10 0 0 0 0)) tQ (fun t => (t.stp 0).order == .starting && (t.blk 0).phase == .starting &&
    (t.blk 1).phase == .idle) = true := by decide +kernel
theorem test_release : after (.stepRelease 0 0) (tAt .starting (tRun 17 (tItem 7 0 0) .waiting)) (fun t => (t.stp 0).order == .running &&
    ((t.blk 0).item 17 0).st == .ready) = true := by decide +kernel
theorem test_item_completes : after (.itemComplete 0 0 ⟨0, noPerf⟩) (tRun 17 (tItem 7 0 0 + 2 ^ 129 + 23 * 2 ^ 124 + 9 * 2 ^ 114) .running) (fun t =>
    ((t.blk 0).item 17 0).st == .done && t.sigs == [{ blk := 23, ctr := 9, step := 0, att := 0 }]) = true := by decide +kernel
theorem test_slice_error_kills_its_region : after (.sliceUe 383 0 false) tUp (fun t => (t.reg 3).st == .resetting && (t.reg 2).st == .online &&
    bits (recordAt t 1) 409 402 == 1) = true := by decide +kernel
theorem test_directory_line_is_served : after (.sliceUe 304 0x800000 false) tUp (fun t => (t.reg 3).st == .online) = true := by decide +kernel
theorem test_second_hang_is_contained : after (.hubHang 3) (tUp.setReg 3 { regDflt 3 with st := .resetting }) (fun t =>
    t.ro? (kRegCnt 3 4) == 1 && t.flt.head == 0) = true := by decide +kernel
theorem test_offline_command : after (.regionOffline 3) (tRegCmd 1 .online) (fun t => (t.reg 3).st == .draining) = true := by decide +kernel
theorem test_offline_elsewhere_is_counted : after (.regionOffline 3) (tRegCmd 1 .offline) (fun t => (t.reg 3).st == .offline &&
    t.ro? (kRegCnt 3 3) == 1) = true := by decide +kernel
theorem test_strike_counts : after (.clapperIn 300) tUp (fun t => t.flt.clapSeq == 1 && t.flt.clapOut == 16) = true := by decide +kernel
theorem test_merged_strike : after (.clapperIn 300) (tStruck 1250) (fun t => t.flt.clapSeq == 0) = true := by decide +kernel
theorem test_take_revert_without_one : after (.takeRevert .mailbox) tUp (fun t => t.mgt == tUp.mgt) = true := by decide +kernel
theorem test_beacon : after .beaconTimeout { tUp with mgt := { tUp.mgt with live := [(key 0x8100 1, 1)] } } (fun t => t.mgt.noBeacon &&
    t.ro? (kT1s 3) == 1) = true := by decide +kernel
theorem test_lost_lane : after (.laneLoss 11) (tPort id) (fun t => (t.port 2).st == .up3 && (t.port 2).lost == 3) = true := by decide +kernel
theorem test_solve_starts : after (.solveStart 0) (tGrd none (fun x => { x with queued := some (1, 0) })) (fun t => (t.grd 0).run == some 3) = true := by
  decide +kernel
theorem test_page_forward_outside : after (.packetForward 2 0) (tRx (tPkt 3 0 0x001) 0) (fun t => rxOf t 2 0 == [] && t.ro? (kPort 2 8) == 1) = true := by
  decide +kernel
theorem test_stale_packet_is_dropped :
    after (.pktSignal 2 0) (tRx { tPkt 0x03 0 0 with hdr := setBits (tPkt 0x03 0 0).hdr 487 476 9 } 0) (fun t => rxOf t 2 0 == [] && t.sigs == [] &&
      t.ro? (kPort 2 7) == 1) = true := by decide +kernel
theorem test_version : exec .getVersion tUp = .next (tUp.emit (.spdm 0x04 [0x00, 0x12])) := rfl

/-! ## The commands by the table's bits -/

/-- The table gives its rows no bits (log entry 13): no word spells a command, and withFetchWord changes nothing. -/
theorem test_no_word_spells_a_command : decodeTableWord 32 0 = none ∧ State.reset.withFetchWord 32 0 = State.reset := by decide
end Sys2Proof.Tests
end

namespace Sys2Proof.Machine

-- Proofs elaborated one after another, as in the Laws files: this many at once do not fit the check's memory limit.
set_option Elab.async false

/-! ## DOM_CREATE refused (R291) -/

/-- A range of contexts that holds one of another domain's is taken. -/
theorem rangeTaken_of_holdsCtx {s : State} {d e k qb qc : Nat} (he : e < 16) (hne : e ≠ d) (hk : holdsCtx s e k) (h1 : qb ≤ k)
    (h2 : k < qb + qc) : rangeTaken s d qb qc = true := by
  obtain ⟨hst, hb, ht⟩ := hk
  refine List.any_eq_true.2 ⟨e, List.mem_range.2 he, ?_⟩
  simp only [Bool.and_eq_true, bne_iff_ne, decide_eq_true_eq]
  exact ⟨⟨⟨⟨⟨hne, hst⟩, by omega⟩, by omega⟩, by omega⟩, by omega⟩

theorem refuse_cp_doms (s : State) (k : Nat) (c : Cmd) (r : Nat) : (refuse s k c r).cp.doms = s.cp.doms := setCtx_cp_doms ..

/-- An admin command that stands at the head of its queue is refused with the reason that its `run` answers. -/
theorem runAdmin_refuses {s t : State} {opc desc r : Nat} {b : Bool} {run : State → Nat × State × Bool} (h : AdminReady s opc desc)
    (hr : run s = (r, t, b)) (h0 : r ≠ 0) : runAdmin s opc desc run = refuse s adminKey (cmdOf 16 0 desc 0 0) r := by
  simp [runAdmin, h.fetch, h.read, h.opc, h.clean, hr, h0]

section
variable {s : State} {desc : Nat} (h : AdminReady s 0x80 desc) (hquota : bits (dw desc 2) 15 0 ≠ 0)
  (hrange : bits (dw desc 1) 43 32 + bits (dw desc 1) 56 44 ≤ 4096)
include h hquota hrange

theorem exec_domCreate_of_not_free (hst : (s.dom (aDom desc)).st ≠ .free) :
    exec (.domCreate desc) s = .next (refuse s adminKey (cmdOf 16 0 desc 0 0) 0x15) := by
  refine congrArg Host.Outcome.next (runAdmin_refuses (t := s) (b := true) h ?_ (by decide))
  simp [hquota, Nat.not_lt.2 hrange, hst]

theorem exec_domCreate_of_gen_eq (hst : (s.dom (aDom desc)).st = .free) (hgen : bits (dw desc 1) 27 16 = (s.dom (aDom desc)).lastGen) :
    exec (.domCreate desc) s = .next (refuse s adminKey (cmdOf 16 0 desc 0 0) 0x16) := by
  refine congrArg Host.Outcome.next (runAdmin_refuses (t := s) (b := true) h ?_ (by decide))
  simp [hquota, Nat.not_lt.2 hrange, hst, hgen]

theorem exec_domCreate_of_rangeTaken (hst : (s.dom (aDom desc)).st = .free) (hgen : bits (dw desc 1) 27 16 ≠ (s.dom (aDom desc)).lastGen)
    (htaken : rangeTaken s (aDom desc) (bits (dw desc 1) 43 32) (bits (dw desc 1) 56 44) = true) :
    exec (.domCreate desc) s = .next (refuse s adminKey (cmdOf 16 0 desc 0 0) 0x17) := by
  refine congrArg Host.Outcome.next (runAdmin_refuses (t := s) (b := true) h ?_ (by decide))
  simp [hquota, Nat.not_lt.2 hrange, hst, hgen, htaken]

end

/-- Settles O26: the three conditions are tested in R291's order, and each has a reason of its own. -/
theorem domCreateIsRefused : Obligations.DomCreateIsRefused := by
  intro s desc h d qb qc hquota hrange hcase
  by_cases hst : (s.dom d).st = .free
  · by_cases hgen : bits (dw desc 1) 27 16 = (s.dom d).lastGen
    · exact ⟨0x16, exec_domCreate_of_gen_eq h hquota hrange hst hgen, refuse_cp_doms .., fun _ _ => rfl⟩
    · obtain hfree | hlast | ⟨e, k, he, hne, hk, h1, h2⟩ := hcase
      · exact absurd hst hfree
      · exact absurd hlast hgen
      · exact ⟨0x17, exec_domCreate_of_rangeTaken h hquota hrange hst hgen (rangeTaken_of_holdsCtx he hne hk h1 h2), refuse_cp_doms ..,
          fun _ hlast => absurd hlast hgen⟩
  · exact ⟨0x15, exec_domCreate_of_not_free h hquota hrange hst, refuse_cp_doms .., fun hfree => absurd hfree hst⟩


/-! ## What every command keeps

`Ok` for the queue, the canonical form of memory and the context ranges: each command keeps them, by the laws of the operations
that it is made of. -/

/-- The invariants that do not speak of the power domain, each carried where the proposition holds. -/
abbrev besidePower (mem rng : Prop) : Which := ⟨False, False, mem, rng⟩

/-- Every state that an outcome leads to has the queue `l` and keeps the invariants named. -/
structure NextOk (w : Which) (l : List Instr) (o : Host.Outcome State Fault Refusal) : Prop where
  ok : ∀ t, o = .next t → Ok w l t

theorem NextOk.next {w : Which} {l : List Instr} {t : State} (h : Ok w l t) : NextOk w l (.next t) := ⟨fun _ ht => by cases ht; exact h⟩

theorem NextOk.fault {w : Which} {l : List Instr} (f : Fault) : NextOk w l (.fault f) := ⟨fun _ ht => nomatch ht⟩

theorem State.countIf_ok {w : Which} {l : List Instr} {s : State} {c : Bool} {k : Nat} (h : Ok w l s) : Ok w l (s.countIf c k) :=
  h.frame State.countIf_frame

/-- The law of a condition, for the state inside what an admin command answers. -/
theorem ok_ite_answer {w : Which} {l : List Instr} {c : Prop} [Decidable c] {a b : Nat × State × Bool} (ha : Ok w l a.2.1)
    (hb : Ok w l b.2.1) : Ok w l (if c then a else b).2.1 := by split <;> assumption

/-- A domain made over a range of contexts that no other domain holds keeps the ranges apart. -/
theorem setDom_ok_of_range_free {w : Which} {l : List Instr} {s : State} {d : Nat} {x : Dom} (h : Ok w l s)
    (hfree : rangeTaken s d x.qbase x.qcount = false) : Ok w l (s.setDom d x) := by
  refine ⟨h.queue, h.up, fun hw => ?_, h.mem, fun hw => ?_⟩
  · have k := h.power hw
    exact ⟨k.gov, k.therm, k.locked, k.secure, k.tripped⟩
  · have hself : (s.setDom d x).dom d = x := spGet_set_same ..
    have hother : ∀ e, e ≠ d → (s.setDom d x).dom e = s.dom e := fun e he => spGet_set_other _ _ he
    have hnew : ∀ e k, e < 16 → e ≠ d → holdsCtx (s.setDom d x) d k → ¬ holdsCtx (s.setDom d x) e k := by
      intro e k he hne hd hek
      rw [holdsCtx, hself] at hd
      rw [holdsCtx, hother e hne] at hek
      rw [rangeTaken_of_holdsCtx he hne hek hd.2.1 hd.2.2] at hfree
      cases hfree
    intro e f k he hf hek hfk
    by_cases hed : e = d <;> by_cases hfd : f = d
    · exact hed.trans hfd.symm
    · exact absurd hfk (hnew f k hf hfd (hed ▸ hek))
    · exact absurd hek (hnew e k he hed (hfd ▸ hfk))
    · refine h.ranges hw e f k he hf ?_ ?_
      · rwa [holdsCtx, hother e hed] at hek
      · rwa [holdsCtx, hother f hfd] at hfk

section
variable {mem rng : Prop} {l : List Instr} {s : State}

/-- A state with the queue, the memory and the domains of another keeps what that one keeps. -/
theorem Ok.same {t : State} (h : Ok (besidePower mem rng) l s) (hq : t.pending = s.pending := by exact rfl)
    (hm : t.mem = s.mem := by exact rfl) (hd : t.cp.doms = s.cp.doms := by exact rfl) : Ok (besidePower mem rng) l t where
  queue := hq.trans h.queue
  up := False.elim
  power := False.elim
  mem hw := by rw [MemoryOk, hm]; exact h.mem hw
  ranges hw := by
    have hdom : ∀ d, t.dom d = s.dom d := fun d => by rw [State.dom, hd, State.dom]
    intro d e k
    simp only [holdsCtx, hdom]
    exact h.ranges hw d e k

variable (h : Ok (besidePower mem rng) l s)
include h

/-! ## Input, power and clocks -/

theorem execOvervoltage_ok (mv : Nat) : NextOk (besidePower mem rng) l (execOvervoltage mv s) := by
  unfold execOvervoltage
  split
  · exact .fault _
  · split
    · exact .next (Ok.same (dataLost_ok h))
    · exact .next h

theorem execThermalEvaluation_ok (t0 t1 t2 t3 : Word) : NextOk (besidePower mem rng) l (execThermalEvaluation t0 t1 t2 t3 s) := by
  refine .next (ok_ite h ?_)
  have h1 : Ok _ l (setTj s t0 t1 t2 t3) := setTj_ok h
  exact State.countIf_ok (State.countIf_ok h1.same)

theorem execJunctionLimit_ok (t0 t1 t2 t3 : Word) : NextOk (besidePower mem rng) l (execJunctionLimit t0 t1 t2 t3 s) := by
  refine .next (ok_ite h ?_)
  have h1 : Ok _ l (setTj s t0 t1 t2 t3) := setTj_ok h
  exact ok_ite (State.countIf_ok h1.same) h1

/-! ## Boot and security -/

theorem execAlwaysOnPowerGood_ok (strap : Nat) (tests : BootTests) (low : Bool) (cells : List CellBoot) :
    NextOk (besidePower mem rng) l (execAlwaysOnPowerGood strap tests low cells s) := by
  refine .next (ok_ite h (bootFrom_ok (Ok.frame bootCells_frame h.same) id ?_))
  rw [bootRom_lock, bootCells_frame.sec (by decide)]

theorem execRailsInRegulation_ok : NextOk (besidePower mem rng) l (execRailsInRegulation s) := by
  refine .next (ok_ite h ?_)
  have h0 : Ok _ l (linkAtRails { s with pwr := { s.pwr with rails := .up } }) := Ok.frame linkAtRails_frame h.same
  exact ok_ite (Ok.frame (State.each_frame fun _ _ => blocksOnBank_frame) h0.same)
    (ok_ite (Ok.frame logFault_frame (Ok.frame (State.each_frame fun _ _ => blocksOnBank_frame) h0.same))
      (Ok.frame (State.each_frame fun _ _ => blocksOut_frame) h0.same))

theorem execDictMessage_ok (src : Source) (port : Nat) (x : Payload) : NextOk (besidePower mem rng) l (execDictMessage src port x s) := by
  refine .next ?_
  cases src with
  | mailbox => exact answerQueue_ok (mailboxMessage_ok h)
  | t1s addr prt mc => exact ok_ite h (ok_ite (t1sMessage_ok h) (State.count_ok h))
  | secure => exact ok_ite (State.emit_ok (State.count_ok (runMessage_ok h id))) h

theorem execTakeStoreWriteDone_ok (ok : Bool) : NextOk (besidePower mem rng) l (execTakeStoreWriteDone ok s) := by
  refine .next ?_
  split
  · exact h
  · exact ok_ite (Ok.frame nextTakeWrite_frame h.same) (Ok.frame nextTakeWrite_frame (State.count_ok h.same))

theorem execConfigSweepComplete_ok : NextOk (besidePower mem rng) l (execConfigSweepComplete s) := by
  refine .next (ok_ite h ?_)
  exact State.countIf_ok (State.count_ok (Ok.frame State.setRo_frame (Ok.frame State.setRo_frame (Ok.frame State.setRo_frame h.same))))

theorem execIcmpv6Request_ok (kind : Icmp) (peer : Nat) (payload : List Byte) :
    NextOk (besidePower mem rng) l (execIcmpv6Request kind peer payload s) := by
  refine .next (ok_ite ?_ h)
  have h1 : Ok _ l ((s.count (kT1s 0) 1).count (kT1s 1) 1) := State.count_ok (State.count_ok h)
  cases kind with
  | echo => exact State.emit_ok h1
  | solicit target => exact ok_ite (State.emit_ok h1) h

/-! ## The command unit -/

theorem execPerstLAssert_ok : NextOk (besidePower mem rng) l (execPerstLAssert s) := by
  refine .next (ok_ite h ?_)
  extract_lets _ _ s1 _ s2 s3 s4 s5
  have h1 : Ok _ l s1 := linkDown_ok h.same
  have h2 : Ok _ l s2 := h1.same
  have h3 : Ok _ l s3 := State.each_ok h2 fun _ _ k => perstCmd_ok k
  have h4 : Ok _ l s4 := State.countIf_ok h3
  exact State.each_ok (h4.frame State.setCtx_frame) fun _ _ k => State.setDom_ok k fun hst => ⟨hst, rfl, rfl⟩

theorem execFlr_ok (fn : Nat) : NextOk (besidePower mem rng) l (execFlr fn s) := by
  refine .next (ok_ite h (ok_ite ?_ (flrDom_ok (h.frame flrMsix_frame))))
  extract_lets s1 s2
  have h1 : Ok _ l s1 := State.each_ok (h.frame flrMsix_frame) fun _ _ k => flrDom_ok k
  have h2 : Ok _ l s2 := State.each_ok (h1.frame State.setCtx_frame) fun _ _ k => State.setDom_ok k fun hst => ⟨hst, rfl, rfl⟩
  clear_value s2
  exact h2.same

/-- DOM_CREATE changes a domain where its new range is free alone (R289, R291). -/
theorem execDomCreate_ok (desc : Nat) : NextOk (besidePower mem rng) l (execDomCreate desc s) := by
  refine .next (runAdmin_ok h fun t k => ok_ite_answer k (ok_ite_answer k (ok_ite_answer k ?_)))
  split
  · exact k
  · rename_i htaken
    exact setDom_ok_of_range_free k (Bool.eq_false_iff.2 htaken)

theorem execDomTeardown_ok (desc : Nat) : NextOk (besidePower mem rng) l (execDomTeardown desc s) :=
  .next (runAdmin_ok h fun _ k => ok_ite_answer k (State.setDom_ok (teardown_ok k) fun hst => ⟨hst, rfl, rfl⟩))

theorem execDomSet_ok (desc : Nat) : NextOk (besidePower mem rng) l (execDomSet desc s) :=
  .next (runAdmin_ok h fun _ k => ok_ite_answer k (ok_ite_answer k (State.setDom_ok k fun hst => ⟨hst, rfl, rfl⟩)))

theorem execQCreate_ok (desc : Nat) : NextOk (besidePower mem rng) l (execQCreate desc s) :=
  .next (runAdmin_ok h fun _ k => ok_ite_answer k (ok_ite_answer k
    (ok_ite (State.setDom_ok (k.frame State.setCtx_frame) fun hst => ⟨hst, rfl, rfl⟩) (k.frame State.setCtx_frame))))

theorem execQDelete_ok (desc : Nat) : NextOk (besidePower mem rng) l (execQDelete desc s) := by
  refine .next (runAdmin_ok h fun t k => ok_ite_answer k (ok_ite_answer k (ok_ite_answer k ?_)))
  extract_lets s0 s1
  have h0 : Ok (besidePower mem rng) l s0 := by
    unfold s0
    split
    · exact closeMuted_ok k
    · exact k
  have h1 : Ok _ l s1 := h0.frame State.setCtx_frame
  show Ok _ l (if _ then s1.setDom _ _ else s1)
  exact ok_ite (State.setDom_ok h1 fun hst => ⟨hst, rfl, rfl⟩) h1

theorem execQReset_ok (desc : Nat) : NextOk (besidePower mem rng) l (execQReset desc s) :=
  .next (runAdmin_ok h fun _ k => ok_ite_answer k (ok_ite_answer k (ok_ite_answer k (k.frame State.setCtx_frame))))

/-- The domain whose teardown ends is FREE: its range is given back (R292). -/
theorem execTeardownGenAcked_ok (a : GenAcks) : NextOk (besidePower mem rng) l (execTeardownGenAcked a s) := by
  refine .next (ok_ite h ?_)
  extract_lets x mine s0 u _ s1 _ s2
  have h0 : Ok _ l s0 := ok_foldl (fun _ _ k => lastRecord_ok k) (State.count_ok h)
  have hu : Ok _ l u := unloadProgram_ok h0
  have h1 : Ok _ l s1 := hu.same
  have h2 : Ok _ l s2 := State.setDom_ok h1 fun hst => absurd rfl hst
  exact ok_ite (adminDone_ok h2) h2

theorem execDeferredAdmission_ok (d : Nat) : NextOk (besidePower mem rng) l (execDeferredAdmission d s) := by
  refine .next (ok_ite h ?_)
  split
  · exact admitDeferred_ok h
  · exact h

theorem execCommandCompletion_ok (q : QRef) (x : DmaEnd) : NextOk (besidePower mem rng) l (execCommandCompletion q x s) := by
  refine .next ?_
  split
  · exact h
  · split
    · exact h
    · exact ok_ite h (complete_ok (h.frame applyMemEvents_frame))

theorem execCoalesceTimer_ok (q : QRef) : NextOk (besidePower mem rng) l (execCoalesceTimer q s) := by
  refine .next ?_
  split
  · exact h
  · exact ok_ite (signalMsix_ok (h.frame State.setCtx_frame)) h

/-! ## Memory -/

theorem execBindWaitEnd_ok (cell cycles : Nat) : NextOk (besidePower mem rng) l (execBindWaitEnd cell cycles s) := by
  refine .next ?_
  split
  · exact h
  · exact ok_ite h (releaseHeld_ok (State.count_ok h) fun _ _ k => slotWrite_ok k)

theorem execSpillZeroFillDone_ok (cell : Nat) : NextOk (besidePower mem rng) l (execSpillZeroFillDone cell s) := by
  refine .next ?_
  split
  · exact h
  · split
    · exact releaseHeld_ok h fun _ _ k => slotWrite_ok k
    · refine releaseHeld_ok (zeroRange_ok h) fun t x k => ?_
      split
      · exact onBound_ok k
      · exact slotWrite_ok k

theorem execGranuleMoveComplete_ok (g : Nat) : NextOk (besidePower mem rng) l (execGranuleMoveComplete g s) := by
  refine .next ?_
  split
  · exact h
  · exact ok_ite h h.same

theorem execPackageEmptied_ok (p : Nat) : NextOk (besidePower mem rng) l (execPackageEmptied p s) := by
  refine .next ?_
  split
  · exact h
  · exact ok_ite h (ok_ite (Ok.frame setCh_frame (h.frame setPkg_frame)) (Ok.frame endOp_frame (h.frame setPkg_frame)))

theorem execChannelRetrainDone_ok (ok : Bool) : NextOk (besidePower mem rng) l (execChannelRetrainDone ok s) := by
  refine .next ?_
  split
  · exact h
  · rename_i o _
    have h1 : Ok _ l (endOp (setPkg s (o.ch / 4) 0) o 2) := Ok.frame endOp_frame (h.frame setPkg_frame)
    exact ok_ite h (ok_ite h1.same (Ok.frame endOp_frame (h.frame setPkg_frame)))

theorem execDramUe_ok (pa : Nat) : NextOk (besidePower mem rng) l (execDramUe pa s) := by
  unfold execDramUe
  extract_lets g p c r s1 s2
  refine .next (ok_ite h ?_)
  have h1 : Ok _ l s1 := State.count_ok h
  have h2 : Ok _ l s2 := h1.frame regionFault_frame
  exact ok_ite (h1.frame containFault_frame) (ok_ite h1 (ok_ite (failPackage_ok h2) h2.same))

theorem execSliceUe_ok (cell off : Nat) (lost : Bool) : NextOk (besidePower mem rng) l (execSliceUe cell off lost s) := by
  refine .next (ok_ite h ?_)
  have h1 : Ok _ l (s.count (kSram 2) 1) := State.count_ok h
  exact ok_ite (ok_ite (h1.frame sliceFault_frame) (State.count_ok h1)) (ok_ite h1 (h1.frame sliceFault_frame))

theorem execScrubLine_ok (cell off : Nat) (corrected uncorrectable : Bool) :
    NextOk (besidePower mem rng) l (execScrubLine cell off corrected uncorrectable s) := by
  refine .next (ok_ite h (ok_ite ?_ (State.countIf_ok h)))
  have h1 : Ok _ l (s.count (kSram 5) 1) := State.count_ok h
  exact h1.same

/-! ## The sequencer and its items -/

theorem execSignalArrival_ok (n : Nat) : NextOk (besidePower mem rng) l (execSignalArrival n s) := by
  refine .next ?_
  split
  · exact h
  · rename_i g _
    have h1 : Ok _ l { s with sigs := dropAt n s.sigs } := h.same
    exact ok_ite (h1.frame signalBlock_frame) h1

theorem execStepRelease_ok (d cycles : Nat) : NextOk (besidePower mem rng) l (execStepRelease d cycles s) := by
  refine .next (ok_ite h ?_)
  refine ok_foldl (fun _ _ k => k.frame markReady_frame) (ok_foldl (fun _ _ k => k.frame unrunVariants_frame) ?_)
  exact ok_foldl (fun _ _ k => State.count_ok (k.frame State.setBlk_frame)) (h.frame State.setStp_frame)

theorem execDeferPromotion_ok (b : Nat) : NextOk (besidePower mem rng) l (execDeferPromotion b s) := by
  refine .next (ok_ite h ?_)
  split
  · exact h
  · exact State.count_ok (Ok.frame traceItem_frame (h.frame State.setBlk_frame))

theorem execItemComplete_ok (b n : Nat) (x : RunEnd) : NextOk (besidePower mem rng) l (execItemComplete b n x s) := by
  refine .next (ok_ite h ?_)
  split
  · exact h
  · extract_lets
    split
    · exact h
    · refine ok_ite (guardReads_ok h ?_) h
      exact Ok.frame applyMemEvents_frame
        (Ok.frame countRun_frame (Ok.frame finishItem_frame (settleItem_ok (h.frame traceItem_frame))))

/-! ## The Cutter -/

theorem execCutterSlotTake_ok (b : Nat) (perf : Perf) : NextOk (besidePower mem rng) l (execCutterSlotTake b perf s) := by
  refine .next (ok_ite h ?_)
  split
  · refine ok_ite h ?_
    split
    · exact takeGuarded_ok (h.frame applyMemEvents_frame)
    · exact h
  · exact h

theorem execStagingArrival_ok (b : Nat) (a : Arrival) : NextOk (besidePower mem rng) l (execStagingArrival b a s) := by
  refine .next (ok_ite h ?_)
  split
  · exact h
  · extract_lets s0 _ s1
    have h0 : Ok _ l s0 := Ok.frame applyMemEvents_frame (State.wrBytes_ok h)
    have h1 : Ok _ l s1 := h0.frame State.setBlk_frame
    split
    · exact ok_ite (passResume_ok (State.count_ok h1)) h1
    · exact h1

theorem execMigWaitEnd_ok (b cycles : Nat) : NextOk (besidePower mem rng) l (execMigWaitEnd b cycles s) := by
  refine .next (ok_ite h ?_)
  split
  · split
    · exact ok_ite (passResume_ok (State.count_ok h)) h
    · exact h
  · exact h

theorem execEmissionResume_ok (b cycles : Nat) : NextOk (besidePower mem rng) l (execEmissionResume b cycles s) := by
  refine .next (ok_ite h ?_)
  split
  · refine ok_ite ?_ h
    have h1 : Ok _ l (s.count (kSeqPerf b 8) cycles) := State.count_ok h
    split
    · exact guardReads_ok h1 (guardPhys_ok h1 (passResume_ok (emitStep_ok h1)))
    · exact passResume_ok h1
  · exact h

theorem execPageMove_ok (page : Nat) (m : MovePhase) : NextOk (besidePower mem rng) l (execPageMove page m s) := by
  refine .next (ok_ite h ?_)
  cases m with
  | start dest => exact h.frame moveBegin_frame
  | finish p => exact moveEnd_ok h

/-! ## Cells that fail -/

theorem execParityError_ok (b pos : Nat) (x : Struck) : NextOk (besidePower mem rng) l (execParityError b pos x s) := by
  refine .next (ok_ite (h.frame containFault_frame) (ok_ite h ?_))
  split
  · exact h
  · refine ok_ite (h.frame sliceFault_frame) ?_
    split
    · exact ok_ite (Ok.frame retireCell_frame (h.frame State.setBlk_frame)) (h.frame execParityError.again_frame)
    · exact h.frame execParityError.again_frame

theorem execSubstitutionComplete_ok (b : Nat) : NextOk (besidePower mem rng) l (execSubstitutionComplete b s) := by
  refine .next ?_
  split
  · exact h
  · refine ok_ite h (Ok.frame logFault_frame (State.count_ok (State.count_ok ?_)))
    exact State.each_ok (h.frame State.setBlk_frame) fun _ _ k => k.frame reissue_frame

/-! ## The fabric -/

theorem execPacketSend_ok (p cycles : Nat) : NextOk (besidePower mem rng) l (execPacketSend p cycles s) := by
  refine .next (ok_ite h ?_)
  split
  · exact ok_foldl (fun _ _ k => k.frame markFbp_frame) (State.count_ok (h.frame sendControl_frame))
  · extract_lets s1 s2 s3
    have h2 : Ok _ l s2 := ok_foldl (fun _ _ k => k.frame sendFrame_frame) (h.frame State.setPort_frame)
    have h3 : Ok _ l s3 := State.count_ok (State.count_ok h2)
    exact exportEnd_ok (Ok.frame markFbp_frame (Ok.frame sentBy_frame (ok_ite (State.count_ok h3) h3)))

theorem execFrameReceive_ok (p : Nat) (f : Sys2Proof.Frame) : NextOk (besidePower mem rng) l (execFrameReceive p f s) := by
  refine .next (ok_ite h ?_)
  have h1 : Ok _ l (s.count (kPort p 0) f.corrected) := State.count_ok h
  exact ok_ite (Ok.frame badFrame_frame (State.count_ok h1)) (ok_ite (Ok.frame badFrame_frame (State.count_ok h1))
    (h1.frame goodFrame_frame))

theorem execPacketForward_ok (p cls : Nat) : NextOk (besidePower mem rng) l (execPacketForward p cls s) := by
  refine .next (ok_ite h ?_)
  split
  · exact h
  · split
    · exact h
    · exact State.count_ok (h.frame takeRx_frame)
    · exact Ok.frame enqueue_frame (h.frame takeRx_frame)

theorem execPortTrained_ok (p : Nat) : NextOk (besidePower mem rng) l (execPortTrained p s) :=
  .next (ok_ite h (Ok.frame State.setPort_frame (ok_foldl (fun _ _ k => k.frame State.setRo_frame) h)))

theorem execLaneChange_ok (p : Nat) : NextOk (besidePower mem rng) l (execLaneChange p s) := by
  refine .next (ok_ite h ?_)
  split
  · exact h
  · exact Ok.frame switchLane_frame (h.frame countDown_frame)

theorem execLaneRecalDone_ok (p : Nat) (ok : Bool) : NextOk (besidePower mem rng) l (execLaneRecalDone p ok s) := by
  refine .next ?_
  split
  · exact ok_ite h (ok_ite (h.frame announce_frame) (Ok.frame laneResult_frame (Ok.frame State.setRo_frame h.same)))
  · exact h

theorem execLaneLoss_ok (lane : Nat) : NextOk (besidePower mem rng) l (execLaneLoss lane s) := by
  refine .next (ok_ite h ?_)
  have h1 : Ok _ l (laneCut (s.setRo (laneKey lane) 2) (lane / 4)) := Ok.frame laneCut_frame (h.frame State.setRo_frame)
  exact ok_ite (h1.frame State.setPort_frame)
    (ok_ite (Ok.frame portFault_frame (dropQueue_ok (h1.frame State.setPort_frame))) h)

theorem execTup_ok (port : Accessed) : NextOk (besidePower mem rng) l (execTup port s) := by
  refine .next (onCombine_ok h fun t0 k ht0 => ?_)
  have ht : Ok _ l (applyMemEvents t0 port.perf) := ht0.frame applyMemEvents_frame
  extract_lets t
  split
  · exact tupInto_ok ht
  · exact tupInto_ok (Ok.frame domNonfin_frame (State.count_ok ht))
  · exact Ok.frame domNonfin_frame (State.count_ok ht)
  · exact State.count_ok ht
  · exact ht

theorem execTdown_ok (port : Accessed) : NextOk (besidePower mem rng) l (execTdown port s) := by
  refine .next (onCombine_ok h fun t0 k ht0 => ok_foldl (fun _ _ hu => hu.frame toNeighbour_frame) ?_)
  exact Ok.frame postSignal_frame (fabricAdds_ok (ht0.frame applyMemEvents_frame))

/-! ## The end of a step -/

theorem execDailyStreamWaitEnd_ok (b cycles : Nat) : NextOk (besidePower mem rng) l (execDailyStreamWaitEnd b cycles s) := by
  refine .next (ok_ite (clipBlock_ok ?_) (passStreamEnd_ok h))
  split
  · exact Ok.frame setPageState_frame (State.count_ok h)
  · exact State.count_ok h

theorem execBlockReport_ok (b : Nat) : NextOk (besidePower mem rng) l (execBlockReport b s) :=
  .next (ok_ite h (ok_ite (enterNorm_ok (reportBlock_ok h)) (reportBlock_ok h)))

/-! ## The Graders -/

theorem execFeedComplete_ok (r n : Nat) (f : FeedEnd) : NextOk (besidePower mem rng) l (execFeedComplete r n f s) := by
  refine .next ?_
  split
  · refine ok_ite (guardReads_ok h ?_) h
    exact Ok.frame setSlot_frame (Ok.frame applyMemEvents_frame (State.count_ok (feedSlot_ok h)))
  · exact h

theorem execSolveStart_ok (r : Nat) : NextOk (besidePower mem rng) l (execSolveStart r s) := by
  refine .next (ok_ite h ?_)
  split
  · exact h
  · exact State.countIf_ok (State.count_ok (Ok.frame State.setGrd_frame (h.frame setSlot_frame)))

theorem execSolveComplete_ok (r cycles : Nat) (p : PortPerf) : NextOk (besidePower mem rng) l (execSolveComplete r cycles p s) := by
  refine .next ?_
  split
  · exact h
  · exact guardReads_ok h (solveFinish_ok (h.frame solvePerf_frame))

theorem execSolveDeadline_ok (r : Nat) (stop : StopPoint) (cycles : Nat) (p : PortPerf) :
    NextOk (besidePower mem rng) l (execSolveDeadline r stop cycles p s) := by
  refine .next ?_
  split
  · exact h
  · exact ok_ite h (guardReads_ok h (solveFinish_ok (h.frame solvePerf_frame)))

/-! ## Dailies -/

theorem execDailyPageStream_ok (d : Nat) (region : Accessed) : NextOk (besidePower mem rng) l (execDailyPageStream d region s) := by
  refine .next (ok_ite h ?_)
  have h1 : Ok _ l (streamDone s d region.n) := h.frame streamDone_frame
  extract_lets s1
  split
  · exact h1.frame State.setDay_frame
  · refine ok_ite h1 (guardReads_ok h1 (guardPhys_ok h1 (Ok.frame setPageState_frame ?_)))
    exact ok_foldl (fun _ _ k => sendDaily_ok (fun _ _ k => dailyStore_ok k) k) (Ok.frame boundEvt_frame (h1.frame applyMemEvents_frame))

theorem execDailyEnginesDone_ok (d : Nat) : NextOk (besidePower mem rng) l (execDailyEnginesDone d s) := by
  refine .next (ok_ite h ?_)
  exact Ok.frame State.setRo_frame (Ok.frame State.setDay_frame (sendDaily_ok (fun _ _ k => k.frame dailyClose_frame) h))

/-! ## Cues, faults and recovery -/

theorem execCueApply_ok (g : Nat) (x : UnitAt) : NextOk (besidePower mem rng) l (execCueApply g x s) := by
  refine .next (ok_ite ?_ h)
  extract_lets _ s1 s2
  have h1 : Ok _ l s1 := h.same
  have h2 : Ok _ l s2 := onApply_ok (h1.frame loadGroup_frame)
  exact ok_ite (ok_ite (h2.frame graderCue_frame) h2) h1

theorem execClapperIn_ok (nanos : Nat) : NextOk (besidePower mem rng) l (execClapperIn nanos s) := by
  refine .next (ok_ite h (ok_ite (h.frame strike_frame) ?_))
  have h1 : Ok _ l s.fresh.2 := h.frame State.fresh_frame
  exact ok_ite (h1.frame strike_frame) h1

theorem execDumpStart_ok (r incomplete : Nat) : NextOk (besidePower mem rng) l (execDumpStart r incomplete s) := by
  refine .next (ok_ite h ?_)
  extract_lets n g s1 d s2 _ s3
  have h2 : Ok _ l s2 := Ok.frame State.setDump_frame (State.countIf_ok h)
  have h3 : Ok _ l s3 := h2.same
  exact Ok.frame State.setReg_frame (h3.frame setRecord_frame)

theorem execDumpComplete_ok (r : Nat) : NextOk (besidePower mem rng) l (execDumpComplete r s) := by
  refine .next (ok_ite h ?_)
  extract_lets g d x s1
  have h1 : Ok _ l s1 := ok_ite (Ok.frame setRecord_frame (Ok.frame State.setDump_frame (h.frame dumpBytes_frame))) h
  exact Ok.frame sendHold_frame (Ok.frame holdPorts_frame (State.count_ok (h1.frame State.setReg_frame)))

theorem execChipWarmResetComplete_ok (cells : List CellBoot) : NextOk (besidePower mem rng) l (execChipWarmResetComplete cells s) := by
  refine .next ?_
  split
  · exact h
  · refine ok_ite h ?_
    extract_lets s1 _ s2
    have h1 : Ok _ l s1 := h.frame bootCells_frame
    clear_value s1
    have h2 : Ok _ l s2 := loadUnit_ok (ok_foldl (fun _ _ k => regionUp_ok k) h1.same)
    exact Ok.frame applyAllHeld_frame (Ok.frame resumeCtxs_frame (replay_ok h2))

theorem execChipWarmResetOverrun_ok : NextOk (besidePower mem rng) l (execChipWarmResetOverrun s) := by
  refine .next ?_
  split
  · exact h
  · refine ok_ite h ?_
    extract_lets s1
    have h1 : Ok _ l s1 := h.frame logFault_frame
    clear_value s1
    exact Ok.frame applyAllHeld_frame h1.same

theorem execRegionOnline_ok (r : Nat) : NextOk (besidePower mem rng) l (execRegionOnline r s) :=
  .next (regionCmd_ok h fun _ k => loadRegion_ok (Ok.frame State.setReg_frame (emptyPools_ok (k.frame applyLayout_frame))))

theorem execRegionOnlineDone_ok (r : Nat) : NextOk (besidePower mem rng) l (execRegionOnlineDone r s) := by
  refine .next (ok_ite h (ok_foldl (fun _ _ k => settle_ok k) (ok_foldl (fun _ _ k => k.frame linkReset_frame) ?_)))
  exact ok_foldl (fun _ _ k => k.frame takeBank_frame) (loadRegion_ok (h.frame State.setReg_frame))

/-- Every command keeps the queue, the canonical form of memory and the context ranges. -/
theorem exec_ok (c : Instr) : NextOk (besidePower mem rng) l (exec c s) := by
  cases c with
  | powerUp | identityKeyReady => exact .next (ok_ite h.same h)
  | alwaysOnPowerGood => exact execAlwaysOnPowerGood_ok h ..
  | bootLockTimeout => exact .next (ok_ite (setLock_ok h id) h)
  | railsInRegulation => exact execRailsInRegulation_ok h
  | memoryTrainingDone => exact .next (ok_ite (State.each_ok h.same fun _ _ k => k.frame startPort_frame) h)
  | overvoltage => exact execOvervoltage_ok h ..
  | undervoltage | currentTrip => exact .next (coldOff_ok h id)
  | inputInterruption => exact .next (ok_ite (State.count_ok h) h)
  | governorEvaluation => exact .next (ok_ite h (State.countIf_ok (State.countIf_ok (State.countIf_ok h.same))))
  | governorFastPath => exact .next (ok_ite h (State.count_ok h.same))
  | thermalEvaluation => exact execThermalEvaluation_ok h ..
  | junctionLimit => exact execJunctionLimit_ok h ..
  | thermalTrip => exact .next (ok_ite h (Ok.same (dataLost_ok h)))
  | refclk100Loss => exact .next (ok_ite h (Ok.frame chipFault_frame h.same))
  | pcieRefclkLoss => exact .next (ok_ite (linkDown_ok h.same) h)
  | pcieRefclkReturn | perstLRelease => exact .next (ok_ite h (ok_ite (Ok.frame linkTrains_frame h.same) h.same))
  | blockClockStop => exact .next (ok_ite (h.frame State.setBlk_frame) h)
  | rampTurn => exact .next (ok_ite (State.count_ok (State.count_ok (h.frame State.setBlk_frame))) h)
  | perstLAssert => exact execPerstLAssert_ok h
  | flr => exact execFlr_ok h ..
  | cmdSqDb => exact .next (atBar_ok h fun _ k => k.frame sqDb_frame)
  | cmdCqDb => exact .next (atBar_ok h fun _ k => k.frame cqDb_frame)
  | cmdSqBase => exact .next (atBar_ok h fun _ k => k.frame sqBaseWrite_frame)
  | cmdQCtl => exact .next (atBar_ok h fun _ k => k.frame qCtl_frame)
  | barWrite => exact .next (ok_ite h (atBar_ok h fun _ k => k.frame barWrite_frame))
  | domCreate => exact execDomCreate_ok h ..
  | domTeardown => exact execDomTeardown_ok h ..
  | teardownGenAcked => exact execTeardownGenAcked_ok h ..
  | domSet => exact execDomSet_ok h ..
  | qCreate => exact execQCreate_ok h ..
  | qDelete => exact execQDelete_ok h ..
  | qReset => exact execQReset_ok h ..
  | progLoad => exact .next (runCommand_ok h fun _ _ k => specProgLoad_ok k)
  | progUnload => exact .next (runCommand_ok h fun _ _ k => specProgUnload_ok k)
  | step => exact .next (runCommand_ok h fun _ _ k => specStep_ok k)
  | copy => exact .next (runCommand_ok h fun _ _ k => specCopy_ok k)
  | hostWrite => exact .next (runCommand_ok h fun _ _ k => specHostWrite_ok k)
  | hostRead => exact .next (runCommand_ok h fun _ _ k => specHostRead_ok k)
  | exportRun => exact .next (runCommand_ok h fun _ _ k => specExport_ok k)
  | importArm => exact .next (runCommand_ok h fun _ _ k => specImportArm_ok k)
  | freeze => exact .next (runCommand_ok h fun _ _ k => specFreeze_ok k)
  | grade => exact .next (runCommand_ok h fun _ _ k => specGrade_ok k)
  | fence => exact .next (runCommand_ok h fun _ _ k => specFence_ok k)
  | deferredAdmission => exact execDeferredAdmission_ok h ..
  | commandCompletion => exact execCommandCompletion_ok h ..
  | coalesceTimer => exact execCoalesceTimer_ok h ..
  | stepRelease => exact execStepRelease_ok h ..
  | signalArrival => exact execSignalArrival_ok h ..
  | tile => exact .next (startItem_ok h fun _ _ _ k => doTile_ok k)
  | chain => exact .next (startItem_ok h fun _ _ _ k => doChain_ok k)
  | tileVec => exact .next (startItem_ok h fun _ _ _ k => doTileVec_ok k)
  | recordOpen | recordClose => exact .next (startItem_ok h fun _ _ _ k => doRecord_ok k)
  | mark => exact .next (startItem_ok h fun _ _ _ k => k)
  | survey => exact .next (cutItem_ok h fun _ _ _ k => doSurvey_ok k)
  | pass => exact .next (startItem_ok h fun _ _ _ k => k.frame doPass_frame)
  | dir1 | dir2 => exact .next (cutItem_ok h fun _ _ _ k => doDir_ok k)
  | finish => exact .next (cutItem_ok h fun _ _ _ k => doFinish_ok k)
  | grdFeed | grdSolve | grdFeedSolve | grdCold => exact .next (startItem_ok h fun _ _ _ k => doGrd_ok k)
  | xferWrite | xferRadd | xferSignal => exact .next (startItem_ok h fun _ _ _ k => doXfer_ok k)
  | xferTree => exact .next (startItem_ok h fun _ _ _ k => doTree_ok k)
  | deferPromotion => exact execDeferPromotion_ok h ..
  | itemComplete => exact execItemComplete_ok h ..
  | bindWaitEnd => exact execBindWaitEnd_ok h ..
  | spillZeroFillDone => exact execSpillZeroFillDone_ok h ..
  | blockReport => exact execBlockReport_ok h ..
  | cutterSlotTake => exact execCutterSlotTake_ok h ..
  | stagingArrival => exact execStagingArrival_ok h ..
  | migWaitEnd => exact execMigWaitEnd_ok h ..
  | pageMove => exact execPageMove_ok h ..
  | emissionResume => exact execEmissionResume_ok h ..
  | dailyStreamWaitEnd => exact execDailyStreamWaitEnd_ok h ..
  | clipPassComplete => exact .next (ok_ite (enterSig_ok (Ok.frame State.setStp_frame (h.frame applyMemEvents_frame))) h)
  | sliceUe => exact execSliceUe_ok h ..
  | parityError => exact execParityError_ok h ..
  | cellTimeout => exact .next (ok_ite (h.frame containFault_frame) (ok_ite h (h.frame retireCell_frame)))
  | substitutionComplete => exact execSubstitutionComplete_ok h ..
  | dramUe => exact execDramUe_ok h ..
  | granuleMoveComplete => exact execGranuleMoveComplete_ok h ..
  | memChRetrain | memChRetire => exact .next (h.frame runChannel_frame)
  | packageEmptied => exact execPackageEmptied_ok h ..
  | channelRetrainDone => exact execChannelRetrainDone_ok h ..
  | degradedRetry => exact .next (ok_ite (h.frame autoRetire_frame) h)
  | scrubLine => exact execScrubLine_ok h ..
  | frameReceive => exact execFrameReceive_ok h ..
  | retryTimeout => exact .next (ok_ite (h.frame retransmit_frame) h)
  | laneChange => exact execLaneChange_ok h ..
  | fabLaneRecal => exact .next (h.frame laneCommand_frame)
  | fabLaneRetire => exact .next (Ok.frame laneCommand_frame (h.frame State.fresh_frame))
  | laneRecalDone => exact execLaneRecalDone_ok h ..
  | portTrained => exact execPortTrained_ok h ..
  | packetSend => exact execPacketSend_ok h ..
  | packetForward => exact execPacketForward_ok h ..
  | pktWrite | pktSignal => exact .next (onPacket_ok h fun _ _ k => performPacket_ok k)
  | pktRadd => exact .next (onPacket_ok h fun _ _ k => performPacket_ok (k.frame applyMemEvents_frame))
  | tup => exact execTup_ok h ..
  | tdown => exact execTdown_ok h ..
  | xnorm | xsig => exact .next (onCombine_ok h fun _ _ k => xChild_ok k)
  | xnormRes | xsigRes => exact .next (onCombine_ok h fun _ _ k => xParent_ok k)
  | daily => exact .next (onPacket_ok h fun _ _ k => dailyStore_ok k)
  | dailyEnd => exact .next (onPacket_ok h fun _ _ k => k.frame dailyClose_frame)
  | importPkt => exact .next (onPacket_ok h fun _ _ k => importPage_ok (k.frame applyMemEvents_frame))
  | importEnd => exact .next (onPacket_ok h fun _ _ k => importClose_ok k)
  | dailyPageStream => exact execDailyPageStream_ok h ..
  | dailyEnginesDone => exact execDailyEnginesDone_ok h ..
  | feedComplete => exact execFeedComplete_ok h ..
  | solveStart => exact execSolveStart_ok h ..
  | solveDeadline => exact execSolveDeadline_ok h ..
  | solveComplete => exact execSolveComplete_ok h ..
  | blockHang => exact .next (ok_ite h (ok_ite (h.frame containFault_frame) (ok_ite h (Ok.frame regionFault_frame (State.count_ok h)))))
  | graderHang => exact .next (ok_ite (h.frame unitHang_frame) h)
  | hubHang => exact .next (h.frame unitHang_frame)
  | memCtrlHang => exact .next (Ok.frame unitHang_frame (h.frame State.fresh_frame))
  | exchangeHang => exact .next (ok_ite h (Ok.frame strike_frame (State.count_ok (Ok.frame logFault_frame (h.frame State.setXch_frame)))))
  | commandUnitHang | chipLevelUnitFault => exact .next (ok_ite (h.frame chipReset_frame) h)
  | firmwareHang => exact .next (ok_ite h (ok_ite (endTrial_ok h) (Ok.frame logFault_frame (restartFw_ok h))))
  | firmwareFallback => exact .next (ok_ite h (ok_ite (endTrial_ok h) (restartFw_ok h)))
  | clapperIn => exact execClapperIn_ok h ..
  | fltClapCmd | fltLogAck | ucodeVerify | ucodeArm | ucodeRevert | mgtCue | takeRevert | takeDiscard | takeDefaults | secBootLock
  | secPolicyNext | secIdeCtl | secFwVerify | secFwSwitch | secFwClear =>
    exact .next (writeRow_ok h)
  | dumpStart => exact execDumpStart_ok h ..
  | dumpComplete => exact execDumpComplete_ok h ..
  | regionResetComplete => exact .next (ok_ite h (Ok.frame resumeCtxs_frame (replay_ok (regionUp_ok h))))
  | regionResetOverrun => exact .next (ok_ite h (Ok.frame chipReset_frame (Ok.frame State.setReg_frame (State.count_ok h))))
  | chipWarmResetComplete => exact execChipWarmResetComplete_ok h ..
  | chipWarmResetOverrun => exact execChipWarmResetOverrun_ok h
  | fltDumpRel | cutLsWrite => exact .next (ok_ite (writeRow_ok h) h)
  | regionOffline => exact .next (regionCmd_ok h fun _ k => k.frame State.setReg_frame)
  | regionDrained => exact .next (ok_ite (h.frame goOffline_frame) h)
  | regionOnline => exact execRegionOnline_ok h ..
  | regionOnlineDone => exact execRegionOnlineDone_ok h ..
  | regionReset => exact .next (regionCmd_ok h fun _ k => k.frame regionFault_frame)
  | forceOffline => exact .next (regionCmd_ok h fun _ k => k.frame goOffline_frame)
  | ucodeVerifyDone | ucodeArmDone | configSweepStart | plcaBeacon | trialConfirm | firmwareHeartbeat => exact .next (ok_ite h.same h)
  | dictMessage => exact execDictMessage_ok h ..
  | read | write | describe => exact .next (opRow_ok h)
  | mgtMbCtl => exact .next (ok_ite h (ok_ite (h.frame holdBar_frame) (h.frame mbCtl_frame)))
  | cueApply => exact execCueApply_ok h ..
  | takeStoreWriteDone => exact execTakeStoreWriteDone_ok h ..
  | configSweepComplete => exact execConfigSweepComplete_ok h
  | beaconTimeout => exact .next (ok_ite (State.countIf_ok h.same) h)
  | duplicateAddressDetection => exact .next (ok_ite (State.emit_ok (State.count_ok (State.count_ok h.same))) h)
  | icmpv6Request => exact execIcmpv6Request_ok h ..
  | secFwVerifyDone => exact .next (ok_ite h.same (ok_ite h.same h))
  | getVersion | getCapabilities => exact .next (h.frame spdmReply_frame)
  | negotiateAlgorithms => exact .next (ok_ite h (ok_ite (Ok.frame spdmReply_frame h.same) (Ok.frame spdmReply_frame h.same)))
  | getDigests | getCertificate => exact .next (ok_ite (h.frame spdmReply_frame) (h.frame spdmInvalid_frame))
  | challenge => exact .next (ok_ite (h.frame spdmInvalid_frame) (ok_ite (h.frame spdmNotReady_frame) (h.frame spdmReply_frame)))
  | getMeasurements => exact .next (ok_ite (h.frame spdmInvalid_frame) (ok_ite (h.frame spdmNotReady_frame)
      (ok_ite (h.frame spdmReply_frame) (h.frame spdmReply_frame))))
  | laneLoss => exact execLaneLoss_ok h ..
  | inputLow => exact .next (ok_ite h (State.countIf_ok h.same))
  | pcieLinkDown => exact .next (linkDown_ok h)

end

/-! ## Context ranges (R289) -/

/-- A step takes one command off the queue, and keeps memory's canonical form and the context ranges. -/
theorem step_ok {mem rng : Prop} {s : State} (h : Ok (besidePower mem rng) s.pending s) :
    NextOk (besidePower mem rng) s.pending.tail (step s) := by
  unfold step
  split
  · rename_i hq
    have hidle : Ok _ _ (idleTick s) := h.frame idleTick_frame
    rw [hq] at hidle ⊢
    exact .next hidle
  · rename_i c rest hq
    rw [hq, List.tail_cons]
    exact exec_ok (s := { s with pending := rest }) ⟨rfl, False.elim, False.elim, h.mem, h.ranges⟩ c

theorem step_rangesOk {s t : State} (h : RangesOk s) (hstep : step s = .next t) : RangesOk t :=
  ((step_ok (mem := False) (rng := True) ⟨rfl, False.elim, False.elim, False.elim, fun _ => h⟩).ok t hstep).ranges trivial

theorem domOfCtx_eq_none {s : State} {k : Nat} (h : ∀ d, d < 16 → ¬ holdsCtx s d k) : domOfCtx s k = none := by
  refine List.find?_eq_none.2 fun d hd hk => h d (List.mem_range.1 hd) ?_
  simp only [Bool.and_eq_true, bne_iff_ne, decide_eq_true_eq] at hk
  obtain ⟨⟨hst, hb⟩, ht⟩ := hk
  exact ⟨hst, hb, ht⟩

/-- A context of a domain queue fetches only where some domain holds it. -/
theorem canFetch_of_domOfCtx_eq_none {s : State} {k : Nat} (hk : k ≠ adminKey) (h : domOfCtx s k = none) : canFetch s k = false := by
  simp [canFetch, hk, h]

/-- Settles O7: every command keeps the ranges apart (`exec_ok`), DOM_CREATE since it takes a free range alone; a context that no domain
holds has no domain whose queue it could fetch for. -/
theorem contextRangesStayApart : Obligations.ContextRangesStayApart :=
  ⟨fun _ _ => step_rangesOk, fun _ _ hk h => canFetch_of_domOfCtx_eq_none hk (domOfCtx_eq_none h)⟩

end Sys2Proof.Machine

namespace Sys2Proof.Machine

set_option Elab.async false

/-! ## What each command may change -/

/-- Every state that an outcome leads to agrees with `s` outside the parts `w`. -/
structure NextFrame (w : List Part) (s : State) (o : Host.Outcome State Fault Refusal) : Prop where
  frame : ∀ t, o = .next t → Frame w s t

theorem NextFrame.next {w : List Part} {s t : State} (h : Frame w s t) : NextFrame w s (.next t) := ⟨fun _ ht => by cases ht; exact h⟩

theorem NextFrame.fault {w : List Part} {s : State} (f : Fault) : NextFrame w s (.fault f) := ⟨fun _ ht => nomatch ht⟩

/-- A frame with more parts in its list, which is found by computation. -/
theorem Frame.wider {v w : List Part} {s t : State} (g : Frame v s t) (hv : v ⊆ w := by decide) : Frame w s t := g.mono hv

/-- The law of a condition, for the state inside what an admin command answers. -/
theorem frame_ite_answer {w : List Part} {s : State} {c : Prop} [Decidable c] {a b : Nat × State × Bool} (ha : Frame w s a.2.1)
    (hb : Frame w s b.2.1) : Frame w s (if c then a else b).2.1 := by split <;> assumption

section
variable {s : State}

/-- READ and DESCRIBE count, and change nothing else (R312, R334). -/
theorem dictOp_frame_of_ne_write {src : Source} {code : OpCode} {op : DictOp} (h : code ≠ .write) :
    Frame [.ro] s (dictOp s src code op).2.2 := by
  have h1 : Frame [.ro] s (s.count (kDict 3) 1) := State.count_frame
  unfold dictOp
  refine frame_ite_third (.refl _ _) (frame_ite_third (.refl _ _) (frame_ite_third ?_ ?_))
  · cases code <;> exact h1
  · split
    · exact .refl _ _
    · cases code with
      | read => exact .refl _ _
      | write => exact absurd rfl h
      | describe => exact frame_ite_third (.refl _ _) (.refl _ _)

theorem opRow_frame_of_ne_write {src : Source} {n : Nat} {code : OpCode} {op : DictOp} (h : code ≠ .write) :
    Frame [.out, .ro] s (opRow s src n code op) :=
  frame_ite (State.emit_frame.after (State.countIf_frame.after (State.countIf_frame.after (dictOp_frame_of_ne_write h).wider))) (.refl _ _)

theorem execOvervoltage_frame (mv : Nat) : NextFrame (mayChange (.overvoltage mv)) s (execOvervoltage mv s) := by
  dsimp only [mayChange]
  unfold execOvervoltage
  split
  · exact .fault _
  · split
    · exact .next (.put dataLost_frame.wider)
    · exact .next (.refl _ _)

theorem execThermalEvaluation_frame (t0 t1 t2 t3 : Word) :
    NextFrame (mayChange (.thermalEvaluation t0 t1 t2 t3)) s (execThermalEvaluation t0 t1 t2 t3 s) := by
  dsimp only [mayChange]
  refine .next (frame_ite (.refl _ _) ?_)
  exact State.countIf_frame.after (State.countIf_frame.after (.put setTj_frame.wider))

theorem execJunctionLimit_frame (t0 t1 t2 t3 : Word) :
    NextFrame (mayChange (.junctionLimit t0 t1 t2 t3)) s (execJunctionLimit t0 t1 t2 t3 s) := by
  dsimp only [mayChange]
  refine .next (frame_ite (.refl _ _) ?_)
  exact frame_ite (State.countIf_frame.after (.put setTj_frame.wider)) setTj_frame.wider

theorem execAlwaysOnPowerGood_frame (strap : Nat) (tests : BootTests) (low : Bool) (cells : List CellBoot) :
    NextFrame (mayChange (.alwaysOnPowerGood strap tests low cells)) s (execAlwaysOnPowerGood strap tests low cells s) := by
  dsimp only [mayChange]
  refine .next (frame_ite (.refl _ _) (bootFrom_frame.after (bootCells_frame.after (.put (.refl _ _)))))

theorem execRailsInRegulation_frame : NextFrame (mayChange .railsInRegulation) s (execRailsInRegulation s) := by
  dsimp only [mayChange]
  refine .next (frame_ite (.refl _ _) ?_)
  extract_lets _ _ _ _ _ _ s0 _ s1 _ _ s2
  have h0 : Frame [.free, .pwr, .ro, .pins] s s0 := linkAtRails_frame.after (.put (.refl _ _))
  have h1 : Frame [.free, .pwr, .ro, .ucode, .pins] s s1 := .put h0.wider
  have h2 : Frame [.free, .pwr, .sec, .ro, .ucode, .pins] s s2 := .put h1.wider
  have onBank (n : Nat) {t : State} : Frame [.blks] t (t.each (List.range 24) (blocksOnBank n)) := State.each_frame fun _ _ =>
      blocksOnBank_frame
  have out {t : State} : Frame [.blks] t (t.each (List.range 24) blocksOut) := State.each_frame fun _ _ => blocksOut_frame
  refine frame_ite ?_ (frame_ite ?_ ?_)
  · exact (onBank _).after h1.wider
  · exact logFault_frame.after ((onBank _).after h2.wider)
  · exact out.after h1.wider

theorem execDictMessage_frame (src : Source) (port : Nat) (x : Payload) :
    NextFrame (mayChange (.dictMessage src port x)) s (execDictMessage src port x s) := by
  dsimp only [mayChange]
  refine .next ?_
  cases src with
  | mailbox => exact answerQueue_frame.after mailboxMessage_frame.wider
  | t1s addr prt mc => exact frame_ite (.refl _ _) (frame_ite t1sMessage_frame.wider State.count_frame.wider)
  | secure => exact frame_ite (State.emit_frame.after (State.count_frame.after runMessage_frame.wider)) (.refl _ _)

theorem execTakeStoreWriteDone_frame (ok : Bool) : NextFrame (mayChange (.takeStoreWriteDone ok)) s (execTakeStoreWriteDone ok s) := by
  dsimp only [mayChange]
  refine .next ?_
  split
  · exact .refl _ _
  · exact frame_ite (nextTakeWrite_frame.after (.put (.refl _ _))) (nextTakeWrite_frame.after (State.count_frame.after (.put (.refl _ _))))

theorem execConfigSweepComplete_frame : NextFrame (mayChange .configSweepComplete) s (execConfigSweepComplete s) := by
  dsimp only [mayChange]
  refine .next (frame_ite (.refl _ _) ?_)
  exact State.countIf_frame.after (State.count_frame.after
      (State.setRo_frame.after (State.setRo_frame.after (State.setRo_frame.after (.put (.refl _ _))))))

theorem execIcmpv6Request_frame (kind : Icmp) (peer : Nat) (payload : List Byte) :
    NextFrame (mayChange (.icmpv6Request kind peer payload)) s (execIcmpv6Request kind peer payload s) := by
  dsimp only [mayChange]
  refine .next (frame_ite ?_ (.refl _ _))
  have h1 : Frame [.ro] s ((s.count (kT1s 0) 1).count (kT1s 1) 1) := State.count_frame.after State.count_frame.wider
  cases kind with
  | echo => exact State.emit_frame.after h1.wider
  | solicit target => exact frame_ite (State.emit_frame.after h1.wider) (.refl _ _)

theorem execPerstLAssert_frame : NextFrame (mayChange .perstLAssert) s (execPerstLAssert s) := by
  dsimp only [mayChange]
  refine .next (frame_ite (.refl _ _) ?_)
  extract_lets _ _ s1 _ s2 s3 s4 _ s5
  have h1 : Frame [.sec, .mgt, .pins, .msix] s s1 := linkDown_frame.after (.put (.refl _ _))
  have h2 : Frame [.sec, .mgt, .pins, .ctxs, .msix] s s2 := .put h1.wider
  have h3 : Frame [.ro, .doms, .ctxs, .ress, .fab, .days] s2 s3 := State.each_frame fun _ _ => perstCmd_frame
  have h5 : Frame [.ro, .ctxs] s3 s5 := State.setCtx_frame.after State.countIf_frame.wider
  exact (State.each_frame fun _ _ => State.setDom_frame.wider).trans (h5.after (h3.after h2.wider))

theorem execFlr_frame (fn : Nat) : NextFrame (mayChange (.flr fn)) s (execFlr fn s) := by
  dsimp only [mayChange]
  refine .next (frame_ite (.refl _ _) (frame_ite ?_ (flrDom_frame.after flrMsix_frame.wider)))
  extract_lets s1 s2
  have h1 : Frame [.doms, .ctxs] s1 s2 := (State.each_frame fun _ _ => State.setDom_frame.wider).trans State.setCtx_frame.wider
  exact .put (h1.after ((State.each_frame fun _ _ => flrDom_frame.wider).trans flrMsix_frame.wider))

theorem execDomCreate_frame (desc : Nat) : NextFrame (mayChange (.domCreate desc)) s (execDomCreate desc s) := by
  dsimp only [mayChange]
  exact .next (runAdmin_frame fun _ => frame_ite_answer (.refl _ _) (frame_ite_answer (.refl _ _) (frame_ite_answer (.refl _ _)
    (frame_ite_answer (.refl _ _) State.setDom_frame.wider))))

theorem execDomTeardown_frame (desc : Nat) : NextFrame (mayChange (.domTeardown desc)) s (execDomTeardown desc s) := by
  dsimp only [mayChange]
  exact .next (runAdmin_frame fun _ => frame_ite_answer (.refl _ _) (State.setDom_frame.after teardown_frame.wider))


theorem execDomSet_frame (desc : Nat) : NextFrame (mayChange (.domSet desc)) s (execDomSet desc s) := by
  dsimp only [mayChange]
  exact .next (runAdmin_frame fun _ => frame_ite_answer (.refl _ _) (frame_ite_answer (.refl _ _) State.setDom_frame.wider))


theorem execQCreate_frame (desc : Nat) : NextFrame (mayChange (.qCreate desc)) s (execQCreate desc s) := by
  dsimp only [mayChange]
  exact .next (runAdmin_frame fun _ => frame_ite_answer (.refl _ _) (frame_ite_answer (.refl _ _)
    (frame_ite (State.setDom_frame.after State.setCtx_frame.wider) State.setCtx_frame.wider)))


theorem execQDelete_frame (desc : Nat) : NextFrame (mayChange (.qDelete desc)) s (execQDelete desc s) := by
  dsimp only [mayChange]
  refine .next (runAdmin_frame fun t => frame_ite_answer (.refl _ _) (frame_ite_answer (.refl _ _) (frame_ite_answer (.refl _ _) ?_)))
  extract_lets s0 s1
  have h0 : Frame [.ro, .doms, .ctxs, .ress] t s0 := by
    unfold s0
    split
    · exact closeMuted_frame
    · exact .refl _ _
  have h1 : Frame [.ro, .doms, .ctxs, .ress] t s1 := State.setCtx_frame.after h0
  exact frame_ite (State.setDom_frame.after h1.wider) h1.wider

theorem execQReset_frame (desc : Nat) : NextFrame (mayChange (.qReset desc)) s (execQReset desc s) := by
  dsimp only [mayChange]
  exact .next (runAdmin_frame fun _ => frame_ite_answer (.refl _ _)
      (frame_ite_answer (.refl _ _) (frame_ite_answer (.refl _ _) State.setCtx_frame.wider)))


theorem execTeardownGenAcked_frame (a : GenAcks) : NextFrame (mayChange (.teardownGenAcked a)) s (execTeardownGenAcked a s) := by
  dsimp only [mayChange]
  refine .next (frame_ite (.refl _ _) ?_)
  extract_lets x mine s0 u _ s1 _ s2
  have h0 : Frame [.out, .ro, .clap, .doms, .ctxs, .ress, .msix, .blks] s s0 :=
      frame_foldl (fun _ _ => lastRecord_frame) State.count_frame.wider
  have h2 : Frame [.ro, .doms, .ctxs, .progs, .steps, .segs, .blks, .mem, .dirs, .binds, .back, .grds, .xchs, .days] s0 s2 :=
    State.setDom_frame.after (.put unloadProgram_frame.wider)
  exact frame_ite (adminDone_frame.after (h2.after h0.wider)) (h2.after h0.wider)

theorem execDeferredAdmission_frame (d : Nat) : NextFrame (mayChange (.deferredAdmission d)) s (execDeferredAdmission d s) := by
  dsimp only [mayChange]
  refine .next (frame_ite (.refl _ _) ?_)
  split
  · exact admitDeferred_frame.wider
  · exact .refl _ _

theorem execCommandCompletion_frame (q : QRef) (x : DmaEnd) :
    NextFrame (mayChange (.commandCompletion q x)) s (execCommandCompletion q x s) := by
  dsimp only [mayChange]
  refine .next ?_
  split
  · exact .refl _ _
  · split
    · exact .refl _ _
    · exact frame_ite (.refl _ _) (complete_frame.after applyMemEvents_frame.wider)

theorem execCoalesceTimer_frame (q : QRef) : NextFrame (mayChange (.coalesceTimer q)) s (execCoalesceTimer q s) := by
  dsimp only [mayChange]
  refine .next ?_
  split
  · exact .refl _ _
  · exact frame_ite (signalMsix_frame.after State.setCtx_frame.wider) (.refl _ _)

theorem execBindWaitEnd_frame (cell cycles : Nat) : NextFrame (mayChange (.bindWaitEnd cell cycles)) s (execBindWaitEnd cell cycles s) := by
  dsimp only [mayChange]
  refine .next ?_
  split
  · exact .refl _ _
  · exact frame_ite (.refl _ _) ((releaseHeld_frame fun _ _ => slotWrite_frame.wider).trans State.count_frame.wider)

theorem execSpillZeroFillDone_frame (cell : Nat) : NextFrame (mayChange (.spillZeroFillDone cell)) s (execSpillZeroFillDone cell s) := by
  dsimp only [mayChange]
  refine .next ?_
  split
  · exact .refl _ _
  · split
    · exact releaseHeld_frame fun _ _ => slotWrite_frame.wider
    · refine (releaseHeld_frame fun t x => ?_).trans zeroRange_frame.wider
      split
      · exact onBound_frame.wider
      · exact slotWrite_frame.wider

theorem execGranuleMoveComplete_frame (g : Nat) : NextFrame (mayChange (.granuleMoveComplete g)) s (execGranuleMoveComplete g s) := by
  dsimp only [mayChange]
  refine .next ?_
  split
  · exact .refl _ _
  · exact frame_ite (.refl _ _) (.put (.refl _ _))

theorem execPackageEmptied_frame (p : Nat) : NextFrame (mayChange (.packageEmptied p)) s (execPackageEmptied p s) := by
  dsimp only [mayChange]
  refine .next ?_
  split
  · exact .refl _ _
  · exact frame_ite (.refl _ _) (frame_ite (setCh_frame.after setPkg_frame.wider) (endOp_frame.after setPkg_frame.wider))

theorem execChannelRetrainDone_frame (ok : Bool) : NextFrame (mayChange (.channelRetrainDone ok)) s (execChannelRetrainDone ok s) := by
  dsimp only [mayChange]
  refine .next ?_
  split
  · exact .refl _ _
  · rename_i o _
    have h1 : Frame [.ro, .back] s (endOp (setPkg s (o.ch / 4) 0) o 2) := endOp_frame.after setPkg_frame.wider
    exact frame_ite (.refl _ _) (frame_ite (.put h1) (endOp_frame.after setPkg_frame.wider))

theorem execDramUe_frame (pa : Nat) : NextFrame (mayChange (.dramUe pa)) s (execDramUe pa s) := by
  dsimp only [mayChange]
  unfold execDramUe
  extract_lets g p c r s1 s2
  refine .next (frame_ite (.refl _ _) ?_)
  have h1 : Frame [.ro] s s1 := State.count_frame
  have h2 : Frame [.ro, .log, .head, .clap, .regs, .ctxs, .steps, .blks, .grds, .fab, .days] s s2 := regionFault_frame.after h1.wider
  exact frame_ite (containFault_frame.after h1.wider) (frame_ite h1.wider (frame_ite (failPackage_frame.after h2.wider) (.put h2.wider)))

theorem execSliceUe_frame (cell off : Nat) (lost : Bool) :
    NextFrame (mayChange (.sliceUe cell off lost)) s (execSliceUe cell off lost s) := by
  dsimp only [mayChange]
  refine .next (frame_ite (.refl _ _) ?_)
  exact frame_ite (frame_ite (sliceFault_frame.after State.count_frame.wider) (State.count_frame.after State.count_frame.wider))
    (frame_ite State.count_frame.wider (sliceFault_frame.after State.count_frame.wider))

theorem execScrubLine_frame (cell off : Nat) (corrected uncorrectable : Bool) :
    NextFrame (mayChange (.scrubLine cell off corrected uncorrectable)) s (execScrubLine cell off corrected uncorrectable s) := by
  dsimp only [mayChange]
  refine .next (frame_ite (.refl _ _) (frame_ite (.put State.count_frame.wider) State.countIf_frame.wider))

theorem execSignalArrival_frame (n : Nat) : NextFrame (mayChange (.signalArrival n)) s (execSignalArrival n s) := by
  dsimp only [mayChange]
  refine .next ?_
  split
  · exact .refl _ _
  · exact frame_ite (signalBlock_frame.after (.put (.refl _ _))) (.put (.refl _ _))

theorem execStepRelease_frame (d cycles : Nat) : NextFrame (mayChange (.stepRelease d cycles)) s (execStepRelease d cycles s) := by
  dsimp only [mayChange]
  refine .next (frame_ite (.refl _ _) ?_)
  refine frame_foldl (fun _ _ => markReady_frame.wider) (frame_foldl (fun _ _ => unrunVariants_frame.wider) ?_)
  exact frame_foldl (fun _ _ => State.count_frame.after State.setBlk_frame.wider) State.setStp_frame.wider

theorem execDeferPromotion_frame (b : Nat) : NextFrame (mayChange (.deferPromotion b)) s (execDeferPromotion b s) := by
  dsimp only [mayChange]
  refine .next (frame_ite (.refl _ _) ?_)
  split
  · exact .refl _ _
  · exact State.count_frame.after (traceItem_frame.after State.setBlk_frame.wider)

theorem execItemComplete_frame (b n : Nat) (x : RunEnd) : NextFrame (mayChange (.itemComplete b n x)) s (execItemComplete b n x s) := by
  dsimp only [mayChange]
  refine .next (frame_ite (.refl _ _) ?_)
  split
  · exact .refl _ _
  · extract_lets
    split
    · exact .refl _ _
    · refine frame_ite (guardReads_frame (.refl _ _) ?_) (.refl _ _)
      exact applyMemEvents_frame.after
        (countRun_frame.after (finishItem_frame.after (settleItem_frame.after traceItem_frame.wider)))

theorem execCutterSlotTake_frame (b : Nat) (perf : Perf) :
    NextFrame (mayChange (.cutterSlotTake b perf)) s (execCutterSlotTake b perf s) := by
  dsimp only [mayChange]
  refine .next (frame_ite (.refl _ _) ?_)
  split
  · refine frame_ite (.refl _ _) ?_
    split
    · exact takeGuarded_frame.after applyMemEvents_frame.wider
    · exact .refl _ _
  · exact .refl _ _

theorem execStagingArrival_frame (b : Nat) (a : Arrival) : NextFrame (mayChange (.stagingArrival b a)) s (execStagingArrival b a s) := by
  dsimp only [mayChange]
  refine .next (frame_ite (.refl _ _) ?_)
  split
  · exact .refl _ _
  · extract_lets s0 _ s1
    have h1 : Frame [.ro, .blks, .mem, .back] s s1 := State.setBlk_frame.after (applyMemEvents_frame.after State.wrBytes_frame.wider)
    split
    · exact frame_ite (passResume_frame.after (State.count_frame.after h1.wider)) h1.wider
    · exact h1.wider

theorem execMigWaitEnd_frame (b cycles : Nat) : NextFrame (mayChange (.migWaitEnd b cycles)) s (execMigWaitEnd b cycles s) := by
  dsimp only [mayChange]
  refine .next (frame_ite (.refl _ _) ?_)
  split
  · split
    · exact frame_ite (passResume_frame.after State.count_frame.wider) (.refl _ _)
    · exact .refl _ _
  · exact .refl _ _

theorem execEmissionResume_frame (b cycles : Nat) : NextFrame (mayChange (.emissionResume b cycles)) s (execEmissionResume b cycles s) := by
  dsimp only [mayChange]
  refine .next (frame_ite (.refl _ _) ?_)
  split
  · refine frame_ite ?_ (.refl _ _)
    split
    · exact guardReads_frame State.count_frame.wider (guardPhys_frame State.count_frame.wider
        (passResume_frame.after (emitStep_frame.after State.count_frame.wider)))
    · exact passResume_frame.after State.count_frame.wider
  · exact .refl _ _

theorem execPageMove_frame (page : Nat) (m : MovePhase) : NextFrame (mayChange (.pageMove page m)) s (execPageMove page m s) := by
  dsimp only [mayChange]
  refine .next (frame_ite (.refl _ _) ?_)
  cases m with
  | start dest => exact moveBegin_frame.wider
  | finish p => exact moveEnd_frame.wider

theorem execParityError_frame (b pos : Nat) (x : Struck) : NextFrame (mayChange (.parityError b pos x)) s (execParityError b pos x s) := by
  dsimp only [mayChange]
  refine .next (frame_ite containFault_frame.wider (frame_ite (.refl _ _) ?_))
  split
  · exact .refl _ _
  · refine frame_ite sliceFault_frame.wider ?_
    split
    · exact frame_ite (retireCell_frame.after State.setBlk_frame.wider) execParityError.again_frame.wider
    · exact execParityError.again_frame.wider

theorem execSubstitutionComplete_frame (b : Nat) : NextFrame (mayChange (.substitutionComplete b)) s (execSubstitutionComplete b s) := by
  dsimp only [mayChange]
  refine .next ?_
  split
  · exact .refl _ _
  · refine frame_ite (.refl _ _) (logFault_frame.after (State.count_frame.after (State.count_frame.after ?_)))
    exact (State.each_frame fun _ _ => reissue_frame.wider).trans State.setBlk_frame.wider

theorem execPacketSend_frame (p cycles : Nat) : NextFrame (mayChange (.packetSend p cycles)) s (execPacketSend p cycles s) := by
  dsimp only [mayChange]
  refine .next (frame_ite (.refl _ _) ?_)
  split
  · exact frame_foldl (fun _ _ => markFbp_frame.wider) (State.count_frame.after sendControl_frame.wider)
  · extract_lets s1 s2 s3
    have h2 : Frame [.out, .fab] s s2 := frame_foldl (fun _ _ => sendFrame_frame) State.setPort_frame.wider
    have h3 : Frame [.out, .ro, .fab] s s3 := State.count_frame.after (State.count_frame.after h2.wider)
    exact exportEnd_frame.after (markFbp_frame.after (sentBy_frame.after (frame_ite (State.count_frame.after h3.wider) h3.wider)))

theorem execFrameReceive_frame (p : Nat) (f : Sys2Proof.Frame) : NextFrame (mayChange (.frameReceive p f)) s (execFrameReceive p f s) := by
  dsimp only [mayChange]
  refine .next (frame_ite (.refl _ _) ?_)
  refine frame_ite ?_ (frame_ite ?_ ?_)
  · exact badFrame_frame.after (State.count_frame.after State.count_frame.wider)
  · exact badFrame_frame.after (State.count_frame.after State.count_frame.wider)
  · exact goodFrame_frame.after State.count_frame.wider

theorem execPacketForward_frame (p cls : Nat) : NextFrame (mayChange (.packetForward p cls)) s (execPacketForward p cls s) := by
  dsimp only [mayChange]
  refine .next (frame_ite (.refl _ _) ?_)
  split
  · exact .refl _ _
  · split
    · exact .refl _ _
    · exact State.count_frame.after takeRx_frame.wider
    · exact enqueue_frame.after takeRx_frame.wider

theorem execPortTrained_frame (p : Nat) : NextFrame (mayChange (.portTrained p)) s (execPortTrained p s) := by
  dsimp only [mayChange]
  exact .next (frame_ite (.refl _ _) (State.setPort_frame.after (frame_foldl (fun _ _ => State.setRo_frame.wider) (.refl _ _))))


theorem execLaneChange_frame (p : Nat) : NextFrame (mayChange (.laneChange p)) s (execLaneChange p s) := by
  dsimp only [mayChange]
  refine .next (frame_ite (.refl _ _) ?_)
  split
  · exact .refl _ _
  · exact switchLane_frame.after countDown_frame.wider

theorem execLaneRecalDone_frame (p : Nat) (ok : Bool) : NextFrame (mayChange (.laneRecalDone p ok)) s (execLaneRecalDone p ok s) := by
  dsimp only [mayChange]
  refine .next ?_
  split
  · exact frame_ite (.refl _ _) (frame_ite announce_frame.wider (laneResult_frame.after (State.setRo_frame.after (.put (.refl _ _)))))
  · exact .refl _ _

theorem execLaneLoss_frame (lane : Nat) : NextFrame (mayChange (.laneLoss lane)) s (execLaneLoss lane s) := by
  dsimp only [mayChange]
  refine .next (frame_ite (.refl _ _) ?_)
  have h1 : Frame [.ro, .fab] s (laneCut (s.setRo (laneKey lane) 2) (lane / 4)) := laneCut_frame.after State.setRo_frame.wider
  exact frame_ite (State.setPort_frame.after h1.wider)
    (frame_ite (portFault_frame.after (dropQueue_frame.after (State.setPort_frame.after h1.wider))) (.refl _ _))

theorem execTup_frame (port : Accessed) : NextFrame (mayChange (.tup port)) s (execTup port s) := by
  dsimp only [mayChange]
  refine .next (onCombine_frame fun t0 k => ?_)
  have ht : Frame [.ro, .back] t0 (applyMemEvents t0 port.perf) := applyMemEvents_frame
  extract_lets t
  split
  · exact tupInto_frame.after ht.wider
  · exact tupInto_frame.after (domNonfin_frame.after (State.count_frame.after ht.wider))
  · exact domNonfin_frame.after (State.count_frame.after ht.wider)
  · exact State.count_frame.after ht.wider
  · exact ht.wider

theorem execTdown_frame (port : Accessed) : NextFrame (mayChange (.tdown port)) s (execTdown port s) := by
  dsimp only [mayChange]
  refine .next (onCombine_frame fun _ _ => frame_foldl (fun _ _ => toNeighbour_frame.wider) ?_)
  exact postSignal_frame.after (fabricAdds_frame.after applyMemEvents_frame.wider)

theorem execDailyStreamWaitEnd_frame (b cycles : Nat) :
    NextFrame (mayChange (.dailyStreamWaitEnd b cycles)) s (execDailyStreamWaitEnd b cycles s) := by
  dsimp only [mayChange]
  refine .next (frame_ite (clipBlock_frame.after ?_) passStreamEnd_frame.wider)
  split
  · exact setPageState_frame.after State.count_frame.wider
  · exact State.count_frame.wider

theorem execBlockReport_frame (b : Nat) : NextFrame (mayChange (.blockReport b)) s (execBlockReport b s) := by
  dsimp only [mayChange]
  exact .next (frame_ite (.refl _ _) (frame_ite (enterNorm_frame.after reportBlock_frame.wider) reportBlock_frame.wider))


theorem execFeedComplete_frame (r n : Nat) (f : FeedEnd) : NextFrame (mayChange (.feedComplete r n f)) s (execFeedComplete r n f s) := by
  dsimp only [mayChange]
  refine .next ?_
  split
  · refine frame_ite (guardReads_frame (.refl _ _) ?_) (.refl _ _)
    exact setSlot_frame.after (applyMemEvents_frame.after (State.count_frame.after feedSlot_frame.wider))
  · exact .refl _ _

theorem execSolveStart_frame (r : Nat) : NextFrame (mayChange (.solveStart r)) s (execSolveStart r s) := by
  dsimp only [mayChange]
  refine .next (frame_ite (.refl _ _) ?_)
  split
  · exact .refl _ _
  · exact State.countIf_frame.after (State.count_frame.after (State.setGrd_frame.after setSlot_frame.wider))

theorem execSolveComplete_frame (r cycles : Nat) (p : PortPerf) :
    NextFrame (mayChange (.solveComplete r cycles p)) s (execSolveComplete r cycles p s) := by
  dsimp only [mayChange]
  refine .next ?_
  split
  · exact .refl _ _
  · exact guardReads_frame (.refl _ _) (solveFinish_frame.after solvePerf_frame.wider)

theorem execSolveDeadline_frame (r : Nat) (stop : StopPoint) (cycles : Nat) (p : PortPerf) :
    NextFrame (mayChange (.solveDeadline r stop cycles p)) s (execSolveDeadline r stop cycles p s) := by
  dsimp only [mayChange]
  refine .next ?_
  split
  · exact .refl _ _
  · exact frame_ite (.refl _ _) (guardReads_frame (.refl _ _) (solveFinish_frame.after solvePerf_frame.wider))

theorem execDailyPageStream_frame (d : Nat) (region : Accessed) :
    NextFrame (mayChange (.dailyPageStream d region)) s (execDailyPageStream d region s) := by
  dsimp only [mayChange]
  refine .next (frame_ite (.refl _ _) ?_)
  have h1 : Frame [.days] s (streamDone s d region.n) := streamDone_frame
  extract_lets s1
  split
  · exact State.setDay_frame.after h1.wider
  · refine frame_ite h1.wider (guardReads_frame h1.wider (guardPhys_frame h1.wider (setPageState_frame.after ?_)))
    exact frame_foldl (fun _ _ => sendDaily_frame fun _ _ => dailyStore_frame.wider)
      (boundEvt_frame.after (applyMemEvents_frame.after h1.wider))

theorem execDailyEnginesDone_frame (d : Nat) : NextFrame (mayChange (.dailyEnginesDone d)) s (execDailyEnginesDone d s) := by
  dsimp only [mayChange]
  refine .next (frame_ite (.refl _ _) ?_)
  exact State.setRo_frame.after (State.setDay_frame.after (sendDaily_frame fun _ _ => dailyClose_frame.wider))

theorem execCueApply_frame (g : Nat) (x : UnitAt) : NextFrame (mayChange (.cueApply g x)) s (execCueApply g x s) := by
  dsimp only [mayChange]
  refine .next (frame_ite ?_ (.refl _ _))
  extract_lets _ s1 s2
  have h1 : Frame [.mgt] s s1 := .put (.refl _ _)
  have h2 : Frame [.mgt, .ro, .doms, .ctxs, .ress, .blks, .fab] s s2 := onApply_frame.after (loadGroup_frame.after h1.wider)
  exact frame_ite (frame_ite (graderCue_frame.after h2.wider) h2.wider) h1.wider

theorem execClapperIn_frame (nanos : Nat) : NextFrame (mayChange (.clapperIn nanos)) s (execClapperIn nanos s) := by
  dsimp only [mayChange]
  refine .next (frame_ite (.refl _ _) (frame_ite strike_frame.wider ?_))
  exact frame_ite (strike_frame.after State.fresh_frame.wider) State.fresh_frame.wider

theorem execDumpStart_frame (r incomplete : Nat) : NextFrame (mayChange (.dumpStart r incomplete)) s (execDumpStart r incomplete s) := by
  dsimp only [mayChange]
  refine .next (frame_ite (.refl _ _) ?_)
  extract_lets n g s1 d s2 _ s3
  have h2 : Frame [.ro, .dumps] s s2 := State.setDump_frame.after State.countIf_frame.wider
  have h3 : Frame [.ro, .dumps] s s3 := .put h2
  exact State.setReg_frame.after (setRecord_frame.after h3.wider)

theorem execDumpComplete_frame (r : Nat) : NextFrame (mayChange (.dumpComplete r)) s (execDumpComplete r s) := by
  dsimp only [mayChange]
  refine .next (frame_ite (.refl _ _) ?_)
  extract_lets g d x s1
  have h1 : Frame [.free, .log, .dumps, .ro] s s1 :=
      frame_ite (setRecord_frame.after (State.setDump_frame.after dumpBytes_frame.wider)) (.refl _ _)
  exact sendHold_frame.after (holdPorts_frame.after (State.count_frame.after (State.setReg_frame.after h1.wider)))

theorem execChipWarmResetComplete_frame (cells : List CellBoot) :
    NextFrame (mayChange (.chipWarmResetComplete cells)) s (execChipWarmResetComplete cells s) := by
  dsimp only [mayChange]
  refine .next ?_
  split
  · exact .refl _ _
  · refine frame_ite (.refl _ _) ?_
    have h1 : Frame [.ro, .blks] s (bootCells s cells) := bootCells_frame
    exact applyAllHeld_frame.after (resumeCtxs_frame.after (replay_frame.after
      (loadUnit_frame.after (frame_foldl (fun _ _ => regionUp_frame.wider) (.put h1.wider)))))

theorem execChipWarmResetOverrun_frame : NextFrame (mayChange .chipWarmResetOverrun) s (execChipWarmResetOverrun s) := by
  dsimp only [mayChange]
  refine .next ?_
  split
  · exact .refl _ _
  · refine frame_ite (.refl _ _) ?_
    extract_lets s1
    have h1 : Frame [.ro, .log, .head] s s1 := logFault_frame
    clear_value s1
    exact applyAllHeld_frame.after (.put h1.wider)

theorem execRegionOnline_frame (r : Nat) : NextFrame (mayChange (.regionOnline r)) s (execRegionOnline r s) := by
  dsimp only [mayChange]
  exact .next (regionCmd_frame fun _ => loadRegion_frame.after (State.setReg_frame.after (emptyPools_frame.after applyLayout_frame.wider)))


theorem execRegionOnlineDone_frame (r : Nat) : NextFrame (mayChange (.regionOnlineDone r)) s (execRegionOnlineDone r s) := by
  dsimp only [mayChange]
  refine .next (frame_ite (.refl _ _) (frame_foldl (fun _ _ => settle_frame.wider) (frame_foldl (fun _ _ => linkReset_frame.wider) ?_)))
  exact frame_foldl (fun _ _ => takeBank_frame.wider) (loadRegion_frame.after State.setReg_frame.wider)

theorem exec_frame (c : Instr) : NextFrame (mayChange c) s (exec c s) := by
  cases c <;> dsimp only [mayChange]
  case powerUp | identityKeyReady => exact .next (frame_ite (.put (.refl _ _)) (.refl _ _))
  case alwaysOnPowerGood => exact execAlwaysOnPowerGood_frame ..
  case bootLockTimeout => exact .next (frame_ite setLock_frame.wider (.refl _ _))
  case railsInRegulation => exact execRailsInRegulation_frame
  case memoryTrainingDone =>
    exact .next (frame_ite ((State.each_frame fun _ _ => startPort_frame.wider).trans (.put (.refl _ _))) (.refl _ _))
  case overvoltage => exact execOvervoltage_frame ..
  case undervoltage | currentTrip => exact .next coldOff_frame.wider
  case inputInterruption => exact .next (frame_ite State.count_frame.wider (.refl _ _))
  case governorEvaluation =>
    exact .next (frame_ite (.refl _ _) (State.countIf_frame.after
        (State.countIf_frame.after (State.countIf_frame.after (.put (.refl _ _))))))
  case governorFastPath => exact .next (frame_ite (.refl _ _) (State.count_frame.after (.put (.refl _ _))))
  case thermalEvaluation => exact execThermalEvaluation_frame ..
  case junctionLimit => exact execJunctionLimit_frame ..
  case thermalTrip => exact .next (frame_ite (.refl _ _) (.put dataLost_frame.wider))
  case refclk100Loss => exact .next (frame_ite (.refl _ _) (chipFault_frame.after (.put (.refl _ _))))
  case pcieRefclkLoss => exact .next (frame_ite (linkDown_frame.after (.put (.refl _ _))) (.refl _ _))
  case pcieRefclkReturn | perstLRelease =>
    exact .next (frame_ite (.refl _ _) (frame_ite (linkTrains_frame.after (.put (.refl _ _))) (.put (.refl _ _))))
  case blockClockStop => exact .next (frame_ite State.setBlk_frame.wider (.refl _ _))
  case rampTurn => exact .next (frame_ite (State.count_frame.after (State.count_frame.after State.setBlk_frame.wider)) (.refl _ _))
  case perstLAssert => exact execPerstLAssert_frame
  case flr => exact execFlr_frame ..
  case cmdSqDb => exact .next (atBar_frame fun _ => sqDb_frame.wider)
  case cmdCqDb => exact .next (atBar_frame fun _ => cqDb_frame.wider)
  case cmdSqBase => exact .next (atBar_frame fun _ => sqBaseWrite_frame.wider)
  case cmdQCtl => exact .next (atBar_frame fun _ => qCtl_frame.wider)
  case barWrite => exact .next (frame_ite (.refl _ _) (atBar_frame fun _ => barWrite_frame.wider))
  case domCreate => exact execDomCreate_frame ..
  case domTeardown => exact execDomTeardown_frame ..
  case teardownGenAcked => exact execTeardownGenAcked_frame ..
  case domSet => exact execDomSet_frame ..
  case qCreate => exact execQCreate_frame ..
  case qDelete => exact execQDelete_frame ..
  case qReset => exact execQReset_frame ..
  case progLoad => exact .next (runCommand_frame fun _ _ => specProgLoad_frame.wider)
  case progUnload => exact .next (runCommand_frame fun _ _ => specProgUnload_frame.wider)
  case step => exact .next (runCommand_frame fun _ _ => specStep_frame.wider)
  case copy => exact .next (runCommand_frame fun _ _ => specCopy_frame.wider)
  case hostWrite => exact .next (runCommand_frame fun _ _ => specHostWrite_frame.wider)
  case hostRead => exact .next (runCommand_frame fun _ _ => specHostRead_frame.wider)
  case exportRun => exact .next (runCommand_frame fun _ _ => specExport_frame.wider)
  case importArm => exact .next (runCommand_frame fun _ _ => specImportArm_frame.wider)
  case freeze => exact .next (runCommand_frame fun _ _ => specFreeze_frame.wider)
  case grade => exact .next (runCommand_frame fun _ _ => specGrade_frame.wider)
  case fence => exact .next (runCommand_frame fun _ _ => specFence_frame.wider)
  case deferredAdmission => exact execDeferredAdmission_frame ..
  case commandCompletion => exact execCommandCompletion_frame ..
  case coalesceTimer => exact execCoalesceTimer_frame ..
  case stepRelease => exact execStepRelease_frame ..
  case signalArrival => exact execSignalArrival_frame ..
  case tile => exact .next (startItem_frame fun _ _ _ => doTile_frame.wider)
  case chain => exact .next (startItem_frame fun _ _ _ => doChain_frame.wider)
  case tileVec => exact .next (startItem_frame fun _ _ _ => doTileVec_frame.wider)
  case recordOpen | recordClose => exact .next (startItem_frame fun _ _ _ => doRecord_frame.wider)
  case mark => exact .next (startItem_frame fun _ _ _ => .refl _ _)
  case survey => exact .next (cutItem_frame fun _ _ _ => doSurvey_frame.wider)
  case pass => exact .next (startItem_frame fun _ _ _ => doPass_frame.wider)
  case dir1 | dir2 => exact .next (cutItem_frame fun _ _ _ => doDir_frame.wider)
  case finish => exact .next (cutItem_frame fun _ _ _ => doFinish_frame.wider)
  case grdFeed | grdSolve | grdFeedSolve | grdCold => exact .next (startItem_frame fun _ _ _ => doGrd_frame.wider)
  case xferWrite | xferRadd | xferSignal => exact .next (startItem_frame fun _ _ _ => doXfer_frame.wider)
  case xferTree => exact .next (startItem_frame fun _ _ _ => doTree_frame.wider)
  case deferPromotion => exact execDeferPromotion_frame ..
  case itemComplete => exact execItemComplete_frame ..
  case bindWaitEnd => exact execBindWaitEnd_frame ..
  case spillZeroFillDone => exact execSpillZeroFillDone_frame ..
  case blockReport => exact execBlockReport_frame ..
  case cutterSlotTake => exact execCutterSlotTake_frame ..
  case stagingArrival => exact execStagingArrival_frame ..
  case migWaitEnd => exact execMigWaitEnd_frame ..
  case pageMove => exact execPageMove_frame ..
  case emissionResume => exact execEmissionResume_frame ..
  case dailyStreamWaitEnd => exact execDailyStreamWaitEnd_frame ..
  case clipPassComplete => exact .next (frame_ite (enterSig_frame.after (State.setStp_frame.after applyMemEvents_frame.wider)) (.refl _ _))
  case sliceUe => exact execSliceUe_frame ..
  case parityError => exact execParityError_frame ..
  case cellTimeout => exact .next (frame_ite containFault_frame.wider (frame_ite (.refl _ _) retireCell_frame.wider))
  case substitutionComplete => exact execSubstitutionComplete_frame ..
  case dramUe => exact execDramUe_frame ..
  case granuleMoveComplete => exact execGranuleMoveComplete_frame ..
  case memChRetrain | memChRetire => exact .next runChannel_frame.wider
  case packageEmptied => exact execPackageEmptied_frame ..
  case channelRetrainDone => exact execChannelRetrainDone_frame ..
  case degradedRetry => exact .next (frame_ite autoRetire_frame.wider (.refl _ _))
  case scrubLine => exact execScrubLine_frame ..
  case frameReceive => exact execFrameReceive_frame ..
  case retryTimeout => exact .next (frame_ite retransmit_frame.wider (.refl _ _))
  case laneChange => exact execLaneChange_frame ..
  case fabLaneRecal => exact .next laneCommand_frame.wider
  case fabLaneRetire => exact .next (laneCommand_frame.after State.fresh_frame.wider)
  case laneRecalDone => exact execLaneRecalDone_frame ..
  case portTrained => exact execPortTrained_frame ..
  case packetSend => exact execPacketSend_frame ..
  case packetForward => exact execPacketForward_frame ..
  case pktWrite | pktSignal => exact .next (onPacket_frame fun _ _ => performPacket_frame.wider)
  case pktRadd => exact .next (onPacket_frame fun _ _ => performPacket_frame.after applyMemEvents_frame.wider)
  case tup => exact execTup_frame ..
  case tdown => exact execTdown_frame ..
  case xnorm | xsig => exact .next (onCombine_frame fun _ _ => xChild_frame.wider)
  case xnormRes | xsigRes => exact .next (onCombine_frame fun _ _ => xParent_frame.wider)
  case daily => exact .next (onPacket_frame fun _ _ => dailyStore_frame.wider)
  case dailyEnd => exact .next (onPacket_frame fun _ _ => dailyClose_frame.wider)
  case importPkt => exact .next (onPacket_frame fun _ _ => importPage_frame.after applyMemEvents_frame.wider)
  case importEnd => exact .next (onPacket_frame fun _ _ => importClose_frame.wider)
  case dailyPageStream => exact execDailyPageStream_frame ..
  case dailyEnginesDone => exact execDailyEnginesDone_frame ..
  case feedComplete => exact execFeedComplete_frame ..
  case solveStart => exact execSolveStart_frame ..
  case solveDeadline => exact execSolveDeadline_frame ..
  case solveComplete => exact execSolveComplete_frame ..
  case blockHang =>
    exact .next (frame_ite (.refl _ _) (frame_ite containFault_frame.wider
        (frame_ite (.refl _ _) (regionFault_frame.after State.count_frame.wider))))
  case graderHang => exact .next (frame_ite unitHang_frame.wider (.refl _ _))
  case hubHang => exact .next unitHang_frame.wider
  case memCtrlHang => exact .next (unitHang_frame.after State.fresh_frame.wider)
  case exchangeHang =>
    exact .next (frame_ite (.refl _ _) (strike_frame.after (State.count_frame.after (logFault_frame.after State.setXch_frame.wider))))
  case commandUnitHang | chipLevelUnitFault => exact .next (frame_ite chipReset_frame.wider (.refl _ _))
  case firmwareHang => exact .next (frame_ite (.refl _ _) (frame_ite endTrial_frame.wider (logFault_frame.after restartFw_frame.wider)))
  case firmwareFallback => exact .next (frame_ite (.refl _ _) (frame_ite endTrial_frame.wider restartFw_frame.wider))
  case clapperIn => exact execClapperIn_frame ..
  case fltClapCmd | fltLogAck | ucodeVerify | ucodeArm | ucodeRevert | mgtCue | takeRevert | takeDiscard | takeDefaults | secBootLock |
      secPolicyNext | secIdeCtl | secFwVerify | secFwSwitch | secFwClear =>
    exact .next writeRow_frame.wider
  case dumpStart => exact execDumpStart_frame ..
  case dumpComplete => exact execDumpComplete_frame ..
  case regionResetComplete => exact .next (frame_ite (.refl _ _) (resumeCtxs_frame.after (replay_frame.after regionUp_frame.wider)))
  case regionResetOverrun => exact .next (frame_ite (.refl _ _) (chipReset_frame.after (State.setReg_frame.after State.count_frame.wider)))
  case chipWarmResetComplete => exact execChipWarmResetComplete_frame ..
  case chipWarmResetOverrun => exact execChipWarmResetOverrun_frame
  case fltDumpRel | cutLsWrite => exact .next (frame_ite writeRow_frame.wider (.refl _ _))
  case regionOffline => exact .next (regionCmd_frame fun _ => State.setReg_frame.wider)
  case regionDrained => exact .next (frame_ite goOffline_frame.wider (.refl _ _))
  case regionOnline => exact execRegionOnline_frame ..
  case regionOnlineDone => exact execRegionOnlineDone_frame ..
  case regionReset => exact .next (regionCmd_frame fun _ => regionFault_frame.wider)
  case forceOffline => exact .next (regionCmd_frame fun _ => goOffline_frame.wider)
  case ucodeVerifyDone | ucodeArmDone | configSweepStart | plcaBeacon | trialConfirm | firmwareHeartbeat =>
    exact .next (frame_ite (.put (.refl _ _)) (.refl _ _))
  case dictMessage => exact execDictMessage_frame ..
  case write => exact .next opRow_frame.wider
  case read | describe => exact .next (opRow_frame_of_ne_write (by decide)).wider
  case mgtMbCtl => exact .next (frame_ite (.refl _ _) (frame_ite holdBar_frame.wider mbCtl_frame.wider))
  case cueApply => exact execCueApply_frame ..
  case takeStoreWriteDone => exact execTakeStoreWriteDone_frame ..
  case configSweepComplete => exact execConfigSweepComplete_frame
  case beaconTimeout => exact .next (frame_ite (State.countIf_frame.after (.put (.refl _ _))) (.refl _ _))
  case duplicateAddressDetection =>
    exact .next (frame_ite (State.emit_frame.after (State.count_frame.after (State.count_frame.after (.put (.refl _ _))))) (.refl _ _))
  case icmpv6Request => exact execIcmpv6Request_frame ..
  case secFwVerifyDone => exact .next (frame_ite (.put (.refl _ _)) (frame_ite (.put (.refl _ _)) (.refl _ _)))
  case getVersion | getCapabilities => exact .next spdmReply_frame.wider
  case negotiateAlgorithms =>
    exact .next (frame_ite (.refl _ _) (frame_ite (spdmReply_frame.after (.put (.refl _ _))) (spdmReply_frame.after (.put (.refl _ _)))))
  case getDigests | getCertificate => exact .next (frame_ite spdmReply_frame.wider spdmInvalid_frame.wider)
  case challenge => exact .next (frame_ite spdmInvalid_frame.wider (frame_ite spdmNotReady_frame.wider spdmReply_frame.wider))
  case getMeasurements => exact .next (frame_ite spdmInvalid_frame.wider (frame_ite spdmNotReady_frame.wider
      (frame_ite spdmReply_frame.wider spdmReply_frame.wider)))
  case laneLoss => exact execLaneLoss_frame ..
  case inputLow => exact .next (frame_ite (.refl _ _) (State.countIf_frame.after (.put (.refl _ _))))
  case pcieLinkDown => exact .next linkDown_frame.wider

end

/-- Settles O8: each command is made of operations whose own lists lie inside the command's. -/
theorem commandsChangeOnlyTheirParts : Obligations.CommandsChangeOnlyTheirParts :=
  fun c _ t h => (exec_frame c).frame t h

end Sys2Proof.Machine

namespace Sys2Proof.Machine

set_option Elab.async false

/-! ## The queue and the whole machine -/

/-- Settles O1: an equation of `step`. -/
theorem stepRunsFront : Obligations.StepRunsFront := by
  intro c rest s hq
  rw [step, hq]

/-- Settles O4: the queue's rest, kept by every command (`step_ok`). -/
theorem stepLeavesTheRest : Obligations.StepLeavesTheRest := by
  intro s t ht
  have h : Ok (besidePower False False) s.pending s := ⟨rfl, False.elim, False.elim, False.elim, False.elim⟩
  exact ((step_ok h).ok t ht).queue

/-- Settles O6: the canonical form, kept by every command (`step_ok`). -/
theorem stepKeepsMemoryCanonical : Obligations.StepKeepsMemoryCanonical := by
  intro s t hs ht
  have h : Ok (besidePower True False) s.pending s := ⟨rfl, False.elim, False.elim, fun _ => hs, False.elim⟩
  exact ((step_ok h).ok t ht).mem trivial

/-- Settles O9: both steps are 56, the rails are off, memory is empty and every domain is FREE. -/
theorem resetMeetsInvariants : Obligations.ResetMeetsInvariants :=
  ⟨⟨⟨by decide, by decide⟩, ⟨by decide, by decide⟩, fun h => absurd rfl h, (nomatch ·), fun h => by rcases h with h | h <;> cases h⟩,
    rfl, fun _ _ _ _ _ h _ => absurd rfl h.1⟩

/-! ## The power domain -/

/-- The power domain's invariant alone. -/
abbrev powerOnly : Which := ⟨False, True, False, False⟩

theorem PowerOk.ok {s : State} (h : PowerOk s) : Ok powerOnly s.pending s := ⟨rfl, False.elim, fun _ => h, False.elim, False.elim⟩

/-- A change that leaves the power registers and the security unit as they are keeps the power domain sound. -/
theorem Frame.powerOk {v : List Part} {s t : State} (g : Frame v s t) (h : PowerOk s) (hp : .pwr ∉ v) (hs : .sec ∉ v) : PowerOk t := by
  obtain ⟨hgov, htherm, hlocked, hsecure, htripped⟩ := h
  constructor <;> rw [g.pwr hp] <;> try rw [g.sec hs]
  all_goals assumption

theorem governor_legal {limit hyst n low : Nat} {p : Word} (h : legalStep n) : legalStep (governor limit hyst n low p).1 := by
  unfold legalStep at *
  unfold governor
  split
  · dsimp only; omega
  · split
    · split <;> dsimp only <;> omega
    · exact h

theorem thermal_legal {throttle n : Nat} {t : Word} (h : legalStep n) : legalStep (thermal throttle n t) := by
  unfold legalStep at *
  unfold thermal
  repeat' split
  all_goals omega

theorem setUarea_mode (c : Sec) (n : Nat) (a : Area) : (c.setUarea n a).lock = c.lock ∧ (c.setUarea n a).phase = c.phase := by
  unfold Sec.setUarea
  split <;> exact ⟨rfl, rfl⟩

section
variable {s : State} (h : PowerOk s)
include h

/-- The rails off, and a wait for a cold boot: sound whatever has tripped. -/
theorem dataLost_powerOk {ov tripped : Bool} :
    PowerOk { dataLost s with pwr := { (dataLost s).pwr with ov := ov, tripped := tripped, coldWait := true } } :=
  ⟨h.gov, h.therm, fun hr => absurd rfl hr, h.secure, fun _ => ⟨rfl, rfl⟩⟩

theorem execAlwaysOnPowerGood_powerOk (strap : Nat) (tests : BootTests) (low : Bool) (cells : List CellBoot) :
    NextOk powerOnly s.pending (execAlwaysOnPowerGood strap tests low cells s) := by
  refine .next (ok_ite h.ok (Ok.lower (bootFrom_ok (Ok.frame bootCells_frame (Ok.raise ?_ rfl)) (fun _ => trivial) ?_)))
  · refine ⟨rfl, False.elim, fun _ => ⟨h.gov, h.therm, fun hr => ⟨rfl, (h.locked hr).2⟩, fun _ => rfl, h.tripped⟩, False.elim, False.elim⟩
  · rw [bootRom_lock, bootCells_frame.sec (by decide)]

theorem execOvervoltage_powerOk (mv : Nat) : NextOk powerOnly s.pending (execOvervoltage mv s) := by
  unfold execOvervoltage
  split
  · exact .fault _
  · split
    · exact .next (dataLost_powerOk (tripped := s.pwr.tripped) h).ok
    · exact .next h.ok

theorem execGovernorEvaluation_powerOk (p u i : Word) : NextOk powerOnly s.pending (execGovernorEvaluation p u i s) := by
  refine .next (ok_ite h.ok (State.countIf_ok (State.countIf_ok (State.countIf_ok (ok_mk_pwr h.ok (fun k => ?_) rfl rfl)))))
  exact ⟨governor_legal k.gov, k.therm, k.locked, k.secure, k.tripped⟩

theorem execGovernorFastPath_powerOk : NextOk powerOnly s.pending (execGovernorFastPath s) := by
  refine .next (ok_ite h.ok (State.count_ok (ok_mk_pwr h.ok (fun k => ?_) rfl rfl)))
  obtain ⟨_, hle⟩ := k.gov
  exact ⟨⟨by dsimp only; omega, by dsimp only; omega⟩, k.therm, k.locked, k.secure, k.tripped⟩

theorem execThermalEvaluation_powerOk (t0 t1 t2 t3 : Word) : NextOk powerOnly s.pending (execThermalEvaluation t0 t1 t2 t3 s) := by
  refine .next (ok_ite h.ok (State.countIf_ok (State.countIf_ok (ok_mk_pwr (setTj_ok h.ok) (fun k => ?_) rfl rfl))))
  exact ⟨k.gov, thermal_legal h.therm, k.locked, k.secure, k.tripped⟩

theorem execJunctionLimit_powerOk (t0 t1 t2 t3 : Word) : NextOk powerOnly s.pending (execJunctionLimit t0 t1 t2 t3 s) := by
  have h1 : Ok powerOnly s.pending (setTj s t0 t1 t2 t3) := setTj_ok h.ok
  refine .next (ok_ite h.ok (ok_ite (State.countIf_ok (ok_mk_pwr h1 (fun k => ?_) rfl rfl)) h1))
  exact ⟨k.gov, show legalStep 28 from ⟨by decide, by decide⟩, k.locked, k.secure, k.tripped⟩

/-- The rails come up only where they have been starting (Table 14-3). -/
theorem execRailsInRegulation_powerOk : NextOk powerOnly s.pending (execRailsInRegulation s) := by
  refine .next ?_
  split
  · exact h.ok
  · rename_i hr
    simp only [bne_iff_ne, ne_eq, Decidable.not_not] at hr
    have hoff : s.pwr.rails ≠ .off := by rw [hr]; decide
    have hno : ¬ (s.pwr.tripped = true ∨ s.pwr.ov = true) := fun ht => hoff (h.tripped ht).1
    have hup : Ok powerOnly s.pending { s with pwr := { s.pwr with rails := .up } } :=
      ok_mk_pwr h.ok (fun k => ⟨k.gov, k.therm, fun _ => k.locked hoff, k.secure, fun ht => absurd ht hno⟩) rfl rfl
    extract_lets _ _ _ _ _ _ s0 _ s1 _ _ s2
    have h0 : Ok powerOnly s.pending s0 := hup.frame linkAtRails_frame
    have hsec : s0.sec = s.sec := linkAtRails_frame.sec (by decide)
    have h1 : Ok powerOnly s.pending s1 := ok_mk h0 rfl rfl rfl
    have h2 : Ok powerOnly s.pending s2 := ok_mk h1 (by rw [hsec]) (by rw [hsec]) rfl
    have onBank {n : Nat} {u : State} : Frame [.blks] u (u.each (List.range 24) (blocksOnBank n)) :=
      State.each_frame fun _ _ => blocksOnBank_frame
    have out {u : State} : Frame [.blks] u (u.each (List.range 24) blocksOut) := State.each_frame fun _ _ => blocksOut_frame
    exact ok_ite (h1.frame onBank) (ok_ite (Ok.frame logFault_frame (h2.frame onBank)) (h1.frame out))

theorem execDictMessage_powerOk (src : Source) (port : Nat) (x : Payload) : NextOk powerOnly s.pending (execDictMessage src port x s) := by
  refine .next ?_
  cases src with
  | mailbox => exact answerQueue_ok (mailboxMessage_ok h.ok)
  | t1s addr prt mc => exact ok_ite h.ok (ok_ite (t1sMessage_ok h.ok) (State.count_ok h.ok))
  | secure =>
    dsimp only
    split
    · rename_i hr
      exact State.emit_ok (State.count_ok (runMessage_ok (h.ok.raise (reaches_up hr)) fun _ => trivial).lower)
    · exact h.ok

theorem execBootLockTimeout_powerOk : NextOk powerOnly s.pending (execBootLockTimeout s) := by
  refine .next ?_
  split
  · rename_i hp
    exact (setLock_ok (h.ok.raise (h.secure (eq_of_beq hp))) fun _ => trivial).lower
  · exact h.ok

theorem execThermalTrip_powerOk : NextOk powerOnly s.pending (execThermalTrip s) :=
  .next (ok_ite h.ok (dataLost_powerOk (ov := s.pwr.ov) h).ok)

theorem execRefclk100Loss_powerOk : NextOk powerOnly s.pending (execRefclk100Loss s) :=
  .next (ok_ite h.ok (Ok.frame chipFault_frame (ok_mk_pwr h.ok (fun k => ⟨k.gov, k.therm, k.locked, k.secure, k.tripped⟩) rfl rfl)))

theorem execMemoryTrainingDone_powerOk : NextOk powerOnly s.pending (execMemoryTrainingDone s) :=
  .next (ok_ite (State.each_ok (ok_mk_pwr h.ok (fun k => ⟨k.gov, k.therm, k.locked, k.secure, k.tripped⟩) rfl rfl)
    fun _ _ k => k.frame startPort_frame) h.ok)

theorem execChipWarmResetOverrun_powerOk : NextOk powerOnly s.pending (execChipWarmResetOverrun s) := by
  refine .next ?_
  split
  · exact h.ok
  · refine ok_ite h.ok ?_
    extract_lets s1
    have h1 : Ok powerOnly s.pending s1 := h.ok.frame logFault_frame
    clear_value s1
    exact Ok.frame applyAllHeld_frame (ok_mk_pwr h1 (fun k => ⟨k.gov, k.therm, k.locked, k.secure, fun ht => ⟨(k.tripped ht).1, rfl⟩⟩) rfl
        rfl)

theorem execPerstLAssert_powerOk : NextOk powerOnly s.pending (execPerstLAssert s) := by
  refine .next (ok_ite h.ok ?_)
  extract_lets _ _ s1 _ s2 s3 s4 s5
  have h1 : Ok powerOnly s.pending s1 := linkDown_ok (ok_mk h.ok rfl rfl rfl)
  have h2 : Ok powerOnly s.pending s2 := ok_mk h1 rfl rfl rfl
  have h3 : Ok powerOnly s.pending s3 := State.each_ok h2 fun _ _ k => perstCmd_ok k
  have h4 : Ok powerOnly s.pending s4 := State.countIf_ok h3
  exact State.each_ok (h4.frame State.setCtx_frame) fun _ _ k => State.setDom_ok k fun hst => ⟨hst, rfl, rfl⟩

theorem execInputLow_powerOk (enter : Bool) : NextOk powerOnly s.pending (execInputLow enter s) :=
  .next (ok_ite h.ok (State.countIf_ok (ok_mk_pwr h.ok (fun k => ⟨k.gov, k.therm, k.locked, k.secure, k.tripped⟩) rfl rfl)))

theorem execSecFwVerifyDone_powerOk : NextOk powerOnly s.pending (execSecFwVerifyDone s) :=
  .next (ok_ite (ok_mk h.ok (fwChecked_mode _).1 (fwChecked_mode _).2 rfl)
    (ok_ite (ok_mk h.ok (fwWritten_mode _).1 (fwWritten_mode _).2 rfl) h.ok))

/-- A command that may change the power registers or the security unit keeps the power domain sound; every other one leaves both as they
are. -/
theorem exec_powerOk (c : Instr) {t : State} (ht : exec c s = .next t) : PowerOk t := by
  suffices hc : NextOk powerOnly s.pending (exec c s) ∨ (.pwr ∉ mayChange c ∧ .sec ∉ mayChange c) by
    rcases hc with hc | ⟨hp, hs⟩
    · exact (hc.ok t ht).power trivial
    · exact ((exec_frame c).frame t ht).powerOk h hp hs
  cases c with
  | powerUp =>
    refine .inl (.next ?_)
    split
    · rename_i hoff
      have hsup : s.pwr.supply ≠ .on := by rw [eq_of_beq hoff]; decide
      exact ⟨rfl, False.elim, fun _ => ⟨h.gov, h.therm, fun hr => absurd (h.locked hr).1 hsup, fun hp =>
          absurd (h.secure hp) hsup, h.tripped⟩,
        False.elim, False.elim⟩
    · exact h.ok
  | alwaysOnPowerGood => exact .inl (execAlwaysOnPowerGood_powerOk h ..)
  | bootLockTimeout => exact .inl (execBootLockTimeout_powerOk h)
  | railsInRegulation => exact .inl (execRailsInRegulation_powerOk h)
  | identityKeyReady => exact .inl (.next (ok_ite (ok_mk h.ok rfl rfl rfl) h.ok))
  | memoryTrainingDone => exact .inl (execMemoryTrainingDone_powerOk h)
  | overvoltage => exact .inl (execOvervoltage_powerOk h ..)
  | undervoltage | currentTrip => exact .inl (.next (coldOff_ok h.ok id))
  | governorEvaluation => exact .inl (execGovernorEvaluation_powerOk h ..)
  | governorFastPath => exact .inl (execGovernorFastPath_powerOk h)
  | thermalEvaluation => exact .inl (execThermalEvaluation_powerOk h ..)
  | junctionLimit => exact .inl (execJunctionLimit_powerOk h ..)
  | thermalTrip => exact .inl (execThermalTrip_powerOk h)
  | refclk100Loss => exact .inl (execRefclk100Loss_powerOk h)
  | pcieRefclkLoss => exact .inl (.next (ok_ite (linkDown_ok (ok_mk h.ok rfl rfl rfl)) h.ok))
  | perstLAssert => exact .inl (execPerstLAssert_powerOk h)
  | pcieLinkDown => exact .inl (.next (linkDown_ok h.ok))
  | firmwareHang => exact .inl (.next (ok_ite h.ok (ok_ite (endTrial_ok h.ok) (Ok.frame logFault_frame (restartFw_ok h.ok)))))
  | firmwareFallback => exact .inl (.next (ok_ite h.ok (ok_ite (endTrial_ok h.ok) (restartFw_ok h.ok))))
  | firmwareHeartbeat | trialConfirm => exact .inl (.next (ok_ite (ok_mk h.ok rfl rfl rfl) h.ok))
  | chipWarmResetOverrun => exact .inl (execChipWarmResetOverrun_powerOk h)
  | inputLow => exact .inl (execInputLow_powerOk h ..)
  | fltClapCmd | fltLogAck | ucodeVerify | ucodeArm | ucodeRevert | mgtCue | takeRevert | takeDiscard | takeDefaults | secBootLock
  | secPolicyNext | secIdeCtl | secFwVerify | secFwSwitch | secFwClear =>
    exact .inl (.next (writeRow_ok h.ok))
  | fltDumpRel | cutLsWrite => exact .inl (.next (ok_ite (writeRow_ok h.ok) h.ok))
  | ucodeArmDone => exact .inl (.next (ok_ite (ok_mk h.ok (setUarea_mode _ _ _).1 (setUarea_mode _ _ _).2 rfl) h.ok))
  | dictMessage => exact .inl (execDictMessage_powerOk h ..)
  | write => exact .inl (.next (opRow_ok h.ok))
  | secFwVerifyDone => exact .inl (execSecFwVerifyDone_powerOk h)
  | negotiateAlgorithms =>
    exact .inl (.next (ok_ite h.ok (ok_ite (Ok.frame spdmReply_frame (ok_mk h.ok rfl rfl rfl))
      (Ok.frame spdmReply_frame (ok_mk h.ok rfl rfl rfl)))))
  | _ => exact .inr ⟨by dsimp only [mayChange]; decide, by dsimp only [mayChange]; decide⟩

/-- Every step keeps the power domain sound: an idle tick leaves its registers alone. -/
theorem step_powerOk {t : State} (hstep : step s = .next t) : PowerOk t := by
  unfold step at hstep
  split at hstep
  · cases hstep
    exact idleTick_frame.powerOk h (by decide) (by decide)
  · rename_i c rest _
    exact exec_powerOk (s := { s with pending := rest }) ⟨h.gov, h.therm, h.locked, h.secure, h.tripped⟩ c hstep

end

/-- Settles O5: the power domain's invariant, kept by every command (`exec_powerOk`). -/
theorem stepKeepsPowerSound : Obligations.StepKeepsPowerSound := fun _ _ h => step_powerOk h

end Sys2Proof.Machine

namespace Sys2Proof.Machine

set_option Elab.async false

/-! ## Ticks and answers -/

/-- Settles O3: every arm answers a next state, except that of an overvoltage above 44.0 V. -/
theorem everyCommandIsAnswered : Obligations.EveryCommandIsAnswered := by
  intro c s
  cases c with
  | overvoltage mv =>
    simp only [exec, execOvervoltage]
    split
    · exact .inr ⟨mv, rfl, ‹_›, rfl⟩
    · left; split <;> exact ⟨_, rfl⟩
  | _ => exact .inl ⟨_, rfl⟩

/-- What a tick may make of the watchdog count of block `b`. -/
def WdtStep (s : State) (b w : Nat) : Prop :=
  w = (s.blk b).wdt ∨ w = min ((s.blk b).wdt + 1) (wdtWindow s) ∨ (w = 0 ∧ unitsWork (s.blk b) = true)

/-- `t` is `s` with the watchdogs of the blocks in `l` ticked, and free values taken. -/
structure Ticked (l : List Nat) (s t : State) : Prop where
  shape : ∃ bs fr, t = { s with blks := bs, free := fr }
  moved : ∀ b, ∃ w, t.blk b = { s.blk b with wdt := w } ∧ WdtStep s b w
  kept : ∀ b, b ∉ l → t.blk b = s.blk b

theorem Ticked.refl (s : State) : Ticked [] s s := ⟨⟨_, _, rfl⟩, fun _ => ⟨_, rfl, .inl rfl⟩, fun _ _ => rfl⟩

theorem wdtNext_ticked (s : State) (b n : Nat) (event : Bool) (h : event = true → unitsWork (s.blk b) = true) :
    Ticked [b] s (wdtNext { s with free := n } b event) := by
  refine ⟨⟨_, _, rfl⟩, fun c => ?_, fun c hc => setBlk_blk_other _ _ (by simpa using hc)⟩
  by_cases hc : c = b
  · subst hc
    refine ⟨_, setBlk_blk_same _ _ _, ?_⟩
    cases event with
    | true => exact .inr (.inr ⟨rfl, h rfl⟩)
    | false => exact .inr (.inl rfl)
  · exact ⟨_, setBlk_blk_other _ _ hc, .inl rfl⟩

theorem wdtTick_ticked (held : Bool) (s : State) (b : Nat) : Ticked [b] s (wdtTick held s b) := by
  unfold wdtTick
  split
  · exact ⟨⟨_, _, rfl⟩, fun _ => ⟨_, rfl, .inl rfl⟩, fun _ _ => rfl⟩
  · split
    · exact wdtNext_ticked s b _ _ fun _ => ‹_›
    · exact wdtNext_ticked s b s.free false nofun

theorem Ticked.cons {b : Nat} {l : List Nat} {s t u : State} (h : Ticked [b] s t) (hb : b ∉ l) (k : Ticked l t u) : Ticked (b :: l) s u :=
    by
  obtain ⟨bs, fr, hst⟩ := h.shape
  obtain ⟨bs', fr', htu⟩ := k.shape
  have hw : wdtWindow t = wdtWindow s := by rw [hst]; rfl
  refine ⟨⟨bs', fr', by rw [htu, hst]⟩, fun c => ?_, fun c hc => ?_⟩
  · by_cases hcb : c = b
    · subst hcb
      rw [k.kept c hb]
      exact h.moved c
    · have hc : t.blk c = s.blk c := h.kept c (by simpa using hcb)
      obtain ⟨w, hw', hs⟩ := k.moved c
      refine ⟨w, by rw [hw', hc], ?_⟩
      unfold WdtStep at hs ⊢
      rwa [hc, hw] at hs
  · rw [List.mem_cons, not_or] at hc
    exact (k.kept c hc.2).trans (h.kept c (by simpa using hc.1))

/-- Each block ticks once. -/
theorem wdtTicks_ticked (held : Bool) (l : List Nat) (hl : l.Nodup) (s : State) : Ticked l s (s.each l (wdtTick held)) := by
  induction l generalizing s with
  | nil => exact .refl s
  | cons b l ih =>
    obtain ⟨hb, hl⟩ := List.nodup_cons.1 hl
    exact (wdtTick_ticked held s b).cons hb (ih hl _)

/-- Settles O2: each of the 24 block watchdogs ticks once. -/
theorem idleStepIsATick : Obligations.IdleStepIsATick := by
  intro s hq
  have hstep : step s = .next (idleTick s) := by rw [step, hq]
  refine ⟨fun h => ?_, fun h => ?_⟩
  · rw [hstep, idleTick, if_neg (by simpa using h)]
  · obtain ⟨⟨bs, fr, ht⟩, hmoved, -⟩ := wdtTicks_ticked (wdtHeld s) (List.range 24) List.nodup_range
      { s with ticks := s.ticks + 1, flt := { s.flt with clapOut := s.flt.clapOut - 1 } }
    refine ⟨bs, fr, by rw [hstep, idleTick, if_pos (by simpa using h), ← ht], fun b => ?_⟩
    obtain ⟨w, hw, hs⟩ := hmoved b
    rw [ht] at hw
    exact ⟨w, hw, hs⟩

/-! ## The fault log -/

/-- Refutes O51: a substitution's record carries the tick count at which the substitution began (`Fact.tick`), not that at which it is
written: here 1, with the tick count at 0. -/
theorem not_faultLogIsARing : ¬ Obligations.FaultLogIsARing := by
  intro h
  obtain ⟨hhead, hrec, -, htime, -⟩ := h State.reset { level := 1, action := 2, cause := 2, tick := some 1 }
  rw [hrec, recordOf_time] at htime
  exact absurd htime (by decide)

end Sys2Proof.Machine

namespace Sys2Proof.Machine

set_option Elab.async false

/-! ## Routing -/

theorem mod_of_lt_twice {x d : Nat} (h : x < 2 * d) : x % d = if x < d then x else x - d := by
  split
  · exact Nat.mod_eq_of_lt ‹_›
  · rw [Nat.mod_eq_sub_mod (by omega), Nat.mod_eq_of_lt (by omega)]

theorem hopOf_self (s : State) (r : Nat) (aux : Bool) (prev : Option (Nat × Nat)) : hopOf s r (fabCoord s r) aux prev = .here := by
  rw [hopOf, if_pos rfl]

/-- The + way: the distance left in the + direction falls by one. -/
theorem ringHop_up {d c t i : Nat} (hc : c < d) (ht : t < d) (hct : c ≠ t) (h : 2 * ((t + d - c) % d) ≤ d) :
    (ringHop d c t i).1 = 2 * i ∧ (ringHop d c t i).2 = decide (c + 1 = d) ∧ (t + d - (c + 1) % d) % d + 1 = (t + d - c) % d := by
  have hmod : (t + d - (c + 1) % d) % d + 1 = (t + d - c) % d := by
    rw [mod_of_lt_twice (x := t + d - c) (by omega)] at h ⊢
    by_cases hdist : t + d - c < d
    · rw [if_pos hdist, mod_of_lt_twice (x := c + 1) (by omega)]
      split <;> rw [mod_of_lt_twice (by omega)] <;> split <;> omega
    · rw [if_neg hdist] at h ⊢
      rw [Nat.mod_eq_of_lt (a := c + 1) (by omega), mod_of_lt_twice (x := t + d - (c + 1)) (by omega), if_neg (by omega)]
      omega
  simp only [ringHop, if_pos h]
  exact ⟨trivial, rfl, hmod⟩

/-- The - way: the distance left in the - direction falls by one. -/
theorem ringHop_down {d c t i : Nat} (hc : c < d) (ht : t < d) (hct : c ≠ t) (h : d < 2 * ((t + d - c) % d)) :
    (ringHop d c t i).1 = 2 * i + 1 ∧ (ringHop d c t i).2 = decide (c = 0) ∧ ((c + d - 1) % d + d - t) % d + 1 = (c + d - t) % d := by
  have hmod : ((c + d - 1) % d + d - t) % d + 1 = (c + d - t) % d := by
    rw [mod_of_lt_twice (x := c + d - t) (by omega), mod_of_lt_twice (x := c + d - 1) (by omega)]
    by_cases hzero : c + d - 1 < d
    · rw [if_pos hzero, mod_of_lt_twice (by omega)]
      split <;> split <;> omega
    · rw [if_neg hzero, mod_of_lt_twice (by omega)]
      split <;> split <;> omega
  simp only [ringHop, if_neg (Nat.not_le.2 h)]
  exact ⟨trivial, rfl, hmod⟩

/-- Without an auxiliary port a packet leaves in the first ring in which the coordinates differ. -/
theorem hopOf_out {s : State} {r dst p cls : Nat} {prev : Option (Nat × Nat)} (h : hopOf s r dst true prev = .out p cls) :
    ∃ i, i < 3 ∧ p = (ringHop (dimOf (fabTorus s r) i) (coord (fabCoord s r) i) (coord dst i) i).1 ∧
      coord (fabCoord s r) i ≠ coord dst i ∧ ∀ j, j < i → coord (fabCoord s r) j = coord dst j := by
  unfold hopOf at h
  extract_lets c t at h
  split at h
  · cases h
  split at h
  · cases h
  simp only [if_true] at h
  split at h
  · cases h
  · rename_i i hi
    obtain ⟨hne, hlt, hbefore⟩ := List.find?_range_eq_some.1 hi
    injection h with hp _
    exact ⟨i, List.mem_range.1 hlt, hp.symm, by simpa using hne, fun j hj => by simpa using hbefore j hj⟩

/-- Settles O45: the + way (`ringHop_up`), the - way (`ringHop_down`), and the ring that `hopOf` chooses (`hopOf_out`). -/
theorem routingBringsNearer : Obligations.RoutingBringsNearer :=
  ⟨fun s r _ aux prev h => h ▸ hopOf_self s r aux prev,
    fun _ _ _ hc ht hct _ => ⟨ringHop_up hc ht hct, ringHop_down hc ht hct⟩,
    fun _ _ _ _ _ _ => hopOf_out⟩

/-! ## Reads after writes -/

theorem MemoryOk.wrBytes {s : State} (h : MemoryOk s) (a : Nat) (bs : List Byte) : MemoryOk (s.wrBytes a bs) := spSetList_wf _ _ h

/-- A read byte by byte. -/
theorem rdBytes_eq_map {s : State} (h : MemoryOk s) (a n : Nat) :
    s.rdBytes a n = (List.range n).map fun i => s.rdP (a + i) (s.rd (a + i)) := by
  have hget : spGetList zeroByte s.mem a n = (List.range n).map fun i => s.rd (a + i) := spGetList_eq h a n
  unfold State.rdBytes
  rw [hget]
  split
  · rename_i hp
    simp [State.rdP, List.isEmpty_iff.1 hp]
  · refine List.ext_getElem (by simp) fun i h1 h2 => ?_
    simp

/-- A word that a write touches is poisoned no more. -/
theorem rdP_wrBytes_inside {s : State} {a x : Nat} {bs : List Byte} (b : Byte) (h1 : a ≤ x) (h2 : x < a + bs.length) :
    (s.wrBytes a bs).rdP x b = b := by
  have : (cleanWords s a bs.length).poison.contains (x / 8) = false := by
    rw [List.contains_eq_mem, decide_eq_false_iff_not, cleanWords, List.mem_filter]
    rintro ⟨-, hw⟩
    simp only [Bool.or_eq_true, decide_eq_true_eq] at hw
    omega
  simp only [State.rdP, State.wrBytes, this, Bool.false_eq_true, if_false]

/-- Every other word keeps its poison. -/
theorem rdP_wrBytes_outside {s : State} {a x : Nat} {bs : List Byte} (b : Byte) (h : x / 8 < a / 8 ∨ (a + bs.length + 7) / 8 ≤ x / 8) :
    (s.wrBytes a bs).rdP x b = s.rdP x b := by
  have : (cleanWords s a bs.length).poison.contains (x / 8) = s.back.poison.contains (x / 8) := by
    rw [List.contains_eq_mem, List.contains_eq_mem, decide_eq_decide, cleanWords, List.mem_filter]
    simp [h]
  simp only [State.rdP, State.wrBytes, this]

theorem rdBytes_wrBytes {s : State} (h : MemoryOk s) (a : Nat) (bs : List Byte) : (s.wrBytes a bs).rdBytes a bs.length = bs := by
  rw [rdBytes_eq_map (h.wrBytes a bs)]
  refine List.ext_getElem (by simp) fun i h1 h2 => ?_
  have hi : i < bs.length := h2
  simp only [List.getElem_map, List.getElem_range]
  rw [rdP_wrBytes_inside _ (by omega) (by omega), rd_wrBytes h, if_pos (by omega), Nat.add_sub_cancel_left, List.getD_eq_getElem?_getD,
    List.getElem?_eq_getElem hi, Option.getD_some]

theorem spFind_del_same {α : Type} (l : Sparse α) (k : Nat) : spFind (spDel l k) k = none := by
  induction l with
  | nil => rfl
  | cons e l ih =>
    obtain ⟨i, v⟩ := e
    unfold spDel at ih ⊢
    rw [List.filter_cons]
    split
    · rename_i hne
      rw [spFind, if_neg (by simpa using hne), ih]
    · exact ih

theorem spFind_del_other {α : Type} (l : Sparse α) {k j : Nat} (h : j ≠ k) : spFind (spDel l k) j = spFind l j := by
  induction l with
  | nil => rfl
  | cons e l ih =>
    obtain ⟨i, v⟩ := e
    unfold spDel at ih ⊢
    rw [List.filter_cons]
    split
    · rw [spFind, spFind, ih]
    · rename_i heq
      have hi : i = k := by simpa using heq
      rw [ih, spFind, if_neg (by omega)]

theorem bind_unbind_same (s : State) (k : Nat) : (unbind s k).bind k = none := spFind_del_same _ _

theorem bind_unbind_other (s : State) {k j : Nat} (h : j ≠ k) : (unbind s k).bind j = s.bind j :=
  (spFind_del_other _ h).trans (unready_frame.get_bind (by decide) j)

theorem slotBytes_unbound {s : State} {k : Nat} (h : s.bind k = none) : slotBytes s k = fill 65536 0 := by rw [slotBytes, h]

theorem consumeSlot_unbound {s : State} {k : Nat} (h : s.bind k = none) : consumeSlot s k = (fill 65536 0, s) := by rw [consumeSlot, h]

theorem consumeSlot_bound {s : State} {k : Nat} {b : Bind} (h : s.bind k = some b) :
    consumeSlot s k = (slotRd s k b 0 65536, unbind (zeroRange s (slotBase s k b) 65536) k) := by rw [consumeSlot, h]

/-- A consuming read gives what a plain read gives, and unbinds the slot alone. -/
theorem consumeSlot_spec (s : State) (k : Nat) : (consumeSlot s k).1 = slotBytes s k ∧ (consumeSlot s k).2.bind k = none ∧
    ∀ j, j ≠ k → (consumeSlot s k).2.bind j = s.bind j := by
  cases hb : s.bind k with
  | none => rw [consumeSlot_unbound hb, slotBytes_unbound hb]; exact ⟨rfl, hb, fun _ _ => rfl⟩
  | some b =>
    rw [consumeSlot_bound hb]
    exact ⟨by rw [slotBytes, hb], bind_unbind_same _ _, fun j hj => bind_unbind_other _ hj⟩

/-- Settles O40: memory in canonical form reads byte by byte (`rdBytes_eq_map`), and a write takes the poison off the words that it touches
alone. -/
theorem memoryReadsBack : Obligations.MemoryReadsBack := by
  refine ⟨fun s a bs h => ⟨rdBytes_wrBytes h a bs, h.wrBytes a bs, fun x hx => ?_, fun x hx => ?_⟩, fun s k => ?_⟩
  · rw [rd_wrBytes h, if_neg (by omega)]
  · rw [rdBytes_eq_map (h.wrBytes a bs), rdBytes_eq_map h]
    have hout : ¬ (a ≤ x ∧ x < a + bs.length) := by omega
    simp [rdP_wrBytes_outside _ hx, rd_wrBytes h, hout]
  · obtain ⟨hread, hnone, hother⟩ := consumeSlot_spec s k
    exact ⟨slotBytes_unbound, hread, slotBytes_unbound hnone, hnone, hother⟩

end Sys2Proof.Machine

namespace Sys2Proof.Machine

set_option Elab.async false

/-! ## Where items store -/

theorem StoresOnly.of_within {s t : State} {d : Nat} {rs ps : List (Nat × Nat)} (h : Within (Dest s d rs ps) s t) :
    StoresOnly s t d rs ps :=
  storesOnly_of h.rest

/-- What follows the stores and leaves memory as it is. -/
theorem StoresOnly.after {v : List Part} {s t u : State} {d : Nat} {rs ps : List (Nat × Nat)} (h : StoresOnly s t d rs ps) (g : Frame v t u)
    (hv : Part.mem ∉ v := by decide) : StoresOnly s u d rs ps := fun x h1 h2 =>
  (by simp only [State.rd, g.mem hv] : u.rd x = t.rd x).trans (h x h1 h2)

/-- A faulted read stores nothing. -/
theorem StoresOnly.guardReads {s t u : State} {d e : Nat} {rs ps qs : List (Nat × Nat)} (h : StoresOnly u t d rs ps) (hm : u.mem = s.mem) :
    StoresOnly u (guardReads s e qs t) d rs ps := by
  unfold Machine.guardReads
  split
  · exact .same ((poisonFault_frame.mem (by decide)).trans hm.symm)
  · exact h

theorem emitStep_rest {s : State} {b d src n : Nat} {p : PassDesc} (h : MemoryOk s) :
    StoresOnly s (emitStep s b d src p n) d (emitDest s d p (emitBuf s d p) n) (emitScaleDest s d p (emitBuf s d p) n) :=
  .of_within ((Within.refl h).emitStep (.refl [] s) (by decide) (fun _ hz => .inl hz) fun _ hz => .inr hz)

theorem consumeSlot_rest {s : State} {k : Nat} {b : Bind} (h : MemoryOk s) (hb : s.bind k = some b) (d : Nat) :
    StoresOnly s (consumeSlot s k).2 d [] [(slotBase s k b, 65536)] := by
  intro x _ hx
  have hm : (consumeSlot s k).2.rd x = (zeroRange s (slotBase s k b) 65536).rd x := by
    rw [consumeSlot_bound hb]; exact unbind_frame.get_rd (by decide) x
  rw [hm, rd_zeroRange h, if_neg fun ⟨h1, h2⟩ => hx ⟨_, List.mem_singleton.2 rfl, h1, h2⟩]

theorem takeSlot_blocked {s : State} {b k : Nat} {q : Pass} {p : PassDesc} (h : pageBlocked s b (p.page0 + slotNo p k) ≠ 0) :
    (takeSlot s b q p k).mem = s.mem := by
  unfold takeSlot
  simp only [if_pos h]
  exact setPass_frame.mem (by decide)

theorem doFinish_rest {s u : State} {b i : Nat} {it : Item} {perf : Perf} {q : Pass} {p : PassDesc} (hs : MemoryOk s)
    (hu : u = setPass (applyMemEvents s perf) b (some { idx := i, falls := false, ct := 0x3F800000, taken := [], wait := 0 })) :
    u.mem = s.mem ∧ (passNow u b = some (q, p) → u.back.poison = [] →
      (∀ n ∈ blkSlots u b (u.blk b).dom p, (u.dir (p.page0 + n)).dom = (u.blk b).dom) →
      StoresOnly u (doFinish b perf s i it) (u.blk b).dom ((blkSlots u b (u.blk b).dom p).flatMap (pageDest u (u.blk b).dom p))
        ((blkSlots u b (u.blk b).dom p).flatMap (reelDest u (u.blk b).dom p))) := by
  have hm : u.mem = s.mem := by rw [hu, setPass_frame.mem (by decide), applyMemEvents_frame.mem (by decide)]
  refine ⟨hm, fun hp hc hd => ?_⟩
  have := finishRun_rest (by unfold MemoryOk; rw [hm]; exact hs) hc hp hd
  rwa [hu] at this ⊢

theorem execFeedComplete_rest {s : State} {r n : Nat} {f : FeedEnd} {x : GSlot} (h : MemoryOk s) (hx : spFind (s.grd r).slots n = some x) :
    ∃ t, exec (.feedComplete r n f) s = .next t ∧ StoresOnly s t x.dom (feedDest x) [] := by
  refine ⟨_, rfl, ?_⟩
  rw [hx]
  dsimp only
  split
  · refine StoresOnly.guardReads ?_ rfl
    have hfeed : StoresOnly s (feedSlot r f.torn s x) x.dom (feedDest x) [] := feedSlot_rest h
    exact ((hfeed.after State.count_frame).after applyMemEvents_frame).after setSlot_frame
  · exact .same rfl

theorem solvePerf_mem (s : State) (r cycles wait : Nat) (p : Perf) : (solvePerf s r cycles wait p).mem = s.mem :=
    solvePerf_frame.mem (by decide)

theorem solvePerf_memoryOk {s : State} {r cycles wait : Nat} {p : Perf} (h : MemoryOk s) : MemoryOk (solvePerf s r cycles wait p) := by
  unfold MemoryOk
  rw [solvePerf_mem]
  exact h

theorem execSolveComplete_rest {s : State} {r n cycles : Nat} {p : PortPerf} {x : GSlot} (h : MemoryOk s) (hx : runSlot s r = some (n, x)) :
    let u := solvePerf s r cycles p.wait p.perf
    ∃ t, exec (.solveComplete r cycles p) s = .next t ∧ StoresOnly u t x.dom (solveDest u x (solveBlks s r x 0 x.prob.blks) []) [] := by
  refine ⟨_, rfl, ?_⟩
  rw [hx]
  exact .guardReads (solveFinish_rest (solvePerf_memoryOk h)) (solvePerf_mem ..)

theorem execSolveDeadline_rest {s : State} {r n cycles : Nat} {stop : StopPoint} {p : PortPerf} {x : GSlot} (h : MemoryOk s)
    (hx : runSlot s r = some (n, x)) :
    let u := solvePerf s r cycles p.wait p.perf
    let y := stopParts s r x stop.block stop.attempt stop.iter
    ∃ t, exec (.solveDeadline r stop cycles p) s = .next t ∧ StoresOnly u t x.dom (solveDest u x y.1 (x.prob.blks.drop y.1.length)) [] := by
  refine ⟨_, rfl, ?_⟩
  rw [hx]
  dsimp only
  split
  · exact .same (solvePerf_mem ..).symm
  · exact .guardReads (solveFinish_rest (solvePerf_memoryOk h)) (solvePerf_mem ..)

/-- Settles O36: each kind of item by its law (`doTile_rest` … `solveFinish_rest`); guards, counters and frames around the stores leave
memory as it is. -/
theorem itemsStoreAtTheirAddresses : Obligations.ItemsStoreAtTheirAddresses := by
  refine ⟨fun s b l i it p h => ?_, fun s b d o h => payOwed_rest h, fun s b k q p h => ?_, fun s b i it perf q p h => doFinish_rest h rfl,
    fun s b d src n p h => emitStep_rest h, fun s r n f x h hx => execFeedComplete_rest h hx,
    fun s r n cycles stop p x h hx => ⟨solvePerf_mem .., execSolveComplete_rest h hx, execSolveDeadline_rest h hx⟩⟩
  · exact ⟨doTile_rest h, doChain_rest h, doTileVec_rest h, fun op => doRecord_rest h, doSurvey_rest h, doPass_frame.mem (by decide),
      fun two => doDir_rest h, fun op x n y hx hy => grdRequest_rest h hx hy⟩
  · exact ⟨fun x hx => consumeSlot_rest h hx _, fun hn => by rw [consumeSlot_unbound hn], takeSlot_blocked, takeSlot_rest h⟩

end Sys2Proof.Machine

namespace Sys2Proof.Machine

set_option Elab.async false

/-! ## What packets change -/

/-- Every binding but that of slot `ky` is as in `s`. -/
def BindsBut (ky : Nat) (s t : State) : Prop := ∀ j, j ≠ ky → t.bind j = s.bind j

section
variable {ky : Nat} {s t u : State}

theorem BindsBut.refl : BindsBut ky s s := fun _ _ => rfl

theorem BindsBut.frame {v : List Part} (h : BindsBut ky s t) (g : Frame v t u) (hv : Part.binds ∉ v := by decide) : BindsBut ky s u :=
  fun j hj => (g.get_bind hv j).trans (h j hj)

theorem BindsBut.setBind (h : BindsBut ky s t) (b : Bind) : BindsBut ky s (t.setBind ky b) := fun j hj => by
  rw [bind_setBind, if_neg hj, h j hj]

theorem BindsBut.countDeposit (h : BindsBut ky s t) {e : Held} (he : e.key = ky) : BindsBut ky s (countDeposit t e) := by
  unfold Machine.countDeposit depositDone
  split
  · rw [he]
    split
    · exact h
    · extract_lets k _ s0 s1
      have h1 : BindsBut ky s s1 := BindsBut.setBind (h.frame State.setBlk_frame) _
      split
      · exact h1.frame State.setBlk_frame
      · exact h1
  · exact h

theorem BindsBut.onBound (h : BindsBut ky s t) {e : Held} (he : e.key = ky) (b : Bind) : BindsBut ky s (onBound t b e) := by
  subst he
  unfold Machine.onBound
  split
  · exact h.frame slotOps_frame
  · split
    · split
      · split
        · exact h.frame anomaly_frame
        · exact h
      · refine BindsBut.countDeposit ?_ rfl
        split
        · exact (h.frame slotOps_frame).frame anomaly_frame
        · exact h.frame slotOps_frame
    · split
      · refine BindsBut.countDeposit (BindsBut.frame (BindsBut.frame (BindsBut.setBind ?_ _) State.count_frame) slotOps_frame) rfl
        exact (h.frame zeroRange_frame).frame unready_frame
      · split
        · exact h.frame State.count_frame
        · exact h

/-- Accesses to a slot change no other slot's binding. -/
theorem slotWrite_bindsBut (s : State) (e : Held) : BindsBut e.key s (slotWrite s e) := by
  unfold slotWrite
  split
  · exact BindsBut.refl.frame holdSlot_frame
  · split
    · exact BindsBut.refl.onBound rfl _
    · extract_lets cell tag nb
      split
      · exact BindsBut.refl.frame holdSlot_frame
      · split
        · exact BindsBut.countDeposit ((BindsBut.refl.setBind _).frame slotOps_frame) rfl
        · exact (((BindsBut.refl.setBind _).frame State.count_frame).frame holdSlot_frame).frame markSpl_frame

/-- Every binding of another domain is as in `s`. -/
def BindsBeside (d : Nat) (s t : State) : Prop := ∀ j, keyDom j ≠ d → t.bind j = s.bind j

theorem BindsBeside.refl {d : Nat} : BindsBeside d s s := fun _ _ => rfl

theorem BindsBeside.frame {d : Nat} {v : List Part} (h : BindsBeside d s t) (g : Frame v t u) (hv : Part.binds ∉ v := by decide) :
    BindsBeside d s u := fun j hj => (g.get_bind hv j).trans (h j hj)

theorem BindsBeside.slotWrite {d : Nat} (h : BindsBeside d s t) {e : Held} (he : keyDom e.key = d) : BindsBeside d s (slotWrite t e) :=
  fun j hj => (slotWrite_bindsBut t e j fun hje => hj (hje ▸ he)).trans (h j hj)

end

/-- The slots of a domain's segments are that domain's. -/
theorem keyDom_of_maLoc {s : State} {d a ky off : Nat} (hd : d < 16) (h : maLoc s d a = .slot ky off) : keyDom ky = d := by
  unfold maLoc segLoc at h
  extract_lets span at h
  split at h
  · cases h
  split at h
  · cases h
  split at h
  · cases h
  split at h
  · cases h
  cases h
  unfold keyDom slotKey maSeg maOff
  omega

theorem stLine_bindsBeside {s t : State} {b d src : Nat} {p : Nat × List Byte} (hd : d < 16) (h : BindsBeside d s t) :
    BindsBeside d s (stLine b d src t p) := by
  unfold stLine
  split
  · exact h.frame boundEvt_frame
  · exact h.frame State.wrBytes_frame
  · exact h.slotWrite (keyDom_of_maLoc hd ‹_›)

theorem stBytes_bindsBeside {s : State} {b d src a : Nat} {bs : List Byte} (hd : d < 16) : BindsBeside d s (stBytes s b d src a bs) :=
  foldl_mem BindsBeside.refl fun _ _ _ => stLine_bindsBeside hd

theorem addParts_keyDom {s : State} {d a : Nat} {bs : List Byte} (hd : d < 16) {e : Nat × Nat × Bool × List Byte}
    (he : e ∈ (addParts s d a bs).1) : keyDom e.1 = d := by
  unfold addParts at he
  simp only [List.mem_filterMap, List.mem_map] at he
  obtain ⟨q, ⟨p, -, rfl⟩, hq⟩ := he
  dsimp only at hq
  split at hq
  · cases hq
    exact keyDom_of_maLoc hd ‹_›
  · cases hq

theorem depositAdds_bindsBeside {s : State} {b d src st att ex n : Nat} {counts : Bool} {l : List (Nat × Nat × Bool × List Byte)}
    (hl : ∀ e ∈ l, keyDom e.1 = d) : BindsBeside d s (depositAdds s b src st att ex counts l n) := by
  refine foldl_mem (BindsBeside.refl.frame boundEvt_frame) fun u e he hu => hu.slotWrite ?_
  simp only [bySlot, List.mem_map, List.mem_eraseDups] at he
  obtain ⟨ky, ⟨e0, he0, rfl⟩, rfl⟩ := he
  exact hl e0 he0

theorem guardReads_cases (s t : State) (d : Nat) (rs : List (Nat × Nat)) :
    guardReads s d rs t = t ∨ (s.back.poison ≠ [] ∧ ∃ w, guardReads s d rs t = poisonFault s w) := by
  unfold guardReads
  split
  · rename_i w hw
    refine .inr ⟨fun hp => ?_, w, rfl⟩
    simp [poisonHit, hp] at hw
  · exact .inl rfl

theorem fabricAdds_cases (s : State) (d src st ex a : Nat) (counts : Bool) (bs : List Byte) :
    fabricAdds s d src st ex a counts bs =
        depositAdds s (faultBlk s d) src st (attFor s d st) ex counts (addParts s d a bs).1 (addParts s d a bs).2 ∨
      (s.back.poison ≠ [] ∧ ∃ w, fabricAdds s d src st ex a counts bs = poisonFault s w) := guardReads_cases ..

theorem fabricAdds_bindsBeside {s : State} {d src st ex a : Nat} {counts : Bool} {bs : List Byte} (hd : d < 16) :
    BindsBeside d s (fabricAdds s d src st ex a counts bs) := by
  rcases fabricAdds_cases s d src st ex a counts bs with h | ⟨-, w, h⟩
  · rw [h]; exact depositAdds_bindsBeside fun _ he => addParts_keyDom hd he
  · rw [h]; exact BindsBeside.refl.frame poisonFault_frame

theorem fabricAdds_regs {s : State} {d src st ex a : Nat} {counts : Bool} {bs : List Byte} (hp : s.back.poison = []) :
    (fabricAdds s d src st ex a counts bs).flt.regs = s.flt.regs := by
  rcases fabricAdds_cases s d src st ex a counts bs with h | ⟨hne, -⟩
  · rw [h, depositAdds_frame.regs (by decide)]
  · exact absurd hp hne

theorem Packet.dom_lt (k : Packet) : k.dom < 16 := Nat.mod_lt _ (by decide)

/-- What a packet stores, before its progress event and its signal. -/
theorem performPacket_eq (s : State) (k : Packet) : ∃ t : State, Frame [.sigs, .blks, .back] t (performPacket s k) ∧
    (t = stBytes s (faultBlk s k.dom) k.dom (transferSrc k) k.addr k.data ∧ k.ty = 0x01 ∨
      t = fabricAdds s k.dom (transferSrc k) k.step k.dexp k.addr k.slotLast k.data ∧ k.ty = 0x02 ∨ t = s) := by
  refine ⟨_, postSignal_frame.after (frame_ite (.refl _ _) storedBy_frame.wider), ?_⟩
  split
  · exact .inl ⟨rfl, ‹_›⟩
  · split
    · exact .inr (.inl ⟨rfl, ‹_›⟩)
    · exact .inr (.inr rfl)

theorem performPacket_bind_of_ne (s : State) (k : Packet) {j : Nat} (hj : keyDom j ≠ k.dom) : (performPacket s k).bind j = s.bind j := by
  obtain ⟨t, g, h⟩ := performPacket_eq s k
  refine (g.get_bind (by decide) j).trans ?_
  rcases h with ⟨rfl, -⟩ | ⟨rfl, -⟩ | rfl
  · exact stBytes_bindsBeside k.dom_lt j hj
  · exact fabricAdds_bindsBeside k.dom_lt j hj
  · rfl

theorem performPacket_regs {s : State} {k : Packet} (hp : s.back.poison = []) : (performPacket s k).flt.regs = s.flt.regs := by
  obtain ⟨t, g, h⟩ := performPacket_eq s k
  refine (g.regs (by decide)).trans ?_
  rcases h with ⟨rfl, -⟩ | ⟨rfl, -⟩ | rfl
  · exact stBytes_frame.regs (by decide)
  · exact fabricAdds_regs hp
  · rfl

/-- A write whose every line misses is not performed. -/
theorem stBytes_miss {s : State} {b d src a : Nat} {bs : List Byte} (h : ∀ p ∈ pieces a bs, maLoc s d p.1 = .miss) :
    Frame [.ro, .blks] s (stBytes s b d src a bs) := by
  refine foldl_mem (P := fun u => Frame [.ro, .blks] s u) (.refl _ _) fun u p hp hu => ?_
  have hloc : maLoc u d p.1 = .miss := by
    simp only [maLoc, State.seg, hu.segs (by decide)]
    exact h p hp
  rw [stLine, hloc]
  exact boundEvt_frame.after hu

/-- A WRITE outside its domain's segments stores nothing. -/
theorem performPacket_miss {s : State} {k : Packet}
    (hmiss : ∀ o, o < 2 ^ 28 → segLoc (s.seg k.dom (maSeg k.addr)) k.dom (maSeg k.addr) o = .miss)
    (hty : k.ty = 0x01) (hfit : maOff k.addr + k.data.length ≤ 2 ^ 28) :
    (performPacket s k).mem = s.mem ∧ (performPacket s k).binds = s.binds := by
  obtain ⟨t, g, h⟩ := performPacket_eq s k
  have ht : Frame [.ro, .blks] s t := by
    rcases h with ⟨rfl, -⟩ | ⟨-, h2⟩ | rfl
    · refine stBytes_miss fun p hp => ?_
      obtain ⟨h0, -, h1, h2, -⟩ := piece_of hp
      have hseg : maSeg p.1 = maSeg k.addr := by unfold maSeg maOff at *; omega
      rw [maLoc, hseg]
      exact hmiss _ (Nat.mod_lt _ (by decide))
    · rw [hty] at h2; exact absurd h2 (by decide)
    · exact .refl _ _
  exact ⟨(g.mem (by decide)).trans (ht.mem (by decide)), (g.binds (by decide)).trans (ht.binds (by decide))⟩

theorem performPacket_signal {s : State} {k : Packet} (hty : k.ty = 0x03) (hlast : k.last = true) (hen : k.sigEn = true)
    (hblk : k.sigBlk < 24)
    (hheld : s.back.held.any (fun h => h.src == transferSrc k) = false) :
    performPacket s k = { s with sigs := s.sigs ++ [{ blk := k.sigBlk, ctr := k.sigCtr, step := k.step, att := attFor s k.dom k.step }]
        } := by
  simp [performPacket, postSignal, hty, hlast, hen, hblk, hheld]

/-- Settles O48: `performPacket_frame` leaves the other parts alone; bindings, regions and memory by the laws of its writes. -/
theorem packetEffectsAreConfined : Obligations.PacketEffectsAreConfined := by
  refine ⟨fun s k hty hlast hen hblk hheld => performPacket_signal hty hlast hen hblk hheld,
    fun s k hmiss hty hfit _ => performPacket_miss hmiss hty hfit, fun s k => ?_⟩
  have g := performPacket_frame (s := s) (a := k)
  exact ⟨g.progs (by decide), g.dirs (by decide), g.segs (by decide), g.doms (by decide), performPacket_regs, g.pwr (by decide),
    g.sec (by decide), g.mgt (by decide), performPacket_rest, fun _ hj => performPacket_bind_of_ne s k hj⟩

end Sys2Proof.Machine

namespace Sys2Proof.Machine

set_option Elab.async false

/-! ## Where commands store -/

theorem byteAt_grant {s : State} (h : MemoryOk s) (k : Nat) (c : Cmd) (d a : Nat) : byteAt (grant s k c) d a = byteAt s d a := by
  rw [byteAt, (Within.grant (W := fun _ => True) h).loc, byteAt]

theorem dataOk_grant {s : State} (h : MemoryOk s) (k : Nat) (c : Cmd) (d a n : Nat) : dataOk (grant s k c) d a n = dataOk s d a n := by
  simp only [dataOk, (Within.grant (W := fun _ => True) h).loc]

theorem ldBytes_grant {s : State} (h : MemoryOk s) (k : Nat) (c : Cmd) (d a n : Nat) : ldBytes (grant s k c) d a n = ldBytes s d a n :=
  (Within.grant (W := fun _ => True) h).ldBytes (grant_frame.mem (by decide)) (grant_frame.back (by decide))
      (grant_frame.binds (by decide)) d a n

theorem poisonHit_grant {s : State} (h : MemoryOk s) (k : Nat) (c : Cmd) (d : Nat) (rs : List (Nat × Nat)) :
    poisonHit (grant s k c) d rs = poisonHit s d rs :=
  (Within.grant (W := fun _ => True) h).poisonHit (grant_frame.back (by decide)) (grant_frame.binds (by decide))

theorem inSlot_grant {s : State} (h : MemoryOk s) (k : Nat) (c : Cmd) (ky x : Nat) : InSlot (grant s k c) ky x ↔ InSlot s ky x := by
  have hw := Within.grant (W := fun _ => True) (k := k) (c := c) h
  simp only [InSlot, grant_frame.get_bind (by decide), hw.slotBase, hw.spillBase, hw.poolFor, hw.poolBase]

theorem memoryOk_grant {s : State} (h : MemoryOk s) (k : Nat) (c : Cmd) : MemoryOk (grant s k c) := (Within.grant (W := fun _ => True) h).wf

theorem payOf_grant (s : State) (k : Nat) (c : Cmd) : payOf (grant s k c) k = c.data := by rw [payOf, grant_ctx]

/-- The context of an admitted command: its head has advanced, and the command stands in it. -/
theorem grant_ctx_eq (s : State) (k : Nat) (c : Cmd) :
    (grant s k c).ctx k = { advance (s.ctx k) with cmd := some { c with admitted := true }, defer := none } := by
  unfold grant
  dsimp only
  split <;> simp [State.count]

theorem grant_home (s : State) (k : Nat) (c : Cmd) : ((grant s k c).ctx k).home = (s.ctx k).home := by rw [grant_ctx_eq]; rfl

/-- A plain write after an admission stands where the translation of the state before it places it. -/
theorem StoredAt.grant {s t : State} {k : Nat} {c : Cmd} {d a : Nat} {bs : List Byte} (h : MemoryOk s)
    (hs : StoredAt (grant s k c) t d a bs) :
    StoredAt s t d a bs := fun i x hi hx hj =>
  hs i x hi (by rwa [byteAt_grant h]) fun j h1 h2 => by rw [byteAt_grant h]; exact hj j h1 h2

/-- What an admitted command stores, from the state before its admission. -/
theorem StoresOnly.of_grant {s t : State} {k : Nat} {c : Cmd} {d : Nat} {rs ps : List (Nat × Nat)} (hs : StoresOnly (grant s k c) t d rs ps)
    (h : MemoryOk s) : StoresOnly s t d rs ps := fun x h1 h2 => by
  refine (hs x (fun hx => h1 ?_) h2).trans (grant_frame.get_rd (by decide) x)
  obtain ⟨r, hr, i, hi, hplace⟩ := hx
  refine ⟨r, hr, i, hi, hplace.imp (by rw [byteAt_grant h]; exact id) ?_⟩
  rintro ⟨ky, off, hloc, hslot⟩
  exact ⟨ky, off, by rwa [(Within.grant (W := fun _ => True) h).loc] at hloc, (inSlot_grant h k c ky x).1 hslot⟩

theorem StoredAt.after {v : List Part} {s t u : State} {d a : Nat} {bs : List Byte} (hs : StoredAt s t d a bs) (g : Frame v t u)
    (hv : Part.mem ∉ v := by decide) : StoredAt s u d a bs := fun i x hi hx hj => (g.get_rd hv x).trans (hs i x hi hx hj)

/-- An admitted command that writes bytes at a plain address and ends DONE. -/
theorem admitted_write {s : State} {k : Nat} {c : Cmd} {b d src a : Nat} {bs : List Byte} (h : MemoryOk s) (hc : c.muted = false)
    (hok : dataOk s d a bs.length = true) :
    let t := endCmd (stBytes (grant s k c) b d src a bs) k 0 0 []
    EndedWith t k 0 0 ∧ StoresOnly s t d [(a, bs.length)] [] ∧ StoredAt s t d a bs := by
  refine ⟨endCmd_ended (stBytes_open (grant_open hc)), ?_, ?_⟩
  · exact (StoresOnly.of_within ((Within.grant h).stBytes fun _ hx => .inl hx)).after endCmd_frame
  · exact ((stBytes_stored (memoryOk_grant h k c) (by rwa [dataOk_grant h])).grant h).after endCmd_frame

theorem specCopy_run {s : State} {d desc : Nat} (k : Nat) (h : poisonHit s d [(dw desc 1, dw desc 3)] = none) : (specCopy d desc).run s k =
    endCmd (stBytes s (faultBlk s d) d 0 (dw desc 2) (ldBytes s d (dw desc 1) (dw desc 3)).1) k 0 0 [] := by
  simp only [specCopy, guardReads, h]

theorem specHostWrite_run {s : State} {d desc k : Nat} {bs : List Byte} {data : Option (List Byte)} (h : payOf s k = some bs) :
    (specHostWrite d desc data).run s k =
      endCmd (stBytes s (faultBlk s d) d 0 (dw desc 2) ((bs ++ fill (dw desc 3) 0).take (dw desc 3))) k 0 0 [] := by
  simp only [specHostWrite, h]

theorem copy_stores {s : State} {d q k desc : Nat} (h : MemoryOk s) (ha : Admissible s d q k desc (specCopy d desc))
    (hp : poisonHit s d [(dw desc 1, dw desc 3)] = none) : ∃ t, exec (.copy d q desc) s = .next t ∧ EndedWith t k 0 0 ∧
      StoresOnly s t d [(dw desc 2, dw desc 3)] [] ∧ StoredAt s t d (dw desc 2) (ldBytes s d (dw desc 1) (dw desc 3)).1 := by
  have hok : dataOk s d (dw desc 2) (dw desc 3) = true := by
    have hstatic := ha.static
    simp only [specCopy, ite_eq_left_iff, Bool.and_eq_true, reduceCtorEq, imp_false, Decidable.not_not] at hstatic
    exact hstatic.2
  have hlen := ldBytes_length s d (dw desc 1) (dw desc 3)
  refine ⟨_, congrArg Host.Outcome.next ((runCommand_admissible ha).trans (specCopy_run k (by rwa [poisonHit_grant h]))), ?_⟩
  rw [ldBytes_grant h]
  have := admitted_write (k := k) (c := cmdAt s d q desc (specCopy d desc)) (src := 0)
    (b := faultBlk (grant s k (cmdAt s d q desc (specCopy d desc))) d) h rfl (hlen.symm ▸ hok)
  rwa [hlen] at this

theorem hostWrite_stores {s : State} {d q k desc : Nat} {bs : List Byte} (h : MemoryOk s)
    (ha : Admissible s d q k desc (specHostWrite d desc (some bs))) : ∃ t, exec (.hostWrite d q desc (some bs)) s = .next t ∧
      EndedWith t k 0 0 ∧ StoresOnly s t d [(dw desc 2, dw desc 3)] [] ∧
      StoredAt s t d (dw desc 2) ((bs ++ fill (dw desc 3) 0).take (dw desc 3)) := by
  have hok : dataOk s d (dw desc 2) (dw desc 3) = true := by
    have hstatic := ha.static
    simp only [specHostWrite, ite_eq_left_iff, reduceCtorEq, imp_false, Decidable.not_not] at hstatic
    exact hstatic
  have hlen : ((bs ++ fill (dw desc 3) 0).take (dw desc 3)).length = dw desc 3 := by simp [fill]
  refine ⟨_, congrArg Host.Outcome.next ((runCommand_admissible ha).trans (specHostWrite_run (payOf_grant ..))), ?_⟩
  have := admitted_write (k := k) (c := cmdAt s d q desc (specHostWrite d desc (some bs))) (src := 0) (a := dw desc 2)
    (b := faultBlk (grant s k (cmdAt s d q desc (specHostWrite d desc (some bs)))) d) h rfl (hlen.symm ▸ hok)
  rwa [hlen] at this

/-! ## PROG_LOAD -/

theorem installImage_mem (s : State) (d first : Nat) (m : Image) : (installImage s d first m).mem = (writePages s m).mem :=
  (State.each_frame (w := [.blks]) fun _ _ => State.setBlk_frame).mem (by decide)

/-- A refused image: the command ends with the reason, and nothing is stored. -/
theorem progLoad_refused {s : State} {k : Nat} {c : Cmd} (hc : c.muted = false) (f : Cmd → Cmd) (hf : ∀ c, (f c).muted = c.muted) (r : Nat)
    :
    let t := endCmd (modCmd (grant s k c) k f) k 0x10 r []
    EndedWith t k 0x10 r ∧ t.mem = s.mem ∧ t.dirs = s.dirs := by
  have g : Frame [.ro, .doms, .ctxs, .ress] s (endCmd (modCmd (grant s k c) k f) k 0x10 r []) :=
    endCmd_frame.after (modCmd_frame.after grant_frame)
  exact ⟨endCmd_ended (modCmd_open (grant_open hc) hf), g.mem (by decide), g.dirs (by decide)⟩

/-- A placed image: the pages that it names hold its records or zeros, and nothing else is stored. -/
theorem progLoad_stores {s u : State} {d k first : Nat} {c : Cmd} {m : Image} (h : MemoryOk s) (hc : c.muted = false)
    (hu : placeImage (grant s k c) d m = .ok u) (f : Cmd → Cmd) (hf : ∀ c, (f c).muted = c.muted) :
    let t := endCmd (modCmd (installImage u d first m) k f) k 0 0 []
    EndedWith t k 0 0 ∧ t.dirs = u.dirs ∧ t.segs = u.segs ∧ StoresOnly s t d [] (m.pages.map (fun r => (pageAt u r, 0x40000))) ∧
      ((m.pages.map (fun r => (u.dir r.page).addr)).Nodup →
        (∀ i r, (m.pages.filter (·.image))[i]? = some r → ∀ x, x < 0x40000 →
          t.rd (pageAt u r + x) = ((m.records.drop (131072 * i)).take 131072).getD (x % 0x20000) 0) ∧
        ∀ r ∈ m.pages, r.image = false → ∀ x, x < 0x40000 → t.rd (pageAt u r + x) = 0) := by
  intro t
  have gu : Frame [.ro, .segs, .dirs, .grds, .doms, .ctxs, .ress] s u := (placeImage_frame hu).after grant_frame.wider
  have gt : Frame [.doms, .progs, .blks, .mem, .back, .ctxs, .ro, .ress] u t :=
    endCmd_frame.after (modCmd_frame.after installImage_frame.wider)
  have hmem : ∀ x, t.rd x = (writePages u m).rd x := fun x => by
    have : Frame [.ctxs, .ro, .doms, .ress] (installImage u d first m) t := endCmd_frame.after modCmd_frame.wider
    rw [this.get_rd (by decide), State.rd, installImage_mem]
    rfl
  have hopen : Open (installImage u d first m) k := ((grant_open hc).frame (placeImage_frame hu)).frame installImage_frame
  have hwf : MemoryOk u := by unfold MemoryOk; rw [gu.mem (by decide)]; exact h
  obtain ⟨houter, hpages⟩ := writePages_rd hwf m
  refine ⟨endCmd_ended (modCmd_open hopen hf), gt.dirs (by decide), gt.segs (by decide), fun x _ hx => ?_, fun hn => ?_⟩
  · rw [hmem, houter x fun r hr hin => hx ⟨_, List.mem_map.2 ⟨r, hr, rfl⟩, hin⟩, gu.get_rd (by decide)]
  · simp only [hmem]
    exact hpages hn

/-! ## GRADE and EXPORT -/

/-- A feed that starts writes the header of its slot with FEED_AGE 0. -/
theorem reqFeed_stored {s : State} {r n : Nat} {x : GSlot} (h : MemoryOk s) (hrun : (s.grd r).run ≠ some n) (hfeed : x.feeding = false)
    (hok : dataOk s x.dom x.prob.rhdr 64 = true) :
    StoredAt s (reqFeed s r n x) x.dom x.prob.rhdr (leBytes 64 (setBits (slotHdr s x) 463 448 0)) := by
  rw [reqFeed, if_neg hrun, if_neg (by simp [hfeed])]
  exact (stBytes_stored h (by rwa [leBytes_length])).after setSlot_frame

theorem slotAt_dom {s : State} {r d l n : Nat} {x : GSlot} (h : slotAt s r d l = some (n, x)) : x.dom = d := by
  have := List.find?_some h
  simp only [Bool.and_eq_true, beq_iff_eq] at this
  exact this.1

/-- A request with a feed, for a slot whose Grader is free and that has no feed. -/
theorem grdRequest_stored {s : State} {d l op n : Nat} {p : Problem} {x : GSlot} (h : MemoryOk s) (hp : problemAt s d l = some p)
    (ha : alive s p.greg = true) (hx : slotAt s p.greg d l = some (n, x)) (hop : op = 1 ∨ op = 3) (hrun : (s.grd p.greg).run ≠ some n)
    (hfeed : x.feeding = false) (hok : dataOk s d x.prob.rhdr 64 = true) :
    StoredAt s (grdRequest s d l op) d x.prob.rhdr (leBytes 64 (setBits (slotHdr s x) 463 448 0)) := by
  have hd := slotAt_dom hx
  have hstored := reqFeed_stored (r := p.greg) (n := n) h hrun hfeed (by rwa [hd])
  rw [hd] at hstored
  simp only [grdRequest, hp, ha, hx, Bool.not_true, Bool.false_eq_true, if_false]
  rcases hop with rfl | rfl
  · exact hstored
  · exact hstored.after reqSolve_frame

theorem problemAt_grant (s : State) (k : Nat) (c : Cmd) (d l : Nat) : problemAt (grant s k c) d l = problemAt s d l := by
  rw [problemAt, grant_frame.get_prog (by decide), problemAt]

theorem slotAt_grant (s : State) (k : Nat) (c : Cmd) (r d l : Nat) : slotAt (grant s k c) r d l = slotAt s r d l := by
  rw [slotAt, grant_frame.get_grd (by decide), slotAt]

theorem alive_grant (s : State) (k : Nat) (c : Cmd) (r : Nat) : alive (grant s k c) r = alive s r := by
  rw [alive, grant_frame.get_reg (by decide), alive]

theorem grdRequest_open {s : State} {k d l op : Nat} (h : Open s k) : Open (grdRequest s d l op) k := by
  have hfeed {u : State} (hu : Open u k) (r n : Nat) (x : GSlot) : Open (reqFeed u r n x) k := by
    unfold reqFeed
    split
    · exact hu.frame setSlot_frame
    · split
      · exact hu.frame State.count_frame
      · exact (stBytes_open hu).frame setSlot_frame
  unfold grdRequest
  split
  · exact h
  · extract_lets r
    split
    · exact h.frame State.count_frame
    · split
      · exact h
      · split
        · exact hfeed h ..
        · split
          · exact h.frame reqSolve_frame
          · split
            · exact (hfeed h ..).frame reqSolve_frame
            · exact h.frame reqCold_frame

theorem grdRequest_dead {s : State} {d l op : Nat} {p : Problem} (hp : problemAt s d l = some p) (ha : alive s p.greg = false) :
    (grdRequest s d l op).mem = s.mem := by
  simp [grdRequest, hp, ha]

theorem grade_stores {s : State} {d q k desc : Nat} {p : Problem} (h : MemoryOk s) (hadm : Admissible s d q k desc (specGrade d desc))
    (hp : problemAt s d (bits (dw desc 1) 55 48) = some p) : ∃ t, exec (.grade d q desc) s = .next t ∧ EndedWith t k 0 0 ∧
      (alive s p.greg = false → t.mem = s.mem) ∧
      (∀ n x, alive s p.greg = true → slotAt s p.greg d (bits (dw desc 1) 55 48) = some (n, x) → StoresOnly s t d [(x.prob.rhdr, 64)] [] ∧
        (bits (dw desc 1) 63 56 = 1 ∨ bits (dw desc 1) 63 56 = 3 → (s.grd p.greg).run ≠ some n → x.feeding = false →
          dataOk s d x.prob.rhdr 64 = true → StoredAt s t d x.prob.rhdr (leBytes 64 (setBits (slotHdr s x) 463 448 0)))) := by
  refine ⟨_, congrArg Host.Outcome.next (runCommand_admissible hadm), ?_⟩
  generalize hc : cmdAt s d q desc (specGrade d desc) = c
  have hmuted : c.muted = false := by rw [← hc]; rfl
  have hwf := memoryOk_grant h k c
  have hpg : problemAt (grant s k c) d (bits (dw desc 1) 55 48) = some p := by rw [problemAt_grant, hp]
  refine ⟨endCmd_ended (grdRequest_open (grant_open hmuted)), fun ha => ?_, fun n x ha hx => ⟨?_, fun hop hrun hfeed hok => ?_⟩⟩
  · refine (endCmd_frame.mem (by decide)).trans ((grdRequest_dead hpg (by rwa [alive_grant])).trans (grant_frame.mem (by decide)))
  · have hrest : StoresOnly (grant s k c) (grdRequest (grant s k c) d (bits (dw desc 1) 55 48) (bits (dw desc 1) 63 56)) d
        [(x.prob.rhdr, 64)] [] := grdRequest_rest hwf hpg (by rwa [slotAt_grant])
    exact (hrest.of_grant h).after endCmd_frame
  · have hstored := grdRequest_stored hwf hpg (by rwa [alive_grant]) (by rwa [slotAt_grant]) hop
      (by rwa [grant_frame.get_grd (by decide)]) hfeed (by rwa [dataOk_grant h])
    have hhdr : slotHdr (grant s k c) x = slotHdr s x := by simp only [slotHdr, ldNat, ldBytes_grant h]
    rw [hhdr] at hstored
    exact (hstored.grant h).after endCmd_frame

theorem export_stores {s : State} {d q k desc : Nat} (hadm : Admissible s d q k desc (specExport d desc))
    (hno : (∀ e, (s.day e).imps = []) ∨ ∀ p ∈ exportPackets (grant s k (cmdAt s d q desc (specExport d desc))) d desc,
      hopOf (grant s k (cmdAt s d q desc (specExport d desc))) (s.ctx k).home p.dst false none ≠ .here) :
    ∃ t, exec (.exportRun d q desc) s = .next t ∧ t.mem = s.mem ∧ t.dirs = s.dirs := by
  refine ⟨_, congrArg Host.Outcome.next (runCommand_admissible hadm), ?_⟩
  obtain ⟨hmem, hdirs⟩ := startExport_mem (s := grant s k (cmdAt s d q desc (specExport d desc))) (d := d) (k := k) (desc := desc)
    (hno.imp (fun h e => by rw [grant_frame.get_day (by decide)]; exact h e) (fun h => by rwa [grant_home]))
  exact ⟨hmem.trans (grant_frame.mem (by decide)), hdirs.trans (grant_frame.dirs (by decide))⟩

/-- Settles O31: each command runs in the state that its admission leaves (`runCommand_admissible`), whose memory and translation are those
of the state before it. -/
theorem commandsStoreAtTheirAddresses : Obligations.CommandsStoreAtTheirAddresses := by
  refine ⟨fun s d q k desc => copy_stores, fun s d q k desc bs => hostWrite_stores, fun s d q k desc im h hadm => ?_,
    fun s d q k desc p => grade_stores, fun s d q k desc => export_stores, fun s p k => importPage_rest⟩
  intro g
  have hrun {t : State} (ht : loadProgram g d k (bits (dw desc 3) 31 0) = t) : exec (.progLoad d q desc (some im)) s = .next t :=
    congrArg Host.Outcome.next ((runCommand_admissible hadm).trans ht)
  have hpay : payOf g k = some im := payOf_grant ..
  have hbad (r : Bad) := progLoad_refused (s := s) (k := k) (c := cmdAt s d q desc (specProgLoad d desc (some im))) rfl
    (fun c => { c with detail := r.2 }) (fun _ => rfl) r.1
  refine ⟨fun r hr => ⟨_, hrun ?_, hbad r⟩, fun m r hm hr => ⟨_, hrun ?_, hbad r⟩, fun m r hm hk hr => ⟨_, hrun ?_, hbad r⟩,
    fun m u hm hk hu => ⟨_, hrun ?_, progLoad_stores (first := bits (dw desc 3) 31 0) h rfl hu (fun c => { c with spl := spilledNow g u })
      fun _ => rfl⟩⟩
  · simp only [loadProgram, hpay, hr]; rfl
  · simp only [loadProgram, hpay, hm, hr]; rfl
  · simp only [loadProgram, hpay, hm, hk, hr]; rfl
  · simp only [loadProgram, hpay, hm, hk, hu]

end Sys2Proof.Machine

namespace Sys2Proof.Machine

set_option Elab.async false

/-! ## Tensor scale records -/

theorem recOpen_testBit (w : Nat) {i : Nat} (h : i < 300 ∨ (303 < i ∧ i < 344) ∨ 447 < i) : (recOpen w).testBit i = w.testBit i := by
  unfold recOpen
  iterate 5 rw [testBit_setBits _ _ _ _ _ (by decide), if_neg (by omega)]

/-- CLOSE, first part (R49): the record's step and attempt become those of the production; the history goes back to where the abandoned
attempt found it, or the place to go back to is kept. -/
def closeTag (w st att : Nat) : Nat :=
  if st % 65536 != bits w 319 304 then
    setBits (setBits (setBits (setBits w 319 304 (st % 65536)) 281 278 att) 277 274 (bits w 290 287)) 273 269 (bits w 295 291)
  else if att % 16 != bits w 281 278 then
    setBits (setBits (setBits w 290 287 (bits w 277 274)) 295 291 (bits w 273 269)) 281 278 att
  else w

/-- CLOSE, second part (R49): CUR_AMAX goes into the history where no exception was counted. -/
def closeHist (w : Nat) : Nat :=
  if bits w 415 384 = 0 then
    setBits (setBits (setBits w (32 * bits w 290 287 + 543) (32 * bits w 290 287 + 512) (bits w 447 416)) 290 287
        ((bits w 290 287 + 1) % 16))
      295 291 (min (bits w 295 291 + 1) 16)
  else w

/-- CLOSE, last part: the scale that the history gives, or 1.0. -/
theorem recClose_eq (w st att : Nat) (unit : Bool) : ∃ c r : Word, (unit = true → c = 0x3F800000 ∧ r = 0x3F800000) ∧
    recClose w st att unit = setBits (setBits (setBits (closeHist (closeTag w st att)) 511 480 c.toNat) 479 448 r.toNat) 268 0 0 :=
  ⟨_, _, fun h => by rw [h]; exact ⟨rfl, rfl⟩, rfl⟩

theorem bits_mod_self (w m l : Nat) : bits w m l % 2 ^ (m + 1 - l) = bits w m l := Nat.mod_eq_of_lt (bits_lt w m l)

section
variable {w st att : Nat} (hatt : att < 16)
include hatt

theorem closeTag_tag : bits (closeTag w st att) 319 304 = st % 65536 ∧ bits (closeTag w st att) 281 278 = att := by
  unfold closeTag
  simp only [bne_iff_ne, Nat.mod_eq_of_lt hatt]
  split
  · simp (disch := omega) [bits_setBits_other, bits_setBits_same, Nat.mod_eq_of_lt hatt]
  · rename_i hst
    split
    · have hw : bits w 319 304 = st % 65536 := by omega
      simp (disch := omega) [bits_setBits_other, bits_setBits_same, Nat.mod_eq_of_lt hatt, hw]
    · omega

theorem closeTag_history : 
    bits (closeTag w st att) 290 287 = (if st % 65536 = bits w 319 304 ∧ att ≠ bits w 281 278 then bits w 277 274 else bits w 290 287) ∧
    bits (closeTag w st att) 295 291 = (if st % 65536 = bits w 319 304 ∧ att ≠ bits w 281 278 then bits w 273 269 else bits w 295 291) := by
  have h1 := bits_mod_self w 277 274
  have h2 := bits_mod_self w 273 269
  unfold closeTag
  simp only [bne_iff_ne, Nat.mod_eq_of_lt hatt]
  split
  · rename_i hst
    simp (disch := omega) [bits_setBits_other, hst]
  · rename_i hst
    rw [Decidable.not_not] at hst
    split
    · rename_i ha
      rw [if_pos ⟨hst, ha⟩, if_pos ⟨hst, ha⟩]
      simp (disch := omega) only [bits_setBits_other, bits_setBits_same]
      exact ⟨h1, h2⟩
    · rename_i ha
      rw [if_neg (fun h => ha h.2), if_neg (fun h => ha h.2)]
      exact ⟨rfl, rfl⟩

omit hatt

/-- A production of another step keeps where its history begins. -/
theorem closeTag_start (h : st % 65536 ≠ bits w 319 304) :
    bits (closeTag w st att) 277 274 = bits w 290 287 ∧ bits (closeTag w st att) 273 269 = bits w 295 291 := by
  rw [closeTag, if_pos (by simpa using h)]
  have h1 := bits_mod_self w 290 287
  have h2 := bits_mod_self w 295 291
  simp (disch := omega) only [bits_setBits_other, bits_setBits_same]
  exact ⟨h1, h2⟩

theorem closeTag_above {m l : Nat} (hl : 319 < l) : bits (closeTag w st att) m l = bits w m l := by
  unfold closeTag
  split
  · simp (disch := omega) only [bits_setBits_other]
  · split
    · simp (disch := omega) only [bits_setBits_other]
    · rfl

end

/-- The history's head and count after a CLOSE. -/
theorem closeHist_history (w : Nat) :
    bits (closeHist w) 290 287 = (if bits w 415 384 = 0 then (bits w 290 287 + 1) % 16 else bits w 290 287) ∧
    bits (closeHist w) 295 291 = (if bits w 415 384 = 0 then min (bits w 295 291 + 1) 16 else bits w 295 291) := by
  unfold closeHist
  split
  · simp (disch := omega) only [bits_setBits_other, bits_setBits_same]
    omega
  · exact ⟨rfl, rfl⟩

/-- CUR_AMAX goes to the history's head alone. -/
theorem closeHist_entry (w : Nat) {i : Nat} (hi : i < 16) :
    histOf (closeHist w) i = if bits w 415 384 = 0 ∧ i = bits w 290 287 then bits w 447 416 else histOf w i := by
  have hamax := bits_mod_self w 447 416
  unfold closeHist histOf
  by_cases hc : bits w 415 384 = 0
  · rw [if_pos hc]
    simp (disch := omega) only [bits_setBits_other]
    by_cases hh : i = bits w 290 287
    · rw [if_pos ⟨hc, hh⟩, hh, bits_setBits_same _ _ _ _ (by omega)]
      rwa [show 32 * bits w 290 287 + 543 + 1 - (32 * bits w 290 287 + 512) = 447 + 1 - 416 by omega]
    · rw [if_neg fun h => hh h.2, bits_setBits_other _ _ _ _ _ _ (by omega) (by omega)]
  · rw [if_neg hc, if_neg fun h => hc h.1]

theorem closeHist_below (w : Nat) {m l : Nat} (h : m < 287 ∨ (295 < l ∧ m < 512)) : bits (closeHist w) m l = bits w m l := by
  unfold closeHist
  split
  · simp (disch := omega) only [bits_setBits_other]
  · rfl

/-- Settles O60: OPEN bit by bit; CLOSE through its parts, `closeTag`, `closeHist` and the scale. -/
theorem scaleRecordsFollowProductions : Obligations.ScaleRecordsFollowProductions := by
  refine ⟨fun w => ?_, fun w st att unit hatt => ?_⟩
  · refine ⟨?_, ?_, ?_, ?_, ?_, fun i hi => recOpen_testBit w hi⟩ <;> unfold recOpen <;>
      simp (disch := omega) [bits_setBits_other, bits_setBits_same]
  · obtain ⟨c, r, hunit, he⟩ := recClose_eq w st att unit
    have hfield {m l : Nat} (h : (268 < l ∧ m < 448) ∨ 511 < l) (hl : l ≤ m) :
        bits (recClose w st att unit) m l = bits (closeHist (closeTag w st att)) m l := by
      rw [he]
      simp (disch := omega) only [bits_setBits_other]
    obtain ⟨hstep, hattempt⟩ := closeTag_tag (w := w) (st := st) hatt
    obtain ⟨hhead, hcount⟩ := closeTag_history (w := w) (st := st) hatt
    obtain ⟨hhead', hcount'⟩ := closeHist_history (closeTag w st att)
    have hclean : bits (closeTag w st att) 415 384 = bits w 415 384 := closeTag_above (by omega)
    rw [hclean] at hhead' hcount'
    refine ⟨?_, ?_, ?_, ?_, fun i hi => ?_, fun hne => ⟨?_, ?_⟩, fun hu => ?_⟩
    · rw [hfield (by omega) (by omega), closeHist_below _ (by omega), hstep]
    · rw [hfield (by omega) (by omega), closeHist_below _ (by omega), hattempt]
    · rw [hfield (by omega) (by omega), hhead', hhead]
    · rw [hfield (by omega) (by omega), hcount', hcount]
    · rw [histOf, hfield (by omega) (by omega), ← histOf, closeHist_entry _ hi, hclean, hhead, histOf, closeTag_above (by omega),
        closeTag_above (by omega), ← histOf]
    · rw [hfield (by omega) (by omega), closeHist_below _ (by omega), (closeTag_start hne).1]
    · rw [hfield (by omega) (by omega), closeHist_below _ (by omega), (closeTag_start hne).2]
    · obtain ⟨hc, hr⟩ := hunit hu
      rw [he, hc, hr]
      simp (disch := omega) [bits_setBits_other, bits_setBits_same]

end Sys2Proof.Machine

namespace Sys2Proof.Machine

set_option Elab.async false

/-! ## Rounding -/

/-- `ilog2Q` is a floor: the rational lies below the next power of two. -/
theorem mul_lt_of_ilog2Q {n d a b : Nat} (hd : 0 < d) (h : (b : Int) - a = ilog2Q n d + 1) : n * 2 ^ a < d * 2 ^ b := by
  have hn2 : n < 2 ^ (Nat.log2 n + 1) := Nat.lt_log2_self
  have hd2 : 2 ^ Nat.log2 d ≤ d := Nat.log2_self_le (by omega)
  unfold ilog2Q at h
  extract_lets e ge at h
  have he : e = (Nat.log2 n : Int) - (Nat.log2 d : Int) := rfl
  by_cases hge : ge = true
  · rw [if_pos hge] at h
    have hab : Nat.log2 n + 1 + a = Nat.log2 d + b := by omega
    calc n * 2 ^ a < 2 ^ (Nat.log2 n + 1) * 2 ^ a := Nat.mul_lt_mul_of_pos_right hn2 (Nat.two_pow_pos a)
      _ = 2 ^ Nat.log2 d * 2 ^ b := by rw [← Nat.pow_add, hab, Nat.pow_add]
      _ ≤ d * 2 ^ b := Nat.mul_le_mul_right _ hd2
  · rw [if_neg hge] at h
    have hlow : ¬ (if 0 ≤ e then d * 2 ^ e.toNat ≤ n else d ≤ n * 2 ^ (-e).toNat) := by
      intro hc
      refine hge ?_
      unfold ge
      split at hc <;> simp_all
    by_cases hpos : 0 ≤ e
    · rw [if_pos hpos, Nat.not_le] at hlow
      have hb : b = e.toNat + a := by omega
      rw [hb, Nat.pow_add, ← Nat.mul_assoc]
      exact Nat.mul_lt_mul_of_pos_right hlow (Nat.two_pow_pos a)
    · rw [if_neg hpos, Nat.not_le] at hlow
      have ha : a = (-e).toNat + b := by omega
      rw [ha, Nat.pow_add, ← Nat.mul_assoc]
      exact Nat.mul_lt_mul_of_pos_right hlow (Nat.two_pow_pos b)

theorem rneDiv_le {n d m : Nat} (h : n < d * m) : rneDiv n d ≤ m := by
  have hq : n / d < m := Nat.div_lt_of_lt_mul h
  unfold rneDiv
  extract_lets q r
  split
  · omega
  · split
    · omega
    · split <;> omega

/-- A factor rounded to `p` bits lies below `2^p`. -/
theorem rneP_lt {p n d : Nat} {k : Int} (hp : 0 < p) (hd : 0 < d) : (rneP p n d k).1 < 2 ^ p := by
  have hle : rneAt n d k (ilog2Q n d + k - ((p : Int) - 1)) ≤ 2 ^ p := by
    unfold rneAt
    extract_lets s
    split
    · refine rneDiv_le (mul_lt_of_ilog2Q hd ?_)
      omega
    · refine rneDiv_le ?_
      rw [Nat.mul_assoc, ← Nat.pow_add]
      have := mul_lt_of_ilog2Q (n := n) (a := 0) (b := (-s).toNat + p) hd (by omega)
      rwa [Nat.pow_zero, Nat.mul_one] at this
  unfold rneP
  extract_lets q m
  split
  · exact Nat.pow_lt_pow_right (by decide) (by omega)
  · exact Nat.lt_of_le_of_ne hle ‹_›

/-- A packed result has a sign, an exponent field and a mantissa, which is 0 where the exponent field is 0 or 255. -/
theorem packRnd_fields (mant : Nat) (neg : Bool) (n : Nat) {d : Nat} (k : Int) (hd : 0 < d) :
    ∃ e m, (packRnd mant neg n d k).1 = b2n neg * 2 ^ (mant + 8) + e * 2 ^ mant + m ∧ e ≤ 255 ∧ m < 2 ^ mant ∧ (e = 0 ∨ e = 255 → m = 0) :=
        by
  have hpos := Nat.two_pow_pos mant
  unfold packRnd
  extract_lets sgn r e
  split
  · exact ⟨0, 0, by simp [sgn], by omega, hpos, fun _ => rfl⟩
  · split
    · exact ⟨0, 0, by simp [sgn], by omega, hpos, fun _ => rfl⟩
    · split
      · exact ⟨255, 0, by simp [sgn], by omega, hpos, fun _ => rfl⟩
      · have hlt : r.1 < 2 ^ (mant + 1) := rneP_lt (by omega) hd
        rw [Nat.pow_succ] at hlt
        exact ⟨(e + 127).toNat, r.1 - 2 ^ mant, rfl, by omega, by omega, by omega⟩

/-! ## Canonical results -/

/-- An FP32 result as R43 and R63 ask: a NaN is the canonical one, and none is subnormal. -/
def Tidy32 (r : Word) : Prop := (isNaN32 r = true → r = 0x7FC00000) ∧ (bits r.toNat 30 23 = 0 → bits r.toNat 22 0 = 0)

theorem nan32_tidy : Tidy32 nan32 := by unfold Tidy32; decide

theorem inf32_tidy (s : Bool) : Tidy32 (inf32 s) := by unfold Tidy32; cases s <;> decide

theorem zero32_tidy (s : Bool) : Tidy32 (zero32 s) := by unfold Tidy32; cases s <;> decide

theorem wrQ32_tidy (neg : Bool) (n : Nat) {d : Nat} (k : Int) (hd : 0 < d) : Tidy32 (wrQ32 neg n d k).1 := by
  obtain ⟨e, m, hval, he, hm, hzero⟩ := packRnd_fields 23 neg n k hd
  have hneg : b2n neg ≤ 1 := by cases neg <;> decide
  have hword : (wrQ32 neg n d k).1.toNat = b2n neg * 2 ^ 31 + e * 2 ^ 23 + m := by
    show (BitVec.ofNat 32 (packRnd 23 neg n d k).1).toNat = _
    rw [BitVec.toNat_ofNat, hval, Nat.mod_eq_of_lt (by omega)]
  have hexp : bits (wrQ32 neg n d k).1.toNat 30 23 = e := by rw [hword, bits]; omega
  have hman : bits (wrQ32 neg n d k).1.toNat 22 0 = m := by rw [hword, bits]; omega
  refine ⟨fun h => ?_, fun h => ?_⟩
  · simp only [isNaN32, hexp, hman, Bool.and_eq_true, beq_iff_eq, bne_iff_ne] at h
    exact absurd (hzero (.inr h.1)) h.2
  · rw [hexp] at h
    rw [hman, hzero (.inl h)]

theorem wr32_tidy (x : Num) : Tidy32 (wr32 x).1 := by
  cases x with
  | nan => exact nan32_tidy
  | inf s => exact inf32_tidy s
  | fin s m e => exact wrQ32_tidy s m e Nat.one_pos

theorem flush32_tidy (a : Word) : Tidy32 (flush32 a) := by
  unfold flush32
  split
  · exact nan32_tidy
  · split
    · exact zero32_tidy _
    · exact ⟨fun h => absurd h ‹_›, fun h => absurd h ‹_›⟩

theorem div32_tidy (a b : Word) : Tidy32 (div32 a b).1 := by
  unfold div32
  split
  · exact nan32_tidy
  · exact nan32_tidy
  · exact nan32_tidy
  · exact inf32_tidy _
  · exact zero32_tidy _
  · split
    · split
      · exact nan32_tidy
      · exact inf32_tidy _
    · exact wrQ32_tidy _ _ _ (by omega)

theorem sqrt32_tidy (a : Word) : Tidy32 (sqrt32 a).1 := by
  unfold sqrt32
  split
  · exact nan32_tidy
  · split
    · exact nan32_tidy
    · exact inf32_tidy _
  · split
    · exact zero32_tidy _
    · split
      · exact nan32_tidy
      · exact wr32_tidy _

theorem minMax_tidy (c : Prop) [Decidable c] (a b : Word) :
    Tidy32 (if isNaN32 a then (if isNaN32 b then nan32 else flush32 b) else if isNaN32 b then flush32 a else if c then flush32 b else
        flush32 a) := by
  split
  · split
    · exact nan32_tidy
    · exact flush32_tidy _
  · split
    · exact flush32_tidy _
    · split <;> exact flush32_tidy _

theorem max32_fst (a b : Word) : (max32 a b).1 =
    if isNaN32 a then (if isNaN32 b then nan32 else flush32 b) else if isNaN32 b then flush32 a else if key32 a < key32 b then flush32 b
      else flush32 a := by
  rw [max32]
  cases isNaN32 a
  · cases isNaN32 b <;> rfl
  · rfl

theorem min32_fst (a b : Word) : (min32 a b).1 =
    if isNaN32 a then (if isNaN32 b then nan32 else flush32 b) else if isNaN32 b then flush32 a else if key32 b < key32 a then flush32 b
      else flush32 a := by
  rw [min32]
  cases isNaN32 a
  · cases isNaN32 b <;> rfl
  · rfl

theorem max32_tidy (a b : Word) : Tidy32 (max32 a b).1 := by
  have := minMax_tidy (key32 a < key32 b) a b
  rwa [max32_fst]

theorem min32_tidy (a b : Word) : Tidy32 (min32 a b).1 := by
  have := minMax_tidy (key32 b < key32 a) a b
  rwa [min32_fst]

theorem neg32_tidy (a : Word) : Tidy32 (neg32 a) := by
  unfold neg32
  split
  · exact nan32_tidy
  · exact wr32_tidy _

theorem abs32_tidy (a : Word) : Tidy32 (abs32 a) := by
  unfold abs32
  split
  · exact nan32_tidy
  · split
    · exact nan32_tidy
    · exact inf32_tidy _
    · exact wr32_tidy _

/-- BF16 results: the sign, exponent and mantissa of `packRnd_fields`, of 7 bits. -/
theorem toBf16_tidy (w : Word) : (bits (toBf16 w).1 14 7 = 255 → bits (toBf16 w).1 6 0 ≠ 0 → (toBf16 w).1 = 0x7FC0) ∧
    (bits (toBf16 w).1 14 7 = 0 → bits (toBf16 w).1 6 0 = 0) := by
  unfold toBf16
  split
  · exact ⟨fun _ _ => rfl, fun h => absurd h (by dsimp only; decide)⟩
  · rename_i s _
    dsimp only
    cases s <;> decide
  · rename_i s m x _
    obtain ⟨e, f, hval, he, hf, hzero⟩ := packRnd_fields 7 s m x Nat.one_pos
    have hneg : b2n s ≤ 1 := by cases s <;> decide
    have hexp : bits (packRnd 7 s m 1 x).1 14 7 = e := by rw [hval, bits]; omega
    have hman : bits (packRnd 7 s m 1 x).1 6 0 = f := by rw [hval, bits]; omega
    dsimp only
    rw [hexp, hman]
    exact ⟨fun h hne => absurd (hzero (.inr h)) hne, fun h => hzero (.inl h)⟩

/-- Settles O59: every operation ends in `wr32`, `wrQ32`, `flush32` or a constant, each of which is tidy. -/
theorem resultsAreCanonical : Obligations.ResultsAreCanonical := by
  refine ⟨fun a b c r hr => ?_, toBf16_tidy, rfl, rfl, rfl, rfl⟩
  have all : ∀ x ∈ [(add32 a b).1, (sub32 a b).1, (mul32 a b).1, (div32 a b).1, (sqrt32 a).1, (fma32 a b c).1, (fnma32 a b c).1,
      (max32 a b).1, (min32 a b).1, neg32 a, abs32 a], Tidy32 x := by
    simp only [List.forall_mem_cons, List.not_mem_nil, false_imp_iff, implies_true, and_true]
    exact ⟨wr32_tidy _, wr32_tidy _, wr32_tidy _, div32_tidy a b, sqrt32_tidy a, wr32_tidy _, wr32_tidy _, max32_tidy a b, min32_tidy a b,
      neg32_tidy a, abs32_tidy a⟩
  exact all r hr

end Sys2Proof.Machine

namespace Sys2Proof.Machine

set_option Elab.async false

/-! ## The Graders -/

@[simp] theorem setSlot_slot_same (s : State) (r n : Nat) (x : GSlot) : spFind ((setSlot s r n x).grd r).slots n = some x := by
  simp [setSlot, spFind_put_same]

@[simp] theorem setSlot_run (s : State) (r n : Nat) (x : GSlot) : ((setSlot s r n x).grd r).run = (s.grd r).run := by
  simp [setSlot]

/-- One step of the choice of an element with the least value, the earliest among equals. -/
def keepLeast {α : Type} (f : α → Nat) (o : Option α) (e : α) : Option α :=
  match o with
  | none => some e
  | some y => if f e < f y then some e else some y

theorem foldl_keepLeast {α : Type} (f : α → Nat) (l : List α) (y : α) :
    ∃ z, l.foldl (keepLeast f) (some y) = some z ∧ z ∈ y :: l ∧ ∀ e ∈ y :: l, f z ≤ f e := by
  induction l generalizing y with
  | nil => exact ⟨y, rfl, by simp, by simp⟩
  | cons a l ih =>
    have hstep : keepLeast f (some y) a = some (if f a < f y then a else y) := by
      unfold keepLeast; dsimp only; split <;> rfl
    obtain ⟨z, hz, hmem, hle⟩ := ih (if f a < f y then a else y)
    have hfirst := hle _ List.mem_cons_self
    refine ⟨z, by rw [List.foldl_cons, hstep, hz], ?_, fun e he => ?_⟩
    · rcases List.mem_cons.mp hmem with rfl | h
      · split <;> simp
      · simp [h]
    · rcases List.mem_cons.mp he with rfl | he
      · split at hfirst <;> omega
      · rcases List.mem_cons.mp he with rfl | he
        · split at hfirst <;> omega
        · exact hle e (List.mem_cons_of_mem _ he)

/-- Some queued solve is next where one is eligible: one of the least rank. -/
theorem nextSolve_spec {s : State} {r : Nat} (h : ∃ e ∈ (s.grd r).slots, e.2.queued.isSome = true ∧ e.2.feeding = false) :
    ∃ n x, nextSolve s r = some (n, x) ∧ (n, x) ∈ (s.grd r).slots ∧ x.queued.isSome = true ∧ x.feeding = false ∧
      ∀ e ∈ (s.grd r).slots, e.2.queued.isSome = true → e.2.feeding = false → ageOrder s x ≤ ageOrder s e.2 := by
  have hdef : nextSolve s r = ((s.grd r).slots.filter (fun e => e.2.queued.isSome && !e.2.feeding)).foldl
      (keepLeast fun e => ageOrder s e.2) none := by
    unfold nextSolve
    congr 1
    funext o e
    cases o <;> rfl
  have hmem : ∀ e : Nat × GSlot, e ∈ (s.grd r).slots.filter (fun e => e.2.queued.isSome && !e.2.feeding) ↔
      e ∈ (s.grd r).slots ∧ e.2.queued.isSome = true ∧ e.2.feeding = false := by
    intro e; simp [List.mem_filter]
  obtain ⟨e, he⟩ := h
  rw [hdef]
  cases hl : (s.grd r).slots.filter (fun e => e.2.queued.isSome && !e.2.feeding) with
  | nil => rw [← hmem, hl] at he; simp at he
  | cons a l =>
    obtain ⟨⟨n, x⟩, hz, hin, hle⟩ := foldl_keepLeast (fun e : Nat × GSlot => ageOrder s e.2) l a
    rw [← hl] at hin hle
    obtain ⟨hx, hq, hf⟩ := (hmem _).mp hin
    exact ⟨n, x, hz, hx, hq, hf, fun e he hq hf => hle e ((hmem e).mpr ⟨he, hq, hf⟩)⟩

theorem feedStart_run (s : State) (r n : Nat) (x : GSlot) : ((feedStart s r n x).grd r).run = (s.grd r).run := by
  unfold feedStart
  rw [setSlot_run, stBytes_frame.get_grd (by decide)]

theorem feedStart_slot (s : State) (r n : Nat) (x : GSlot) : ∃ y, spFind ((feedStart s r n x).grd r).slots n = some y ∧
    y.feedHeld = false ∧ y.pub = x.pub := by
  unfold feedStart
  exact ⟨_, setSlot_slot_same .., rfl, rfl⟩

theorem solveAccept_run (s : State) (r n : Nat) (x : GSlot) : ((solveAccept s r n x).grd r).run = (s.grd r).run := by
  unfold solveAccept
  exact setSlot_run ..

theorem solveAccept_slot (s : State) (r n : Nat) (x : GSlot) : ∃ y, spFind ((solveAccept s r n x).grd r).slots n = some y ∧
    y.pub = x.pub := by
  unfold solveAccept
  exact ⟨_, setSlot_slot_same .., rfl⟩

/-- An ended solve leaves no solve running, its outcome pending and no feed held. -/
theorem solveEnd_spec (s : State) (r n : Nat) (x : GSlot) (q : Pub) : ((solveEnd s r n x q).grd r).run = none ∧
    ∃ y, spFind ((solveEnd s r n x q).grd r).slots n = some y ∧ y.feedHeld = false ∧ y.pub = some q := by
  unfold solveEnd
  extract_lets _ s1 y s2 s3 z
  have hrun2 : (s2.grd r).run = none := by simp [s2, s1]
  have hslot2 : spFind (s2.grd r).slots n = some y := setSlot_slot_same ..
  have h3 : (s3.grd r).run = none ∧ ∃ v, spFind (s3.grd r).slots n = some v ∧ v.pub = some q := by
    unfold s3
    split
    · obtain ⟨v, hv, hpub⟩ := solveAccept_slot s2 r n y
      exact ⟨(solveAccept_run ..).trans hrun2, v, hv, hpub⟩
    · exact ⟨hrun2, y, hslot2, rfl⟩
  obtain ⟨hrun3, v, hv, hpub⟩ := h3
  have hz : z = v := by simp [z, hv]
  subst hz
  split
  · obtain ⟨w, hw, hheld, hwpub⟩ := feedStart_slot s3 r n z
    exact ⟨(feedStart_run ..).trans hrun3, w, hw, hheld, hwpub.trans hpub⟩
  · rename_i hheld
    exact ⟨hrun3, z, hv, Bool.eq_false_iff.mpr hheld, hpub⟩

/-- What a solve publishes at its end: SINGULAR, or an outcome with the deadline's mark. -/
theorem solveFinish_spec (s : State) (r n : Nat) (x : GSlot) (news : List (Nat × BlkOut)) (dropped : List BlkOut) (carry : List Nat)
    (dl : Bool) : ((solveFinish s r n x news dropped carry dl).grd r).run = none ∧
    ∃ y q, spFind ((solveFinish s r n x news dropped carry dl).grd r).slots n = some y ∧ y.feedHeld = false ∧ y.pub = some q ∧
      (q.singular = false → q.deadline = dl) := by
  unfold solveFinish
  extract_lets os s1 h cur w s2 m kept
  split
  · obtain ⟨hrun, y, hy, hheld, hpub⟩ := solveEnd_spec (s1.count (kGrdPerf r 3) 1) r n x pubSingular
    exact ⟨hrun, y, _, hy, hheld, hpub, nofun⟩
  · obtain ⟨hrun, y, hy, hheld, hpub⟩ := solveEnd_spec (m.2.count (kGrdPerf r 6) (w.2.map (·.ovf)).sum) r n x
      { singular := false, deadline := dl, mismatch := (s.grd r).runMism, carried := !carry.isEmpty, resid := m.1
        sig := slotSig x.prob, figs := w.2 ++ kept }
    exact ⟨hrun, y, _, hy, hheld, hpub, fun _ => rfl⟩

theorem guardReads_of_clean {s : State} (h : s.back.poison = []) (d : Nat) (rs : List (Nat × Nat)) (t : State) :
    guardReads s d rs t = t := (guardReads_cases s t d rs).resolve_right fun k => k.1 h

/-- Settles O50: a feed leaves its slot by `setSlot_slot_same`, the next solve is the one of `nextSolve_spec`, and both ends of a solve are
`solveFinish_spec`. -/
theorem gradersRun : Obligations.GradersRun := by
  refine ⟨fun s r n rep torn p x hx hr hup hal hclean hfeed => ?_, fun s r hr hup hal hrun hsome => ?_,
    fun s r n cycles wait p x hrun hclean => ?_, fun s r n block attempt iter cycles wait p x hrun hclean hdue ha hb => ?_⟩
  · refine ⟨_, rfl, ?_⟩
    rw [hx]
    dsimp only
    rw [if_pos (by simp [hr, hup, hal, hfeed]), guardReads_of_clean hclean]
    have hkeep : Frame [.ro, .ctxs, .blks, .mem, .binds, .back] s
        (applyMemEvents ((feedSlot r torn s x).count (kGrdPerf r 0xA) rep) p) :=
      applyMemEvents_frame.after (State.count_frame.after feedSlot_frame)
    exact ⟨setSlot_slot_same .., by rw [setSlot_run, hkeep.get_grd (by decide)], hkeep.dirs (by decide), hkeep.progs (by decide)⟩
  · obtain ⟨n, x, hnext, hmem, hq, hf, hleast⟩ := nextSolve_spec hsome
    refine ⟨_, n, x, rfl, hmem, hq, hf, ?_⟩
    rw [if_neg (by simp [hr, hup, hal, hrun]), hnext]
    dsimp only
    rw [State.countIf_frame.get_grd (by decide), count_get_grd, setGrd_grd_same]
    refine ⟨rfl, hleast, setSlot_slot_same .., ?_, ?_⟩
    · simp only [Bool.not_eq_false', Bool.and_eq_true, Bool.not_eq_true', Bool.and_eq_false_iff, bne_eq_false_iff_eq]
      rintro ⟨⟨⟨hwarm, hbit⟩, hmis⟩, hcold⟩
      exact ⟨hwarm, hcold, hbit, by simpa [hwarm, hbit] using hmis⟩
    · rw [State.countIf_frame.mem (by decide)]
      rfl
  · obtain ⟨hend, y, q, hy, hheld, hpub, hdl⟩ := solveFinish_spec (solvePerf s r cycles wait p) r n x (solveBlks s r x 0 x.prob.blks) [] []
      (deadlineDue s r x)
    refine ⟨_, y, q, rfl, ?_⟩
    rw [hrun]
    dsimp only
    rw [guardReads_of_clean hclean]
    exact ⟨hend, hy, hheld, hpub, hdl⟩
  · have hgo : ¬ (!deadlineDue s r x || decide (attempt > 3) || decide (block > x.prob.blks.length)) = true := by
      simp [hdue, ha, hb]
    let parts := stopParts s r x block attempt iter
    obtain ⟨hend, y, q, hy, -, hpub, hdl⟩ := solveFinish_spec (solvePerf s r cycles wait p) r n x parts.1 parts.2
      (x.prob.blks.drop parts.1.length) true
    refine ⟨_, y, q, rfl, ?_⟩
    rw [hrun]
    dsimp only
    rw [if_neg hgo, guardReads_of_clean hclean]
    exact ⟨hend, hy, hpub, hdl⟩

end Sys2Proof.Machine

namespace Sys2Proof.Machine

set_option Elab.async false

/-! ## Input, power and clocks -/

theorem TakeImg.torn_ok (x : TakeImg) : x.torn.ok = false := by
  simp only [TakeImg.ok, TakeImg.torn, beq_eq_false_iff_ne]
  intro h
  have hone := congrArg (takeCrc x.num x.vals ^^^ ·) h
  simp only [← Nat.xor_assoc, Nat.xor_self, Nat.zero_xor] at hone
  exact absurd hone (by decide)

theorem takesKept_of_writing (m : Mgt) (h : m.nvWrite.isSome = true) :
    (takesKept m).nv0.ok = false ∧ (m.nv0.ok = true → (takesKept m).nv1 = m.nv0) := by
  obtain ⟨x, hx⟩ := Option.isSome_iff_exists.mp h
  unfold takesKept
  rw [hx]
  exact ⟨x.torn_ok, fun hok => by simp [putTake, hok]⟩

theorem monoKept_of_unraised (n : Nat) (c : Sec) (h : c.floorRaised = false ∨ c.phase ≠ .secure) : monoKept n c = c.mono1 := by
  unfold monoKept
  rw [if_neg]
  rcases h with h | h <;> simp [h]

/-- Settles O10: each row is its branch of the model; what survives a loss of power is in `coldOff`, by `takesKept_of_writing` and
`monoKept_of_unraised` for what was being written. -/
theorem supplyEventsAct : Obligations.SupplyEventsAct := by
  refine ⟨fun s h => ?_, fun s c hc => ⟨coldOff s, ?_, rfl, rfl, rfl, rfl, rfl, rfl, rfl, rfl, rfl, rfl, fun hw => ?_,
    takesKept_of_writing s.mgt, rfl, monoKept_of_unraised s.free s.sec, rfl, rfl, rfl, rfl⟩, fun s mv hs hlow hhigh => ?_, fun s hs => ?_,
    fun s us hs hus => ?_, fun s hs hlow => ?_, fun s hs => ?_⟩
  · show execPowerUp s = _
    simp [execPowerUp, h]
  · rcases hc with rfl | rfl <;> rfl
  · show (takesKept s.mgt).nv0 = s.mgt.nv0 ∧ (takesKept s.mgt).nv1 = s.mgt.nv1
    unfold takesKept
    rw [hw]
    exact ⟨rfl, rfl⟩
  · refine ⟨{ dataLost s with pwr := { (dataLost s).pwr with ov := true, coldWait := true } }, (?_ : execOvervoltage mv s = _), rfl, rfl,
      rfl, rfl, rfl, rfl, rfl⟩
    unfold execOvervoltage
    rw [if_neg (by omega), if_pos (by simp [hlow, hs])]
  · refine ⟨{ dataLost s with pwr := { (dataLost s).pwr with tripped := true, coldWait := true } }, (?_ : execThermalTrip s = _), rfl,
      rfl, rfl, rfl, rfl, rfl, rfl⟩
    unfold execThermalTrip
    rw [if_neg (by simp [hs])]
  · show execInputInterruption us s = _
    simp [execInputInterruption, hs, hus]
  · show execInputLow true s = _
    simp [execInputLow, hs, hlow, State.countIf]
  · show execInputLow false s = _
    simp [execInputLow, hs, State.countIf]

/-- A state that differs in its counters alone, written out. -/
theorem Frame.eq_ro {s t : State} (g : Frame [.ro] s t) : t = { s with ro := t.ro } := g.eq.trans rfl

/-- The decision of R402 in its four cases. -/
theorem governor_cases (limit hyst n low : Nat) (p : Word) :
    (lt32 (f32 limit) p = true → governor limit hyst n low p = (max (n - 1) 28, 0)) ∧
    (lt32 (f32 limit) p = false → lt32 p (f32 (limit - hyst)) = true → low + 1 = 10 → governor limit hyst n low p = (min (n + 1) 56, 0)) ∧
    (lt32 (f32 limit) p = false → lt32 p (f32 (limit - hyst)) = true → low + 1 ≠ 10 → governor limit hyst n low p = (n, low + 1)) ∧
    (lt32 (f32 limit) p = false → lt32 p (f32 (limit - hyst)) = false → governor limit hyst n low p = (n, 0)) := by
  unfold governor
  refine ⟨fun h => by simp [h], fun h k hl => by simp [h, k, hl], fun h k hl => ?_, fun h k => by simp [h, k]⟩
  rw [if_neg (by simp [h]), if_pos k, if_neg hl]

theorem thermal_limit (throttle n : Nat) {t : Word} (hn : isNaN32 t = false) (h : lt32 t tjMax = false) : thermal throttle n t = 28 := by
  simp [thermal, hn, h]

theorem thermal_down (throttle n : Nat) {t : Word} (h : lt32 t tjMax = true) (hd : lt32 (f32 throttle) t = true) :
    thermal throttle n t = max (n - 2) 28 := by
  simp [thermal, h, hd]

theorem thermal_up (throttle n : Nat) {t : Word} (h : lt32 t tjMax = true) (hd : lt32 (f32 throttle) t = false)
    (hu : lt32 t (f32 (throttle - 3)) = true) : thermal throttle n t = min (n + 1) 56 := by
  simp [thermal, h, hd, hu]

/-- Settles O11: the rows are their branches, by the cases of `governor` and `thermal`; what they count is in the counters. -/
theorem stepsAndClocksFollowTheirInputs : Obligations.StepsAndClocksFollowTheirInputs := by
  refine ⟨fun s p u i h => ?_, fun s h => ?_, fun s t0 t1 t2 t3 h => ?_, fun s t0 t1 t2 t3 h hn hlim => ?_,
    fun s b hb hidle hgate hoff => ?_, fun s b ticks hb hoff hramp hfirst => ?_⟩
  · refine ⟨_, rfl, ?_⟩
    rw [if_neg (by simp [h])]
    extract_lets g _ s1
    have hro : Frame [.ro] s1 (((s1.countIf (g.1 < s.pwr.nGov) (kPwrCnt 0)).countIf (s.pwr.nGov < g.1) (kPwrCnt 1)).countIf
        (stepInForce s1 < 56) (kPwrCnt 3)) := State.countIf_frame.after (State.countIf_frame.after State.countIf_frame)
    rw [hro.pwr (by decide)]
    obtain ⟨hdown, hup, hwait, hband⟩ := governor_cases (pwrLimit s) (pwrHyst s) s.pwr.nGov s.pwr.lowCount p
    refine ⟨fun a => ?_, fun a b c => ?_, fun a b c => ?_, fun a b => ?_, hro.eq_ro⟩
    · simp [s1, g, hdown a]
    · simp [s1, g, hup a b c]
    · simp [s1, g, hwait a b c]
    · simp [s1, g, hband a b]
  · show execGovernorFastPath s = _
    simp [execGovernorFastPath, h]
  · refine ⟨_, rfl, ?_⟩
    rw [if_neg (by simp [h])]
    extract_lets s1 n _ s2
    have hro : Frame [.ro] s2 ((s2.countIf (n < s.pwr.nTherm && !s1.pwr.tjLimit) (kPwrCnt 4)).countIf
        (n < s.pwr.nTherm && s1.pwr.tjLimit) (kPwrCnt 5)) := State.countIf_frame.after State.countIf_frame
    rw [hro.pwr (by decide)]
    have hlimit : s2.pwr.tjLimit = (!lt32 (hottest t0 t1 t2 t3) tjMax && !isNaN32 (hottest t0 t1 t2 t3)) := rfl
    rw [hlimit]
    refine ⟨rfl, fun a b => ⟨thermal_limit _ _ a b, ?_⟩, fun a b => ⟨thermal_down _ _ a b, ?_⟩,
      fun a b c => ⟨thermal_up _ _ a b c, ?_⟩, hro.eq_ro⟩
    · simp [a, b]
    · simp [a]
    · simp [a]
  · refine ⟨_, rfl, ?_⟩
    rw [if_neg (by simp [h])]
    extract_lets s1
    rw [if_pos (by simp [s1, setTj, hn, hlim])]
    have hro : Frame [.ro] { s1 with pwr := { s1.pwr with nTherm := 28 } }
        (({ s1 with pwr := { s1.pwr with nTherm := 28 } } : State).countIf (28 < s.pwr.nTherm) (kPwrCnt 5)) := State.countIf_frame
    rw [hro.pwr (by decide)]
    have hlimit : s1.pwr.tjLimit = true := by simp [s1, setTj, hn, hlim]
    refine ⟨rfl, hlimit, hro.eq_ro.trans ?_⟩
    rw [← hlimit]
    rfl
  · show execBlockClockStop b s = _
    unfold execBlockClockStop
    rw [if_pos (by simp [hb, hidle, hgate, hoff])]
  · show execRampTurn b ticks s = _
    unfold execRampTurn
    rw [if_pos (by simpa [hb, hoff, hramp] using hfirst)]

/-- Settles O12: the rows are their branches; a chip-level fault by `chipFault_facts`. -/
theorem referenceClocksAct : Obligations.ReferenceClocksAct := by
  refine ⟨fun s h => ?_, fun s h => ?_, fun s => rfl, fun s href hperst hlock hrails => ?_, fun s full href hno => ?_, fun s full href =>
      ?_,
    fun s hs href hchip => ?_, fun s hs href hchip => ?_, fun s hno => ?_⟩
  · show execPcieRefclkLoss s = _
    simp [execPcieRefclkLoss, h, linkDown]
  · show execPcieRefclkLoss s = _
    simp [execPcieRefclkLoss, h]
  · constructor
    · show execPcieRefclkReturn true s = _
      simp [execPcieRefclkReturn, href, hperst, hlock, hrails, linkTrains, State.countIf]
    · show execPcieRefclkReturn false s = _
      simp [execPcieRefclkReturn, href, hperst, hlock, hrails, linkTrains, State.countIf]
  · show execPcieRefclkReturn full s = _
    unfold execPcieRefclkReturn
    rw [if_neg (by simp [href])]
    extract_lets s1
    rw [if_neg]
    rcases hno with h | h | h <;> simp [h]
  · show execPcieRefclkReturn full s = _
    simp [execPcieRefclkReturn, href]
  · obtain ⟨hhead, hcause, -, hsome, hregs⟩ := chipFault_facts { s with pwr := { s.pwr with refclk := false } } 2 4
      { level := 3, action := 4, cause := 0x0C } (by simp [inChipReset, hchip])
    refine ⟨_, (?_ : execRefclk100Loss s = _), ?_, hsome, hhead, hcause, hregs⟩
    · unfold execRefclk100Loss
      rw [if_neg (by simp [hs, href])]
    · exact chipFault_frame.pwr (by decide)
  · show execRefclk100Loss s = _
    unfold execRefclk100Loss
    rw [if_neg (by simp [hs, href])]
    simp [chipFault, inChipReset, hchip]
  · show execRefclk100Loss s = _
    unfold execRefclk100Loss
    rw [if_pos]
    rcases hno with h | h <;> simp [h]

end Sys2Proof.Machine

namespace Sys2Proof.Machine

set_option Elab.async false

/-! ## One element of a list of updates -/

/-- What an update reads at its own element and writes there alone, is as that element's update leaves it: no other one changes it. `P` is
    what
every update keeps. -/
theorem State.each_at {α β : Type} {P : State → Prop} (get : State → β) (f : State → α → State) (b : α) (l : List α) (hl : l.Nodup)
    (hb : b ∈ l) (hP : ∀ t c, P t → P (f t c)) (hother : ∀ t c, P t → c ≠ b → get (f t c) = get t) (s : State) (hs : P s) :
    ∃ u, P u ∧ get u = get s ∧ get (s.each l f) = get (f u b) := by
  have hsame : ∀ (m : List α), b ∉ m → ∀ t, P t → get (t.each m f) = get t := by
    intro m
    induction m with
    | nil => exact fun _ _ _ => rfl
    | cons c m ih =>
      intro hm t ht
      obtain ⟨hne, hm⟩ := not_or.mp fun h => hm (List.mem_cons.mpr h)
      exact (ih hm (f t c) (hP t c ht)).trans (hother t c ht (Ne.symm hne))
  induction l generalizing s with
  | nil => cases hb
  | cons c l ih =>
    obtain ⟨hc, hl⟩ := List.nodup_cons.mp hl
    rcases List.mem_cons.mp hb with rfl | hb
    · exact ⟨s, hs, rfl, hsame l hc (f s b) (hP s b hs)⟩
    · obtain ⟨u, hu, hget, heach⟩ := ih hl hb (f s c) (hP s c hs)
      exact ⟨u, hu, hget.trans (hother s c hs fun h => hc (h ▸ hb)), heach⟩

/-- What none of a list's updates writes reads as before. -/
theorem State.each_same_of_mem {α β : Type} (get : State → β) (f : State → α → State) (l : List α)
    (hf : ∀ t, ∀ c ∈ l, get (f t c) = get t) (s : State) : get (s.each l f) = get s := by
  induction l generalizing s with
  | nil => rfl
  | cons c l ih =>
    exact (ih (fun t d hd => hf t d (List.mem_cons_of_mem _ hd)) (f s c)).trans (hf s c List.mem_cons_self)

/-! ## Boot -/

theorem bootRom_halted (c : Sec) (otp rec : Bool) (h : otp = false ∨ (c.mono0.valid = false ∧ c.mono1.valid = false)) :
    bootRom c ⟨true, otp⟩ rec = { c with phase := .halted } := by
  unfold bootRom
  rw [if_neg (by simp), if_pos]
  rcases h with h | ⟨h0, h1⟩
  · simp [h]
  · simp [h0, h1]

theorem bootRom_recovery (c : Sec) (h : c.mono0.valid = true ∨ c.mono1.valid = true) :
    bootRom c ⟨true, true⟩ true = { c with phase := .recovery, recovPin := true } := by
  unfold bootRom
  rw [if_neg (by simp), if_neg (by rcases h with h | h <;> simp [h]), if_pos rfl]

theorem bootFrom_sec (s : State) (c : Sec) : (bootFrom s c).sec = c := by
  unfold bootFrom
  extract_lets s1 _ s2
  split
  · have hload : Frame [.mgt] s2 (s2.each allUnits loadUnit) := State.each_frame fun _ _ => loadUnit_frame
    exact (State.setRo_frame.sec (by decide)).trans (hload.sec (by decide))
  · rfl

theorem bootFrom_mgt_of_recovery (s : State) {c : Sec} (h : c.phase = .recovery) : (bootFrom s c).mgt = { s.mgt with phyOn := true } := by
  unfold bootFrom
  extract_lets s1
  rw [if_neg (by simp [booted, h]), h]
  rfl

/-- At always-on power-good the supply is on, the tick count is 0 and the security unit is as the ROM leaves it. -/
theorem powerGood_facts (s : State) (strap : Nat) (tests : BootTests) (rec : Bool) (cells : List CellBoot) (h : s.pwr.supply = .charging) :
    ∃ t, exec (.alwaysOnPowerGood strap tests rec cells) s = .next t ∧ t.pwr = { s.pwr with supply := .on } ∧ t.ticks = 0 ∧
      t.sec = bootRom { s.sec with strap := strap % 8 } tests rec ∧ t.mem = s.mem ∧ t.cp = s.cp ∧ t.flt = s.flt ∧
      ∀ c, bootRom { s.sec with strap := strap % 8 } tests rec = c → c.phase = .recovery → t.mgt = { s.mgt with phyOn := true } := by
  refine ⟨_, rfl, ?_⟩
  rw [if_neg (by simp [h])]
  generalize hs0 : ({ s with ticks := 0, pwr := { s.pwr with supply := .on } } : State) = s0
  generalize hrom : bootRom { s.sec with strap := strap % 8 } tests rec = c
  have hcells : Frame [.ro, .blks] s0 (bootCells s0 cells) := bootCells_frame
  have hall : Frame [.ro, .blks, .sec, .mgt] s0 (bootFrom (bootCells s0 cells) c) :=
    bootFrom_frame.after (hcells.mono (by decide))
  subst hs0
  have heq := hall.eq
  refine ⟨hall.pwr (by decide), hall.ticks (by decide), bootFrom_sec .., hall.mem (by decide), ?_, ?_, ?_⟩
  · exact (congrArg State.cp heq).trans rfl
  · exact (congrArg State.flt heq).trans rfl
  · rintro _ rfl hphase
    rw [bootFrom_mgt_of_recovery _ hphase, hcells.mgt (by decide)]

theorem laneKey_inj {a b : Nat} (h : laneKey a = laneKey b) : a = b := by
  unfold laneKey key addrKey at h
  omega

/-- One lane of `lanesOff`. -/
def laneOff (p : Nat) (s : State) (l : Nat) : State :=
  if s.ro? (laneKey (4 * p + l)) = 2 then s else s.setRo (laneKey (4 * p + l)) 3

theorem lanesOff_eq (s : State) (p : Nat) : lanesOff s p = s.each (List.range 4) (laneOff p) := rfl

theorem laneOff_same (s : State) (p l : Nat) : (laneOff p s l).ro? (laneKey (4 * p + l)) =
    if s.ro? (laneKey (4 * p + l)) = 2 then 2 else 3 := by
  unfold laneOff
  split
  · assumption
  · exact setRo_ro_same ..

theorem laneOff_other (s : State) {p l n : Nat} (h : n ≠ 4 * p + l) : (laneOff p s l).ro? (laneKey n) = s.ro? (laneKey n) := by
  unfold laneOff
  split
  · rfl
  · exact setRo_ro_other _ _ fun hk => h (laneKey_inj hk)

theorem lanesOff_same (s : State) (p l : Nat) (hl : l < 4) : (lanesOff s p).ro? (laneKey (4 * p + l)) =
    if s.ro? (laneKey (4 * p + l)) = 2 then 2 else 3 := by
  obtain ⟨u, -, hu, hlane⟩ := State.each_at (P := fun _ => True) (fun t => t.ro? (laneKey (4 * p + l))) (laneOff p) l (List.range 4)
    List.nodup_range (List.mem_range.mpr hl) (fun _ _ _ => trivial) (fun t c _ hc => laneOff_other t (by omega)) s trivial
  rw [lanesOff_eq, hlane, laneOff_same, hu]

theorem lanesOff_other (s : State) {p q : Nat} (hq : q ≠ p) {l : Nat} (hl : l < 4) :
    (lanesOff s q).ro? (laneKey (4 * p + l)) = s.ro? (laneKey (4 * p + l)) := by
  rw [lanesOff_eq]
  refine State.each_same_of_mem (fun t => t.ro? (laneKey (4 * p + l))) _ _ (fun t c hc => laneOff_other t ?_) s
  have := List.mem_range.mp hc
  omega

/-- The state of a port and of its lanes. -/
def portLanes (p : Nat) (t : State) : Port × List Nat := (t.port p, (List.range 4).map fun l => t.ro? (laneKey (4 * p + l)))

theorem portLanes_lane {p : Nat} {s t : State} (h : portLanes p s = portLanes p t) {l : Nat} (hl : l < 4) :
    s.ro? (laneKey (4 * p + l)) = t.ro? (laneKey (4 * p + l)) := by
  have hmap : (List.range 4).map (fun l => s.ro? (laneKey (4 * p + l))) = (List.range 4).map fun l => t.ro? (laneKey (4 * p + l)) :=
    congrArg Prod.snd h
  exact List.map_inj_left.mp hmap l (List.mem_range.mpr hl)

theorem startPort_other (t : State) {p q : Nat} (hq : q ≠ p) : portLanes p (startPort t q) = portLanes p t := by
  unfold startPort
  split
  · exact Prod.ext (setPort_port_other _ _ (Ne.symm hq)) rfl
  · refine Prod.ext ((lanesOff_frame.get_port (by decide) p).trans (setPort_port_other _ _ (Ne.symm hq))) ?_
    exact List.map_congr_left fun l hl => lanesOff_other _ hq (List.mem_range.mp hl)

theorem startPort_same (t : State) (p : Nat) :
    ((startPort t p).port p).st = (if mbit (t.app (regOfPort p) (key 0x5000 2)) p then .training else .disabled) ∧
    (((startPort t p).port p).st = .disabled → ∀ l, l < 4 → (startPort t p).ro? (laneKey (4 * p + l)) =
      if t.ro? (laneKey (4 * p + l)) = 2 then 2 else 3) := by
  unfold startPort
  split
  · refine ⟨?_, fun h => ?_⟩
    · rw [setPort_port_same]
    · rw [setPort_port_same] at h; cases h
  · refine ⟨?_, fun _ l hl => ?_⟩
    · rw [lanesOff_frame.get_port (by decide), setPort_port_same]
    · rw [lanesOff_same _ _ _ hl]
      rfl

/-- Settles O13: the ROM's row by `powerGood_facts` and the cases of `bootRom`, the ports' by `startPort_same`. -/
theorem bootProceeds : Obligations.BootProceeds := by
  refine ⟨fun s strap otp rec h => ?_, fun s strap otp rec h hfail => ?_, fun s strap h hmono => ?_, fun s strap tests rec cells h => ?_,
    fun s h hwait => ?_, fun s h hphase => ?_, fun s h htrain => ?_⟩
  · obtain ⟨t, ht, hpwr, hticks, hsec, -⟩ := powerGood_facts s strap ⟨false, otp⟩ rec [] h
    exact ⟨t, ht, hpwr, hticks, hsec⟩
  · obtain ⟨t, ht, -, -, hsec, -⟩ := powerGood_facts s strap ⟨true, otp⟩ rec [] h
    exact ⟨t, ht, hsec.trans (bootRom_halted _ _ _ hfail)⟩
  · obtain ⟨t, ht, hpwr, hticks, hsec, -, -, -, hmgt⟩ := powerGood_facts s strap ⟨true, true⟩ true [] h
    have hrom := bootRom_recovery { s.sec with strap := strap % 8 } hmono
    exact ⟨t, ht, hpwr, hticks, hsec.trans hrom, hmgt _ hrom rfl⟩
  · obtain ⟨t, ht, hpwr, hticks, hsec, hmem, hcp, hflt, -⟩ := powerGood_facts s strap tests rec cells h
    exact ⟨t, ht, hpwr, hticks, hsec, hmem, hcp, hflt⟩
  · refine ⟨setLock s, ?_, rfl, fun hoff => ?_⟩
    · show execBootLockTimeout s = _
      simp [execBootLockTimeout, h]
    · simp [setLock, hoff, hwait]
  · show execIdentityKeyReady s = _
    simp [execIdentityKeyReady, h, hphase]
  · refine ⟨_, rfl, ?_⟩
    rw [if_pos (by simp [h, htrain])]
    extract_lets _ s1
    have hframe : Frame [.ro, .fab] s1 (s1.each (List.range 8) startPort) := State.each_frame fun _ _ => startPort_frame
    refine ⟨hframe.eq.trans rfl, fun p hp => ?_⟩
    obtain ⟨u, hu, hget, heach⟩ := State.each_at (P := fun t => t.mgt = s.mgt) (portLanes p) startPort p (List.range 8) List.nodup_range
      (List.mem_range.mpr hp) (fun t c ht => (startPort_frame.mgt (by decide)).trans ht) (fun t c _ hc => startPort_other t hc) s1 rfl
    have hport := congrArg Prod.fst heach
    obtain ⟨hst, hoff⟩ := startPort_same u p
    have happ : u.app (regOfPort p) (key 0x5000 2) = s.app (regOfPort p) (key 0x5000 2) := by simp only [State.app, hu]
    rw [happ] at hst
    refine ⟨(congrArg Port.st hport).trans hst, fun hdis l hl => ?_⟩
    rw [portLanes_lane heach hl, hoff ((congrArg Port.st hport).symm.trans hdis) l hl, portLanes_lane hget hl]
    rfl

end Sys2Proof.Machine

namespace Sys2Proof.Machine

set_option Elab.async false

/-! ## Microcode and management firmware -/

@[simp] theorem logFault_sec (s : State) (f : Fact) : (logFault s f).sec = s.sec := logFault_frame.sec (by decide)

theorem blocksOnBank_blk (s : State) (n b : Nat) (hb : b < 24) :
    (s.each (List.range 24) (blocksOnBank n)).blk b = { s.blk b with ubank := n } := by
  obtain ⟨u, -, hu, hblk⟩ := State.each_at (P := fun _ => True) (fun t => t.blk b) (blocksOnBank n) b (List.range 24) List.nodup_range
    (List.mem_range.mpr hb) (fun _ _ _ => trivial) (fun t c _ hc => setBlk_blk_other _ _ (Ne.symm hc)) s trivial
  rw [hblk, ← hu]
  exact setBlk_blk_same ..

theorem blocksOut_blk (s : State) (b : Nat) (hb : b < 24) :
    (s.each (List.range 24) blocksOut).blk b = { s.blk b with map := mclr (s.blk b).map 31 } := by
  obtain ⟨u, -, hu, hblk⟩ := State.each_at (P := fun _ => True) (fun t => t.blk b) blocksOut b (List.range 24) List.nodup_range
    (List.mem_range.mpr hb) (fun _ _ _ => trivial) (fun t c _ hc => setBlk_blk_other _ _ (Ne.symm hc)) s trivial
  rw [hblk, ← hu]
  exact setBlk_blk_same ..

theorem linkTrains_eq (s : State) (full : Bool) :
    linkTrains s full = { s with ro := (linkTrains s full).ro, cp := { s.cp with link := true } } :=
  State.countIf_frame.eq_ro

theorem linkTrains_link (s : State) (full : Bool) : (linkTrains s full).cp.link = true := congrArg (·.cp.link) (linkTrains_eq s full)

/-- What the rails' row does to the link: it trains, or stays as it was. -/
theorem linkAtRails_link (s : State) : (s.cp.perst = false → s.cp.pcieRef = true → (linkAtRails s).cp.link = true) ∧
    (s.cp.perst = true → (linkAtRails s).cp.link = s.cp.link) ∧ (linkAtRails s).cp = { s.cp with link := (linkAtRails s).cp.link } := by
  unfold linkAtRails
  split
  · rename_i h
    exact ⟨fun hp hr => by simpa [hp, hr] using h, fun _ => rfl, rfl⟩
  · rename_i h
    refine ⟨fun _ _ => linkTrains_link .., fun hp => absurd (by simp [hp]) h, ?_⟩
    dsimp only
    rw [linkTrains_link]
    exact congrArg State.cp (linkTrains_eq ..)

/-- The parts that the rails' row changes. -/
theorem Frame.eq_rails {s t : State} (g : Frame [.pwr, .sec, .log, .head, .ucode, .blks, .ro, .free, .pins] s t)
    (hcp : t.cp = { s.cp with link := t.cp.link }) :
    t = { s with pwr := t.pwr, sec := t.sec, flt := t.flt, blks := t.blks, ro := t.ro, free := t.free, cp :=
        { s.cp with link := t.cp.link } } := by
  have hwide : Frame [.pwr, .sec, .log, .head, .ack, .dumps, .clap, .regs, .chip, .ucode, .blks, .ro, .free, .pins, .doms, .ctxs, .ress,
      .msix,
      .heldBar] s t := g.mono (by decide)
  rw [← hcp]
  exact hwide.eq.trans rfl

/-- Settles O14: the bank is chosen as the row's cases do, each block takes it by `blocksOnBank_blk`, the link by `linkAtRails_link`. -/
theorem microcodeIsLoadedAtStart : Obligations.MicrocodeIsLoadedAtStart := by
  intro s hrails hu u ok bank
  generalize hs0 : linkAtRails { s with pwr := { s.pwr with rails := .up } } = s0
  obtain ⟨hup, hdown, hcp⟩ := linkAtRails_link { s with pwr := { s.pwr with rails := .up } }
  have hframe : Frame [.free, .ro, .pins] { s with pwr := { s.pwr with rails := .up } } s0 := hs0 ▸ linkAtRails_frame
  rw [hs0] at hup hdown hcp
  have hall : Frame [.pwr, .sec, .log, .head, .ucode, .blks, .ro, .free, .pins] s s0 := hframe.after (.put (.refl _ _))
  have hlive : (if s.sec.ubank = 0 then uareaCheck s.sec 0 == 0 else uareaCheck s.sec 1 == 0) = ok u := by
    rcases (by omega : s.sec.ubank = 0 ∨ s.sec.ubank = 1) with h | h <;> simp [u, h, ok]
  have hother : (if s.sec.ubank = 0 then uareaCheck s.sec 1 == 0 else uareaCheck s.sec 0 == 0) = ok (1 - u) := by
    rcases (by omega : s.sec.ubank = 0 ∨ s.sec.ubank = 1) with h | h <;> simp [u, h, ok]
  have hend : ∀ t, Frame [.sec, .blks, .ucode, .ro, .log, .head] s0 t → t.pwr = { s.pwr with rails := .up } ∧
      (s.cp.perst = false → s.cp.pcieRef = true → t.cp.link = true) ∧ (s.cp.perst = true → t.cp.link = s.cp.link) ∧
      t = { s with pwr := t.pwr, sec := t.sec, flt := t.flt, blks := t.blks, ro := t.ro, free := t.free, cp :=
          { s.cp with link := t.cp.link } } := by
    intro t ht
    have htcp : t.cp = s0.cp := (congrArg State.cp ht.eq).trans rfl
    exact ⟨(ht.pwr (by decide)).trans (hframe.pwr (by decide)), htcp ▸ hup, htcp ▸ hdown, (ht.after hall).eq_rails (htcp ▸ hcp)⟩
  have hblk : ∀ b, s0.blk b = s.blk b := hframe.get_blk (by decide)
  have hhead : s0.flt.head = s.flt.head := hframe.head (by decide)
  have hsec : s0.sec = s.sec := hframe.sec (by decide)
  refine ⟨_, rfl, ?_⟩
  rw [if_neg (by simp [hrails])]
  dsimp only
  rw [hlive, hother, hs0]
  cases hok : ok u
  · cases hok2 : ok (1 - u)
    · have hbank : bank = u := by simp [bank, hok2]
      rw [if_neg Bool.false_ne_true, if_neg Bool.false_ne_true, hbank]
      generalize hs1 : ({ s0 with flt := _ } : State) = s1
      have hs1f : Frame [.ucode] s0 s1 := hs1 ▸ .put (.refl _ _)
      have ht : Frame [.blks] s1 (s1.each (List.range 24) blocksOut) := State.each_frame fun _ _ => State.setBlk_frame
      obtain ⟨hpwr, hl, hd, heq⟩ := hend _ (ht.after hs1f.wider)
      obtain ⟨hsel, -, hb0, hb1⟩ := (ht.ucode (by decide)).2.2
      refine ⟨hpwr, (ht.sec (by decide)).trans ((hs1f.sec (by decide)).trans hsec), hb0.trans (hs1 ▸ rfl), hb1.trans (hs1 ▸ rfl),
        hsel.trans (hs1 ▸ rfl), ?_, fun b hb => ?_, hl, hd, heq⟩
      · rw [ht.head (by decide), hs1f.head (by decide), hhead, if_pos rfl]; rfl
      · rw [blocksOut_blk _ _ hb, hs1f.get_blk (by decide), hblk, if_neg (by simp)]
    · have hbank : bank = 1 - u := by simp [bank, hok, hok2]
      have hne : ¬ 1 - u = u := by omega
      rw [if_neg Bool.false_ne_true, if_pos rfl, hbank]
      generalize hs1 : ({ s0 with flt := _, sec := _ } : State) = s1
      have hs1f : Frame [.ucode, .sec] s0 s1 := hs1 ▸ .put (.refl _ _)
      have heach : Frame [.blks] s1 (s1.each (List.range 24) (blocksOnBank (1 - u))) := State.each_frame fun _ _ => blocksOnBank_frame
      have ht : Frame [.blks, .ro, .log, .head] s1 (logFault (s1.each (List.range 24) (blocksOnBank (1 - u)))
        { level := 3, action := 0, cause := 0x0C }) := logFault_frame.after (heach.mono (by decide))
      obtain ⟨hpwr, hl, hd, heq⟩ := hend _ (ht.after (hs1f.mono (by decide)))
      obtain ⟨hsel, -, hb0, hb1⟩ := (ht.ucode (by decide)).2.2
      refine ⟨hpwr, (ht.sec (by decide)).trans (hs1 ▸ rfl), hb0.trans (hs1 ▸ rfl), hb1.trans (hs1 ▸ rfl),
        hsel.trans (hs1 ▸ rfl), ?_, fun b hb => ?_, hl, hd, heq⟩
      · rw [logFault_head, heach.head (by decide), hs1f.head (by decide), hhead, if_neg hne]
      · rw [logFault_frame.get_blk (by decide), blocksOnBank_blk _ _ _ hb, hs1f.get_blk (by decide), hblk, if_pos (by simp)]
  · have hbank : bank = u := by simp [bank, hok]
    rw [if_pos rfl, hbank]
    generalize hs1 : ({ s0 with flt := _ } : State) = s1
    have hs1f : Frame [.ucode] s0 s1 := hs1 ▸ .put (.refl _ _)
    have ht : Frame [.blks] s1 (s1.each (List.range 24) (blocksOnBank u)) := State.each_frame fun _ _ => blocksOnBank_frame
    obtain ⟨hpwr, hl, hd, heq⟩ := hend _ (ht.after hs1f.wider)
    obtain ⟨hsel, -, hb0, hb1⟩ := (ht.ucode (by decide)).2.2
    refine ⟨hpwr, (ht.sec (by decide)).trans ((hs1f.sec (by decide)).trans hsec), hb0.trans (hs1 ▸ rfl), hb1.trans (hs1 ▸ rfl),
      hsel.trans (hs1 ▸ rfl), ?_, fun b hb => ?_, hl, hd, heq⟩
    · rw [ht.head (by decide), hs1f.head (by decide), hhead, if_pos rfl]; rfl
    · rw [blocksOnBank_blk _ _ _ hb, hs1f.get_blk (by decide), hblk, if_pos (by simp)]

end Sys2Proof.Machine

namespace Sys2Proof.Machine

set_option Elab.async false

/-! ## Management firmware and attestation -/

/-- A state that differs in its security and management parts and its counters, written out. -/
theorem Frame.eq_manager {s t : State} (g : Frame [.sec, .mgt, .ro] s t) : t = { s with sec := t.sec, mgt := t.mgt, ro := t.ro } :=
  g.eq.trans rfl

/-- A state that differs in its fault log and its counters, written out. -/
theorem Frame.eq_log {s t : State} (g : Frame [.ro, .log, .head] s t) :
    t = { s with ro := t.ro, flt := { s.flt with head := t.flt.head, log := t.flt.log } } := g.eq.trans rfl

theorem restartFw_eq (s : State) (n : Nat) : restartFw s n =
    { s with sec := { s.sec with active := n, fwRun := .restarting }, ro := (restartFw s n).ro, mgt := { s.mgt with rxq := [] } } := by
  have hsec : (restartFw s n).sec = { s.sec with active := n, fwRun := .restarting } := rfl
  have hmgt : (restartFw s n).mgt = { s.mgt with rxq := [] } := rfl
  rw [← hsec, ← hmgt]
  exact restartFw_frame.eq_manager

theorem logFault_cause (s : State) (f : Fact) : bits (recordAt (logFault s f) (logFault s f).flt.head) 409 402 = f.cause % 256 := by
  rw [logFault_head, recordAt_logFault, recordOf_cause]

/-- Settles O15: every restart is `restartFw`, and a record beside it is `logFault`'s. -/
theorem firmwareIsWatched : Obligations.FirmwareIsWatched := by
  refine ⟨fun s hrun hlock htrial => ?_, fun s hrun hlock htrial => ?_, fun s hrun htrial => ?_, fun s hrun => ?_, fun s htrial hrun => ?_⟩
  · refine ⟨logFault (restartFw s s.sec.active) { level := 3, action := 0, cause := 0x10 }, (?_ : execFirmwareHang s = _), ?_, ?_,
      logFault_cause _ _, ?_⟩
    · simp [execFirmwareHang, hrun, hlock, htrial]
    · rw [logFault_sec]; rfl
    · exact logFault_head _ _
    · refine logFault_frame.eq_log.trans ?_
      rw [logFault_sec, restartFw_eq]
  · refine ⟨endTrial s, (?_ : execFirmwareHang s = _), ?_, logFault_cause _ _⟩
    · simp [execFirmwareHang, hrun, hlock, htrial]
    · exact logFault_sec _ _
  · refine ⟨restartFw s (1 - s.sec.active), (?_ : execFirmwareFallback s = _), ?_⟩
    · simp [execFirmwareFallback, hrun, htrial]
    · rw [restartFw_eq]
      simp [hrun]
  · show execFirmwareHeartbeat s = _
    unfold execFirmwareHeartbeat
    by_cases h : slotCheck s.sec s.sec.active = 0 <;> simp [hrun, h]
  · show execTrialConfirm s = _
    simp [execTrialConfirm, htrial, hrun]

@[simp] theorem Sec.slot_setSlot_same (c : Sec) {n : Nat} (a : Area) : (c.setSlot n a).slot n = a := by
  unfold Sec.setSlot Sec.slot
  by_cases h : n = 0 <;> simp [h]

theorem Sec.slot_setSlot_other (c : Sec) {m n : Nat} (a : Area) (h : (m = 0) ≠ (n = 0)) : (c.setSlot n a).slot m = c.slot m := by
  unfold Sec.setSlot Sec.slot
  by_cases hm : m = 0 <;> by_cases hn : n = 0 <;> simp_all

theorem Sec.setSlot_eq (c : Sec) (n : Nat) (a : Area) :
    c.setSlot n a = { c with slot0 := (c.setSlot n a).slot0, slot1 := (c.setSlot n a).slot1 } := by
  unfold Sec.setSlot
  split <;> rfl

/-- Settles O16: both ends of an update set whole slots, by the laws of `Sec.setSlot`. -/
theorem firmwareUpdateEnds : Obligations.FirmwareUpdateEnds := by
  refine ⟨fun s hsts => ⟨fun hbad => ?_, fun hgood hphase => ?_, fun hgood hphase => ?_⟩, fun s n hsts hinto hn => ?_,
    fun s hsts hinto => ?_⟩
  · show execSecFwVerifyDone s = _
    unfold execSecFwVerifyDone
    rw [if_pos hsts]
    unfold fwChecked
    rw [if_neg hbad]
  · have htargets : fwTargets s.sec = [1 - s.sec.active] := by simp [fwTargets, hphase]
    let a : Area := { image := (s.sec.slot (1 - s.sec.active)).image, valid := false }
    have hchecked : fwChecked s.sec = { s.sec.setSlot (1 - s.sec.active) a with fwSts := 2, fwInto := [1 - s.sec.active] } := by
      unfold fwChecked
      rw [if_pos hgood, htargets]
      rfl
    refine ⟨{ s with sec := fwChecked s.sec }, (?_ : execSecFwVerifyDone s = _), ?_⟩
    · simp [execSecFwVerifyDone, hsts]
    · rw [hchecked]
      refine ⟨rfl, rfl, Sec.slot_setSlot_same _ _, fun hact => Sec.slot_setSlot_other _ _ ?_, ?_⟩
      · simp only [ne_eq, eq_iff_iff]; omega
      · dsimp only
        rw [Sec.setSlot_eq]
  · show execSecFwVerifyDone s = _
    unfold execSecFwVerifyDone
    rw [if_pos hsts]
    unfold fwChecked
    rw [if_pos hgood, show fwTargets s.sec = [0, 1] by simp [fwTargets, hphase]]
    rfl
  · have hwritten : fwWritten s.sec = { s.sec.setSlot n { image := s.sec.staging, valid := true } with fwSts := 3, fwInto := [] } := by
      unfold fwWritten
      rw [hinto]
      rfl
    refine ⟨{ s with sec := fwWritten s.sec }, (?_ : execSecFwVerifyDone s = _), ?_⟩
    · simp [execSecFwVerifyDone, hsts]
    · rw [hwritten]
      refine ⟨Sec.slot_setSlot_same _ _, Sec.slot_setSlot_other _ _ ?_, ?_⟩
      · simp only [ne_eq, eq_iff_iff]; omega
      · dsimp only
        rw [Sec.setSlot_eq]
  · show execSecFwVerifyDone s = _
    unfold execSecFwVerifyDone
    rw [if_neg (by omega), if_pos hsts]
    unfold fwWritten
    rw [hinto]
    rfl

/-- Where the responder is reached, a reply leaves. -/
theorem spdmReply_up {s : State} (h : doeUp s = true) (code : Nat) (bs : List Byte) : spdmReply s code bs = s.emit (.spdm code bs) := by
  simp [spdmReply, h]

theorem getMeasurements_of_known {s : State} {i : Nat} (halgos : s.sec.algos = true) (h1 : 1 ≤ i) (h6 : i ≤ 6) (sgn : Bool)
    (nonce : List Byte) (hid : sgn = true → s.sec.identity = true) : exec (.getMeasurements i sgn nonce) s =
      .next (if sgn then spdmReply s 0x60 (measRecord s [i] ++ nonce ++ Config.falconSign (measRecord s [i] ++ nonce))
        else spdmReply s 0x60 (measRecord s [i])) := by
  show execGetMeasurements i sgn nonce s = _
  unfold execGetMeasurements
  dsimp only
  rw [if_neg (by simp [halgos]; omega), if_neg (by omega : ¬ i = 0), if_neg (by omega : ¬ i = 0xFF)]
  cases sgn
  · rfl
  · simp [hid rfl]

/-- Settles O19: each request takes its branch, and every branch replies by `spdmReply_up`. -/
theorem spdmRequestsAreAnswered : Obligations.SpdmRequestsAreAnswered := by
  refine ⟨fun s h => ⟨congrArg _ (spdmReply_up h _ _), congrArg _ (spdmReply_up h _ _), ?_⟩, fun s asym hash h hno => ?_,
    fun s h halgos => ⟨?_, fun off len hoff => ?_⟩, fun s nonce h halgos hid => ?_, fun s nonce h halgos hid => ?_,
    fun s i nonce h halgos h1 h6 => ?_, fun s i nonce h halgos hid h1 h6 => ?_, fun s h halgos => ?_,
    fun s slot i off len sgn nonce h hslot hi hall => ⟨?_, ?_, ?_⟩⟩
  · show execNegotiateAlgorithms true true s = _
    unfold execNegotiateAlgorithms
    rw [if_neg (by simp [h]), if_pos (by decide)]
    exact congrArg _ (spdmReply_up (s := { s with sec := { s.sec with algos := true } }) h _ _)
  · show execNegotiateAlgorithms asym hash s = _
    unfold execNegotiateAlgorithms
    rw [if_neg (by simp [h]), if_neg (by simp [hno])]
    exact congrArg _ (spdmReply_up (s := { s with sec := { s.sec with algos := false } }) h _ _)
  · show execGetDigests s = _
    simp [execGetDigests, halgos, spdmReply_up h]
  · show execGetCertificate 0 off len s = _
    simp [execGetCertificate, halgos, hoff, spdmReply_up h]
  · refine ⟨Config.shake256 certChain 64 ++ nonce, _, (?_ : execChallenge 0 nonce s = _), rfl, rfl⟩
    simp [execChallenge, halgos, hid, spdmReply_up h]
  · show execChallenge 0 nonce s = _
    simp [execChallenge, halgos, hid, spdmNotReady, spdmReply_up h]
  · rw [getMeasurements_of_known halgos h1 h6 false _ nofun, if_neg Bool.false_ne_true, spdmReply_up h]
  · rw [getMeasurements_of_known halgos h1 h6 _ _ fun _ => hid, if_pos rfl, spdmReply_up h]
  · show execGetDigests s = _
    simp [execGetDigests, halgos, spdmInvalid, spdmReply_up h]
  · show execGetCertificate slot off len s = _
    simp [execGetCertificate, hslot, spdmInvalid, spdmReply_up h]
  · show execChallenge slot nonce s = _
    simp [execChallenge, hslot, spdmInvalid, spdmReply_up h]
  · show execGetMeasurements i sgn nonce s = _
    unfold execGetMeasurements
    dsimp only
    rw [if_pos (by simp [hi, hall] : (!s.sec.algos || (decide (i > 6) && i != 0xFF)) = true)]
    exact congrArg _ (spdmReply_up h _ _)

end Sys2Proof.Machine

namespace Sys2Proof.Machine

set_option Elab.async false

/-! ## Writes of dictionary entries -/

theorem leNat_leBytes (n v : Nat) : leNat (leBytes n v) = v % 256 ^ n := by
  induction n generalizing v with
  | zero => simp [leBytes, leNat, Nat.mod_one]
  | succ n ih =>
    rw [leBytes, leNat, ih, BitVec.toNat_ofNat, show 256 ^ (n + 1) = 256 * 256 ^ n from Nat.pow_succ', Nat.mod_mul]

theorem leNat_leBytes_of_lt {n v : Nat} (h : v < 256 ^ n) : leNat (leBytes n v) = v := by
  rw [leNat_leBytes, Nat.mod_eq_of_lt h]

/-- An entry of a fixed-width type that is not read-only. -/
def takesWrites (i sub ty : Nat) : Bool := (entryAt i sub).any fun e => e.ty == ty && e.acc != 0 && e.acc != 4

/-- A write that reaches its entry is the write of the entry (R315, R333). -/
theorem dictOp_write {s : State} {src : Source} {op : DictOp} {e : Ent} (h : MayWrite s src)
    (hopen : Trusted s src op.index ∨ isProtected s op.index op.sub = false) (hshadow : op.shadow = false)
    (he : entryAt op.index op.sub = some e) : dictOp s src .write op =
      ((writeOp s (classAt s src op.index) src e op false).1, [], (writeOp s (classAt s src op.index) src e op false).2) := by
  obtain ⟨_, hphase, hseg⟩ := h
  have hrecov : (s.sec.phase == .recovery) = false := by simp [hphase]
  have hclear : (isProtected s op.index op.sub && classAt s src op.index == .ordinary) = false := by
    rcases hopen with htrust | hprot
    · rw [beq_false_of_ne htrust, Bool.and_false]
    · rw [hprot, Bool.false_and]
  unfold dictOp
  simp only [hrecov]
  rw [if_neg (by simp [hshadow]), if_neg (by simp), if_neg (by simpa using hclear)]
  simp only [he]
  cases src with
  | t1s a p m =>
    obtain rfl := (hseg a p m rfl).1
    simp
  | _ => simp

/-- A write of a fixed-width entry that is not read-only, in the width of its type, has the effect of `writeFixed`. -/
theorem writeOp_fixed {s : State} {src : Source} {op : DictOp} {e : Ent} (h : MayWrite s src) (hty : op.ty = e.ty)
    (hacc : e.acc ≠ 0 ∧ e.acc ≠ 4) (hsetup : isSetup op.index op.sub = true → s.sec.lock = false ∧ classAt s src op.index = .secure)
    (hfix : e.ty ≠ 6 ∧ e.ty ≠ 7) (hlen : op.value.length = tyWidth e.ty) (hoff : op.offset = 0) :
    writeOp s (classAt s src op.index) src e op false = writeFixed s e op.index op.sub (leNat op.value) := by
  have hseg : (isT1s src && s.sec.t1sWr == 0) = false := by
    cases src with
    | t1s a p m => simp [isT1s, (h.segment a p m rfl).2]
    | _ => rfl
  have hset : (isSetup op.index op.sub && (s.sec.lock || classAt s src op.index != .secure)) = false := by
    cases hx : isSetup op.index op.sub with
    | false => rfl
    | true => simp [hsetup hx]
  unfold writeOp
  rw [if_neg (by simp [hty]), if_neg (by simp [hacc.1, hacc.2, hseg]), if_neg (by simp [hset]), if_neg (by omega),
    if_neg (by simp [hlen, hoff])]

theorem opRow_answered {s t : State} {src : Source} {op : DictOp} {st : Nat} (hreach : reaches s src = true)
    (hop : dictOp s src .write op = (st, [], t)) : opRow s src 2 .write op = answered t src op st := by
  unfold opRow
  rw [if_pos hreach]
  simp [dictOpCounted, hop, answered]

/-- A write of such an entry, within the width of its type, that its master may make, has the effect of `writeFixed`, and is answered with its
status (R333). -/
theorem writeRow_effect {s t : State} {src : Source} {i sub ty v st : Nat} (h : MayWrite s src)
    (hopen : Trusted s src i ∨ isProtected s i sub = false)
    (hentry : takesWrites i sub ty = true) (hsetup : isSetup i sub = true → s.sec.lock = false ∧ classAt s src i = .secure)
    (hty : ty ≠ 6 ∧ ty ≠ 7) (hv : v < 256 ^ tyWidth ty)
    (heffect : ∀ e, entryAt i sub = some e → writeFixed s e i sub v = (st, t)) :
    writeRow s src i sub ty v = answered t src (fixedOp i sub ty v) st := by
  obtain ⟨e, he, hent⟩ : ∃ e, entryAt i sub = some e ∧ (e.ty == ty && e.acc != 0 && e.acc != 4) = true := by
    unfold takesWrites at hentry
    cases hx : entryAt i sub with
    | none => simp [hx] at hentry
    | some e => exact ⟨e, rfl, by simpa [hx] using hentry⟩
  simp only [Bool.and_eq_true, beq_iff_eq, bne_iff_ne] at hent
  obtain ⟨⟨rfl, h0⟩, h4⟩ := hent
  have hwrite : writeOp s (classAt s src i) src e (fixedOp i sub e.ty v) false = (st, t) := by
    refine (writeOp_fixed (op := fixedOp i sub e.ty v) h rfl ⟨h0, h4⟩ hsetup hty (leBytes_length _ _) rfl).trans ?_
    rw [← heffect e he]
    exact congrArg (writeFixed s e i sub) (leNat_leBytes_of_lt hv)
  refine opRow_answered h.reach ((dictOp_write (op := fixedOp i sub e.ty v) h hopen rfl he).trans ?_)
  rw [show (fixedOp i sub e.ty v).index = i from rfl, hwrite]

/-- The same by a master that may write protected entries. -/
theorem writeRow_answered {s t : State} {src : Source} {i sub ty v st : Nat} (h : MayWrite s src) (htrust : Trusted s src i)
    (hentry : takesWrites i sub ty = true) (hsetup : isSetup i sub = true → s.sec.lock = false ∧ classAt s src i = .secure)
    (hty : ty ≠ 6 ∧ ty ≠ 7) (hv : v < 256 ^ tyWidth ty)
    (heffect : ∀ e, entryAt i sub = some e → writeFixed s e i sub v = (st, t)) :
    writeRow s src i sub ty v = answered t src (fixedOp i sub ty v) st :=
  writeRow_effect h (.inl htrust) hentry hsetup hty hv heffect

/-- Settles O17: each row is a write that reaches its entry, by `writeRow_answered`. -/
theorem securityWritesAct : Obligations.SecurityWritesAct := by
  refine ⟨fun s hreach hlock => ?_, fun s src v hw ht hsrc hwr => ?_, fun s src hw ht hfresh => ?_, fun s src hw ht => ?_,
    fun s src hw ht hidle => ?_, fun s src hw ht hidle hvalid htrial => ?_, fun s src hw ht hidle => ?_⟩
  · have hphase : s.sec.phase = .rom ∨ s.sec.phase = .secure := by
      simp only [reaches, Bool.and_eq_true, Bool.or_eq_true, beq_iff_eq] at hreach
      exact hreach.2
    have hclass : classAt s .secure 0xA000 = .secure := by
      rcases hphase with h | h <;> simp [classAt, hlock, masterOf, h]
    refine congrArg _ (writeRow_answered ⟨hreach, ?_, nofun⟩ (by simp [Trusted, hclass]) (by decide +kernel) (fun _ => ⟨hlock, hclass⟩)
      (by decide) (by decide) fun e he => rfl)
    rcases hphase with h | h <;> simp [h]
  · refine congrArg _ (writeRow_answered hw ht (by decide +kernel) nofun (by decide) (by show v < 256 ^ 2; omega) fun e he => ?_)
    show policyNext s v = _
    simp [policyNext, hsrc, hwr, stOk]
  · refine congrArg _ (writeRow_answered hw ht (by decide +kernel) nofun (by decide) (by decide) fun e he => ?_)
    show ideControl s 1 = _
    simpa [ideControl, stOk] using fun k hk hno => absurd (hfresh k hk) hno
  · exact congrArg _ (writeRow_answered hw ht (by decide +kernel) nofun (by decide) (by decide) fun e he => rfl)
  · refine congrArg _ (writeRow_answered hw ht (by decide +kernel) nofun (by decide) (by decide) fun e he => ?_)
    show fwCommand s 1 = _
    simp [fwCommand, fwOperation, fwVerify, hidle, stOk]
  · refine ⟨(restartFw { s with sec := { s.sec with trial := some (1 - s.sec.active), onTrial := true, fwSts := 5 } }
      (1 - s.sec.active)).ro,
      congrArg _ (writeRow_answered hw ht (by decide +kernel) nofun (by decide) (by decide) fun e he => ?_)⟩
    show fwCommand s 2 = _
    have hswitch : fwSwitch s = (stOk, restartFw { s with sec := { s.sec with
        trial := some (1 - s.sec.active), onTrial := true, fwSts := 5 } } (1 - s.sec.active)) := by
      unfold fwSwitch
      rw [if_neg (by simp [hidle]), if_neg (by simp [hw.normal])]
      simp [hvalid, htrial]
    have hop : fwOperation s 2 = _ := hswitch
    unfold fwCommand
    rw [hop, if_pos rfl]
    exact congrArg (fun t : State => (stOk, { t with sec := { t.sec with fwCmd := 2 } })) (restartFw_eq _ _)
  · refine congrArg _ (writeRow_answered hw ht (by decide +kernel) nofun (by decide) (by decide) fun e he => ?_)
    show fwCommand s 3 = _
    simp [fwCommand, fwOperation, fwClear, hidle, stOk]

/-- Once the lock is set, an operation that writes the protection set-up leaves the state but for a counter (R316). -/
theorem dictOp_setup_held {s : State} (src : Source) {op : DictOp} (hlock : s.sec.lock = true) (hphase : s.sec.phase ≠ .recovery)
    (hsetup : isSetup op.index op.sub = true) : Frame [.ro] s (dictOp s src .write op).2.2 := by
  have hwrite : ∀ m e, (writeOp s m src e op false).2 = s := by
    intro m e
    unfold writeOp
    split
    · rfl
    · split
      · rfl
      · rw [if_pos (by simp [hsetup, hlock])]
  have hrecov : (s.sec.phase == .recovery) = false := by simp [hphase]
  unfold dictOp
  simp only [hrecov]
  refine frame_ite_third (.refl _ _) (frame_ite_third (.refl _ _) (frame_ite_third State.count_frame ?_))
  split
  · exact .refl _ _
  · refine frame_ite_third (.refl _ _) (frame_ite_third (.refl _ _) ?_)
    dsimp only
    rw [hwrite]
    exact .refl _ _

/-- Settles O18, by `dictOp_setup_held`: what `opRow` adds is counters and the response. -/
theorem lockedSetupIsHeld : Obligations.LockedSetupIsHeld := by
  intro s src op hlock hphase hindex hsub
  have hframe : Frame [.ro, .out] s (opRow s src 2 .write op) := by
    unfold opRow
    refine frame_ite ?_ (.refl _ _)
    have hop := dictOp_setup_held src hlock hphase (op := op) (by simp [isSetup, hindex, hsub])
    have hcount : Frame [.ro] s (dictOpCounted s src .write op).2.2 := State.countIf_frame.after (State.countIf_frame.after hop)
    exact State.emit_frame.after hcount.wider
  exact ⟨_, rfl, hframe.sec (by decide), hframe.pwr (by decide), hframe.mgt (by decide), hframe.eq.trans rfl⟩

end Sys2Proof.Machine

namespace Sys2Proof.Machine

set_option Elab.async false

/-! ## Contexts -/

/-- Two contexts agree but for their command and its counts. -/
def SameQueue (c d : Ctx) : Prop := d = { c with cmd := d.cmd, doneCnt := d.doneCnt, refusedCnt := d.refusedCnt }

theorem SameQueue.refl (c : Ctx) : SameQueue c c := rfl

theorem SameQueue.trans {c d e : Ctx} (h : SameQueue c d) (k : SameQueue d e) : SameQueue c e := by
  unfold SameQueue at *
  rw [k, h]

theorem sameQueue_doneCtx (c : Ctx) (status : Nat) : SameQueue c (doneCtx c status) := rfl

theorem publish_ctx (s : State) (c : Cmd) (status : Nat) (bs : List Byte) (k : Nat) : (publish s c status bs).ctx k = s.ctx k := by
  unfold publish
  split <;> rfl

theorem returnCredits_ctx (s : State) (c : Cmd) (k : Nat) : (returnCredits s c).ctx k = s.ctx k := by
  unfold returnCredits
  split <;> rfl

theorem countIf_ctx (s : State) (b : Bool) (key k : Nat) : (s.countIf b key).ctx k = s.ctx k := State.countIf_frame.get_ctx (by decide) k

theorem closeMuted_ctx_same (s : State) (k : Nat) (c : Cmd) : (closeMuted s k c).ctx k = doneCtx (s.ctx k) (finOf c).1 := by
  unfold closeMuted
  rw [countIf_ctx, countIf_ctx, count_get_ctx, setCtx_ctx_same, returnCredits_ctx, publish_ctx]

theorem closeMuted_ctx_other (s : State) {k j : Nat} (c : Cmd) (h : j ≠ k) : (closeMuted s k c).ctx j = s.ctx j := by
  unfold closeMuted
  rw [countIf_ctx, countIf_ctx, count_get_ctx, setCtx_ctx_other _ _ h, returnCredits_ctx, publish_ctx]

theorem closeMuted_sameQueue (s : State) (k j : Nat) (c : Cmd) : SameQueue (s.ctx j) ((closeMuted s k c).ctx j) := by
  by_cases h : j = k
  · subst h
    rw [closeMuted_ctx_same]
    exact sameQueue_doneCtx ..
  · rw [closeMuted_ctx_other _ _ h]
    exact .refl _

theorem setCmd_sameQueue (s : State) (k j : Nat) (c : Option Cmd) : SameQueue (s.ctx j) ((s.setCtx k { s.ctx k with cmd := c }).ctx j) := by
  rw [setCtx_ctx]
  split
  · rename_i h; subst h; rfl
  · rfl

theorem perstCmd_sameQueue (s : State) (k j : Nat) : SameQueue (s.ctx j) ((perstCmd s k).ctx j) := by
  unfold perstCmd
  split
  · exact .refl _
  · split
    · exact .refl _
    · split
      · exact closeMuted_sameQueue ..
      · split
        · exact setCmd_sameQueue ..
        · extract_lets s2
          have h2 : SameQueue (s.ctx j) (s2.ctx j) := closeMuted_sameQueue ..
          split
          · rw [(State.each_frame fun _ _ => stopExport_frame).get_ctx (by decide)]
            exact h2
          · split
            · exact h2
            · exact h2

theorem each_sameQueue {α : Type} (f : State → α → State) (l : List α) (j : Nat) (hf : ∀ t a, SameQueue (t.ctx j) ((f t a).ctx j))
    (s : State) :
    SameQueue (s.ctx j) ((s.each l f).ctx j) := by
  induction l generalizing s with
  | nil => exact .refl _
  | cons a l ih => exact (hf s a).trans (ih (f s a))

/-- What an entry of a list reads as after a map of the listed values. -/
theorem spGet_map {α : Type} (dflt : Nat → α) (f : Nat → α → α) (l : Sparse α) (k : Nat) (hd : f k (dflt k) = dflt k) :
    spGet dflt (l.map fun e => (e.1, f e.1 e.2)) k = f k (spGet dflt l k) := by
  induction l with
  | nil => exact hd.symm
  | cons e l ih =>
    obtain ⟨i, v⟩ := e
    simp only [List.map_cons, spGet]
    split
    · rename_i h; subst h; rfl
    · exact ih

/-- A step that ends in a next state changes what its instruction may. -/
theorem next_frame {i : Instr} {s t : State} (h : exec i s = .next t) : Frame (mayChange i) s t :=
  (exec_frame i).frame t h

/-- Settles O20: under PERST_L a context keeps its queue by `perstCmd_sameQueue`; what the fall leaves is in `mayChange`. -/
theorem perstActs : Obligations.PerstActs := by
  refine ⟨fun s h => ?_, fun s full h hno => ?_, fun s h hlock hrails href => ⟨?_, ?_⟩⟩
  · refine ⟨_, rfl, ?_⟩
    have hall := next_frame (i := .perstLAssert) (s := s) rfl
    rw [if_neg (by simp [h])] at hall ⊢
    revert hall
    extract_lets _ _ s1 _ s2 s3 s4 _ s5
    intro hall
    have hadmin : ∀ t : State, ∀ k, (t.each (List.range 16) fun s d => s.setDom d { s.dom d with tearCtx := false }).ctx k = t.ctx k :=
      fun t k => (State.each_frame fun _ _ => State.setDom_frame).get_ctx (by decide) k
    have hlate : Frame [.ro, .doms, .ctxs, .ress, .fab, .days] s2
        (s5.each (List.range 16) fun s d => s.setDom d { s.dom d with tearCtx := false }) :=
      (State.each_frame fun _ _ => State.setDom_frame.wider).trans
        (State.setCtx_frame.after (State.countIf_frame.after (State.each_frame fun _ _ => perstCmd_frame)))
    have hpins := hlate.pins (by decide)
    refine ⟨hpins.2.1, hpins.2.2, hlate.msix (by decide), ?_, fun k hk hmade => ?_, hall.pwr (by decide), ?_, hall.progs (by decide),
      hall.steps (by decide), hall.blks (by decide), hall.mem (by decide), hall.dirs (by decide), hall.binds (by decide),
      hall.back (by decide), hall.grds (by decide), hall.segs (by decide)⟩
    · rw [hadmin]
      exact setCtx_ctx_same ..
    · have hperst : s2.ctx k = perstCtx (s.ctx k) := by
        refine (spGet_map ctxDflt (fun k c => if k = adminKey then c else perstCtx c) _ k ?_).trans (if_neg hk)
        simp [perstCtx, ctxDflt, hk]
      have hsame : SameQueue (s2.ctx k) (s5.ctx k) := by
        have hcmds : SameQueue (s2.ctx k) (s3.ctx k) := each_sameQueue perstCmd _ k (fun t j => perstCmd_sameQueue t j k) s2
        have h5 : s5.ctx k = s3.ctx k := (setCtx_ctx_other _ _ hk).trans (countIf_ctx ..)
        exact h5 ▸ hcmds
      rw [hadmin, show s5.ctx k = _ from hsame, hperst]
      simp [perstCtx, hmade]
    · exact (congrArg State.flt hall.eq).trans rfl
  · show execPerstLRelease full s = _
    unfold execPerstLRelease
    rw [if_neg (by simp [h])]
    dsimp only
    rw [if_neg (by simp only [hno]; decide)]
  · show execPerstLRelease true s = _
    simp [execPerstLRelease, h, hlock, hrails, href, linkTrains, State.countIf]
  · show execPerstLRelease false s = _
    simp [execPerstLRelease, h, hlock, hrails, href, linkTrains, State.countIf]

/-! ## Function level resets -/

/-- A module whose host is up, with one ACTIVE domain whose range reaches past the last context of a domain queue, to the admin queue's. -/
def flrState : State := { State.reset with
  pwr := { State.reset.pwr with supply := .on }
  cp := { State.reset.cp with pcieRef := true, perst := false, link := true, doms :=
      [(0, { domDflt 0 with st := .active, qcount := 4097 })] } }

/-- Refutes O21: a state may give a domain a range past the 4,096 contexts, and the admin context, which is always made, is then in the
    range,
and is not killed. -/
theorem not_flrTearsItsDomainDown : ¬ Obligations.FlrTearsItsDomainDown := by
  intro h
  obtain ⟨t, ht, -, -, -, hkill, -⟩ := h.1 flrState 1 (by decide +kernel) (by decide) (by decide) (by decide +kernel)
  have hctx := hkill adminKey (by decide +kernel) (by decide +kernel) (by decide +kernel)
  cases ht
  revert hctx
  decide +kernel

end Sys2Proof.Machine

namespace Sys2Proof.Machine

set_option Elab.async false

/-! ## Registers of queues -/

theorem atBar_open {s : State} (h : BarOpen s) (i : Instr) (f : State → State) : atBar s i f = f s := by
  simp [atBar, h.1, h.2]

theorem onQueue_some {s : State} {q : QRef} {k : Nat} (h : ctxOf s q = some k) (f : State → Nat → State) : onQueue s q f = f s k := by
  simp [onQueue, h]

theorem onQueue_none {s : State} {q : QRef} (h : ctxOf s q = none) (f : State → Nat → State) : onQueue s q f = barDrop s := by
  simp [onQueue, h]

theorem ctxError_none {s : State} {k : Nat} (e : Nat) (h : (s.ctx k).errc ≠ 0) : ctxError s k e = s := if_neg h

theorem ctxError_ctx {s : State} {k : Nat} (e j : Nat) (h : (s.ctx k).errc = 0) :
    (ctxError s k e).ctx j = if j = k then { s.ctx k with errc := e } else s.ctx j := by
  unfold ctxError
  rw [if_pos h, strike_frame.get_ctx (by decide), count_get_ctx, setCtx_ctx]

/-- A context that enters ERROR keeps its other fields, other contexts stay. -/
theorem ctxError_cases (s : State) (k e j : Nat) : (ctxError s k e).ctx j = if j = k then
    { s.ctx k with errc := if (s.ctx k).errc = 0 then e else (s.ctx k).errc } else s.ctx j := by
  by_cases h : (s.ctx k).errc = 0
  · rw [ctxError_ctx e j h, if_pos h]
  · rw [ctxError_none e h, if_neg h]
    split
    · rename_i hj; subst hj; rfl
    · rfl

theorem signalMsix_ctx (s : State) (fn v j : Nat) : (signalMsix s fn v).ctx j = s.ctx j := signalMsix_frame.get_ctx (by decide) j

theorem signalMsix_out (s : State) (fn v : Nat) : ∃ l, (signalMsix s fn v).out = s.out ++ l := by
  unfold signalMsix
  dsimp only
  split
  · exact ⟨[], (List.append_nil _).symm⟩
  · exact ⟨_, rfl⟩

/-- The count of unsignalled records changes in the context, and a message may leave. -/
theorem coalesce_spec (s : State) (k : Nat) : (∃ l, (coalesce s k).out = s.out ++ l) ∧
    (∀ j, j ≠ k → (coalesce s k).ctx j = s.ctx j) ∧
    (coalesce s k).ctx k = { s.ctx k with unsig := ((coalesce s k).ctx k).unsig, unsigTick := ((coalesce s k).ctx k).unsigTick } := by
  unfold coalesce
  dsimp only
  split
  · refine ⟨signalMsix_out .., fun j hj => ?_, ?_⟩
    · rw [signalMsix_ctx, setCtx_ctx_other _ _ hj]
    · rw [signalMsix_ctx, setCtx_ctx_same]
  · refine ⟨⟨[], (List.append_nil _).symm⟩, fun j hj => setCtx_ctx_other _ _ hj, ?_⟩
    rw [setCtx_ctx_same]

/-- A notice that waits, where there is room for it: written, or lost where its DMA fails (R302). -/
theorem writeNotice_spec {s : State} {k : Nat} {f : Defer} (hf : (s.ctx k).defer = some f) (hn : f.note = true)
    (hroom : cqFull (s.ctx k) = false) : let t := writeNotice s k
    (t.ctx k).cqHead = (s.ctx k).cqHead ∧ (t.ctx k).defer = some { f with note := false } ∧ (∀ j, j ≠ k → t.ctx j = s.ctx j) ∧
    (bit (Config.freeWord s.free).toNat 0 = false → (t.ctx k).cqTail = ((s.ctx k).cqTail + 1) % 2 ^ (s.ctx k).cqLog ∧
      ∃ l, t.out = s.out ++ [.dma ((s.ctx k).cqBase + 32 * (s.ctx k).cqTail) (leBytes 32 (recordBits s k f.cmd 0x02 0 0))] ++ l) ∧
    (bit (Config.freeWord s.free).toNat 0 = true → (t.ctx k).cqTail = (s.ctx k).cqTail ∧ t.out = s.out ∧
      ((s.ctx k).errc = 0 → (t.ctx k).errc = 2)) := by
  intro t
  have ht : t = writeNotice s k := rfl
  unfold writeNotice at ht
  rw [hf] at ht
  dsimp only at ht
  rw [if_pos (by simp [hn, hroom])] at ht
  generalize hs1 : s.fresh.2.setCtx k { s.fresh.2.ctx k with defer := some { f with note := false } } = s1 at ht
  have hctx : ∀ j, s1.ctx j = if j = k then { s.ctx k with defer := some { f with note := false } } else s.ctx j := by
    intro j; rw [← hs1, setCtx_ctx]; rfl
  have hk := (hctx k).trans (if_pos rfl)
  have hout : s1.out = s.out := by rw [← hs1]; rfl
  have hbits : recordBits s1 k f.cmd 0x02 0 0 = recordBits s k f.cmd 0x02 0 0 := by simp [recordBits, hk]
  cases hb : bit (Config.freeWord s.free).toNat 0 with
  | true =>
    rw [if_pos (show bit (Config.freeWord s.fresh.1).toNat 0 = true from hb)] at ht
    have hcount : ∀ j, (s1.count (kCmdPerf 5) 1).ctx j = s1.ctx j := fun j => rfl
    have herr : ∀ j, t.ctx j = _ := fun j => (congrArg (fun x : State => x.ctx j) ht).trans (ctxError_cases _ k 2 j)
    have hkt := (herr k).trans (if_pos rfl)
    simp only [hcount, hk] at hkt
    refine ⟨by rw [hkt], by rw [hkt], fun j hj => (herr j).trans ((if_neg hj).trans ((hctx j).trans (if_neg hj))), nofun, fun _ =>
        ⟨by rw [hkt], ?_, ?_⟩⟩
    · rw [ht, ctxError_frame.out (by decide)]
      exact hout
    · intro h0
      rw [hkt]
      exact if_pos h0
  | false =>
    rw [if_neg (by rw [show bit (Config.freeWord s.fresh.1).toNat 0 = false from hb]; decide)] at ht
    obtain ⟨⟨l, hl⟩, hother, hkc⟩ := coalesce_spec (putRecord s1 k (recordBits s1 k f.cmd 0x02 0 0)) k
    rw [← ht] at hl hother hkc
    have hput : ∀ j, (putRecord s1 k (recordBits s1 k f.cmd 0x02 0 0)).ctx j = if j = k then { s1.ctx k with
        cqTail := ((s1.ctx k).cqTail + 1) % 2 ^ (s1.ctx k).cqLog
        cqPhase := if ((s1.ctx k).cqTail + 1) % 2 ^ (s1.ctx k).cqLog = 0 then !(s1.ctx k).cqPhase else (s1.ctx k).cqPhase } else s1.ctx j :=
      fun j => setCtx_ctx ..
    rw [(hput k).trans (if_pos rfl), hk] at hkc
    refine ⟨by rw [hkc], by rw [hkc], fun j hj => ?_, fun _ => ⟨by rw [hkc], l, ?_⟩, nofun⟩
    · rw [hother j hj, hput j, if_neg hj, hctx j, if_neg hj]
    · rw [hl]
      show s1.out ++ [Output.dma ((s1.ctx k).cqBase + 32 * (s1.ctx k).cqTail) (leBytes 32 (recordBits s1 k f.cmd 0x02 0 0))] ++ l = _
      rw [hbits, hout, hk]

theorem writeNotice_none {s : State} {k : Nat} (h : ∀ f, (s.ctx k).defer = some f → f.note = false) : writeNotice s k = s := by
  unfold writeNotice
  split
  · rename_i f hf
    rw [if_neg (by simp [h f hf])]
  · rfl

theorem execCmdSqDb_open {s : State} {q : QRef} {k : Nat} (hb : BarOpen s) (hq : ctxOf s q = some k) (v : Nat) : exec (.cmdSqDb q v) s =
    .next (if v ≥ 2 ^ (s.ctx k).sqLog then ctxError (s.setCtx k { s.ctx k with tail := v % 2 ^ 16 }) k 1
      else s.setCtx k { s.ctx k with tail := v % 2 ^ 16 }) :=
  congrArg _ ((atBar_open hb _ _).trans (onQueue_some hq _))

theorem execCmdCqDb_open {s : State} {q : QRef} {k : Nat} (hb : BarOpen s) (hq : ctxOf s q = some k) (v : Nat) : exec (.cmdCqDb q v) s =
    .next (writeNotice (s.setCtx k { s.ctx k with cqHead := v % 2 ^ (s.ctx k).cqLog }) k) :=
  congrArg _ ((atBar_open hb _ _).trans (onQueue_some hq _))

theorem execCmdSqBase_open {s : State} {q : QRef} {k : Nat} (hb : BarOpen s) (hq : ctxOf s q = some k) (completion : Bool) (v : Nat) :
    exec (.cmdSqBase q completion v) s = .next (if (s.ctx k).enable then barDrop s
      else s.setCtx k (if completion then { s.ctx k with cqBase := v % 2 ^ 64 / 4096 * 4096 }
        else { s.ctx k with sqBase := v % 2 ^ 64 / 4096 * 4096 })) :=
  congrArg _ ((atBar_open hb _ _).trans (onQueue_some hq _))

/-- Settles O22: each register's write is `onQueue` of its context; a waiting notice is `writeNotice_spec`. -/
theorem queueRegistersAreWritten : Obligations.QueueRegistersAreWritten := by
  refine ⟨fun s q k v hb hq hv => ?_, fun s q k v hb hq hv herr => ?_, fun s q k v hb hq hnote => ?_,
    fun s q k v f hb hq hf hnote hv hroom => ?_, fun s q k v hb hq hen hv => ?_, fun s q k v completion hb hq hen => ?_,
    fun s q v completion hb hq => ?_⟩
  · rw [execCmdSqDb_open hb hq, if_neg (by omega)]
  · refine ⟨_, execCmdSqDb_open hb hq v, ?_⟩
    rw [if_pos hv]
    have hctx : ∀ j, (ctxError (s.setCtx k { s.ctx k with tail := v % 2 ^ 16 }) k 1).ctx j = _ := fun j =>
      ctxError_ctx 1 j (by rw [setCtx_ctx_same]; exact herr)
    refine ⟨?_, fun j hj => ?_, ctxError_frame.mem (by decide), ctxError_frame.progs (by decide), ctxError_frame.doms (by decide)⟩
    · rw [hctx, if_pos rfl, setCtx_ctx_same]
    · rw [hctx, if_neg hj, setCtx_ctx_other _ _ hj]
  · rw [execCmdCqDb_open hb hq, writeNotice_none]
    rw [setCtx_ctx_same]
    exact hnote
  · refine ⟨_, execCmdCqDb_open hb hq v, ?_⟩
    have hmod : v % 2 ^ (s.ctx k).cqLog = v := Nat.mod_eq_of_lt hv
    generalize hs1 : s.setCtx k { s.ctx k with cqHead := v % 2 ^ (s.ctx k).cqLog } = s1
    have hk : s1.ctx k = { s.ctx k with cqHead := v } := by rw [← hs1, setCtx_ctx_same, hmod]
    have hj : ∀ j, j ≠ k → s1.ctx j = s.ctx j := fun j hj => by rw [← hs1, setCtx_ctx_other _ _ hj]
    have hout : s1.out = s.out := by rw [← hs1]; rfl
    have hfree : s1.free = s.free := by rw [← hs1]; rfl
    have hbits : recordBits s1 k f.cmd 0x02 0 0 = recordBits s k f.cmd 0x02 0 0 := by simp [recordBits, hk]
    have hfull : cqFull (s1.ctx k) = false := by simpa [hk, cqFull, hmod] using hroom
    obtain ⟨hhead, hdefer, hother, hgood, hbad⟩ := writeNotice_spec (f := f) (by rw [hk]; exact hf) hnote hfull
    simp only [hk, hout, hfree, hbits] at hhead hgood hbad
    refine ⟨hhead, hdefer, fun j h => (hother j h).trans (hj j h), fun hbit => ?_, hbad⟩
    obtain ⟨htail, l, hl⟩ := hgood hbit
    refine ⟨htail, ?_⟩
    rw [hl, List.take_append_of_le_length (by simp), List.take_of_length_le (by simp)]
  · have hv : v % 2 ^ 64 = v := Nat.mod_eq_of_lt hv
    constructor
    · rw [execCmdSqBase_open hb hq, hen, if_neg Bool.false_ne_true, if_neg Bool.false_ne_true, hv]
    · rw [execCmdSqBase_open hb hq, hen, if_neg Bool.false_ne_true, if_pos rfl, hv]
  · rw [execCmdSqBase_open hb hq, hen, if_pos rfl, barDrop]
  · have hdrop : ∀ i f, (Host.Outcome.next (atBar s i fun s => onQueue s q f) : Host.Outcome State Fault Refusal) =
        .next (s.count (kCmdPerf 4) 1) := fun i f => congrArg _ ((atBar_open hb _ _).trans (onQueue_none hq _))
    exact ⟨hdrop _ _, hdrop _ _, hdrop _ _, hdrop _ _⟩

/-- A context after a write of CMD_Q_CTL that is not dropped. -/
def ctlCtx (c : Ctx) (k v : Nat) : Ctx :=
  { c with
    enable := bit v 63, dnote := bit v 61 && k != adminKey, sqLog := bits v 60 56, cqLog := bits v 55 51, vec := bits v 48 42
    coalN := bits v 41 34, coalT := bits v 33 18 }

theorem execCmdQCtl_open {s : State} {q : QRef} {k : Nat} (hb : BarOpen s) (hq : ctxOf s q = some k) (v : Nat) :
    exec (.cmdQCtl q v) s = .next (
      if (bits v 60 56 < 4 || bits v 60 56 > 16 || bits v 55 51 < 4 || bits v 55 51 > 16 || bits v 48 42 ≥ vecsOf (fnOfCtx s k)) ||
        ((s.ctx k).enable && (bits v 60 56 != (s.ctx k).sqLog || bits v 55 51 != (s.ctx k).cqLog || bits v 48 42 != (s.ctx k).vec ||
          (k != adminKey && bits v 50 49 != (s.ctx k).home))) then barDrop s
      else if bit v 63 && ((s.ctx k).sqBase = 0 || (s.ctx k).cqBase = 0) then ctxError (s.setCtx k (ctlCtx (s.ctx k) k v)) k 3
      else s.setCtx k (ctlCtx (s.ctx k) k v)) :=
  congrArg _ ((atBar_open hb _ _).trans (onQueue_some hq _))

/-- Settles O23: the two checks of `qCtl`, then its fields, and `ctxError_ctx` for a ring base of 0. -/
theorem queueControlIsWritten : Obligations.QueueControlIsWritten := by
  refine ⟨fun s q k v hb hq hbad => ?_, fun s q k v hb hq hen hmove => ?_, fun s q k v hb hq h1 h2 h3 h4 h5 hsame => ?_⟩
  · rw [execCmdQCtl_open hb hq, if_pos]
    · rfl
    · simp only [Bool.or_eq_true, decide_eq_true_eq]
      omega
  · rw [execCmdQCtl_open hb hq, if_pos]
    · rfl
    · simp [hen, hmove, or_assoc]
  · have hgo : exec (.cmdQCtl q v) s = .next (
        if bit v 63 && ((s.ctx k).sqBase = 0 || (s.ctx k).cqBase = 0) then ctxError (s.setCtx k (ctlCtx (s.ctx k) k v)) k 3
        else s.setCtx k (ctlCtx (s.ctx k) k v)) := by
      rw [execCmdQCtl_open hb hq, if_neg]
      cases hen : (s.ctx k).enable with
      | false => simp; omega
      | true =>
        obtain ⟨hsq, hcq, hvec, hhome⟩ := hsame hen
        simp [← hsq, ← hcq, ← hvec]
        omega
    refine ⟨fun hquiet => ?_, fun hon hzero herr => ⟨_, hgo, ?_⟩⟩
    · rw [hgo]
      split
      · rename_i hz
        simp only [Bool.and_eq_true, Bool.or_eq_true, decide_eq_true_eq] at hz
        have herr : (s.ctx k).errc ≠ 0 := by
          rcases hquiet with h | h | h
          · simp [h] at hz
          · omega
          · exact h
        exact congrArg _ (ctxError_none 3 (by rw [setCtx_ctx_same]; exact herr))
      · rfl
    · rw [if_pos (by simp [hon, hzero])]
      have hctx : ∀ j, (ctxError (s.setCtx k (ctlCtx (s.ctx k) k v)) k 3).ctx j = _ := fun j =>
        ctxError_ctx 3 j (by rw [setCtx_ctx_same]; exact herr)
      refine ⟨?_, fun j hj => ?_, ctxError_frame.mem (by decide), ctxError_frame.progs (by decide), ctxError_frame.doms (by decide)⟩
      · rw [hctx, if_pos rfl, setCtx_ctx_same]; rfl
      · rw [hctx, if_neg hj, setCtx_ctx_other _ _ hj]

end Sys2Proof.Machine

namespace Sys2Proof.Machine

set_option Elab.async false

/-! ## BAR writes -/

theorem execBarWrite_open {s : State} (hb : BarOpen s) {fn : Nat} (hfn : fn ≤ 16) (off size v : Nat) :
    exec (.barWrite fn off size v) s = .next (barWrite s fn off size v) := by
  show execBarWrite fn off size v s = _
  unfold execBarWrite
  rw [if_neg (by omega), atBar_open hb]

/-- The window of domain d in BAR0 of the PF. -/
theorem barWrite_pf (s : State) {off : Nat} (size v : Nat) (h : off < 0x2000000) :
    barWrite s 0 off size v = windowWrite (off / 0x200000) (off % 0x200000) size v s := by
  unfold barWrite
  rw [if_neg (by omega), if_neg (by omega), if_neg (by omega), if_pos ⟨rfl, h⟩]

/-- The window of a VF. -/
theorem barWrite_vf (s : State) (d : Nat) {off : Nat} (size v : Nat) (h : off < 0x1C0000) :
    barWrite s (d + 1) off size v = windowWrite d off size v s := by
  unfold barWrite
  rw [if_neg (by omega), if_neg (by omega), if_neg (by omega), if_neg (by omega), if_pos (by omega), Nat.add_sub_cancel]

theorem windowWrite_block (s : State) (d q off size v : Nat) (hq : q < 4096) (hoff : off < 128) :
    windowWrite d (0x100000 + 128 * q + off) size v s = blockWrite (.dom d q) off size v s := by
  unfold windowWrite
  rw [if_pos (by omega), show (0x100000 + 128 * q + off - 0x100000) / 128 = q by omega, show (0x100000 + 128 * q + off) % 128 = off by
      omega]

theorem windowWrite_bell (s : State) (d q off size v : Nat) (hq : q < 4096) (hoff : off < 64) :
    windowWrite d (0x180000 + 64 * q + off) size v s = bellWrite (.dom d q) off size v s := by
  unfold windowWrite
  rw [if_neg (by omega), if_pos (by omega), show (0x180000 + 64 * q + off - 0x180000) / 64 = q by omega,
    show (0x180000 + 64 * q + off) % 64 = off by omega]

theorem barWrite_bar2 (s : State) (off size v : Nat) : barWrite s 0 (0x4000000 + off) size v = bar2Write s off size v := by
  unfold barWrite
  rw [if_pos (by omega), Nat.add_sub_cancel_left]

theorem bar2Up_of_open {s : State} (hb : BarOpen s) (hlock : s.sec.lock = true) : bar2Up s = true := by
  have h := hb.1
  simp only [hostUp, Bool.and_eq_true] at h
  simp [bar2Up, hlock, h.2, h.1.1.1]

theorem barWrite_msix (s : State) {off size : Nat} (v : Nat) (h1 : 0x2020000 ≤ off) (h2 : off + size ≤ 0x2020800) :
    barWrite s 0 off size v = msixWrite s 0 (off - 0x2020000) size v := by
  have h0 : ¬ (0 = 0 ∧ off ≥ 0x4000000) := by omega
  exact (if_neg h0).trans (if_pos ⟨rfl, h1, h2⟩)

/-- The fields of an MSI-X entry's word. -/
theorem msixWord_fields {x : Msix} {w : Nat} (hw : w = pack [(0, x.addr), (64, x.data), (96, b2n x.masked)]) (ha : x.addr < 2 ^ 64)
    (hd : x.data < 2 ^ 32) : bits w 63 0 = x.addr ∧ bits w 95 64 = x.data ∧ bit w 96 = x.masked := by
  have hsum : w = x.addr + x.data * 2 ^ 64 + b2n x.masked * 2 ^ 96 := by
    rw [hw, pack_cons, pack_cons, pack_cons, show pack [] = 0 from rfl]
    dsimp only
    omega
  have hm : b2n x.masked ≤ 1 := by cases x.masked <;> decide
  refine ⟨by rw [bits]; omega, by rw [bits]; omega, ?_⟩
  have hbit : w / 2 ^ 96 % 2 = b2n x.masked := by omega
  rw [bit, Nat.testBit_eq_decide_div_mod_eq, hbit]
  cases x.masked <;> rfl

/-- A write into an entry's word `w`, at bits `hi` to `lo`. -/
theorem msixWrite_word (s : State) {off size e hi lo : Nat} (v : Nat) (he : off / 16 = e) (hhi : 8 * (off % 16) + 8 * size - 1 = hi)
    (hlo : 8 * (off % 16) = lo) : ∃ w, w = pack [(0, (s.msix 0 e).addr), (64, (s.msix 0 e).data), (96, b2n (s.msix 0 e).masked)] ∧
    msixWrite s 0 off size v = let y : Msix := { addr := bits (setBits w hi lo v) 63 0, data := bits (setBits w hi lo v) 95 64
                                                 masked := bit (setBits w hi lo v) 96, pend := (s.msix 0 e).pend }
      if !y.masked && y.pend then (s.setMsix 0 e { y with pend := false }).emit (.msix 0 e y.addr y.data) else s.setMsix 0 e y := by
  subst he hhi hlo
  exact ⟨_, rfl, rfl⟩

/-- The address of an entry written. -/
theorem msixWrite_addr {s : State} {e v : Nat} (hv : v < 2 ^ 64) (ha : (s.msix 0 e).addr < 2 ^ 64) (hd : (s.msix 0 e).data < 2 ^ 32)
    (hp : (s.msix 0 e).pend = false) : msixWrite s 0 (16 * e) 8 v = s.setMsix 0 e { s.msix 0 e with addr := v } := by
  obtain ⟨w, hw, hwrite⟩ := msixWrite_word s (e := e) (off := 16 * e) (size := 8) (hi := 63) (lo := 0) v (by omega) (by omega) (by omega)
  obtain ⟨-, hdata, hmask⟩ := msixWord_fields hw ha hd
  have haddr : bits (setBits w 63 0 v) 63 0 = v := by rw [bits_setBits_same _ _ _ _ (by decide), Nat.mod_eq_of_lt hv]
  have hdata1 : bits (setBits w 63 0 v) 95 64 = (s.msix 0 e).data := by rw [bits_setBits_other _ _ _ _ _ _ (by decide) (by decide), hdata]
  have hmask1 : bit (setBits w 63 0 v) 96 = (s.msix 0 e).masked := by
    rw [bit, testBit_setBits _ _ _ _ _ (by decide), if_neg (by decide)]
    exact hmask
  rw [hwrite, haddr, hdata1, hmask1]
  dsimp only
  rw [if_neg (by rw [hp, Bool.and_false]; decide)]

/-- The mask of a pending entry cleared. -/
theorem msixWrite_unmask {s : State} {e v : Nat} (hv : v % 2 = 0) (ha : (s.msix 0 e).addr < 2 ^ 64) (hd : (s.msix 0 e).data < 2 ^ 32)
    (hp : (s.msix 0 e).pend = true) : msixWrite s 0 (16 * e + 12) 4 v =
      (s.setMsix 0 e { s.msix 0 e with masked := false, pend := false }).emit (.msix 0 e (s.msix 0 e).addr (s.msix 0 e).data) := by
  obtain ⟨w, hw, hwrite⟩ := msixWrite_word s (e := e) (off := 16 * e + 12) (size := 4) (hi := 127) (lo := 96) v (by omega) (by omega)
      (by omega)
  obtain ⟨haddr, hdata, -⟩ := msixWord_fields hw ha hd
  have haddr1 : bits (setBits w 127 96 v) 63 0 = (s.msix 0 e).addr := by rw [bits_setBits_other _ _ _ _ _ _ (by decide) (by decide), haddr]
  have hdata1 : bits (setBits w 127 96 v) 95 64 = (s.msix 0 e).data := by rw [bits_setBits_other _ _ _ _ _ _ (by decide) (by decide), hdata]
  have hmask1 : bit (setBits w 127 96 v) 96 = false := by
    rw [bit, testBit_setBits _ _ _ _ _ (by decide), if_pos (by decide), Nat.testBit_eq_decide_div_mod_eq, decide_eq_false_iff_not]
    simp only [Nat.sub_self, Nat.pow_zero, Nat.div_one]
    omega
  rw [hwrite, haddr1, hdata1, hmask1, hp]
  rfl

theorem execMgtMbCtl_open {s : State} (hup : bar2Up s = true) (hheld : barHeld s = false) (v : Nat) :
    exec (.mgtMbCtl v) s = .next (mbCtl v s) := by
  show execMgtMbCtl v s = _
  simp [execMgtMbCtl, hup, hheld]

/-- GO beside other bits that are not reserved is not reserved. -/
theorem go_and_mask {v : Nat} (h : v < 2 ^ 63) (hm : (v &&& mbCtlMask) = v) : ((2 ^ 63 + v) &&& mbCtlMask) = 2 ^ 63 + v := by
  refine Nat.eq_of_testBit_eq fun i => ?_
  have hi := congrArg (fun n => n.testBit i) hm
  simp only [Nat.testBit_and] at hi ⊢
  by_cases h63 : i = 63
  · subst h63
    rw [Nat.testBit_two_pow_add_eq, Nat.testBit_lt_two_pow h]
    decide
  · have hsplit : (2 ^ 63 + v).testBit i = v.testBit i := by
      rcases Nat.lt_or_gt_of_ne h63 with hlt | hgt
      · exact Nat.testBit_two_pow_add_gt hlt v
      · have hle : 2 ^ 64 ≤ 2 ^ i := Nat.pow_le_pow_right (by decide) hgt
        rw [Nat.testBit_lt_two_pow (by omega), Nat.testBit_lt_two_pow (by omega)]
    rw [hsplit]
    exact hi

theorem bit_go {v : Nat} (h : v < 2 ^ 63) : bit (2 ^ 63 + v) 63 = true := by
  rw [bit, Nat.testBit_two_pow_add_eq, Nat.testBit_lt_two_pow h]
  rfl

theorem barHeld_hold {s : State} {i : Instr} : holdBar s i = { s with cp := { s.cp with heldBar := s.cp.heldBar ++ [i] } } := rfl

/-- Settles O24: an address leads to its register by the laws of the windows, and the mailbox's register is `mbCtl`. -/
theorem barWritesAct : Obligations.BarWritesAct := by
  refine ⟨fun s d q v hb hd hq => ⟨?_, ?_, ?_, ?_⟩, fun s v hb => ⟨?_, ?_⟩, fun s off size v hb hoff hno => ?_,
    fun s off size v hb hlock hoff hidle => ?_, fun s off size v hb hlock hoff hsize => ?_, fun s e v hb he hv ha hdt hp => ?_,
    fun s e v hb he hv ha hdt hp => ?_, fun s fn off size v hdown => ?_, fun s fn off size v hup hheld hfn => ?_, fun s v hdown => ?_,
    fun s v hup hheld => ?_, fun s v hup hheld hbad => ?_, fun s v hup hheld hv hm => ?_, fun s v hb => ?_,
    fun s v hup hheld hctl hv hm hidle => ?_, fun s v hup hheld hv hm hbusy => ?_⟩
  · rw [execBarWrite_open hb (by omega), barWrite_pf _ _ _ (by omega),
      show (0x200000 * d + 0x180000 + 64 * q) / 0x200000 = d by omega,
      show (0x200000 * d + 0x180000 + 64 * q) % 0x200000 = 0x180000 + 64 * q + 0 by omega, windowWrite_bell _ _ _ _ _ _ hq (by decide)]
    exact congrArg _ (atBar_open hb _ _).symm
  · rw [execBarWrite_open hb (by omega), barWrite_vf _ _ _ _ (by omega), windowWrite_bell _ _ _ _ _ _ hq (by decide)]
    exact congrArg _ (atBar_open hb _ _).symm
  · rw [execBarWrite_open hb (by omega), barWrite_pf _ _ _ (by omega),
      show (0x200000 * d + 0x100000 + 128 * q) / 0x200000 = d by omega,
      show (0x200000 * d + 0x100000 + 128 * q) % 0x200000 = 0x100000 + 128 * q + 0 by omega, windowWrite_block _ _ _ _ _ _ hq (by decide)]
    exact congrArg _ (atBar_open hb _ _).symm
  · rw [execBarWrite_open hb (by omega), barWrite_vf _ _ _ _ (by omega), windowWrite_block _ _ _ _ _ _ hq (by decide)]
    exact congrArg _ (atBar_open hb _ _).symm
  · rw [execBarWrite_open hb (by omega), show barWrite s 0 0x2000010 8 v = qCtl .admin v s by simp [barWrite, blockWrite]]
    exact congrArg _ (atBar_open hb _ _).symm
  · rw [execBarWrite_open hb (by omega), show barWrite s 0 0x2000080 4 v = sqDb .admin v s by simp [barWrite, bellWrite]]
    exact congrArg _ (atBar_open hb _ _).symm
  · rw [execBarWrite_open hb (by omega), barWrite_pf _ _ _ hoff]
    unfold windowWrite
    split
    · unfold blockWrite
      rw [if_neg (by omega), if_neg (by omega), if_neg (by omega), barDrop]
    · rw [if_neg (by omega), barDrop]
  · rw [execBarWrite_open hb (by omega), barWrite_bar2]
    simp [bar2Write, bar2Up_of_open hb hlock, hoff, hidle]
  · rw [execBarWrite_open hb (by omega), barWrite_bar2]
    unfold bar2Write
    rw [if_neg (by simp [bar2Up_of_open hb hlock]), if_neg, if_neg (by omega)]
    simp only [Bool.and_eq_true, decide_eq_true_eq, bne_iff_ne]
    rintro ⟨hle, hidle⟩
    rcases hoff with ⟨-, hbusy⟩ | ⟨hge, -⟩
    · exact hidle hbusy
    · omega
  · rw [execBarWrite_open hb (by omega), barWrite_msix _ _ (by omega) (by omega), show 0x2020000 + 16 * e - 0x2020000 = 16 * e by omega,
      msixWrite_addr hv ha hdt hp]
  · rw [execBarWrite_open hb (by omega), barWrite_msix _ _ (by omega) (by omega),
      show 0x2020000 + 16 * e + 12 - 0x2020000 = 16 * e + 12 by omega, msixWrite_unmask hv ha hdt hp]
  · show execBarWrite fn off size v s = _
    simp [execBarWrite, atBar, hdown]
  · show execBarWrite fn off size v s = _
    unfold execBarWrite
    rw [if_neg (by omega)]
    simp [atBar, hup, hheld, barHeld_hold]
  · show execMgtMbCtl v s = _
    simp [execMgtMbCtl, hdown]
  · show execMgtMbCtl v s = _
    simp [execMgtMbCtl, hup, hheld, barHeld_hold]
  · rw [execMgtMbCtl_open hup hheld]
    simp [mbCtl, hup, hbad]
  · rw [execMgtMbCtl_open hup hheld]
    have hgo : bit v 63 = false := by rw [bit]; exact Nat.testBit_lt_two_pow hv
    unfold mbCtl
    rw [if_neg (by simp [hup]), if_neg (by simp [hm]), hgo, if_neg (by simp), Nat.mod_eq_of_lt hv]
    rfl
  · rw [execBarWrite_open hb (by omega)]
    have hwrite : barWrite s 0 0x4002000 8 v = if !bar2Up s then s else mbCtl v s := by
      rw [show (0x4002000 : Nat) = 0x4000000 + 0x2000 by rfl, barWrite_bar2]
      simp [bar2Write]
    show _ = execMgtMbCtl v s
    rw [hwrite]
    simp [execMgtMbCtl, hb.2]
  · rw [execMgtMbCtl_open hup hheld]
    unfold mbCtl
    rw [if_neg (by simp [hup]), if_neg (by rw [go_and_mask hv hm]; simp), if_neg (by simp [hidle, hctl])]
    have hctl2 : (2 ^ 63 + v) % 2 ^ 63 = v := by omega
    have hlen : (2 ^ 63 + v) % 8192 = v % 8192 := by omega
    simp only [bit_go hv, hctl2, hlen, if_true]
  · rw [execMgtMbCtl_open hup hheld]
    unfold mbCtl
    rw [if_neg (by simp [hup]), if_neg (by rw [go_and_mask hv hm]; simp), bit_go hv, if_pos]
    rcases hbusy with h | h <;> simp [h]

end Sys2Proof.Machine

namespace Sys2Proof.Machine

set_option Elab.async false

/-! ## Domains -/

/-- Each domain keeps everything but its INFLIGHT. -/
structure SameDoms (s t : State) : Prop where
  dom : ∀ e, t.dom e = { s.dom e with inflight := (t.dom e).inflight }

theorem SameDoms.refl (s : State) : SameDoms s s := ⟨fun _ => rfl⟩

theorem SameDoms.after {a b c : State} (g : SameDoms b c) (h : SameDoms a b) : SameDoms a c := ⟨fun e => by rw [g.dom e, h.dom e]⟩

theorem SameDoms.frame {w : List Part} {s t : State} (g : Frame w s t) (hw : Part.doms ∉ w := by decide) : SameDoms s t :=
  ⟨fun e => by rw [g.get_dom hw e]⟩

theorem SameDoms.foldl {α : Type} {f : State → α → State} (hf : ∀ t a, SameDoms t (f t a)) (l : List α) (s : State) :
    SameDoms s (l.foldl f s) :=
  foldl_inv (P := fun t => SameDoms s t) (.refl s) fun t a h => (hf t a).after h

theorem returnCredits_sameDoms (s : State) (c : Cmd) : SameDoms s (returnCredits s c) := by
  unfold returnCredits
  split
  · refine ⟨fun e => ?_⟩
    rw [setDom_dom]
    split
    · rename_i h; subst h; rfl
    · rfl
  · exact .refl s

theorem closeMuted_sameDoms (s : State) (k : Nat) (c : Cmd) : SameDoms s (closeMuted s k c) := by
  unfold closeMuted
  exact (SameDoms.frame State.countIf_frame).after ((SameDoms.frame State.countIf_frame).after ((SameDoms.frame State.count_frame).after
    ((SameDoms.frame State.setCtx_frame).after ((returnCredits_sameDoms ..).after (.frame publish_frame)))))

theorem closeMutes_sameDoms (s : State) (d : Nat) : SameDoms s (closeMutes s d) := by
  refine SameDoms.foldl (fun t k => ?_) _ s
  split
  · split
    · exact closeMuted_sameDoms ..
    · exact .refl _
  · exact .refl _

/-- A domain after the beginning of its teardown; the others keep everything but their INFLIGHT. -/
theorem teardown_dom {s : State} {d : Nat} (h : (s.dom d).st = .active) :
    (teardown s d).dom d = { s.dom d with
      st := .tearing, gen := ((s.dom d).gen + 1) % 4096, inflight := ((teardown s d).dom d).inflight } ∧
    (∀ e, e ≠ d → (teardown s d).dom e = { s.dom e with inflight := ((teardown s d).dom e).inflight }) ∧
    ((teardown s d).stp d).order = .none := by
  unfold teardown
  rw [if_neg (by simp [h])]
  extract_lets st s0 s1 _ s2 _ s3 s4 s5 _ _
  have h0 : SameDoms s s0 := by
    unfold s0
    split
    · exact .refl s
    · exact .frame modCmd_frame
  have h1 : SameDoms s s1 := (closeMutes_sameDoms ..).after ((SameDoms.frame mapCtxs_frame).after h0)
  have hblk : Frame [.ro, .blks] (s2.setStp d { s2.stp d with order := .none }) s3 := State.each_frame fun _ _ => dropBlock_frame
  have h5 : Frame [.ro, .blks, .fab, .back, .days] (s2.setStp d { s2.stp d with order := .none }) s5 :=
    quarHeld_frame.after (dropDaily_frame.after ((State.each_frame fun _ _ => dropPort_frame).after hblk.wider))
  have hdom : ∀ e, s5.dom e = s2.dom e := fun e => (h5.get_dom (by decide) e).trans rfl
  have hstp : s5.stp d = { s2.stp d with order := .none } := (h5.get_stp (by decide) d).trans (setStp_stp_same ..)
  clear_value s5
  refine ⟨?_, fun e he => ?_, ?_⟩
  · show s5.dom d = { s.dom d with st := .tearing, gen := ((s.dom d).gen + 1) % 4096, inflight := (s5.dom d).inflight }
    have hd2 : s2.dom d = { s1.dom d with st := .tearing, gen := ((s1.dom d).gen + 1) % 4096 } := setDom_dom_same ..
    rw [hdom, hd2, h1.dom d]
  · show s5.dom e = { s.dom e with inflight := (s5.dom e).inflight }
    rw [hdom, setDom_dom_other _ _ he]
    exact h1.dom e
  · show (s5.stp d).order = .none
    rw [hstp]

/-! ## Admin commands -/

/-- An admin command that stands at the head of its queue and is carried out. -/
theorem runAdmin_done {s t : State} {opc desc : Nat} {b : Bool} {run : State → Nat × State × Bool} (h : AdminReady s opc desc)
    (hr : run s = (0, t, b)) : runAdmin s opc desc run = adminTaken t desc (if b then .ended 0 0 else .running) := by
  unfold runAdmin
  simp [h.fetch, h.read, h.opc, h.clean, hr, adminTaken]

theorem adminTaken_ctx_other (t : State) (desc : Nat) (fin : Fin) {k : Nat} (h : k ≠ adminKey) : (adminTaken t desc fin).ctx k = t.ctx k :=
  setCtx_ctx_other _ _ h

theorem adminTaken_cmd (t : State) (desc : Nat) (fin : Fin) : ((adminTaken t desc fin).ctx adminKey).cmd =
    some { cmdOf 16 0 desc 0 0 with fin := fin } := by
  unfold adminTaken
  rw [count_get_ctx, setCtx_ctx_same]

theorem adminTaken_frame (t : State) (desc : Nat) (fin : Fin) : Frame [.ctxs, .ro] t (adminTaken t desc fin) :=
  State.count_frame.after State.setCtx_frame.wider

/-- Settles O25: the descriptor passes each check of DOM_CREATE. -/
theorem domCreateMakesADomain : Obligations.DomCreateMakesADomain := by
  intro s desc h d gen qb qc quota hquota hrange hfree hgen hapart
  have htaken : rangeTaken s d qb qc = false := by
    rw [rangeTaken, List.any_eq_false]
    intro e he
    have he := List.mem_range.mp he
    simp only [Bool.and_eq_true, bne_iff_ne, decide_eq_true_eq]
    rintro ⟨⟨⟨⟨⟨hne, hst⟩, hqc⟩, hcount⟩, hlow⟩, hhigh⟩
    rcases hapart e he hne with h | h | h | h | h
    · exact hst h
    all_goals omega
  refine congrArg Host.Outcome.next (runAdmin_done (b := true) h ?_)
  show (if _ then _ else _) = _
  rw [if_neg (by simp [show quota ≠ 0 from hquota, show ¬ 4096 < qb + qc by omega, quota, qb, qc]), if_neg (by simp [d, hfree]), if_neg
      hgen,
    if_neg (by simp [show rangeTaken s (aDom desc) (bits (dw desc 1) 43 32) (bits (dw desc 1) 56 44) = false from htaken])]

section
variable {s : State} {desc : Nat} (hact : (s.dom (aDom desc)).st = .active) (hq : aQueue desc < (s.dom (aDom desc)).qcount)
include hact hq

theorem exec_qCreate_of_free (h : AdminReady s 0x83 desc) (hmade : (s.ctx ((s.dom (aDom desc)).qbase + aQueue desc)).made = false)
    (hstep : bit (dw desc 1) 34 = true → (s.dom (aDom desc)).stepqEn = false) : exec (.qCreate desc) s = .next (adminTaken
      (if bit (dw desc 1) 34 then
        (s.setCtx ((s.dom (aDom desc)).qbase + aQueue desc) { ctxDflt ((s.dom (aDom desc)).qbase + aQueue desc) with
          made := true, home := bits (dw desc 1) 33 32, stepq := bit (dw desc 1) 34 }).setDom (aDom desc)
          { s.dom (aDom desc) with stepqEn := true }
      else s.setCtx ((s.dom (aDom desc)).qbase + aQueue desc) { ctxDflt ((s.dom (aDom desc)).qbase + aQueue desc) with
          made := true, home := bits (dw desc 1) 33 32, stepq := bit (dw desc 1) 34 }) desc (.ended 0 0)) := by
  refine congrArg Host.Outcome.next (runAdmin_done (b := true) h ?_)
  dsimp only
  rw [if_neg (by simp [hact]), if_neg]
  · rfl
  · cases hb : bit (dw desc 1) 34
    · simp [hq, hmade]
    · simp [hq, hmade, hstep hb]

theorem exec_qDelete_of_idle (h : AdminReady s 0x84 desc) (hmade : (s.ctx ((s.dom (aDom desc)).qbase + aQueue desc)).made = true)
    (hfl : inFlight (s.ctx ((s.dom (aDom desc)).qbase + aQueue desc)) = false) : ∃ s0,
    (∀ j, j ≠ (s.dom (aDom desc)).qbase + aQueue desc → s0.ctx j = s.ctx j) ∧
    ((s.ctx ((s.dom (aDom desc)).qbase + aQueue desc)).cmd = none → s0 = s) ∧
    exec (.qDelete desc) s = .next (adminTaken
      (if (s.ctx ((s.dom (aDom desc)).qbase + aQueue desc)).stepq then
        (s0.setCtx ((s.dom (aDom desc)).qbase + aQueue desc) (ctxDflt ((s.dom (aDom desc)).qbase + aQueue desc))).setDom (aDom desc)
          { s0.dom (aDom desc) with stepqEn := false }
      else s0.setCtx ((s.dom (aDom desc)).qbase + aQueue desc) (ctxDflt ((s.dom (aDom desc)).qbase + aQueue desc))) desc (.ended 0 0)) := by
  refine ⟨match (s.ctx ((s.dom (aDom desc)).qbase + aQueue desc)).cmd with
    | some c => closeMuted s ((s.dom (aDom desc)).qbase + aQueue desc) c
    | none => s, fun j hj => ?_, fun hnone => by rw [hnone], ?_⟩
  · split
    · exact closeMuted_ctx_other _ _ hj
    · rfl
  · refine congrArg Host.Outcome.next (runAdmin_done (b := true) h ?_)
    dsimp only
    rw [if_neg (by simp [hact]), if_neg (by omega), if_neg (by simp [hmade, hfl])]
    rfl

end

/-- Settles O27: each command's checks in their order, by `runAdmin_done` and `runAdmin_refuses`. -/
theorem adminCommandsChangeQueues : Obligations.AdminCommandsChangeQueues := by
  refine ⟨fun s desc h hquota hact => ?_, fun s desc h hact hq hmade hstep => ?_, fun s desc h hact hq hmade hstep hen => ?_,
    fun s desc h hact hq hmade hcmd hstep => ?_, fun s desc h hact hq hmade hfl hk => ?_, fun s desc h hact hq hmade hbad => ?_,
    fun s opc desc c hc h hact => ⟨fun hq => ?_, fun hq hbad => ?_⟩⟩
  · refine congrArg Host.Outcome.next (runAdmin_done (b := true) h ?_)
    dsimp only
    rw [if_neg hquota, if_neg (by simp [hact])]
  · rw [exec_qCreate_of_free hact hq h hmade (by simp [hstep]), hstep, if_neg Bool.false_ne_true]
  · rw [exec_qCreate_of_free hact hq h hmade fun _ => hen, hstep, if_pos rfl]
  · have hfl : inFlight (s.ctx ((s.dom (aDom desc)).qbase + aQueue desc)) = false := by simp [inFlight, hcmd]
    obtain ⟨s0, -, hs0, hexec⟩ := exec_qDelete_of_idle hact hq h hmade hfl
    rw [hexec, hs0 hcmd, if_neg (by simp [hstep])]
  · obtain ⟨s0, -, -, hexec⟩ := exec_qDelete_of_idle hact hq h hmade hfl
    refine ⟨_, hexec, ?_, ⟨_, adminTaken_cmd .., rfl⟩, fun hstep => ?_⟩
    · rw [adminTaken_ctx_other _ _ _ hk]
      split
      · exact setCtx_ctx_same ..
      · exact setCtx_ctx_same ..
    · rw [(adminTaken_frame ..).get_dom (by decide), if_pos hstep, setDom_dom_same]
  · refine congrArg Host.Outcome.next (runAdmin_done (b := true) h ?_)
    dsimp only
    rw [if_neg (by simp [hact]), if_neg (by simpa using hq), if_neg]
    simp only [Bool.or_eq_true, Bool.not_eq_true', Bool.and_eq_true, beq_iff_eq, not_or, not_and]
    refine ⟨by simp [hmade], fun hno => ?_⟩
    exact hbad.resolve_left fun hk => hk hno
  · rcases hc with ⟨rfl, rfl⟩ | ⟨rfl, rfl⟩
    · refine congrArg Host.Outcome.next (runAdmin_refuses (t := s) (b := true) h ?_ (by decide))
      dsimp only
      rw [if_neg (by simp [hact]), if_pos hq]
    · refine congrArg Host.Outcome.next (runAdmin_refuses (t := s) (b := true) h ?_ (by decide))
      dsimp only
      rw [if_neg (by simp [hact]), if_pos hq]
  · rcases hc with ⟨rfl, rfl⟩ | ⟨rfl, rfl⟩
    · refine congrArg Host.Outcome.next (runAdmin_refuses (t := s) (b := true) h ?_ (by decide))
      dsimp only
      rw [if_neg (by simp [hact]), if_neg (by simpa using hq), if_pos]
      simpa using hbad
    · refine congrArg Host.Outcome.next (runAdmin_refuses (t := s) (b := true) h ?_ (by decide))
      dsimp only
      rw [if_neg (by simp [hact]), if_neg (by simpa using hq), if_pos]
      simpa using hbad

end Sys2Proof.Machine

namespace Sys2Proof.Machine

set_option Elab.async false

/-! ## The end of a teardown -/

theorem complete_ctx_other (s : State) {k j : Nat} (c : Cmd) (ok : Bool) (h : j ≠ k) : (complete s k c ok).ctx j = s.ctx j := by
  unfold complete
  extract_lets f s1 rgen s2 s3 s4
  have h1 : s1.ctx j = s.ctx j := by
    unfold s1
    split
    · rfl
    · exact publish_ctx ..
  have h2 : s2.ctx j = s.ctx j := (setCtx_ctx_other _ _ h).trans h1
  have h3 : s3.ctx j = s.ctx j := (countIf_ctx ..).trans ((countIf_ctx ..).trans ((returnCredits_ctx ..).trans h2))
  have h4 : s4.ctx j = s.ctx j := by
    unfold s4
    split
    · exact h3
    · split
      · exact ((coalesce_spec _ k).2.1 j h).trans ((setCtx_ctx_other _ _ h).trans h3)
      · exact ((ctxError_cases _ k 2 j).trans (if_neg h)).trans h3
  split
  · exact (strike_frame.get_ctx (by decide) j).trans h4
  · exact h4

theorem complete_sameDoms (s : State) (k : Nat) (c : Cmd) (ok : Bool) : SameDoms s (complete s k c ok) := by
  unfold complete
  extract_lets f s1 rgen s2 s3 s4
  have h1 : SameDoms s s1 := by
    unfold s1
    split
    · exact .refl s
    · exact .frame publish_frame
  have h2 : SameDoms s s2 := (SameDoms.frame State.setCtx_frame).after h1
  have h3 : SameDoms s s3 := (SameDoms.frame State.countIf_frame).after ((SameDoms.frame State.countIf_frame).after
    ((returnCredits_sameDoms ..).after h2))
  have h4 : SameDoms s s4 := by
    unfold s4
    split
    · exact (SameDoms.frame State.count_frame).after h3
    · split
      · exact (SameDoms.frame coalesce_frame).after ((SameDoms.frame putRecord_frame).after h3)
      · exact (SameDoms.frame ctxError_frame).after ((SameDoms.frame State.count_frame).after h3)
  split
  · exact (SameDoms.frame strike_frame).after h4
  · exact h4

theorem lastRecord_ctx_other (lost : List Nat) (s : State) {k j : Nat} (h : j ≠ k) : (lastRecord lost s k).ctx j = s.ctx j := by
  unfold lastRecord
  split
  · rfl
  · split
    · exact complete_ctx_other _ _ _ h
    · exact closeMuted_ctx_other _ _ h

theorem lastRecord_sameDoms (lost : List Nat) (s : State) (k : Nat) : SameDoms s (lastRecord lost s k) := by
  unfold lastRecord
  split
  · exact .refl s
  · split
    · exact complete_sameDoms ..
    · exact closeMuted_sameDoms ..

theorem spFind_none_of_not_mem {α : Type} (l : Sparse α) (k : Nat) (h : ∀ v, (k, v) ∉ l) : spFind l k = none := by
  induction l with
  | nil => rfl
  | cons e l ih =>
    obtain ⟨i, v⟩ := e
    have hi : i ≠ k := fun hi => h v (by rw [hi]; exact List.mem_cons_self)
    rw [spFind, if_neg hi, ih fun w hw => h w (List.mem_cons_of_mem _ hw)]

/-- A key whose entries a filter drops reads as nothing listed. -/
theorem spGet_filter_gone {α : Type} {dflt : Nat → α} (l : Sparse α) (p : Nat × α → Bool) {k : Nat} (h : ∀ v, p (k, v) = false) :
    spGet dflt (l.filter p) k = dflt k := by
  induction l with
  | nil => rfl
  | cons e l ih =>
    obtain ⟨i, v⟩ := e
    by_cases hi : i = k
    · subst hi
      rw [List.filter_cons_of_neg (by simp [h v]), ih]
    · rw [List.filter_cons]
      split
      · rw [spGet, if_neg hi, ih]
      · exact ih

/-- What holds of every listed value, and of what an unlisted key reads as, holds of what any key reads as. -/
theorem spGet_all {α : Type} {dflt : Nat → α} {P : α → Prop} (l : Sparse α) (k : Nat) (h : ∀ e ∈ l, P e.2) (hd : P (dflt k)) :
    P (spGet dflt l k) := by
  induction l with
  | nil => exact hd
  | cons e l ih =>
    obtain ⟨i, v⟩ := e
    rw [spGet]
    split
    · exact h _ List.mem_cons_self
    · exact ih fun e he => h e (List.mem_cons_of_mem _ he)

/-- A binding removed stays removed. -/
theorem dropBinds_bind {s : State} {d k : Nat} (h : keyDom k = d) : (dropBinds s d).bind k = none := by
  have hstep : ∀ (l : List (Nat × Bind)) (t : State), (t.bind k = none ∨ ∃ b, (k, b) ∈ l) →
      (l.foldl (fun s e => unbind (zeroRange s (slotBase s e.1 e.2) 65536) e.1) t).bind k = none := by
    intro l
    induction l with
    | nil => exact fun t ht => ht.resolve_right (by simp)
    | cons e l ih =>
      intro t ht
      refine ih _ ?_
      by_cases he : k = e.1
      · exact .inl (he ▸ bind_unbind_same ..)
      · rcases ht with ht | ⟨b, hb⟩
        · exact .inl ((bind_unbind_other _ he).trans ht)
        · rcases List.mem_cons.mp hb with rfl | hb
          · exact absurd rfl he
          · exact .inr ⟨b, hb⟩
  refine hstep _ s ?_
  by_cases hb : ∃ b, (k, b) ∈ s.binds
  · obtain ⟨b, hb⟩ := hb
    exact .inr ⟨b, List.mem_filter.mpr ⟨hb, by simp [h]⟩⟩
  · exact .inl (spFind_none_of_not_mem _ _ fun v hv => hb ⟨v, hv⟩)

/-- What a domain's unloaded program leaves: no program, segment, page or binding of the domain; other programs stay. -/
theorem unloadProgram_facts {s u : State} {d : Nat} (hu : u = unloadProgram s d) :
    u.prog d = progDflt d ∧ (∀ e, e ≠ d → u.prog e = s.prog e) ∧ (∀ n, n < 4096 → u.seg d n = segNone) ∧
    (∀ e ∈ u.dirs, e.2.valid = true → e.2.dom ≠ d) ∧ (∀ k, keyDom k = d → u.bind k = none) := by
  subst hu
  unfold unloadProgram
  extract_lets n t
  have hbind : ∀ k, keyDom k = d → t.bind k = none := fun k hk =>
    (dropHeld_frame.get_bind (by decide) k).trans ((State.count_frame.get_bind (by decide) k).trans (dropBinds_bind hk))
  have hprogs : t.progs = s.progs :=
    (dropHeld_frame.progs (by decide)).trans ((State.count_frame.progs (by decide)).trans (dropBinds_frame.progs (by decide)))
  clear_value t
  refine ⟨spGet_del_same _ _, fun e he => (spGet_del_other _ he).trans (by rw [hprogs]; rfl), fun n hn => ?_, fun e he hv => ?_, hbind⟩
  · refine spGet_filter_gone _ _ fun v => ?_
    simp only [bne_eq_false_iff_eq]
    omega
  · have := (List.mem_filter.mp he).2
    simpa [hv] using this

/-- The state at the end of a teardown, before DOM_TEARDOWN's record. -/
def tornDown (a : GenAcks) (s : State) : State :=
  let d := a.dom
  let x := s.dom d
  let mine := fun (k : Nat) => decide (x.qbase ≤ k) && decide (k < x.qbase + x.qcount)
  let s0 := ((s.cp.ctxs.map (·.1)).filter mine).foldl (lastRecord a.lost) (s.count (kMem 5) a.quar)
  let u := unloadProgram s0 d
  let s1 := { u with
    cp := { u.cp with ctxs := u.cp.ctxs.filter (fun e => !mine e.1) }
    grds := u.grds.map (fun (e : Nat × Grd) => (e.1, dropSlots d e.2))
    days := spDel u.days d }
  s1.setDom d { domDflt 0 with gen := x.gen, lastGen := (x.gen + 4095) % 4096 }

theorem execTeardownGenAcked_torn {s : State} (a : GenAcks) (hd : a.dom < 16) (href : s.cp.pcieRef = true)
    (hst : (s.dom a.dom).st = .tearing) : exec (.teardownGenAcked a) s =
      .next (if (s.dom a.dom).tearCtx then adminDone (tornDown a s) 0 0 else tornDown a s) := by
  show execTeardownGenAcked a s = _
  unfold execTeardownGenAcked
  dsimp only
  rw [if_neg (by simp [hd, href, hst])]
  rfl

theorem lastRecords_ctx_other (lost : List Nat) (l : List Nat) {k : Nat} (h : k ∉ l) (s : State) :
    (l.foldl (lastRecord lost) s).ctx k = s.ctx k := by
  induction l generalizing s with
  | nil => rfl
  | cons j l ih =>
    rw [List.foldl_cons, ih (fun hk => h (List.mem_cons_of_mem _ hk)),
      lastRecord_ctx_other _ _ fun hk => h (by rw [hk]; exact List.mem_cons_self)]

theorem tornDown_facts (a : GenAcks) (s : State) :
    (tornDown a s).dom a.dom = { domDflt 0 with gen := (s.dom a.dom).gen, lastGen := ((s.dom a.dom).gen + 4095) % 4096 } ∧
    (tornDown a s).prog a.dom = progDflt a.dom ∧ (∀ n, n < 4096 → (tornDown a s).seg a.dom n = segNone) ∧
    (∀ e ∈ (tornDown a s).dirs, e.2.valid = true → e.2.dom ≠ a.dom) ∧ (∀ r, ∀ x ∈ ((tornDown a s).grd r).slots, x.2.dom ≠ a.dom) ∧
    (∀ key, keyDom key = a.dom → (tornDown a s).bind key = none) ∧
    (∀ k, (s.dom a.dom).qbase ≤ k → k < (s.dom a.dom).qbase + (s.dom a.dom).qcount → (tornDown a s).ctx k = ctxDflt k) ∧
    (∀ k, ¬ ((s.dom a.dom).qbase ≤ k ∧ k < (s.dom a.dom).qbase + (s.dom a.dom).qcount) → (tornDown a s).ctx k = s.ctx k) ∧
    (∀ e, e ≠ a.dom → (tornDown a s).dom e = { s.dom e with inflight := ((tornDown a s).dom e).inflight } ∧
      (tornDown a s).prog e = s.prog e) := by
  unfold tornDown
  extract_lets d x mine s0 u _ s1 _
  have hsame : SameDoms s s0 := (SameDoms.foldl (fun t k => lastRecord_sameDoms _ t k) _ _).after (.frame State.count_frame)
  have hrecords : Frame [.out, .ro, .clap, .doms, .ctxs, .ress, .msix, .blks] s s0 :=
    (frame_foldl (fun _ _ => lastRecord_frame) (.refl _ _)).trans State.count_frame.wider
  have hctx : ∀ k, mine k = false → s0.ctx k = s.ctx k := fun k hk =>
    (lastRecords_ctx_other _ _ (fun hmem => by simp [hk] at hmem) _).trans rfl
  obtain ⟨hprog, hprogs, hseg, hdirs, hbind⟩ := unloadProgram_facts (u := u) (d := d) rfl
  have hu : Frame [.ro, .progs, .steps, .segs, .blks, .mem, .dirs, .binds, .back, .grds, .xchs] s0 u := unloadProgram_frame
  clear_value s0
  have huctx : ∀ k, u.ctx k = s0.ctx k := hu.get_ctx (by decide)
  have hudom : ∀ e, u.dom e = s0.dom e := hu.get_dom (by decide)
  clear_value u
  refine ⟨setDom_dom_same .., hprog, hseg, hdirs, fun r => ?_, hbind, fun k h1 h2 => ?_, fun k hk => ?_, fun e he => ⟨?_, ?_⟩⟩
  · refine spGet_all (P := fun g : Grd => ∀ x ∈ g.slots, x.2.dom ≠ d) _ r (fun e he => ?_) (by simp [grdDflt])
    obtain ⟨g, -, rfl⟩ := List.mem_map.mp he
    intro x hx
    simpa using (List.mem_filter.mp hx).2
  · exact spGet_filter_gone _ _ fun v => by simp [mine, x, d, h1, h2]
  · have hmine : mine k = false := by simpa [mine] using hk
    exact (spGet_filter _ _ fun v => by simp [hmine]).trans ((huctx k).trans (hctx k hmine))
  · rw [setDom_dom_other _ _ he]
    exact (hudom e).trans ((hsame.dom e).trans (by rw [← hudom e]; rfl))
  · exact (hprogs e he).trans (hrecords.get_prog (by decide) e)

/-- A command that stands, and whose record is not to be discarded, ends in its context. -/
theorem endCmd_setCtx {s : State} {k : Nat} (h : Open s k) (st re : Nat) (pl : List Byte) : ∃ x, endCmd s k st re pl = s.setCtx k x := by
  obtain ⟨c, hcmd, hmuted⟩ := h
  unfold endCmd
  rw [hcmd]
  dsimp only
  rw [if_neg (by simp [hmuted])]
  exact ⟨_, rfl⟩

/-- Settles O28: the beginning is `teardown_dom`, the end `tornDown_facts`. -/
theorem teardownFreesADomain : Obligations.TeardownFreesADomain := by
  refine ⟨fun s desc h hact => ?_, fun s d quar lost hd href hst htear => ?_, fun s d quar lost c hd href hst htear hrange hcmd hmuted =>
      ?_⟩
  · obtain ⟨hdom, hothers, hstep⟩ := teardown_dom hact
    have hexec : exec (.domTeardown desc) s = .next (adminTaken ((teardown s (aDom desc)).setDom (aDom desc)
        { (teardown s (aDom desc)).dom (aDom desc) with tearCtx := true }) desc .running) := by
      refine congrArg Host.Outcome.next (runAdmin_done (b := false) h ?_)
      dsimp only
      rw [if_neg (by simp [hact])]
    have hall := next_frame hexec
    dsimp only [mayChange] at hall
    generalize ht : adminTaken _ desc .running = t at hexec hall
    have htaken : ∀ e, t.dom e = _ := fun e => ht ▸ (adminTaken_frame ..).get_dom (by decide) e
    have hd : t.dom (aDom desc) = _ := (htaken _).trans (setDom_dom_same ..)
    refine ⟨t, hexec, by rw [hd, hdom], by rw [hd, hdom], by rw [hd], ?_, fun e he => ?_, ⟨_, ht ▸ adminTaken_cmd .., rfl⟩,
      hall.mem (by decide), hall.progs (by decide), hall.segs (by decide), hall.dirs (by decide)⟩
    · rw [← ht, (adminTaken_frame ..).get_stp (by decide)]
      exact hstep
    · rw [(htaken e).trans (setDom_dom_other _ _ he)]
      exact hothers e he
  · obtain ⟨hdom, hprog, hseg, hdirs, hgrd, hbind, hctx, -, hothers⟩ := tornDown_facts ⟨d, quar, lost⟩ s
    refine ⟨_, execTeardownGenAcked_torn ⟨d, quar, lost⟩ hd href hst, ?_⟩
    rw [if_neg (by simp [htear])]
    exact ⟨hdom, hprog, hseg, hdirs, hgrd, hbind, hctx, hothers⟩
  · obtain ⟨hdom, hprog, -, -, -, -, -, hkeep, -⟩ := tornDown_facts ⟨d, quar, lost⟩ s
    refine ⟨_, execTeardownGenAcked_torn ⟨d, quar, lost⟩ hd href hst, ?_⟩
    rw [if_pos htear]
    have hopen : Open (tornDown ⟨d, quar, lost⟩ s) adminKey := ⟨c, by rw [hkeep adminKey (by dsimp only; omega), hcmd], hmuted⟩
    refine ⟨?_, ?_, endCmd_ended hopen⟩
    · obtain ⟨x, hx⟩ := endCmd_setCtx hopen 0 0 []
      rw [show adminDone (tornDown ⟨d, quar, lost⟩ s) 0 0 = _ from hx, setCtx_get_dom, hdom]
      rfl
    · obtain ⟨x, hx⟩ := endCmd_setCtx hopen 0 0 []
      rw [show adminDone (tornDown ⟨d, quar, lost⟩ s) 0 0 = _ from hx, setCtx_get_prog, hprog]

end Sys2Proof.Machine


namespace Sys2Proof.Machine

set_option Elab.async false

/-! ## Admission -/

/-- What an admission leaves. -/
theorem grant_facts (s : State) (k : Nat) (c : Cmd) : let t := grant s k c
    t.ctx k = { advance (s.ctx k) with cmd := some { c with admitted := true }, defer := none } ∧
    (∀ j, j ≠ k → t.ctx j = s.ctx j) ∧
    t.dom c.dom = { s.dom c.dom with inflight := (s.dom c.dom).inflight + c.cost, deferOrder := (s.dom c.dom).deferOrder + 1 } ∧
    (∀ d, d ≠ c.dom → t.dom d = s.dom d) ∧
    (dRes c.desc < 256 → t.res c.dom (dRes c.desc) =
      { s.res c.dom (dRes c.desc) with named := (s.res c.dom (dRes c.desc)).named + 1 }) := by
  intro t
  refine ⟨grant_ctx_eq s k c, ?_⟩
  simp only [t]
  unfold grant
  dsimp only
  refine ⟨fun j hj => ?_, ?_, fun d hd => ?_, fun hr => ?_⟩
  · exact (State.count_frame.get_ctx (by decide) j).trans ((frame_ite State.setRes_frame (Frame.refl _ _) |>.get_ctx (by decide) j).trans
      (State.setDom_frame.get_ctx (by decide) j |>.trans (setCtx_ctx_other _ _ hj)))
  · exact (State.count_frame.get_dom (by decide) _).trans ((frame_ite State.setRes_frame (Frame.refl _ _) |>.get_dom (by decide) _).trans
      (setDom_dom_same ..))
  · exact (State.count_frame.get_dom (by decide) _).trans ((frame_ite State.setRes_frame (Frame.refl _ _) |>.get_dom (by decide) _).trans
      (setDom_dom_other _ _ hd))
  · rw [if_pos hr]
    exact spGet_set_same ..

/-- Settles O29: each row of a domain queue is `runCommand` with the specification of its opcode, and what an admission leaves is
`grant_facts`. -/
theorem admittedCommandsRun : Obligations.AdmittedCommandsRun := by
  refine ⟨fun s d q k desc pay ok => ?_, fun s k c => ?_⟩
  · have run (x : CmdSpec) (h : Admissible s d q k desc x) :
        (.next (runCommand s d q desc x) : Host.Outcome State Fault Refusal) = .next (x.run (grant s k (cmdAt s d q desc x)) k) :=
      congrArg _ (runCommand_admissible h)
    exact ⟨run _, run _, run _, run _, run _, run _, run _, run _, run _, run _, run _⟩
  · obtain ⟨h1, h2, h3, h4, h5⟩ := grant_facts s k c
    exact ⟨h1, h2, h3, h4, h5, by
      have g := grant_frame (s := s) (a := k) (b := c)
      generalize grant s k c = t at g
      exact g.eq.trans rfl⟩

/-! ## Plain reads that no slot takes part in -/

theorem Frame.maLoc {s t : State} {w : List Part} (g : Frame w s t) (h : .segs ∉ w) (d a : Nat) : maLoc t d a = maLoc s d a := by
  simp only [Machine.maLoc, State.seg, g.segs h]

/-- A range of plain lines reads the same where its segments and memory are the same. -/
theorem Frame.ldBytes_plain {s t : State} {w : List Part} {d a n : Nat} (g : Frame w s t) (h : dataOk s d a n = true) (hs : .segs ∉ w)
    (hm : .mem ∉ w) (hb : .back ∉ w) : ldBytes t d a n = ldBytes s d a n := by
  have hline : ∀ la ∈ linesOf a n, ldLine t d la = ldLine s d la := fun la hla => by
    obtain ⟨y, hy⟩ := dataOk_line h hla
    simp only [ldLine, g.maLoc hs, hy, State.rdBytes, State.rdP, g.mem hm, g.back hb]
  unfold ldBytes
  rw [List.map_congr_left hline]

/-- A range of plain lines meets the same poison where its segments and the poisoned words are the same. -/
theorem Frame.poisonHit_plain {s t : State} {w : List Part} {d a n : Nat} (g : Frame w s t) (h : dataOk s d a n = true) (hs : .segs ∉ w)
    (hb : .back ∉ w) : poisonHit t d [(a, n)] = poisonHit s d [(a, n)] := by
  have hline : ∀ la ∈ linesOf a n, lineAt t d la = lineAt s d la := fun la hla => by
    obtain ⟨y, hy⟩ := dataOk_line h hla
    simp only [lineAt, g.maLoc hs, hy]
  have hmap := List.map_congr_left (l := linesOf a n) (f := fun la => (lineAt t d la).bind fun p =>
    poisonAt t (p + (max la a - la)) (min (la + 64) (a + n) - max la a)) (g := fun la => (lineAt s d la).bind fun p =>
    poisonAt s (p + (max la a - la)) (min (la + 64) (a + n) - max la a))
    fun la hla => by simp only [hline la hla, poisonAt, g.back hb]
  have hfind := congrArg (List.findSome? id) hmap
  simp only [List.findSome?_map, Function.id_comp] at hfind
  simp only [poisonHit, g.back hb, List.flatMap_cons, List.flatMap_nil, List.append_nil, List.findSome?_map]
  exact congrArg _ hfind

/-! ## Freezing pages -/

theorem applyFreeze_dir (s : State) (d desc p : Nat) : (applyFreeze s d desc).dir p =
    if wPage desc ≤ p ∧ p < wPage desc + wCount desc ∧ (s.dir p).valid = true ∧ (s.dir p).dom = d
      then { s.dir p with frozen := bit (dw desc 1) 63 } else s.dir p := by
  unfold applyFreeze wPage wCount
  dsimp only
  generalize bits (dw desc 1) 15 0 = n
  generalize bits (dw desc 1) 52 32 = p0
  generalize bit (dw desc 1) 63 = fz
  induction n with
  | zero => rw [if_neg (by omega)]; rfl
  | succ n ih =>
    rw [List.range_succ, List.foldl_append, List.foldl_cons, List.foldl_nil]
    generalize (List.range n).foldl _ s = t at ih ⊢
    by_cases hp : p = p0 + n
    · subst hp
      rw [if_neg (by omega)] at ih
      simp only [ih, Bool.and_eq_true, beq_iff_eq, Nat.le_add_right, Nat.add_lt_add_iff_left, Nat.lt_add_one, true_and]
      split
      · exact setDir_dir_same ..
      · exact ih
    · have hstay : ∀ u : State, (if (t.dir (p0 + n)).valid && (t.dir (p0 + n)).dom == d then
          t.setDir (p0 + n) { t.dir (p0 + n) with frozen := fz } else t).dir p = t.dir p := fun _ => by
        split
        · exact setDir_dir_other _ _ hp
        · rfl
      rw [hstay t, ih]
      simp only [show p < p0 + n ↔ p < p0 + (n + 1) by omega]

end Sys2Proof.Machine


namespace Sys2Proof.Machine

set_option Elab.async false

/-! ## What a start of a step survives

The OPEN of an emission buffer may meet a poisoned word, whose report kills a region and stops the attempt (R18, R357). Even then a block
keeps the phase, the domain and the step that it was started with, has no item, and the step keeps its number, attempt and list set. -/

/-- Of a block: the same phase, domain, step and map, and the same substitution under way. -/
structure BlkHead (x y : Blk) : Prop where
  phase : y.phase = x.phase
  dom : y.dom = x.dom
  step : y.step = x.step
  map : y.map = x.map
  subst : y.subst = x.subst

/-- Of a block: the same head, and no item where it had none. -/
structure BlkKept (x y : Blk) : Prop extends BlkHead x y where
  items : x.items = [] → y.items = []

/-- Of a step: the same order, number, attempt, list set and context. -/
structure StpKept (x y : StepSt) : Prop where
  order : y.order = x.order
  no : y.no = x.no
  att : y.att = x.att
  lset : y.lset = x.lset
  ctx : y.ctx = x.ctx

structure AttemptKept (s t : State) : Prop where
  blk : ∀ b, BlkKept (s.blk b) (t.blk b)
  stp : ∀ d, StpKept (s.stp d) (t.stp d)

theorem BlkHead.refl (x : Blk) : BlkHead x x := ⟨rfl, rfl, rfl, rfl, rfl⟩

theorem BlkHead.trans {x y z : Blk} (h : BlkHead x y) (k : BlkHead y z) : BlkHead x z :=
  ⟨k.phase.trans h.phase, k.dom.trans h.dom, k.step.trans h.step, k.map.trans h.map, k.subst.trans h.subst⟩

theorem BlkKept.refl (x : Blk) : BlkKept x x := ⟨.refl x, id⟩

theorem BlkKept.trans {x y z : Blk} (h : BlkKept x y) (k : BlkKept y z) : BlkKept x z :=
  ⟨h.toBlkHead.trans k.toBlkHead, fun e => k.items (h.items e)⟩

theorem StpKept.refl (x : StepSt) : StpKept x x := ⟨rfl, rfl, rfl, rfl, rfl⟩

theorem StpKept.trans {x y z : StepSt} (h : StpKept x y) (k : StpKept y z) : StpKept x z :=
  ⟨k.order.trans h.order, k.no.trans h.no, k.att.trans h.att, k.lset.trans h.lset, k.ctx.trans h.ctx⟩

section
variable {s t u : State}

theorem AttemptKept.refl (s : State) : AttemptKept s s := ⟨fun _ => .refl _, fun _ => .refl _⟩

theorem AttemptKept.trans (h : AttemptKept s t) (k : AttemptKept t u) : AttemptKept s u :=
  ⟨fun b => (h.blk b).trans (k.blk b), fun d => (h.stp d).trans (k.stp d)⟩

theorem AttemptKept.frame {w : List Part} (h : AttemptKept s t) (g : Frame w t u) (hb : Part.blks ∉ w := by decide)
    (hs : Part.steps ∉ w := by decide) : AttemptKept s u :=
  h.trans ⟨fun b => (g.get_blk hb b).symm ▸ .refl _, fun d => (g.get_stp hs d).symm ▸ .refl _⟩

theorem AttemptKept.count (h : AttemptKept s t) (k v : Nat) : AttemptKept s (t.count k v) := h.frame State.count_frame

theorem AttemptKept.setBlk {b : Nat} {x : Blk} (h : AttemptKept s t) (hx : BlkKept (t.blk b) x) : AttemptKept s (t.setBlk b x) :=
  h.trans ⟨fun c => by
    rw [setBlk_blk]
    split
    · rename_i hc; subst hc; exact hx
    · exact .refl _, fun _ => .refl _⟩

theorem AttemptKept.each {α : Type} {f : State → α → State} (h : AttemptKept s t) (hf : ∀ u a, AttemptKept u (f u a)) (l : List α) :
    AttemptKept s (t.each l f) :=
  foldl_inv (P := fun u => AttemptKept s u) h fun u a k => k.trans (hf u a)

theorem AttemptKept.ite {p : Prop} [Decidable p] (h : AttemptKept s t) (k : AttemptKept s u) : AttemptKept s (if p then t else u) := by
  split
  · exact h
  · exact k

theorem strike_attemptKept (s : State) (src : Nat) : AttemptKept s (strike s src) := by
  have hcap (seq : Nat) (u : State) (b : Nat) : AttemptKept u (capture seq src u b) := by
    unfold capture
    refine .count (.setBlk (.refl u) ?_) _ _
    exact ⟨⟨rfl, rfl, rfl, rfl, rfl⟩, id⟩
  have hdo (u : State) : AttemptKept u (strike.doStrike src u) := by
    unfold strike.doStrike
    refine .each ?_ (hcap _) _
    exact ⟨fun _ => .refl _, fun _ => .refl _⟩
  unfold strike
  refine .ite (.refl s) ?_
  split
  · exact .ite ((AttemptKept.refl s).count _ _) (hdo s)
  · exact hdo s

theorem traceBurst_attemptKept (s : State) (b l i ev : Nat) : AttemptKept s (traceBurst s b l i ev) := by
  unfold traceBurst
  dsimp only
  split
  · exact .refl s
  · exact .ite (.ite ((AttemptKept.refl s).count _ _) (.setBlk (.refl s) ⟨⟨rfl, rfl, rfl, rfl, rfl⟩, id⟩)) (.refl s)

theorem countRunEvts_blk (s : State) (b ki c : Nat) : (countRunEvts s b ki).blk c = if c = b then
    { s.blk b with items := spSet itemDflt (s.blk b).items ki { spGet itemDflt (s.blk b).items ki with evts := [] } } else s.blk c := by
  unfold countRunEvts
  dsimp only
  rw [(State.each_frame (w := [.ro]) fun _ _ => State.count_frame).get_blk (by decide), setBlk_blk]

theorem traceBurst_other (s : State) {b c : Nat} (l i ev : Nat) (hc : c ≠ b) : (traceBurst s b l i ev).blk c = s.blk c := by
  unfold traceBurst
  dsimp only
  split
  · rfl
  · split
    · split
      · rfl
      · exact setBlk_blk_other _ _ hc
    · rfl

theorem stopItem_other {b c : Nat} (s : State) (ki : Nat) (hc : c ≠ b) : (stopItem b s ki).blk c = s.blk c := by
  unfold stopItem
  dsimp only
  split
  · rw [State.count_frame.get_blk (by decide), setBlk_blk_other _ _ hc, countRunEvts_blk, if_neg hc, traceBurst_other _ _ _ _ hc]
  · rfl

/-- A running item that is stopped leaves the head of its block. -/
theorem stopItem_head (s : State) (b ki : Nat) : BlkHead (s.blk b) ((stopItem b s ki).blk b) := by
  have h := (traceBurst_attemptKept s b (ki / 65536) (ki % 65536) 4).blk b
  unfold stopItem
  dsimp only
  split
  · rw [State.count_frame.get_blk (by decide), setBlk_blk_same, countRunEvts_blk, if_pos rfl]
    exact ⟨h.phase, h.dom, h.step, h.map, h.subst⟩
  · exact .refl _

theorem stopBlock_attemptKept (s : State) (b : Nat) : AttemptKept s (stopBlock s b) := by
  unfold stopBlock
  dsimp only
  have h0 : AttemptKept s (drainTrace (s.each (List.range 8) (dropItemTx b)) b) := by
    unfold drainTrace
    exact .setBlk (.each (.refl s) (fun u p => (AttemptKept.refl u).frame dropItemTx_frame) _) ⟨⟨rfl, rfl, rfl, rfl, rfl⟩, id⟩
  generalize drainTrace (s.each (List.range 8) (dropItemTx b)) b = t at h0 ⊢
  generalize (t.blk b).items.map (·.1) = l
  have hother (c : Nat) (hc : c ≠ b) : (t.each l (stopItem b)).blk c = t.blk c :=
    State.each_same_of_mem (State.blk · c) _ _ (fun u ki _ => stopItem_other u ki hc) t
  have hhead : BlkHead (t.blk b) ((t.each l (stopItem b)).blk b) :=
    foldl_inv (P := fun u : State => BlkHead (t.blk b) (u.blk b)) (.refl _) fun u ki h => h.trans (stopItem_head u b ki)
  have hstp (d : Nat) : (t.each l (stopItem b)).stp d = t.stp d := (State.each_frame fun _ _ => stopItem_frame).get_stp (by decide) d
  generalize t.each l (stopItem b) = u at hother hhead hstp ⊢
  refine h0.trans ⟨fun c => ?_, fun d => ?_⟩
  · rw [setBlk_blk]
    split
    · rename_i hc
      subst hc
      exact ⟨⟨hhead.phase, hhead.dom, hhead.step, hhead.map, hhead.subst⟩, fun _ => rfl⟩
    · rename_i hc
      rw [hother c hc]
      exact .refl _
  · rw [show (u.setBlk b _).stp d = u.stp d from rfl, hstp d]
    exact .refl _

theorem abortAttempt_attemptKept (s : State) (d : Nat) : AttemptKept s (abortAttempt s d) := by
  unfold abortAttempt
  refine .ite ?_ (.refl s)
  have h0 : AttemptKept s (s.setStp d { s.stp d with stopped := true }) := ⟨fun _ => .refl _, fun e => by
    rw [setStp_stp]
    split
    · rename_i he; subst he; exact ⟨rfl, rfl, rfl, rfl, rfl⟩
    · exact .refl _⟩
  have h1 := h0.each (fun u b => stopBlock_attemptKept u b)
    ((progBlocks (s.setStp d { s.stp d with stopped := true }) d).filter fun b =>
      ((s.setStp d { s.stp d with stopped := true }).blk b).dom == d && ((s.setStp d { s.stp d with stopped := true }).blk b).phase !=
          .idle)
  exact ⟨h1.blk, h1.stp⟩

theorem killRegion_attemptKept (s : State) (r n aff : Nat) : AttemptKept s (killRegion s r n aff) := by
  unfold killRegion
  refine .each (.each ?_ (fun _ _ => (AttemptKept.refl _).frame dailyAbandon_frame) _) (fun _ _ => abortAttempt_attemptKept _ _) _
  exact ((AttemptKept.frame (.refl s) State.setReg_frame).frame killHomed_frame).frame emptyGrader_frame

theorem regionFault_attemptKept (s : State) (r src : Nat) (f : Fact) : AttemptKept s (regionFault s r src f) := by
  have h := AttemptKept.refl s
  unfold regionFault
  refine .ite (h.count _ _) (.ite (h.count _ _) (.ite (.count ?_ _ _) h))
  exact ((h.frame logFault_frame).trans (strike_attemptKept _ _)).trans (killRegion_attemptKept _ _ _ _)

theorem poisonFault_attemptKept (s : State) (w : Nat) : AttemptKept s (poisonFault s w) := by
  have h := (AttemptKept.refl s).count (kSram 2) 1
  unfold poisonFault sliceFault
  exact .ite (h.frame containFault_frame) (.ite h ((h.count _ _).trans (regionFault_attemptKept _ _ _ _)))

theorem slotWrite_attemptKept (s : State) (h : Held) : AttemptKept s (slotWrite s h) := by
  have hdone (u : State) (key : Nat) : AttemptKept u (depositDone u key) := by
    unfold depositDone
    split
    · exact .refl u
    · dsimp only
      generalize blkOfCell (keyCell key) = k
      have h0 : AttemptKept u (u.setBlk k { u.blk k with wdt := 0 }) := .setBlk (.refl u) ⟨⟨rfl, rfl, rfl, rfl, rfl⟩, id⟩
      generalize u.setBlk k { u.blk k with wdt := 0 } = v at h0 ⊢
      have h1 (x : Bind) : AttemptKept u (v.setBind key x) := h0.frame State.setBind_frame
      refine .ite (.setBlk (h1 _) ?_) (h1 _)
      exact ⟨⟨rfl, rfl, rfl, rfl, rfl⟩, id⟩
  have hanom (u : State) (key : Nat) : AttemptKept u (anomaly u key) := by
    unfold anomaly
    refine .count (.setBlk (.refl u) ?_) _ _
    exact ⟨⟨rfl, rfl, rfl, rfl, rfl⟩, id⟩
  have hready (u : State) (key : Nat) : AttemptKept u (unready u key) := by
    unfold unready
    exact .setBlk (.refl u) ⟨⟨rfl, rfl, rfl, rfl, rfl⟩, id⟩
  have hdep {u : State} (hu : AttemptKept s u) : AttemptKept s (countDeposit u h) := by
    unfold countDeposit
    exact .ite (hu.trans (hdone _ _)) hu
  have hbound (b : Bind) : AttemptKept s (onBound s b h) := by
    have hops : AttemptKept s (slotOps s h.key h.ops) := (AttemptKept.refl s).frame slotOps_frame
    unfold onBound
    split
    · exact hops
    · refine .ite (.ite (.ite (hanom _ _) (.refl s)) (hdep (.ite (hops.trans (hanom _ _)) hops)))
        (.ite (hdep (AttemptKept.frame ?_ slotOps_frame)) (.ite ((AttemptKept.refl s).count _ _) (.refl s)))
      exact ((((AttemptKept.refl s).frame zeroRange_frame).trans (hready _ _)).frame State.setBind_frame).count _ _
  have hhold {u : State} (hu : AttemptKept s u) (x : Held) : AttemptKept s (holdSlot u x) := hu.frame holdSlot_frame
  unfold slotWrite
  refine .ite (hhold (.refl s) _) ?_
  split
  · exact hbound _
  · dsimp only
    refine .ite (hhold (.refl s) _) ?_
    split
    · exact hdep (((AttemptKept.refl s).frame State.setBind_frame).frame slotOps_frame)
    · exact (hhold (((AttemptKept.refl s).frame State.setBind_frame).count _ _) _).frame markSpl_frame

theorem boundEvt_attemptKept (s : State) (b n : Nat) : AttemptKept s (boundEvt s b n) := by
  unfold boundEvt
  refine .ite (.refl s) (.count (.setBlk (.refl s) ?_) _ _)
  exact ⟨⟨rfl, rfl, rfl, rfl, rfl⟩, id⟩

theorem stBytes_attemptKept (s : State) (b d src a : Nat) (bs : List Byte) : AttemptKept s (stBytes s b d src a bs) := by
  unfold stBytes
  refine .each (.refl s) (fun u p => ?_) _
  unfold stLine
  split
  · exact boundEvt_attemptKept _ _ _
  · exact (AttemptKept.refl u).frame State.wrBytes_frame
  · exact slotWrite_attemptKept _ _

theorem modRec_attemptKept (s : State) (b d a : Nat) (f : Nat → Nat) : AttemptKept s (modRec s b d a f) :=
  (boundEvt_attemptKept _ _ _).trans (stBytes_attemptKept _ _ _ _ _ _)

theorem openBuf_attemptKept (d : Nat) (s : State) (h : Nat) : AttemptKept s (openBuf d s h) := by
  unfold openBuf
  dsimp only
  split
  · unfold guardReads
    split
    · exact poisonFault_attemptKept _ _
    · exact modRec_attemptKept _ _ _ _ _
  · exact .refl s

end

/-! ## The start of a step -/

/-- A block that starts an attempt. -/
structure BlkStarted (k : Blk) (d no : Nat) : Prop where
  phase : k.phase = .starting
  dom : k.dom = d
  step : k.step = no
  items : k.items = []

theorem BlkKept.started {x y : Blk} {d no : Nat} (h : BlkKept x y) (k : BlkStarted x d no) : BlkStarted y d no :=
  ⟨h.phase.trans k.phase, h.dom.trans k.dom, h.step.trans k.step, h.items k.items⟩

theorem startBlock_started (d lset no att : Nat) (s : State) (b : Nat) : BlkStarted ((startBlock d lset no att s b).blk b) d no := by
  unfold startBlock
  dsimp only
  rw [setBlk_blk_same]
  exact ⟨rfl, rfl, rfl, rfl⟩

theorem startBlock_other (d lset no att : Nat) (s : State) {b c : Nat} (hc : c ≠ b) : (startBlock d lset no att s b).blk c = s.blk c := by
  have hwake : (wakeBlk s b).blk c = s.blk c := by
    unfold wakeBlk
    split
    · exact setBlk_blk_other _ _ hc
    · rfl
  unfold startBlock
  dsimp only
  rw [setBlk_blk_other _ _ hc]
  split
  · exact hwake
  · exact (setBlk_blk_other _ _ hc).trans hwake

/-- What the start of an attempt leaves (R160). -/
theorem startAttempt_spec (s : State) (d att : Nat) : let t := startAttempt s d att
    (t.stp d).order = .starting ∧ (t.stp d).no = (s.stp d).no ∧ (t.stp d).att = att ∧ (t.stp d).lset = (s.stp d).lset ∧
    (t.stp d).ctx = (s.stp d).ctx ∧ ∀ b, b ∈ progBlocks s d → BlkStarted (t.blk b) d (s.stp d).no := by
  intro t
  have ht : t = startAttempt s d att := rfl
  unfold startAttempt at ht
  extract_lets st s1 s2 s3 at ht
  have h1 : s1.stp d = { st with
      order := .starting, stopped := false, att := att, xfer := false, reported := 0, walked := 0, clipped := 0, clipOn := 0 } :=
    setStp_stp_same ..
  have h2 (b : Nat) (hb : b ∈ progBlocks s d) : BlkStarted (s2.blk b) d st.no := by
    obtain ⟨u, -, -, hu⟩ := State.each_at (P := fun _ => True) (State.blk · b) (startBlock d st.lset st.no att) b (progBlocks s1 d)
      (List.nodup_range.filter _) hb (fun _ _ _ => trivial) (fun u c _ hc => startBlock_other d st.lset st.no att u (Ne.symm hc)) s1 trivial
    exact hu ▸ startBlock_started ..
  have g2 : Frame [.blks] s1 s2 := State.each_frame fun _ _ => startBlock_frame
  have g3 : Frame [.progs] s2 s3 := State.each_frame fun _ _ => holdAdds_frame
  have hopen : AttemptKept s3 t := ht ▸ (AttemptKept.refl s3).each (openBuf_attemptKept d) _
  have hstp : s3.stp d = s1.stp d := (g3.get_stp (by decide) d).trans (g2.get_stp (by decide) d)
  have hk := hstp.trans h1 ▸ hopen.stp d
  exact ⟨hk.order, hk.no, hk.att, hk.lset, hk.ctx, fun b hb => (hopen.blk b).started (g3.get_blk (by decide) b ▸ h2 b hb)⟩

end Sys2Proof.Machine


namespace Sys2Proof.Machine

set_option Elab.async false

/-- What the dispatch of a step leaves (R160). -/
theorem dispatchStep_spec (s : State) (d k lset : Nat) : let t := dispatchStep s d k lset
    (t.stp d).order = .starting ∧ (t.stp d).no = (s.dom d).nextStep ∧ (t.stp d).att = 0 ∧ (t.stp d).lset = lset ∧ (t.stp d).ctx = k ∧
    ∀ b, b ∈ progBlocks s d → BlkStarted (t.blk b) d (s.dom d).nextStep := by
  intro t
  have ht : t = dispatchStep s d k lset := rfl
  unfold dispatchStep at ht
  extract_lets old _ st s1 p at ht
  have hst : s1.stp d = st := (State.setRo_frame.get_stp (by decide) d).trans (setStp_stp_same ..)
  have hprog : s1.prog d = s.prog d := rfl
  have hno : st.no = (s.dom d).nextStep ∧ st.lset = lset ∧ st.ctx = k := ⟨rfl, rfl, rfl⟩
  clear_value st s1
  have hu : (s1.setProg d { p with lastSet := lset }).stp d = st := (State.setProg_frame.get_stp (by decide) d).trans hst
  have hblocks : progBlocks (s1.setProg d { p with lastSet := lset }) d = progBlocks s d := by
    rw [progBlocks, setProg_prog_same, progBlocks, ← hprog]
  generalize s1.setProg d { p with lastSet := lset } = u at hu hblocks ht
  obtain ⟨h1, h2, h3, h4, h5, h6⟩ := startAttempt_spec u d 0
  rw [← ht] at h1 h2 h3 h4 h5 h6
  obtain ⟨e1, e2, e3⟩ := hno
  rw [hu] at h2 h4 h5 h6
  rw [e1] at h2 h6
  exact ⟨h1, h2, h3, h4.trans e2, h5.trans e3, fun b hb => h6 b (hblocks ▸ hb)⟩

/-! ## The commands without a data path -/

section
variable {s : State} {d q k desc : Nat}

/-- An admitted command that runs to a state. -/
theorem runs_to {x : CmdSpec} {i : Instr} {t : State} (hrow : exec i s = .next (runCommand s d q desc x)) (h : Admissible s d q k desc x)
    (ht : x.run (grant s k (cmdAt s d q desc x)) k = t) : exec i s = .next t :=
  hrow.trans (congrArg _ ((runCommand_admissible h).trans ht))

theorem stepRuns_grant (c : Cmd) : stepRuns (grant s k c) d = stepRuns s d := by rw [stepRuns, grant_frame.get_stp (by decide)]; rfl

theorem freeze_effect (h : Admissible s d q k desc (specFreeze d desc)) (hr : stepRuns s d = false) : ∃ t,
    exec (.freeze d q desc) s = .next t ∧ EndedWith t k 0 0 ∧ t.mem = s.mem ∧ t.progs = s.progs ∧
    ∀ p, t.dir p = if wPage desc ≤ p ∧ p < wPage desc + wCount desc ∧ (s.dir p).valid = true ∧ (s.dir p).dom = d
      then { s.dir p with frozen := bit (dw desc 1) 63 } else s.dir p := by
  refine ⟨_, runs_to rfl h (if_neg (by simp [stepRuns_grant, hr])), endCmd_ended (Open.frame (grant_open rfl) applyFreeze_frame), ?_, ?_,
    fun p => ?_⟩
  · exact (endCmd_frame.mem (by decide)).trans ((applyFreeze_frame.mem (by decide)).trans (grant_frame.mem (by decide)))
  · exact (endCmd_frame.progs (by decide)).trans ((applyFreeze_frame.progs (by decide)).trans (grant_frame.progs (by decide)))
  · rw [endCmd_frame.get_dir (by decide), applyFreeze_dir, grant_frame.get_dir (by decide)]

theorem hostRead_effect (h : Admissible s d q k desc (specHostRead d desc true)) (hclean : poisonHit s d [(dw desc 1, dw desc 3)] = none) :
    ∃ t, exec (.hostRead d q desc true) s = .next t ∧ EndedWith t k 0 0 ∧
      t.out = s.out ++ [.dma (dw desc 2) (ldBytes s d (dw desc 1) (dw desc 3)).1] ∧ t.mem = s.mem := by
  have hok : dataOk s d (dw desc 1) (dw desc 3) = true := by
    have hstatic := h.static
    simp only [specHostRead, ite_eq_left_iff, reduceCtorEq, imp_false, Decidable.not_not] at hstatic
    exact hstatic
  generalize hc : cmdAt s d q desc (specHostRead d desc true) = c
  have hpay : payOf (grant s k c) k = some [] := (payOf_grant ..).trans (by rw [← hc]; rfl)
  have hmuted : c.muted = false := by rw [← hc]; rfl
  have g := grant_frame (s := s) (a := k) (b := c)
  have hrun : (specHostRead d desc true).run (grant s k c) k =
      endCmd ((grant s k c).emit (.dma (dw desc 2) (ldBytes s d (dw desc 1) (dw desc 3)).1)) k 0 0 [] := by
    simp only [specHostRead, hpay, guardReads, g.poisonHit_plain hok (by decide) (by decide), hclean,
      g.ldBytes_plain hok (by decide) (by decide) (by decide)]
  refine ⟨_, runs_to rfl h (by rw [hc]; exact hrun), endCmd_ended (Open.frame (grant_open hmuted) State.emit_frame), ?_, ?_⟩
  · rw [endCmd_frame.out (by decide)]
    exact congrArg (· ++ _) (g.out (by decide))
  · exact (endCmd_frame.mem (by decide)).trans (g.mem (by decide))

/-- A command of DMA that failed ends FAILED with reason DMA, and stores and sends nothing. -/
theorem dmaFailed {x : CmdSpec} {i : Instr} (hrow : exec i s = .next (runCommand s d q desc x)) (h : Admissible s d q k desc x)
    (ht : x.run (grant s k (cmdAt s d q desc x)) k = endCmd (grant s k (cmdAt s d q desc x)) k 0x21 0x18 []) : ∃ t, exec i s = .next t ∧
      EndedWith t k 0x21 0x18 ∧ t.mem = s.mem ∧ t.out = s.out ∧ t.progs = s.progs ∧ t.segs = s.segs :=
  ⟨_, runs_to hrow h ht, endCmd_ended (grant_open rfl), (endCmd_frame.mem (by decide)).trans (grant_frame.mem (by decide)),
    (endCmd_frame.out (by decide)).trans (grant_frame.out (by decide)),
    (endCmd_frame.progs (by decide)).trans (grant_frame.progs (by decide)), (endCmd_frame.segs (by decide)).trans
        (grant_frame.segs (by decide))⟩

theorem step_effect (h : Admissible s d q k desc (specStep d desc)) : ∃ t, exec (.step d q desc) s = .next t ∧
    (t.stp d).order = .starting ∧ (t.stp d).no = (s.dom d).nextStep ∧ (t.stp d).att = 0 ∧ (t.stp d).lset = bits (dw desc 1) 2 0 ∧
    (t.stp d).ctx = k ∧ ∀ b, b ∈ progBlocks s d → (t.blk b).phase = .starting ∧ (t.blk b).dom = d ∧ (t.blk b).step = (s.dom d).nextStep ∧
      (t.blk b).items = [] := by
  refine ⟨_, runs_to rfl h rfl, ?_⟩
  have g := grant_frame (s := s) (a := k) (b := cmdAt s d q desc (specStep d desc))
  have hdom : ((grant s k (cmdAt s d q desc (specStep d desc))).dom d).nextStep = (s.dom d).nextStep :=
    (congrArg Dom.nextStep (grant_facts s k (cmdAt s d q desc (specStep d desc))).2.2.1 :)
  have hblocks : progBlocks (grant s k (cmdAt s d q desc (specStep d desc))) d = progBlocks s d := by
    simp only [progBlocks, g.get_prog (by decide)]
  show let t := dispatchStep (grant s k (cmdAt s d q desc (specStep d desc))) d k (bits (dw desc 1) 2 0); _
  rw [← hdom, ← hblocks]
  obtain ⟨h1, h2, h3, h4, h5, h6⟩ := dispatchStep_spec (grant s k (cmdAt s d q desc (specStep d desc))) d k (bits (dw desc 1) 2 0)
  exact ⟨h1, h2, h3, h4, h5, fun b hb => ⟨(h6 b hb).phase, (h6 b hb).dom, (h6 b hb).step, (h6 b hb).items⟩⟩

theorem progUnload_effect (h : Admissible s d q k desc (specProgUnload d)) : ∃ t, exec (.progUnload d q desc) s = .next t ∧
    EndedWith t k 0 0 ∧ t.prog d = progDflt d ∧ (∀ n, n < 4096 → t.seg d n = segNone) ∧ ∀ e ∈ t.dirs, e.2.valid = true → e.2.dom ≠ d := by
  obtain ⟨h1, -, h3, h4, -⟩ := unloadProgram_facts (s := grant s k (cmdAt s d q desc (specProgUnload d))) (d := d) rfl
  refine ⟨_, runs_to rfl h rfl, endCmd_ended (Open.frame (grant_open rfl) unloadProgram_frame), ?_, fun n hn => ?_, fun e he => ?_⟩
  · exact (endCmd_frame.get_prog (by decide) d).trans h1
  · exact (endCmd_frame.get_seg (by decide) d n).trans (h3 n hn)
  · exact h4 e (endCmd_frame.dirs (by decide) ▸ he)

theorem importArm_effect (h : Admissible s d q k desc (specImportArm d desc)) : ∃ t, exec (.importArm d q desc) s = .next t ∧
    (∃ i, i ∈ (t.day d).imps ∧ i.ctx = k ∧ i.page = wPage desc ∧ i.n = wCount desc ∧ i.done = [] ∧ i.count = none) ∧
    t.mem = s.mem ∧ t.dirs = s.dirs := by
  refine ⟨_, runs_to rfl h rfl, ?_, grant_frame.mem (by decide), grant_frame.dirs (by decide)⟩
  refine ⟨{ ctx := k, src := bits (dw desc 1) 11 0, page := wPage desc, n := wCount desc, done := [], count := none }, ?_,
    rfl, rfl, rfl, rfl, rfl⟩
  show _ ∈ (((grant s k _).setDay d _).day d).imps
  rw [setDay_day_same]
  exact List.mem_append_right _ (List.mem_singleton.mpr rfl)

end

/-- Settles O30: each command runs in the state that its admission leaves, and does there what its own lemma says. -/
theorem commandEffects : Obligations.CommandEffects := by
  refine ⟨fun s d q k desc h => ?_, fun s d q k desc => freeze_effect, fun s d q k desc => importArm_effect,
    fun s d q k desc => hostRead_effect, fun s d q k desc h => ?_, fun s d q k desc h => ?_, fun s d q k desc h => ?_,
    fun s d q k desc => step_effect, fun s d q k desc => progUnload_effect⟩
  · have g : Frame [.ro, .doms, .ctxs, .ress] s (endCmd (grant s k (cmdAt s d q desc specFence)) k 0 0 []) := endCmd_frame.after grant_frame
    exact ⟨_, runs_to rfl h rfl, endCmd_ended (grant_open rfl), g.mem (by decide), g.dirs (by decide), g.progs (by decide), g.steps
        (by decide)⟩
  · obtain ⟨t, ht, hended, hmem, hout, -⟩ := dmaFailed (i := .hostRead d q desc false) rfl h (by simp only [specHostRead, payOf_grant]; rfl)
    exact ⟨t, ht, hended, hmem, hout⟩
  · obtain ⟨t, ht, hended, hmem, -⟩ := dmaFailed (i := .hostWrite d q desc none) rfl h (by simp only [specHostWrite, payOf_grant]; rfl)
    exact ⟨t, ht, hended, hmem⟩
  · obtain ⟨t, ht, hended, hmem, -, hprogs, hsegs⟩ :=
      dmaFailed (i := .progLoad d q desc none) rfl h (by simp only [specProgLoad, loadProgram, payOf_grant]; rfl)
    exact ⟨t, ht, hended, hmem, hprogs, hsegs⟩

/-! ## The checks of a command -/

/-- A notice that is written leaves its context's head, and the deferred command with its cost. -/
theorem writeNotice_deferred {s : State} {k : Nat} {f : Defer} (hf : (s.ctx k).defer = some f) :
    (∃ g, ((writeNotice s k).ctx k).defer = some g ∧ g.cost = f.cost ∧ g.cmd = f.cmd) ∧ ((writeNotice s k).ctx k).head = (s.ctx k).head :=
        by
  unfold writeNotice
  rw [hf]
  dsimp only
  split
  · generalize hs1 : s.fresh.2.setCtx k { s.fresh.2.ctx k with defer := some { f with note := false } } = s1
    have hk : s1.ctx k = { s.ctx k with defer := some { f with note := false } } := by rw [← hs1, setCtx_ctx_same]; rfl
    split
    · have herr := (ctxError_cases (s1.count (kCmdPerf 5) 1) k 2 k).trans (if_pos rfl)
      rw [herr, show (s1.count (kCmdPerf 5) 1).ctx k = s1.ctx k from rfl, hk]
      exact ⟨⟨_, rfl, rfl, rfl⟩, rfl⟩
    · obtain ⟨-, -, hkc⟩ := coalesce_spec (putRecord s1 k (recordBits s1 k f.cmd 0x02 0 0)) k
      have hput : (putRecord s1 k (recordBits s1 k f.cmd 0x02 0 0)).ctx k = { s1.ctx k with
          cqTail := ((s1.ctx k).cqTail + 1) % 2 ^ (s1.ctx k).cqLog
          cqPhase := if ((s1.ctx k).cqTail + 1) % 2 ^ (s1.ctx k).cqLog = 0 then !(s1.ctx k).cqPhase else (s1.ctx k).cqPhase } :=
        setCtx_ctx_same ..
      rw [hkc, hput, hk]
      exact ⟨⟨_, rfl, rfl, rfl⟩, rfl⟩
  · exact ⟨⟨f, hf, rfl, rfl⟩, rfl⟩

/-- A deferred command: it stands in its context, whose head stays, and its domain's credits stay (R302). -/
theorem deferCmd_spec (s : State) (k : Nat) (c : Cmd) (u : Bool) : let t := deferCmd s k c u
    (∃ f, (t.ctx k).defer = some f ∧ f.cost = c.cost ∧ f.cmd = { c with deferred := true }) ∧ (t.ctx k).head = (s.ctx k).head ∧
    (t.dom c.dom).inflight = (s.dom c.dom).inflight ∧ t.mem = s.mem := by
  intro t
  have ht : t = deferCmd s k c u := rfl
  have hmem : t.mem = s.mem := deferCmd_frame.mem (by decide)
  unfold deferCmd at ht
  extract_lets o c1 _ s1 _ s2 at ht
  have hctx : s2.ctx k = { s.ctx k with
      defer := some { unitCause := u, cost := c.cost, order := o, cmd := c1, note := (s.ctx k).dnote } } :=
    (State.count_frame.get_ctx (by decide) k).trans ((State.setDom_frame.get_ctx (by decide) k).trans (setCtx_ctx_same ..))
  have hdom : s2.dom c.dom = { s1.dom c.dom with deferOrder := o + 1 } :=
    (State.count_frame.get_dom (by decide) _).trans (setDom_dom_same ..)
  obtain ⟨⟨g, hg, hcost, hcmd⟩, hhead⟩ := writeNotice_deferred (congrArg Ctx.defer hctx)
  rw [ht]
  refine ⟨⟨g, hg, hcost, hcmd⟩, hhead.trans (by rw [hctx]), ?_, ht ▸ hmem⟩
  rw [writeNotice_frame.get_dom (by decide), hdom]
  rfl

/-- Settles O32: the checks of `runCommand`, in their order. -/
theorem commandChecksAreOrdered : Obligations.CommandChecksAreOrdered := by
  intro s d q k desc hk hfetch x c
  have herrc : (s.ctx k).errc = 0 := by
    unfold canFetch at hfetch
    simp only [Bool.and_eq_true, beq_iff_eq] at hfetch
    exact hfetch.1.1.1.1.1.2
  have hrun : exec (.copy d q desc) s = .next (runCommand s d q desc x) := rfl
  unfold runCommand at hrun
  rw [hk] at hrun
  dsimp only at hrun
  rw [if_neg (by simp [hfetch])] at hrun
  refine ⟨fun hf => ?_, fun hf => ?_⟩
  · rw [if_pos hf] at hrun
    exact ⟨_, hrun, (ctxError_ctx 2 k herrc).trans (if_pos rfl), ctxError_frame.mem (by decide)⟩
  rw [if_neg (by simp [hf])] at hrun
  refine ⟨fun hopc => ?_, fun hopc => ?_⟩
  · have hne : dOpc desc ≠ x.opc := fun h => by
      rw [h, show x.opc = 0x20 from rfl] at hopc
      exact absurd hopc (by decide)
    rw [if_pos (by simpa using hne), if_neg (by simp [hopc])] at hrun
    exact hrun
  rw [if_neg (by rw [hopc, show x.opc = 0x20 from rfl]; decide)] at hrun
  refine ⟨fun hbad => ?_, fun hclean hrange hquota => ?_, fun hclean hrange hquota hstatic => ?_,
    fun hclean hrange hquota hstatic hcredits => ?_⟩
  · rw [if_pos (by simpa using hbad)] at hrun
    exact hrun
  · rw [if_neg (by simp [hclean, hrange]), if_pos hquota] at hrun
    exact hrun
  · rw [if_neg (by simp [hclean, hrange]), if_neg (by omega), hstatic] at hrun
    exact hrun
  · rw [if_neg (by simp [hclean, hrange]), if_neg (by omega), hstatic] at hrun
    dsimp only at hrun
    rw [if_neg (by simp [x, specCopy]), if_pos (by simp [hcredits])] at hrun
    obtain ⟨⟨f, hdef, hcost, hcmd⟩, hhead, hdom, hmem⟩ := deferCmd_spec s k c false
    exact ⟨_, f, hrun, hdef, hcost, by rw [hcmd]; rfl, by rw [hcmd], hhead, hdom, hmem⟩

/-- Settles O33: the oldest deferred command that fits is the one that `find?` answers. -/
theorem deferredCommandsAreTriedInOrder : Obligations.DeferredCommandsAreTriedInOrder := by
  intro s d k f hd hup href hact hfind
  have hrun : exec (.deferredAdmission d) s = .next (admitDeferred s d k f) := by
    refine congrArg Host.Outcome.next ?_
    rw [if_neg (by simp [hup, href, hact]; omega), hfind]
  refine ⟨fun hq => ?_, fun hq hstatic => ?_⟩
  · rw [hrun, admitDeferred, if_pos hq]
  · rw [hrun, admitDeferred, if_neg (by omega), hstatic]

end Sys2Proof.Machine


namespace Sys2Proof.Machine

set_option Elab.async false

/-! ## Completion records -/

theorem b2n_le (b : Bool) : b2n b ≤ 1 := by cases b <;> decide

/-- The CID, the status and the phase of the record of a command that ended DONE. -/
theorem recordBits_done {s : State} {k : Nat} {c : Cmd} (g : Nat) (hhead : (s.ctx k).head < 2 ^ 16) (hdet : c.detail < 2 ^ 32)
    (hstep : c.stepNo < 2 ^ 32) : let w := recordBits s k c 0 0 g
    bits w 255 240 = dCid c.desc ∧ bits w 239 232 = 0 ∧ bit w 216 = (s.ctx k).cqPhase := by
  intro w
  have hcid : dCid c.desc < 2 ^ 16 := Nat.mod_lt _ (by decide)
  have h1 := b2n_le c.deferred
  have h2 := b2n_le c.spl
  have h3 := b2n_le c.fbp
  have h4 := b2n_le c.dv
  have h5 := b2n_le c.rst
  have hph := b2n_le (s.ctx k).cqPhase
  obtain ⟨r, l, hr, hl, hw⟩ : ∃ r l, r < 2 ^ 7 ∧ l < 2 ^ 216 ∧
      w = dCid c.desc * 2 ^ 240 + r * 2 ^ 217 + b2n (s.ctx k).cqPhase * 2 ^ 216 + l := by
    refine ⟨b2n c.deferred * 2 ^ 6 + b2n c.spl * 2 ^ 5 + b2n c.fbp * 2 ^ 4 + b2n c.dv * 2 ^ 3 + b2n c.rst * 2 ^ 2,
      (s.ctx k).head * 2 ^ 200 + c.q % 4096 * 2 ^ 188 + g % 2 ^ 32 * 2 ^ 128 + c.detail * 2 ^ 96 + c.stepNo * 2 ^ 64 +
        c.attempt % 16 * 2 ^ 60, by omega, by omega, ?_⟩
    show recordBits s k c 0 0 g = _
    unfold recordBits
    iterate 15 rw [pack_cons]
    rw [show pack [] = 0 from rfl]
    dsimp only
    omega
  clear_value w
  refine ⟨by rw [bits]; omega, by rw [bits]; omega, ?_⟩
  have hbit : w / 2 ^ 216 % 2 = b2n (s.ctx k).cqPhase := by omega
  rw [bit, Nat.testBit_eq_decide_div_mod_eq, hbit]
  cases (s.ctx k).cqPhase <;> rfl

/-- A completed command of a domain's queue before its record: the context is free, the credits are back. -/
theorem complete_done {s : State} {k : Nat} {c : Cmd} (ok : Bool) (hk : k ≠ adminKey) (hfin : c.fin = .ended 0 0) (hadm : c.admitted = true)
    (herr : (s.ctx k).errc = 0) : ∃ u rgen, u.ctx k = doneCtx (s.ctx k) 0 ∧ u.out = s.out ∧
      (u.dom c.dom).inflight = (s.dom c.dom).inflight - c.cost ∧
      complete s k c ok = if ok then coalesce (putRecord u k (recordBits s k c 0 0 rgen)) k else ctxError (u.count (kCmdPerf 5) 1) k 2 := by
  have hf : finOf c = (0, 0) := by rw [finOf, hfin]
  generalize ht : complete s k c ok = t
  unfold complete at ht
  extract_lets f s1 rgen s2 s3 s4 at ht
  have hs1 : s1 = publish s c f.1 (payloadOf c) := if_neg hk
  have hf1 : f.1 = 0 := congrArg Prod.fst hf
  have h1 : s1.ctx k = s.ctx k := by rw [hs1]; exact publish_ctx ..
  have hdom1 : s1.dom c.dom = s.dom c.dom := by rw [hs1]; exact publish_frame.get_dom (by decide) _
  have hout1 : s1.out = s.out := by rw [hs1]; exact publish_frame.out (by decide)
  have h2 : s2.ctx k = doneCtx (s.ctx k) 0 := (setCtx_ctx_same ..).trans (by rw [h1, hf1])
  have h3 : s3.ctx k = s2.ctx k := (countIf_ctx ..).trans ((countIf_ctx ..).trans (returnCredits_ctx ..))
  have g3 : Frame [.ro, .doms] s2 s3 := State.countIf_frame.after (State.countIf_frame.after returnCredits_frame.wider)
  have hdom3 : s3.dom c.dom = { s2.dom c.dom with inflight := (s2.dom c.dom).inflight - c.cost } := by
    show (((returnCredits s2 c).countIf _ _).countIf _ _).dom c.dom = _
    rw [State.countIf_frame.get_dom (by decide), State.countIf_frame.get_dom (by decide), returnCredits, if_pos hadm, setDom_dom_same]
  refine ⟨s3, rgen, h3.trans h2, (g3.out (by decide)).trans hout1, ?_, ?_⟩
  · rw [hdom3]
    exact congrArg (fun x : Dom => x.inflight - c.cost) hdom1
  · rw [← ht, if_neg (by rw [hf1]; decide), show s4 = _ from if_neg (by rw [herr]; decide), if_neg (c := f.1 = 0x10 ∨ f.1 = 0x21)
      (by rw [hf1]; decide),
      hf1]

theorem applyMemEvents_ctx (s : State) (p : Perf) (k : Nat) : (applyMemEvents s p).ctx k = s.ctx k :=
  applyMemEvents_frame.get_ctx (by decide) k

/-- Settles O34: the completion is `complete_done`, with its record and the coalescing after it, or the context's error where its DMA
fails. -/
theorem completionsAreRecorded : Obligations.CompletionsAreRecorded := by
  refine ⟨fun s d q k c p hq hk hcmd hfin hadm hdom hup hchip hfull herr hhead hdet hstep => ?_,
    fun s q k hq hunsig hcoal hdue hup => ?_⟩
  · have hrun (ok : Bool) : exec (.commandCompletion (.dom d q) ⟨ok, p⟩) s = .next (complete (applyMemEvents s p) k c ok) := by
      show execCommandCompletion (.dom d q) ⟨ok, p⟩ s = _
      unfold execCommandCompletion
      rw [hq]
      dsimp only
      rw [hcmd]
      dsimp only
      rw [if_neg (by rw [hup, hchip, hfull, hfin]; decide)]
    have gp : Frame [.ro, .back] s (applyMemEvents s p) := applyMemEvents_frame
    have hctx := applyMemEvents_ctx s p k
    have hpdom : (applyMemEvents s p).dom c.dom = s.dom c.dom := gp.get_dom (by decide) _
    have herr' : ((applyMemEvents s p).ctx k).errc = 0 := by rw [hctx, herr]
    refine ⟨?_, ?_⟩
    · obtain ⟨u, rgen, hu, hout, hinf, hcomp⟩ := complete_done (c := c) true hk hfin hadm herr'
      rw [if_pos rfl] at hcomp
      obtain ⟨hid, hstatus, hphase⟩ := recordBits_done (s := applyMemEvents s p) (k := k) (c := c) rgen (by rw [hctx]; exact hhead) hdet
          hstep
      rw [hctx] at hphase hu
      have hmem : (complete (applyMemEvents s p) k c true).mem = s.mem := (complete_frame.mem (by decide)).trans (gp.mem (by decide))
      have hprogs : (complete (applyMemEvents s p) k c true).progs = s.progs :=
          (complete_frame.progs (by decide)).trans (gp.progs (by decide))
      rw [hcomp] at hmem hprogs
      refine ⟨_, recordBits (applyMemEvents s p) k c 0 0 rgen, (hrun true).trans (congrArg _ hcomp), hid, hstatus, hphase, ?_, ?_⟩
      all_goals generalize recordBits (applyMemEvents s p) k c 0 0 rgen = w at hmem hprogs ⊢
      · obtain ⟨⟨l, hl⟩, -, -⟩ := coalesce_spec (putRecord u k w) k
        rw [hl]
        show (u.out ++ [Output.dma ((u.ctx k).cqBase + 32 * (u.ctx k).cqTail) (leBytes 32 w)] ++ l).take _ = _
        rw [hout, hu, gp.out (by decide)]
        exact List.take_left' (by simp)
      · have hput : (putRecord u k w).ctx k = { u.ctx k with
            cqTail := ((u.ctx k).cqTail + 1) % 2 ^ (u.ctx k).cqLog
            cqPhase := if ((u.ctx k).cqTail + 1) % 2 ^ (u.ctx k).cqLog = 0 then !(u.ctx k).cqPhase else (u.ctx k).cqPhase } :=
          setCtx_ctx_same ..
        obtain ⟨-, -, hlast⟩ := coalesce_spec (putRecord u k w) k
        rw [hput, hu] at hlast
        refine ⟨by rw [hlast]; rfl, by rw [hlast]; rfl, by rw [hlast]; rfl, ?_, hmem, hprogs⟩
        rw [coalesce_frame.get_dom (by decide), putRecord_frame.get_dom (by decide), hinf, hpdom]
    · obtain ⟨u, rgen, hu, hout, hinf, hcomp⟩ := complete_done (c := c) false hk hfin hadm herr'
      rw [if_neg (by decide)] at hcomp
      have hcount : (u.count (kCmdPerf 5) 1).ctx k = u.ctx k := count_get_ctx ..
      have herr0 : ((u.count (kCmdPerf 5) 1).ctx k).errc = 0 := by rw [hcount, hu]; exact herr'
      have hlast := (ctxError_ctx 2 k herr0).trans (if_pos rfl)
      rw [hcount, hu, hctx] at hlast
      refine ⟨_, (hrun false).trans (congrArg _ hcomp), by rw [hlast]; rfl, by rw [hlast], by rw [hlast]; rfl, ?_⟩
      rw [ctxError_frame.get_dom (by decide), State.count_frame.get_dom (by decide), hinf, hpdom]
  · have hrun : exec (.coalesceTimer q) s =
        .next (signalMsix (s.setCtx k { s.ctx k with unsig := 0 }) (fnOfCtx s k) (s.ctx k).vec) := by
      show execCoalesceTimer q s = _
      unfold execCoalesceTimer
      rw [hq]
      dsimp only
      rw [if_pos (by simp [hunsig, hcoal, hup]; omega)]
    have hmsix : (s.setCtx k { s.ctx k with unsig := 0 }).msix (fnOfCtx s k) (s.ctx k).vec = s.msix (fnOfCtx s k) (s.ctx k).vec := rfl
    refine ⟨fun hm => ?_, fun hm => ?_⟩
    · rw [hrun, signalMsix, hmsix, if_neg (by rw [hm]; decide)]
    · rw [hrun, signalMsix, hmsix, if_pos hm]

end Sys2Proof.Machine


namespace Sys2Proof.Machine

set_option Elab.async false

/-! ## The start of an item -/

section
variable {s : State} {b l i : Nat} {it : Item}

theorem started_frame : Frame [.ro, .blks] s (started s b l i) := State.setBlk_frame.after (traceBurst_frame.after drainTrace_frame.wider)

theorem started_blk : (started s b l i).blk b = let k := (traceItem s b l i 1).blk b
    { k with items := spSet itemDflt k.items (itemKey l i) { k.item l i with st := .running }, wdt := 0 } := setBlk_blk_same ..

theorem started_other {c : Nat} (h : c ≠ b) : (started s b l i).blk c = s.blk c :=
  (setBlk_blk_other _ _ h).trans ((traceBurst_other _ _ _ _ h).trans (setBlk_blk_other _ _ h))

/-- The item that a block starts next, where it passes the row's test, has the row's effect in the state that its start leaves. -/
theorem startItem_next (h : StartsNext s b l i it) {p : Item → Bool} (hp : p it = true) (eff : State → Nat → Item → State) :
    startItem s b l p eff = eff (started s b l i) i (resolveItem (started s b l i) ((started s b l i).blk b).dom it) := by
  unfold startItem
  rw [if_neg (by simp [h.runs]), h.next]
  dsimp only
  rw [h.item]
  dsimp only
  rw [if_pos ⟨rfl, hp⟩, started_blk]
  rfl

/-- The CUT item that a block starts next runs, or completes unrun (Table 8-3). -/
theorem cutItem_next {o : Nat} (h : StartsNext s b l i it) (hl : l = 16) (hk : it.hdr.kind = 4) (ho : it.pass.opc = o)
    (unrun : State → PassDesc → Bool) (eff : State → Nat → Item → State) :
    cutItem s b o unrun eff = if unrun s it.pass then unrunItem (drainTrace s b) b 16 i it
      else eff (started s b l i) i (resolveItem (started s b l i) ((started s b l i).blk b).dom it) := by
  subst hl
  have hop : (it.hdr.kind == 4 && it.pass.opc == o) = true := by simp [hk, ho]
  simp only [cutItem, h.next, h.item, h.runs, hop, Bool.true_and]
  split
  · rfl
  · exact startItem_next (p := fun it => it.hdr.kind == 4 && it.pass.opc == o) h hop eff

end

/-- Settles O35: each row is `startItem` or `cutItem` with the test and the effect of its kind. -/
theorem itemsStart : Obligations.ItemsStart := by
  intro s b l i it p h t x cut unit fell
  have cell (q : Item → Bool) (eff : State → Nat → Item → State) (hq : q it = true) :
      (.next (startItem s b l q eff) : Host.Outcome State Fault Refusal) = .next (eff t i x) := congrArg _ (startItem_next h hq eff)
  have atUnit (q : Item → Bool) (eff : State → Nat → Item → State) (hu : unit (q it)) :
      (.next (startItem s b 17 q eff) : Host.Outcome State Fault Refusal) = .next (eff t i x) :=
    hu.1 ▸ cell q eff hu.2
  have atCut (o : Nat) (eff : State → Nat → Item → State) (hc : cut o) :
      (.next (cutItem s b o (layerFell b) eff) : Host.Outcome State Fault Refusal) =
        .next (if fell then unrunItem (drainTrace s b) b 16 i it else eff t i x) :=
    congrArg _ (cutItem_next h hc.1 hc.2.1 hc.2.2 _ eff)
  refine ⟨⟨?_, fun c hc => started_other hc, ?_, ?_⟩, fun hk => cell _ _ (beq_iff_eq.mpr hk), fun hk => cell _ _ (beq_iff_eq.mpr hk),
    fun hk => cell _ _ (beq_iff_eq.mpr hk), fun hc => ?_, fun hc => ?_, atCut _ _, atCut _ _, atCut _ _, atUnit _ _, atUnit _ _,
    atUnit (fun it => it.hdr.kind == 7) (fun s _ _ => s), atUnit _ _, atUnit _ _, atUnit _ _, atUnit _ _, atUnit _ _, atUnit _ _, atUnit _
        _, atUnit _ _⟩
  · have g : Frame [.ro, .blks] s t := started_frame
    clear_value t
    exact g.eq.trans rfl
  · show (Blk.item ((started s b l i).blk b) l i).st = .running
    rw [started_blk]
    dsimp only [Blk.item]
    rw [spGet_set_same]
  · show ((started s b l i).blk b).wdt = 0
    rw [started_blk]
  · refine congrArg Host.Outcome.next ((cutItem_next h hc.1 hc.2.1 hc.2.2 _ _).trans ?_)
    cases conservative s (s.blk b).dom (b / 6) <;> rfl
  · have hl : l = 16 := hc.1
    subst hl
    exact cell _ _ (by simp [hc.2.1, hc.2.2])

end Sys2Proof.Machine


namespace Sys2Proof.Machine

set_option Elab.async false

/-! ## Signals and readiness counters -/

/-- Of a block: its counter banks and its watchdog. -/
structure SameBanks (x y : Blk) : Prop where
  bank0 : y.bank0 = x.bank0
  bank1 : y.bank1 = x.bank1
  wdt : y.wdt = x.wdt

theorem SameBanks.refl (x : Blk) : SameBanks x x := ⟨rfl, rfl, rfl⟩

theorem SameBanks.trans {x y z : Blk} (h : SameBanks x y) (k : SameBanks y z) : SameBanks x z :=
  ⟨k.bank0.trans h.bank0, k.bank1.trans h.bank1, k.wdt.trans h.wdt⟩

theorem SameBanks.bankOf {x y : Blk} (h : SameBanks x y) (n : Nat) : y.bankOf n = x.bankOf n := by
  simp only [Blk.bankOf, h.bank0, h.bank1]

theorem readyItem_sameBanks (its : List Item) (l evt : Nat) (k : Blk) (i : Nat) : SameBanks k (readyItem its l evt k i) := by
  unfold readyItem
  split
  · dsimp only
    split
    · exact ⟨rfl, rfl, rfl⟩
    · exact .refl k
  · exact .refl k

/-- Items that become ready leave the counters that made them so. -/
theorem markReady_sameBanks (s : State) (b : Nat) : SameBanks (s.blk b) ((markReady s b).blk b) := by
  unfold markReady
  dsimp only
  split
  · show SameBanks _ ((s.setBlk b _).blk b)
    rw [setBlk_blk_same]
    exact foldl_inv (P := fun k => SameBanks (s.blk b) k) (.refl _) fun k l hk =>
      foldl_inv (P := fun k => SameBanks (s.blk b) k) hk fun k i hk => hk.trans (readyItem_sameBanks _ _ _ _ _)
  · exact .refl _

theorem bankOf_setBank (k : Blk) (n : Nat) (x : Bank) : (k.setBank n x).bankOf n = x := by
  unfold Blk.setBank Blk.bankOf
  split <;> rfl

theorem bankOf_wdt (k : Blk) (n w : Nat) : ({ k with wdt := w } : Blk).bankOf n = k.bankOf n := rfl

/-- An older signal leaves its bank, and is a progress event. -/
theorem signalBlock_old {s : State} {g : Sig} (h : bankTag ((s.blk g.blk).bankOf g.step) g.step g.att = none) :
    ((signalBlock s g).blk g.blk).wdt = 0 ∧ ((signalBlock s g).blk g.blk).bankOf g.step = (s.blk g.blk).bankOf g.step := by
  unfold signalBlock
  dsimp only
  rw [h]
  dsimp only
  rw [count_get_blk, progress, setBlk_blk_same]
  exact ⟨rfl, bankOf_wdt ..⟩

/-- A signal that its bank takes adds 1 to its counter, and is a progress event. -/
theorem signalBlock_taken {s : State} {g : Sig} {x : Bank} (h : bankTag ((s.blk g.blk).bankOf g.step) g.step g.att = some x) :
    ((signalBlock s g).blk g.blk).wdt = 0 ∧ ((signalBlock s g).blk g.blk).bankOf g.step =
      { x with ctr := spSet zeroNat x.ctr g.ctr (min (spGet zeroNat x.ctr g.ctr + 1) 65535) } := by
  unfold signalBlock
  dsimp only
  rw [h]
  dsimp only
  generalize hy : ({ x with ctr := spSet zeroNat x.ctr g.ctr (min (spGet zeroNat x.ctr g.ctr + 1) 65535) } : Bank) = y
  have hsame := markReady_sameBanks (s.setBlk g.blk { (s.blk g.blk).setBank g.step y with wdt := 0 }) g.blk
  rw [setBlk_blk_same] at hsame
  exact ⟨hsame.wdt, (hsame.bankOf _).trans ((bankOf_wdt ..).trans (bankOf_setBank (s.blk g.blk) g.step y))⟩

/-- A tag is not newer than itself. -/
theorem tagNewer_self (st att : Nat) : tagNewer st att (st % 65536) (att % 16) = false := by
  unfold tagNewer
  dsimp only
  rw [show (st + 65536 - st % 65536 % 65536) % 65536 = 0 by omega, show (att + 16 - att % 16 % 16) % 16 = 0 by omega]
  decide

/-- Settles O38: what `signalBlock` makes of the bank, by the answer of `bankTag`. -/
theorem signalsCount : Obligations.SignalsCount := by
  have frame (s : State) (g : Sig) : Frame [.evt, .ro, .blks] s (signalBlock s g) := by
    unfold signalBlock
    dsimp only
    split
    · exact State.count_frame.after progress_frame.wider
    · exact markReady_frame.after State.setBlk_frame.wider
  refine ⟨fun s n g hg hal => ?_, fun s n g hg hal => ?_⟩
  · generalize hs1 : ({ s with sigs := dropAt n s.sigs } : State) = s1
    have hrun : exec (.signalArrival n) s = .next (signalBlock s1 g) := by
      show execSignalArrival n s = _
      unfold execSignalArrival
      rw [hg]
      dsimp only
      rw [if_pos hal, hs1]
    have hblk : s1.blk g.blk = s.blk g.blk := by rw [← hs1]; rfl
    have hwdt : ((signalBlock s1 g).blk g.blk).wdt = 0 := by
      cases htag : bankTag ((s1.blk g.blk).bankOf g.step) g.step g.att with
      | none => exact (signalBlock_old htag).1
      | some x => exact (signalBlock_taken htag).1
    refine ⟨_, hrun, ((frame s1 g).sigs (by decide)).trans (by rw [← hs1]), hwdt, ((frame s1 g).mem (by decide)).trans (by rw [← hs1]), ?_⟩
    rw [← hblk]
    intro x y
    refine ⟨fun hv hst hatt => ?_, fun hnew => ?_, fun hv hold hne => ?_⟩
    · have htag : bankTag x g.step g.att = some x := by
        rw [bankTag, if_neg (by rw [hv, hst, hatt, tagNewer_self]; decide), if_pos ⟨hst, hatt⟩]
      have hy : y = _ := (signalBlock_taken htag).2
      rw [hy]
      refine ⟨hv, rfl, rfl, fun c => (spGet_set ..).trans ?_⟩
      split
      · rename_i hc; rw [hc]
      · rfl
    · have htag : bankTag x g.step g.att = some { valid := true, step := g.step % 65536, att := g.att % 16, ctr := [] } := by
        rw [bankTag, if_pos (by rcases hnew with h | h <;> simp [h])]
      have hy : y = _ := (signalBlock_taken htag).2
      rw [hy]
      exact ⟨rfl, rfl, rfl, fun c => by dsimp only; rw [spGet_set]; rfl⟩
    · have htag : bankTag x g.step g.att = none := by
        rw [bankTag, if_neg (by simp [hv, hold]), if_neg hne]
      exact (signalBlock_old htag).2
  · show execSignalArrival n s = _
    unfold execSignalArrival
    rw [hg]
    dsimp only
    rw [if_neg (by rw [hal]; decide)]

/-! ## Held accesses -/

theorem slotOps_held (s : State) (key : Nat) (ops : List (Nat × Bool × List Byte)) : (slotOps s key ops).back.held = s.back.held := by
  unfold slotOps
  split
  · exact foldl_inv (P := fun t : State => t.back.held = s.back.held) rfl fun t op h => h
  · rfl

theorem depositDone_held (s : State) (key : Nat) : (depositDone s key).back.held = s.back.held := by
  unfold depositDone
  split
  · rfl
  · dsimp only
    split <;> rfl

theorem depositDone_bound {s : State} {key : Nat} (h : (s.bind key).isSome = true) : ((depositDone s key).bind key).isSome = true := by
  unfold depositDone
  split
  · exact h
  · rename_i b _
    have hset (u : State) (x : Bind) : ((u.setBind key x).bind key).isSome = true := by rw [State.bind, State.setBind, spFind_put_same]; rfl
    dsimp only
    split
    · exact hset _ _
    · exact hset _ _

theorem countDeposit_kept {s : State} {h : Held} (hb : (s.bind h.key).isSome = true) :
    ((countDeposit s h).bind h.key).isSome = true ∧ (countDeposit s h).back.held = s.back.held := by
  unfold countDeposit
  split
  · exact ⟨depositDone_bound hb, depositDone_held _ _⟩
  · exact ⟨hb, rfl⟩

/-- Accesses that meet a bound slot leave it bound, and hold nothing. -/
theorem onBound_kept {s : State} {b : Bind} {h : Held} (hb : (s.bind h.key).isSome = true) :
    ((onBound s b h).bind h.key).isSome = true ∧ (onBound s b h).back.held = s.back.held := by
  have hops (u : State) (hu : (u.bind h.key).isSome = true) : ((slotOps u h.key h.ops).bind h.key).isSome = true := by
    rw [slotOps_frame.get_bind (by decide)]
    exact hu
  have hanom (u : State) (hu : (u.bind h.key).isSome = true) : ((anomaly u h.key).bind h.key).isSome = true := by
    rw [anomaly_frame.get_bind (by decide)]
    exact hu
  have hdep (u : State) (hu : (u.bind h.key).isSome = true) (hh : u.back.held = s.back.held) :
      ((countDeposit u h).bind h.key).isSome = true ∧ (countDeposit u h).back.held = s.back.held :=
    ⟨(countDeposit_kept hu).1, (countDeposit_kept hu).2.trans hh⟩
  unfold onBound
  split
  · exact ⟨hops s hb, slotOps_held ..⟩
  · rename_i st att ex _
    split
    · split
      · split
        · exact ⟨hanom s hb, rfl⟩
        · exact ⟨hb, rfl⟩
      · dsimp only
        split
        · exact hdep _ (hanom _ (hops s hb)) (slotOps_held ..)
        · exact hdep _ (hops s hb) (slotOps_held ..)
    · split
      · dsimp only
        refine hdep _ (hops _ ?_) (slotOps_held ..)
        rw [State.count_frame.get_bind (by decide), State.bind, State.setBind, spFind_put_same]
        rfl
      · split <;> exact ⟨hb, rfl⟩

/-- The accesses held for a bound slot are performed again: the slot stays bound, and none of them is held any longer. -/
theorem releaseHeld_bound {s : State} {key : Nat} (hb : (s.bind key).isSome = true) (perform : State → Held → State)
    (hp : ∀ u x, x.key = key → (u.bind key).isSome = true →
      ((perform u x).bind key).isSome = true ∧ (perform u x).back.held = u.back.held) :
    (releaseHeld s key perform).back.held = s.back.held.filter (fun x => x.key != key) ∧
      ((releaseHeld s key perform).bind key).isSome = true := by
  unfold releaseHeld
  dsimp only
  generalize ht : ({ s with back := { s.back with held := s.back.held.filter (fun h => h.key != key) } } : State) = t
  have hfold := List.foldlRecOn (motive := fun u : State => (u.bind key).isSome = true ∧ u.back.held = t.back.held)
    (s.back.held.filter (fun h => h.key == key)) perform (b := t) ⟨by rw [← ht]; exact hb, rfl⟩ fun u hu x hx => by
      obtain ⟨h1, h2⟩ := hp u x (beq_iff_eq.mp (List.mem_filter.mp hx).2) hu.1
      exact ⟨h1, h2.trans hu.2⟩
  exact ⟨hfold.2.trans (by rw [← ht]), hfold.1⟩

/-- Settles O41: both rows release the accesses of the first held slot; where the slot is bound, each of them leaves it bound and none is
    held
again (`onBound_kept`). -/
theorem heldAccessesResume : Obligations.HeldAccessesResume := by
  refine ⟨fun s cell cycles h hfirst hroom => ?_, fun s cell h b hfirst hbind => ?_⟩
  · show execBindWaitEnd cell cycles s = _
    unfold execBindWaitEnd
    rw [hfirst]
    dsimp only
    rw [if_neg (by omega)]
  · intro t
    have g : Frame [.ro, .sigs, .ctxs, .blks, .mem, .binds, .back] s t :=
      (releaseHeld_frame (w := [.ro, .sigs, .ctxs, .blks, .mem, .binds, .back]) fun u x => by
        split
        · exact onBound_frame.wider
        · exact slotWrite_frame.wider).trans zeroRange_frame.wider
    have hzb : ((zeroRange s (slotBase s h.key b) 65536).bind h.key).isSome = true := by
      rw [zeroRange_frame.get_bind (by decide), hbind]
      rfl
    obtain ⟨h1, h2⟩ := releaseHeld_bound hzb (fun s x => match s.bind x.key with
      | some y => onBound s y x
      | none => slotWrite s x) fun u x hx hu => by
        rw [← hx] at hu ⊢
        split
        · exact onBound_kept hu
        · rename_i hnone
          rw [hnone] at hu
          cases hu
    refine ⟨?_, h1, h2, g.dirs (by decide), g.progs (by decide)⟩
    · show execSpillZeroFillDone cell s = _
      unfold execSpillZeroFillDone
      rw [hfirst]
      dsimp only
      rw [hbind] <;> rfl

end Sys2Proof.Machine


namespace Sys2Proof.Machine

set_option Elab.async false

/-! ## Releases, promotions and completions -/

section
variable {s : State} {b : Nat}

/-- An event of an item changes its block's trace alone. -/
theorem traceBurst_blk (s : State) (b l i ev c : Nat) : ∃ r n q,
    (traceBurst s b l i ev).blk c = { s.blk c with trace := r, traceN := n, traceQ := q } := by
  unfold traceBurst
  dsimp only
  split
  · exact ⟨_, _, _, rfl⟩
  · split
    · split
      · exact ⟨_, _, _, rfl⟩
      · rw [setBlk_blk]
        split
        · rename_i hc; subst hc; exact ⟨_, _, _, rfl⟩
        · exact ⟨_, _, _, rfl⟩
    · exact ⟨_, _, _, rfl⟩

theorem traceItem_blk (s : State) (b l i ev : Nat) : ∃ r n q,
    (traceItem s b l i ev).blk b = { s.blk b with trace := r, traceN := n, traceQ := q } := by
  obtain ⟨r, n, q, h⟩ := traceBurst_blk (drainTrace s b) b l i ev b
  exact ⟨r, n, q, h.trans (by rw [drainTrace, setBlk_blk_same])⟩

theorem markReady_phase (s : State) (b c : Nat) : ((markReady s b).blk c).phase = (s.blk c).phase := by
  have hready (its : List Item) (l evt : Nat) (k : Blk) (i : Nat) : (readyItem its l evt k i).phase = k.phase := by
    unfold readyItem
    split
    · dsimp only
      split <;> rfl
    · rfl
  unfold markReady
  dsimp only
  split
  · show ((s.setBlk b _).blk c).phase = _
    rw [setBlk_blk]
    split
    · rename_i hc
      subst hc
      exact foldl_inv (P := fun k : Blk => k.phase = (s.blk c).phase) rfl fun k l hk =>
        foldl_inv (P := fun k : Blk => k.phase = (s.blk c).phase) hk fun k i hk => (hready ..).trans hk
    · rfl
  · rfl

/-- What a finished item leaves of its block: everything but its item states and its watchdog. -/
theorem finishItem_blk (s : State) (b l i : Nat) (it : Item) (c : Nat) : (finishItem s b l i it).blk c = if c = b then
    { s.blk b with items := spSet itemDflt (s.blk b).items (itemKey l i) { (s.blk b).item l i with st := .done }, wdt := 0 } else s.blk
        c := by
  unfold finishItem
  dsimp only
  rw [count_get_blk]
  show (holdDec _ _ _).blk c = _
  rw [holdDec_frame.get_blk (by decide), setBlk_blk]

theorem unrunVariants_phase (d : Nat) (s : State) (b c : Nat) : ((unrunVariants d s b).blk c).phase = (s.blk c).phase := by
  have hunrun (u : State) (l i : Nat) (it : Item) : ((unrunItem u b l i it).blk c).phase = (u.blk c).phase := by
    rw [unrunItem, finishItem_blk]
    have h := (traceBurst_attemptKept u b l i 3).blk
    split
    · rename_i hc; subst hc; exact (h c).phase
    · exact (h c).phase
  unfold unrunVariants
  dsimp only
  refine foldl_inv (P := fun u : State => (u.blk c).phase = (s.blk c).phase) rfl fun u l hu =>
    foldl_inv (P := fun u : State => (u.blk c).phase = (s.blk c).phase) hu fun u i hu => ?_
  split
  · split
    · exact hu
    · rw [count_get_blk]
      exact (hunrun ..).trans hu
  · exact hu

/-- The release of a step (R160). -/
theorem stepRelease_spec {d : Nat} (cycles : Nat) (hst : (s.stp d).order = .starting) (hstop : (s.stp d).stopped = false)
    (hup : dataUp s = true) (hblk : ∀ b ∈ progBlocks s d, alive s (regOfBlk b) = true ∧ (s.blk b).clkOff = false) : ∃ t,
    exec (.stepRelease d cycles) s = .next t ∧ (t.stp d).order = .running ∧ (∀ b ∈ progBlocks s d, (t.blk b).phase = .running) ∧
    t.mem = s.mem ∧ t.dirs = s.dirs ∧ t.cp = s.cp := by
  let f (s : State) (b : Nat) : State := (s.setBlk b { s.blk b with phase := .running, wdt := 0, traceQ := 0 }).count (kSeqPerf b 9) cycles
  generalize hs1 : s.setStp d { s.stp d with order := .running } = s1
  generalize hs2 : (progBlocks s d).foldl f s1 = s2
  generalize ht : (progBlocks s d).foldl markReady ((progBlocks s d).foldl (unrunVariants d) s2) = t
  have hrun : exec (.stepRelease d cycles) s = .next t := by
    rw [← ht, ← hs2, ← hs1]
    refine congrArg Host.Outcome.next (if_neg ?_)
    have hany : (progBlocks s d).any (fun b => !alive s (regOfBlk b) || (s.blk b).clkOff) = false := by
      simp only [List.any_eq_false, Bool.or_eq_true, Bool.not_eq_true', not_or]
      exact fun b hb => ⟨by rw [(hblk b hb).1]; decide, by rw [(hblk b hb).2]; decide⟩
    rw [hst, hstop, hup, hany]
    decide
  have g2 : Frame [.ro, .blks] s1 s2 := hs2 ▸ frame_foldl (fun _ _ => State.count_frame.after State.setBlk_frame.wider) (.refl _ _)
  have g3 : Frame [.evt, .ro, .progs, .blks, .sigs] s2 t := ht ▸ frame_foldl (fun _ _ => markReady_frame.wider)
    (frame_foldl (fun _ _ => unrunVariants_frame.wider) (.refl _ _))
  have hphase (b : Nat) (hb : b ∈ progBlocks s d) : (s2.blk b).phase = .running := by
    obtain ⟨u, -, -, hu⟩ := State.each_at (P := fun _ => True) (fun s : State => (s.blk b).phase) f b (progBlocks s d)
      (List.nodup_range.filter _) hb (fun _ _ _ => trivial) (fun u c _ hc => by
        show (((u.setBlk c _).count _ _).blk b).phase = _
        rw [count_get_blk, setBlk_blk_other _ _ (Ne.symm hc)]) s1 trivial
    rw [← hs2]
    refine hu.trans ?_
    show (((u.setBlk b _).count _ _).blk b).phase = _
    rw [count_get_blk, setBlk_blk_same]
  refine ⟨t, hrun, ?_, fun b hb => ?_, ?_, ?_, ?_⟩
  · rw [g3.get_stp (by decide), g2.get_stp (by decide), ← hs1, setStp_stp_same]
  · rw [← ht]
    refine Eq.trans (foldl_inv (P := fun u : State => (u.blk b).phase = (s2.blk b).phase) ?_ fun u c hu => (markReady_phase u c b).trans hu)
      (hphase b hb)
    exact foldl_inv (P := fun u : State => (u.blk b).phase = (s2.blk b).phase) rfl fun u c hu => (unrunVariants_phase d u c b).trans hu
  · rw [g3.mem (by decide), g2.mem (by decide), ← hs1]; rfl
  · rw [g3.dirs (by decide), g2.dirs (by decide), ← hs1]; rfl
  · have h3 : t.cp = s2.cp := (congrArg State.cp g3.eq).trans rfl
    have h2 : s2.cp = s1.cp := (congrArg State.cp g2.eq).trans rfl
    rw [h3, h2, ← hs1]; rfl

/-- The promotion of the oldest ready DEFER item (R158). -/
theorem deferPromotion_spec {l i : Nat} (hruns : blkRuns s b = true) (happ : s.app (seqUnit b) (key 0x4800 2) ≠ 0)
    (hbest : bestOf s b (deferCands s b) = some (l, i)) : ∃ t, exec (.deferPromotion b) s = .next t ∧
    (t.blk b).item l i = { (s.blk b).item l i with promoted := true } ∧ t = { s with blks := t.blks, ro := t.ro } ∧
    t.ro? (kSeqPerf b 3) = min (s.ro? (kSeqPerf b 3) + 1) (entMax (kSeqPerf b 3)) := by
  generalize hs1 : s.setBlk b { s.blk b with
    items := spSet itemDflt (s.blk b).items (itemKey l i) { (s.blk b).item l i with promoted := true } } = s1
  generalize ht : (traceItem s1 b l i 5).count (kSeqPerf b 3) 1 = t
  have hrun : exec (.deferPromotion b) s = .next t := by
    show execDeferPromotion b s = _
    unfold execDeferPromotion
    rw [if_neg (by simp [hruns, happ]), hbest]
    dsimp only
    rw [hs1, ht]
  have g : Frame [.ro, .blks] s t := by
    rw [← ht, ← hs1]
    exact State.count_frame.after (traceItem_frame.after State.setBlk_frame.wider)
  have hro (u : State) (ev : Nat) : (traceBurst u b l i ev).ro? (kSeqPerf b 3) = u.ro? (kSeqPerf b 3) := by
    unfold traceBurst
    dsimp only
    split
    · rfl
    · split
      · split
        · have hne : kSeqPerf b 3 ≠ key (0x8210 + b) 2 := by
            simp only [kSeqPerf, blkKey, key, addrKey]
            omega
          exact count_ro_other _ _ hne
        · rfl
      · rfl
  refine ⟨t, hrun, ?_, g.eq.trans rfl, ?_⟩
  · have hitems : (t.blk b).items = (s1.blk b).items := by
      obtain ⟨r, n, q, h⟩ := traceItem_blk s1 b l i 5
      rw [← ht, count_get_blk, h]
    rw [Blk.item, hitems, ← hs1, setBlk_blk_same]
    exact spGet_set_same ..
  · rw [← ht, count_ro_same, traceItem, hro, ← hs1]
    rfl

/-! ## The completion of an item -/

theorem progBlocks_setHdr (s : State) (d e h : Nat) (x : WcHdr) : progBlocks (s.setHdr d h x) e = progBlocks s e := by
  unfold progBlocks State.setHdr
  rw [setProg_prog]
  split
  · rename_i he; subst he; rfl
  · rfl

/-- The signals of an item come from its block's step and attempt and its program's blocks. -/
theorem signalsOf_congr {s t : State} (it : Item) (hdom : (t.blk b).dom = (s.blk b).dom) (hstep : (t.blk b).step = (s.blk b).step)
    (hatt : (t.blk b).att = (s.blk b).att) (hp : progBlocks t (s.blk b).dom = progBlocks s (s.blk b).dom) :
    signalsOf t b it = signalsOf s b it := by
  simp only [signalsOf, hdom, hstep, hatt, hp]

theorem signalsOf_length {s t : State} (it : Item) (hdom : (t.blk b).dom = (s.blk b).dom)
    (hp : progBlocks t (s.blk b).dom = progBlocks s (s.blk b).dom) : (signalsOf t b it).length = (signalsOf s b it).length := by
  simp only [signalsOf, hdom, hp, List.length_append, List.length_map]
  split <;> simp

/-- The signals that a finished item sends. -/
theorem finishItem_sigs (s : State) (b l i : Nat) (it : Item) : (finishItem s b l i it).sigs = s.sigs ++ signalsOf s b it := by
  unfold finishItem
  dsimp only
  generalize hs1 : s.setBlk b _ = s1
  have hblk (c : Nat) : ((holdDec s1 (s.blk b).dom it).blk c) = s1.blk c := holdDec_frame.get_blk (by decide) c
  have hb : (s1.blk b).dom = (s.blk b).dom ∧ (s1.blk b).step = (s.blk b).step ∧ (s1.blk b).att = (s.blk b).att := by
    rw [← hs1, setBlk_blk_same]
    exact ⟨rfl, rfl, rfl⟩
  have hprog (d : Nat) : progBlocks (holdDec s1 (s.blk b).dom it) d = progBlocks s d := by
    have h0 : progBlocks s1 d = progBlocks s d := by rw [← hs1]; rfl
    unfold holdDec
    split
    · exact (progBlocks_setHdr ..).trans h0
    · exact h0
  show (holdDec s1 (s.blk b).dom it).sigs ++ _ = _
  rw [holdDec_frame.sigs (by decide), signalsOf_congr (s := s) it (by rw [hblk, hb.1]) (by rw [hblk, hb.2.1]) (by rw [hblk, hb.2.2])
      (hprog _), ← hs1]
  rfl

theorem payOwed_attemptKept (s : State) (b d : Nat) (o : Owed) : AttemptKept s (payOwed s b d o) := by
  have h : AttemptKept s (setNonfin (o.recs.foldl (fun s r => updRecord s b d r.1 r.2.1 r.2.2) s) b o.nonfin) := by
    have h0 : AttemptKept s (s.each o.recs fun s r => updRecord s b d r.1 r.2.1 r.2.2) :=
      (AttemptKept.refl s).each (fun u r => modRec_attemptKept _ _ _ _ _) _
    refine .ite (.setBlk h0 ?_) h0
    exact ⟨⟨rfl, rfl, rfl, rfl, rfl⟩, id⟩
  unfold payOwed
  dsimp only
  split
  · exact h.trans (stBytes_attemptKept _ _ _ _ _ _)
  · exact h

/-- The completion of an item whose accesses have been performed (R114, R155). -/
theorem itemComplete_spec {n l i cycles : Nat} {it : Item} {p : Perf} (hup : dataUp s = true) (hal : alive s (regOfBlk b) = true)
    (hi : i < 65536) (hn : (((s.blk b).items.filter (fun e => e.2.st == .running)).map (·.1))[n]? = some (itemKey l i))
    (hit : (listOf s b l)[i]? = some it) (hdone : itemDone s b l i it = true)
    (hclean : poisonHit s (s.blk b).dom (owedReads ((s.blk b).item l i)) = none) : ∃ t,
      exec (.itemComplete b n ⟨cycles, p⟩) s = .next t ∧ ((t.blk b).item l i).st = .done ∧
      t.sigs.length = s.sigs.length + (signalsOf s b it).length ∧ t.dirs = s.dirs ∧ t.fab = s.fab ∧
      (((s.blk b).item l i).owed = none → t.sigs = s.sigs ++ signalsOf s b it ∧ t.mem = s.mem) := by
  generalize hs1 : settleItem (traceItem s b l i 2) b l i = s1
  generalize ht : applyMemEvents (countRun (finishItem s1 b l i it) b it cycles) p = t
  have hl : itemKey l i / 65536 = l := by unfold itemKey; omega
  have hi' : itemKey l i % 65536 = i := by unfold itemKey; omega
  have hrun : exec (.itemComplete b n ⟨cycles, p⟩) s = .next t := by
    show execItemComplete b n ⟨cycles, p⟩ s = _
    unfold execItemComplete
    rw [if_neg (by rw [hup, hal]; decide), hn]
    dsimp only
    rw [hl, hi', hit]
    dsimp only
    rw [if_pos hdone, guardReads, hclean, hs1]
    dsimp only
    rw [ht]
  have g1 : Frame [.ro, .ctxs, .blks, .mem, .binds, .back] s s1 := hs1 ▸ settleItem_frame.after traceItem_frame.wider
  have gt : Frame [.ro, .back] (finishItem s1 b l i it) t := ht ▸ applyMemEvents_frame.after countRun_frame.wider
  have gf : Frame [.ro, .progs, .blks, .sigs] s1 (finishItem s1 b l i it) := finishItem_frame
  have hsigs : t.sigs = s.sigs ++ signalsOf s1 b it := by
    rw [gt.sigs (by decide), finishItem_sigs, g1.sigs (by decide)]
  have hprog : progBlocks s1 (s.blk b).dom = progBlocks s (s.blk b).dom := by simp only [progBlocks, g1.get_prog (by decide)]
  obtain ⟨r, m, q, h0⟩ := traceItem_blk s b l i 2
  have h1 : ((countRunEvts (traceItem s b l i 2) b (itemKey l i)).blk b) = _ := (countRunEvts_blk ..).trans (if_pos rfl)
  rw [h0] at h1
  have hdom : (s1.blk b).dom = (s.blk b).dom := by
    rw [← hs1]
    unfold settleItem
    dsimp only
    split
    · rw [((payOwed_attemptKept ..).blk b).dom, h1]
    · rw [h1]
  refine ⟨t, hrun, ?_, ?_, ?_, ?_, fun howed => ?_⟩
  · rw [gt.get_blk (by decide), finishItem_blk, if_pos rfl, Blk.item, spGet_set_same]
  · rw [hsigs, List.length_append, signalsOf_length it hdom hprog]
  · rw [gt.dirs (by decide), gf.dirs (by decide), g1.dirs (by decide)]
  · have e1 : t.fab = (finishItem s1 b l i it).fab := (congrArg State.fab gt.eq).trans rfl
    have e2 : (finishItem s1 b l i it).fab = s1.fab := gf.fab (by decide)
    exact e1.trans (e2.trans (g1.fab (by decide)))
  · have hs1' : s1 = countRunEvts (traceItem s b l i 2) b (itemKey l i) := by
      rw [← hs1, settleItem, show (((traceItem s b l i 2).blk b).item l i).owed = none by rw [h0]; exact howed]
    refine ⟨?_, ?_⟩
    · rw [hsigs, signalsOf_congr it hdom (by rw [hs1', h1]) (by rw [hs1', h1]) hprog]
    · rw [gt.mem (by decide), gf.mem (by decide), hs1', countRunEvts_frame.mem (by decide), traceItem_frame.mem (by decide)]

end

/-- Settles O37: one lemma for each row; the report and the clip pass are their rows' conditions. -/
theorem stepProgresses : Obligations.StepProgresses := by
  refine ⟨fun s d cycles => stepRelease_spec cycles, fun s b l i => deferPromotion_spec, fun s b happ => ?_,
    fun s b n l i cycles it p => itemComplete_spec, fun s b hup hal hstop hphase hpass hitems => ?_, fun s d perf hup hclip hblk => ?_⟩
  · exact congrArg Host.Outcome.next (if_pos (by simp [happ]))
  · intro t d
    refine ⟨?_, ?_⟩
    · show ((reportBlock s b).blk b).phase = .reported
      unfold reportBlock
      dsimp only
      rw [State.setStp_frame.get_blk (by decide), setBlk_blk_same]
    · show execBlockReport b s = _
      unfold execBlockReport
      rw [if_neg (by rw [hup, hal, hstop, hphase, hpass, hitems]; decide)]
      refine congrArg Host.Outcome.next (ite_congr (propext ?_) (fun _ => rfl) fun _ => rfl)
      simp only [Bool.and_eq_true, beq_iff_eq, List.all_eq_true]
      exact Iff.rfl
  · have hall : (progBlocks s d).all (fun b => mbit (s.stp d).clipped b && alive s (b / 6)) = true := by
      simp only [List.all_eq_true, Bool.and_eq_true]
      exact hblk
    exact congrArg Host.Outcome.next (if_pos (by rw [hup, hclip, hall]; decide))

end Sys2Proof.Machine


namespace Sys2Proof.Machine

set_option Elab.async false

/-! ## The Cutter's pass -/

theorem physHit_of_clean {s : State} (h : s.back.poison = []) (rs : List (Nat × Nat)) : physHit s rs = none := by
  rw [physHit, h]
  rfl

theorem guardPhys_of_clean {s : State} (h : s.back.poison = []) (rs : List (Nat × Nat)) (t : State) : guardPhys s rs t = t := by
  rw [guardPhys, physHit_of_clean h]

/-- The memory events of an operation poison no word, and take the poison off none. -/
theorem applyMemEvents_poison (s : State) (p : Perf) : (applyMemEvents s p).back.poison = s.back.poison := by
  have hempty (u : State) (o : ChOp) : (emptyPkg u o).back.poison = u.back.poison := by
    have g : Frame [.ro] u (setPkg u (o.ch / 4) 1) := setPkg_frame
    have h : (emptyPkg u o).back.poison = (setPkg u (o.ch / 4) 1).back.poison := rfl
    rw [h, g.back (by decide)]
  have hretire (u : State) (ch : Nat) : (autoRetire u ch).back.poison = u.back.poison := by
    unfold autoRetire
    split
    · rfl
    · split
      · exact hempty _ _
      · rfl
  have hce (u : State) (ch : Nat) : (linkCe u ch).back.poison = u.back.poison := by
    unfold linkCe
    split
    · rfl
    · dsimp only
      split
      · exact hretire _ _
      · rfl
  exact foldl_inv (P := fun u : State => u.back.poison = s.back.poison) rfl fun u ch h => (hce u ch).trans h

section
variable {s : State} {b page cycles : Nat} {q : Pass} {p : PassDesc} {perf : Perf}

theorem Frame.pageBlocked {t : State} {w : List Part} (g : Frame w s t) (hd : .dirs ∉ w) (hb : .blks ∉ w) (hy : .days ∉ w) :
    pageBlocked t b page = pageBlocked s b page := by
  have hwaits : dailyWaits t page = dailyWaits s page := by simp only [dailyWaits, pageState, g.get_dir hd, g.get_day hy]
  simp only [Machine.pageBlocked, hwaits, g.get_dir hd, g.get_blk hb]

/-- A slot taken of a page that nothing keeps and that is not frozen: PEND of its page is set, and no other entry changes. -/
theorem takeSlot_dir {k : Nat} (hblocked : pageBlocked s b (p.page0 + slotNo p k) = 0)
    (hfrozen : (s.dir (p.page0 + slotNo p k)).frozen = false) :
    (takeSlot s b q p k).dir (p.page0 + slotNo p k) = { s.dir (p.page0 + slotNo p k) with pend := true } := by
  unfold takeSlot
  extract_lets d n page w e src c _ s1 s2 _ s3 s4
  rw [if_neg (show ¬ w ≠ 0 from Decidable.not_not.2 hblocked)]
  have h1 : s1.dir page = s.dir page := (State.setBlk_frame.get_dir (by decide) _).trans (consumeSlot_frame.get_dir (by decide) _)
  have h2 : s2.dir page = { s.dir page with pend := true } := by
    rw [show s2 = passPage s1 b d src q p n c.1 from if_neg (by rw [show e.frozen = false from hfrozen]; decide)]
    unfold passPage
    extract_lets e' rule vs sg h new t0 _ t1 t2 t3
    have g3 : Frame [.ro, .ctxs, .blks, .mem, .binds, .back, .days] s1 t3 := by
      have g0 : Frame [.ro, .ctxs, .blks, .mem, .binds, .back, .days] s1 t0 := dailyAside_frame
      have g2 : Frame [.ro, .ctxs, .blks, .mem, .binds, .back, .days] s1 t2 :=
        setNonfin_frame.after (State.wrBytes_frame.after (State.setBlk_frame.after g0))
      exact frame_ite (stBytes_frame.after g2) g2
    rw [State.count_frame.get_dir (by decide), setDir_dir_same]
    exact congrArg (fun x : Dirent => { x with pend := true }) ((g3.get_dir (by decide) page).trans h1)
  have h4 : s4.dir page = s2.dir page := by
    have g3 : Frame [.blks] s2 s3 := State.setBlk_frame
    have g4 : Frame [.ctxs] s3 s4 := frame_ite markSpl_frame (.refl _ _)
    exact (g4.get_dir (by decide) _).trans (g3.get_dir (by decide) _)
  rw [passEnd_frame.get_dir (by decide), passEmit_frame.get_dir (by decide)]
  exact h4.trans h2

theorem cutterSlotTake_spec {k : Nat} {ks : List Nat} (hruns : blkRuns s b = true) (hpass : passNow s b = some (q, p)) (hwait : q.wait = 0)
    (hopc : p.opc = 0x41) (htake : takable s b (s.blk b).dom q p = k :: ks) :
    exec (.cutterSlotTake b perf) s = .next (takeGuarded (applyMemEvents s perf) b q p k) := by
  show execCutterSlotTake b perf s = _
  unfold execCutterSlotTake
  rw [if_neg (by simp [hruns]), hpass]
  dsimp only
  rw [if_neg (by simp [hwait, hopc]), htake]

theorem takeGuarded_of_clean {k : Nat} (h : s.back.poison = []) : takeGuarded s b q p k = takeSlot s b q p k := by
  unfold takeGuarded
  dsimp only
  rw [guardReads_of_clean h, guardPhys_of_clean h, ite_self]

/-- The pass of a block that has not changed its pass, nor the list that it stands in. -/
theorem passNow_congr {t : State} (hp : (t.blk b).pass = (s.blk b).pass) (hd : (t.blk b).dom = (s.blk b).dom)
    (hl : (t.blk b).lset = (s.blk b).lset) (hprog : t.progs = s.progs) : passNow t b = passNow s b := by
  simp only [passNow, hp, listOf, hd, hl, State.prog, hprog]

theorem migWaitEnd_spec (hruns : blkRuns s b = true) (hpass : passNow s b = some (q, p)) (hpage : waitPage s b q p = some page)
    (hwait : q.wait = 2) (hmig : (s.dir page).mig = false) :
    exec (.migWaitEnd b cycles) s = .next (passResume (s.count (kMem 4) cycles) b q p) := by
  show execMigWaitEnd b cycles s = _
  unfold execMigWaitEnd
  rw [if_neg (by simp [hruns]), hpass]
  dsimp only
  rw [hpage]
  dsimp only
  rw [if_pos (by simp [hwait, hmig])]

theorem emissionResume_spec {n : Nat} (hruns : blkRuns s b = true) (hpass : passNow s b = some (q, p)) (hlast : q.taken.getLast? = some n)
    (hwait : q.wait = 3) (hheld : emitHeld s (s.blk b).dom p = false) (hclean : s.back.poison = []) :
    exec (.emissionResume b cycles) s =
      .next (passResume (emitStep (s.count (kSeqPerf b 8) cycles) b (s.blk b).dom (srcOf b 16 q.idx) p n) b q p) := by
  show execEmissionResume b cycles s = _
  unfold execEmissionResume
  rw [if_neg (by simp [hruns]), hpass]
  dsimp only
  rw [if_pos (by simp [hwait, hheld]), hlast]
  have hcount : (s.count (kSeqPerf b 8) cycles).back.poison = [] := hclean
  dsimp only
  rw [guardReads_of_clean hcount, guardPhys_of_clean hcount]

theorem dailyStreamWaitEnd_spec (hruns : blkRuns s b = true) (hpass : passNow s b = some (q, p)) (hpage : waitPage s b q p = some page)
    (hwait : q.wait = 4) (hclip : owesClip s b = false) : exec (.dailyStreamWaitEnd b cycles) s =
      .next (passResume (setPageState (s.count (kMem 4) cycles) (s.dir page).dom page 0) b q p) := by
  show execDailyStreamWaitEnd b cycles s = _
  unfold execDailyStreamWaitEnd passStreamEnd
  rw [if_neg (by simp [hclip]), if_neg (by simp [hruns]), hpass]
  dsimp only
  rw [hpage]
  dsimp only
  rw [if_pos hwait]

/-- A page move that begins (R138). -/
theorem pageMove_begins {dest : Nat} (hup : dataUp s = true) (hvalid : (s.dir page).valid = true) (hmig : (s.dir page).mig = false)
    (hpass : layerPassRuns s (s.dir page) = false) (hstream : pageState s (s.dir page).dom page ≠ 2) (hfits : pageFits s dest = true) : ∃ t,
    exec (.pageMove page (.start dest)) s = .next t ∧ t.dir page = { s.dir page with mig := true } ∧ (∀ x, x ≠ page → t.dir x = s.dir x) ∧
    (page, dest) ∈ pageMoves t ∧ t.mem = s.mem ∧ t.blks = s.blks ∧ t.progs = s.progs ∧ t.binds = s.binds := by
  generalize hs1 : s.setDir page { s.dir page with mig := true } = s1
  generalize ht : ({ s1 with back := { s1.back with pmoves := s1.back.pmoves.filter (fun m => m.1 != page) ++ [(page, dest)] } } : State) =
      t
  have hrun : exec (.pageMove page (.start dest)) s = .next t := by
    refine congrArg Host.Outcome.next ((if_neg (by simp [hup])).trans ?_)
    dsimp only
    unfold moveBegin
    dsimp only
    rw [if_neg (by simp [hvalid, hmig, hpass, hstream, hfits]), hs1, ht]
  have hdir (x : Nat) : t.dir x = if x = page then { s.dir page with mig := true } else s.dir x := by
    rw [← ht]
    show s1.dir x = _
    rw [← hs1, setDir_dir]
  have hpage := (hdir page).trans (if_pos rfl)
  have g : Frame [.dirs, .back] s t := by
    rw [← ht, ← hs1]
    exact Frame.put (State.setDir_frame.mono (by decide))
  refine ⟨t, hrun, hpage, fun x hx => (hdir x).trans (if_neg hx), List.mem_filter.mpr ⟨?_, ?_⟩, g.mem (by decide), g.blks (by decide),
    g.progs (by decide), g.binds (by decide)⟩
  · rw [← ht]
    exact List.mem_append_right _ (List.mem_singleton.mpr rfl)
  · rw [hpage]
    simp [hvalid]

/-- A page move that ends (R138). -/
theorem pageMove_ends {dest : Nat} (hup : dataUp s = true) (hclean : s.back.poison = [])
    (hmove : (pageMoves s).find? (fun m => m.1 == page) = some (page, dest)) : ∃ t,
    exec (.pageMove page (.finish perf)) s = .next t ∧ t.mem = (s.wrBytes dest (s.rdBytes ((s.dir page).addr * 2 ^ 18) 0x40000)).mem ∧
    t.dir page = { s.dir page with tier := dest < 0x8000000000, addr := dest / 2 ^ 18, mig := false } ∧
    (∀ y, y ≠ page → t.dir y = s.dir y) ∧ t.progs = s.progs ∧ t.binds = s.binds := by
  generalize hs0 : s.wrBytes dest (s.rdBytes ((s.dir page).addr * 2 ^ 18) 0x40000) = s0
  generalize hs1 : (applyMemEvents s0 perf).setDir page
    { s.dir page with tier := dest < 0x8000000000, addr := dest / 2 ^ 18, mig := false } = s1
  generalize ht : ({ s1 with back := { s1.back with pmoves := s1.back.pmoves.filter (fun x => x.1 != page) } } : State) = t
  have hrun : exec (.pageMove page (.finish perf)) s = .next t := by
    refine congrArg Host.Outcome.next ((if_neg (by simp [hup])).trans ?_)
    dsimp only
    unfold moveEnd
    rw [hmove]
    dsimp only
    rw [guardPhys_of_clean hclean, hs0, hs1, ht]
  have g0 : Frame [.mem, .back] s s0 := hs0 ▸ State.wrBytes_frame
  have g1 : Frame [.ro, .back] s0 (applyMemEvents s0 perf) := applyMemEvents_frame
  have gt : Frame [.dirs, .back] (applyMemEvents s0 perf) t := by
    rw [← ht, ← hs1]
    exact Frame.put (State.setDir_frame.mono (by decide))
  have hdir (x : Nat) : t.dir x = s1.dir x := by rw [← ht]; rfl
  refine ⟨t, hrun, (gt.mem (by decide)).trans (g1.mem (by decide)), ?_, fun y hy => ?_, ?_, ?_⟩
  · rw [hdir, ← hs1, setDir_dir_same]
  · rw [hdir, ← hs1, setDir_dir_other _ _ hy, g1.get_dir (by decide), g0.get_dir (by decide)]
  · rw [gt.progs (by decide), g1.progs (by decide), g0.progs (by decide)]
  · rw [gt.binds (by decide), g1.binds (by decide), g0.binds (by decide)]

end

/-- Settles O39: a lemma for each row of the pass and of a page move; the memory events of a row change no page, pass or poisoned word. -/
theorem cutterPassProceeds : Obligations.CutterPassProceeds := by
  refine ⟨fun s b k ks q p perf hruns hpass hwait hopc htake => ⟨cutterSlotTake_spec hruns hpass hwait hopc htake, fun hclean =>
      takeGuarded_of_clean ((applyMemEvents_poison s perf).trans hclean), fun hblocked hfrozen => ?_⟩,
    fun s b page cycles n perf hruns hmay hfree => ?_, fun s b page cycles q p => migWaitEnd_spec, fun s b n cycles q p =>
        emissionResume_spec,
    fun s b page cycles q p => dailyStreamWaitEnd_spec, fun s page dest => pageMove_begins, fun s page dest perf => pageMove_ends⟩
  · have g : Frame [.ro, .back] s (applyMemEvents s perf) := applyMemEvents_frame
    have hdir := takeSlot_dir (s := applyMemEvents s perf) (b := b) (q := q) (p := p) (k := k)
      ((g.pageBlocked (by decide) (by decide) (by decide)).trans hblocked) (by rw [g.get_dir (by decide)]; exact hfrozen)
    rw [g.get_dir (by decide)] at hdir
    intro t e
    have ht : t.dir (p.page0 + slotNo p k) = _ := hdir
    rw [ht]
    exact ⟨rfl, rfl⟩
  · intro u t
    have g : Frame [.ro, .mem, .back] s u := applyMemEvents_frame.after State.wrBytes_frame.wider
    have hblk : u.blk b = s.blk b := g.get_blk (by decide) b
    have htb : t.blk b = { u.blk b with staged := (u.blk b).staged ++ [(n, page)] } := setBlk_blk_same ..
    have hpass : passNow t b = passNow s b :=
        passNow_congr (by rw [htb, hblk]) (by rw [htb, hblk]) (by rw [htb, hblk]) (g.progs (by decide))
    have hrun : exec (.stagingArrival b ⟨page, cycles, perf⟩) s = .next (match passNow t b with
        | some (q, x) => if q.wait = 1 && waitPage t b q x == some page then passResume (t.count (kMem 4) cycles) b q x else t
        | none => t) := by
      show execStagingArrival b ⟨page, cycles, perf⟩ s = _
      unfold execStagingArrival
      dsimp only
      rw [if_neg (by simp [hruns, hmay]), hfree] <;> rfl
    refine ⟨by rw [htb, ← hblk], fun hnot => hrun.trans (congrArg _ ?_), fun q p hp hwait hpage => hrun.trans (congrArg _ ?_)⟩
    · rw [hpass]
      split
      · rename_i q x hq
        rw [if_neg (by simp [hnot q x hq])]
      · rfl
    · rw [hp]
      dsimp only
      rw [if_pos (by simp [hwait, hpage])]

end Sys2Proof.Machine


namespace Sys2Proof.Machine

set_option Elab.async false

/-! ## Errors of cells and slices -/

section
variable {s : State} {b pos : Nat}

theorem bit_mclr_same (m d : Nat) : bit (mclr m d) d = false := by
  unfold bit mclr
  split
  · rename_i h
    rw [Nat.testBit_eq_decide_div_mod_eq] at h ⊢
    have hm : m / 2 ^ d % 2 = 1 := of_decide_eq_true h
    have hle : 2 ^ d * 1 ≤ m := by
      rw [Nat.mul_one]
      exact Nat.le_of_not_lt fun hlt => by rw [Nat.div_eq_of_lt hlt] at hm; cases hm
    have hdiv := Nat.sub_mul_div m (2 ^ d) 1
    rw [Nat.mul_one] at hdiv
    rw [hdiv]
    exact decide_eq_false (by omega)
  · rename_i h
    exact Bool.not_eq_true _ ▸ h

theorem Frame.contained {t : State} {w : List Part} (g : Frame w s t) (hc : .chip ∉ w) (hr : .regs ∉ w) (r : Nat) :
    contained t r = contained s r := by simp only [Machine.contained, inChipReset, g.chip hc, g.get_reg hr]

theorem Frame.alive {t : State} {w : List Part} (g : Frame w s t) (hr : .regs ∉ w) (r : Nat) : alive t r = alive s r := by
  simp only [Machine.alive, g.get_reg hr]

/-- A slice error of a region that is in service kills it, with cause 0x01. -/
theorem sliceFault_spec {cell : Nat} (detail : Nat) (hc : contained s (cell / 96) = false) (ha : alive s (cell / 96) = true) :
    let t := sliceFault s cell detail
    (t.reg (cell / 96)).st = .resetting ∧ t.flt.head = s.flt.head + 1 ∧ bits (recordAt t t.flt.head) 409 402 = 0x01 := by
  have hr : cell / 16 / 6 = cell / 96 := Nat.div_div_eq_div_mul ..
  unfold sliceFault
  dsimp only
  rw [hr, if_neg (by simp [hc]), if_neg (by simp [ha])]
  obtain ⟨hhead, hcause, -, -, hst, -⟩ := regionFault_facts (s.count (kBlkCnt (cell / 16) 4) 1) (cell / 96) 1
    { level := 2, action := 3, cause := 0x01, blk := cell / 16, cell := cell, detail := detail }
    (by simp only [contained, Bool.or_eq_false_iff] at hc; exact hc.1) ha
  exact ⟨hst, hhead, hcause⟩

/-- A cell whose position the stand-in is to take. -/
theorem retireCell_standIn {cause : Nat} (worked : Bool) (hfree : standInFree (s.blk b) = true) (hnone : (s.blk b).subst = none) :
    let t := retireCell s b pos cause worked
    (t.blk b).subst = some { pos := pos, cause := cause, worked := worked, tick := s.ticks } ∧ t.mem = s.mem ∧ t.flt.head = s.flt.head := by
  unfold retireCell
  dsimp only
  rw [if_pos (by simp [hfree, hnone])]
  have g : Frame [.ro, .clap, .blks] (s.count (kBlkCnt b 1) 1) (strike ((s.count (kBlkCnt b 1) 1).setBlk b
      { (s.count (kBlkCnt b 1) 1).blk b with subst := some { pos := pos, cause := cause, worked := worked, tick := s.ticks } }) 6) :=
    strike_frame.after State.setBlk_frame.wider
  refine ⟨((strike_attemptKept ..).blk b).subst.trans ?_, g.mem (by decide), g.head (by decide)⟩
  rw [setBlk_blk_same]

/-- A block that leaves service, and its region with it. -/
theorem blockOut_spec (hc : contained s (b / 6) = false) (ha : alive s (b / 6) = true) : let t := blockOut s b pos
    (t.reg (b / 6)).st = .resetting ∧ bit (t.blk b).map 31 = false ∧ t.flt.head = s.flt.head + 2 := by
  obtain ⟨f, f', h⟩ : ∃ f f', blockOut s b pos =
      regionFault (logFault (s.setBlk b { s.blk b with map := mclr (mclr (s.blk b).map (physOf (s.blk b) pos)) 31 }) f) (b / 6) 1 f' :=
    ⟨_, _, rfl⟩
  have hmap : bit ((s.setBlk b { s.blk b with map := mclr (mclr (s.blk b).map (physOf (s.blk b) pos)) 31 }).blk b).map 31 = false := by
    rw [setBlk_blk_same]
    exact bit_mclr_same _ _
  have g : Frame [.blks] s (s.setBlk b { s.blk b with map := mclr (mclr (s.blk b).map (physOf (s.blk b) pos)) 31 }) := State.setBlk_frame
  intro t
  have ht : t = _ := h
  clear_value t
  generalize s.setBlk b _ = v at ht hmap g
  have gl : Frame [.ro, .log, .head] v (logFault v f) := logFault_frame
  have hc' : inChipReset (logFault v f) = false := by
    rw [contained, Bool.or_eq_false_iff] at hc
    rw [inChipReset, gl.chip (by decide), g.chip (by decide)]
    exact hc.1
  have ha' : alive (logFault v f) (b / 6) = true := by rw [gl.alive (by decide), g.alive (by decide), ha]
  obtain ⟨h1, -, -, -, h2, -⟩ := regionFault_facts (logFault v f) (b / 6) 1 f' hc' ha'
  rw [ht]
  refine ⟨h2, ?_, ?_⟩
  · rw [((regionFault_attemptKept ..).blk b).map, gl.get_blk (by decide), hmap]
  · rw [h1, logFault_head, g.head (by decide)]

theorem retireCell_blockOut {cause : Nat} (worked : Bool) (hfree : standInFree (s.blk b) = false) :
    retireCell s b pos cause worked = blockOut (s.count (kBlkCnt b 1) 1) b pos := by
  unfold retireCell
  dsimp only
  rw [if_neg (by simp [hfree])]

/-- A run issued again leaves the head of its block. -/
theorem reissue_head (worked : Bool) (s : State) (ki : Nat) : BlkHead (s.blk b) ((reissue b pos worked s ki).blk b) := by
  have hevts (u : State) (es : List (Nat × Nat)) : (countEvts u es).blk b = u.blk b := countEvts_frame.get_blk (by decide) b
  unfold reissue
  split
  · unfold reissueDir countTile
    rw [setBlk_blk_same, hevts]
    exact ⟨rfl, rfl, rfl, rfl, rfl⟩
  · dsimp only
    show BlkHead _ ((State.setBlk _ b _).blk b)
    rw [setBlk_blk_same, hevts]
    exact ⟨rfl, rfl, rfl, rfl, rfl⟩

/-- A run of a cell's list issued again is ready. -/
theorem reissue_ready (worked : Bool) (s : State) {ki : Nat} (h : ki / 65536 ≠ 16) :
    (spGet itemDflt ((reissue b pos worked s ki).blk b).items ki).st = .ready := by
  unfold reissue
  rw [if_neg h]
  dsimp only
  show (spGet itemDflt ((State.setBlk _ b _).blk b).items ki).st = _
  rw [setBlk_blk_same, spGet_set_same]

/-- A record that is the newest of the log. -/
theorem logFault_newest (s : State) (f : Fact) : recordAt (logFault s f) (logFault s f).flt.head = recordOf s (s.flt.head + 1) f := by
  rw [logFault_head, recordAt_logFault]

/-- A first parity error: remembered, recorded, and its run is issued again. -/
theorem parityError_again {k : Blk} (worked : Bool) (hit c n ki : Nat) : let t := execParityError.again b pos ⟨hit, worked⟩ s k c n ki
    t.flt.head = s.flt.head + 1 ∧ bits (recordAt t t.flt.head) 413 410 = 1 ∧ bits (recordAt t t.flt.head) 409 402 = 0x02 ∧
    (ki / 65536 ≠ 16 → (spGet itemDflt (t.blk b).items ki).st = .ready) ∧ t.mem = s.mem := by
  unfold execParityError.again
  extract_lets s1 t
  have g : Frame [.evt, .ro, .blks] s s1 := reissue_frame.after State.setBlk_frame.wider
  have hhead : s1.flt.head = s.flt.head := g.head (by decide)
  have hready (hk : ki / 65536 ≠ 16) : (spGet itemDflt (s1.blk b).items ki).st = .ready := reissue_ready worked _ hk
  have hf : ∃ f : Fact, f.action = 1 ∧ f.cause = 2 ∧ t = (logFault s1 f).count (kBlkCnt b 3) 1 := ⟨_, rfl, rfl, rfl⟩
  clear_value s1 t
  obtain ⟨f, haction, hcause, rfl⟩ := hf
  have g2 : Frame [.ro, .log, .head] s1 ((logFault s1 f).count (kBlkCnt b 3) 1) := State.count_frame.after logFault_frame
  have hnewest : recordAt ((logFault s1 f).count (kBlkCnt b 3) 1) ((logFault s1 f).count (kBlkCnt b 3) 1).flt.head =
      recordOf s1 (s1.flt.head + 1) f := by
    rw [State.count_frame.get_recordAt (by decide), State.count_frame.head (by decide), logFault_newest]
  rw [hnewest, recordOf_action, recordOf_cause, haction, hcause, g2.get_blk (by decide), g2.mem (by decide),
    State.count_frame.head (by decide), logFault_head, hhead]
  exact ⟨rfl, rfl, rfl, hready, g.mem (by decide)⟩

theorem execParityError_run {hit ki : Nat} {worked : Bool} (hc : contained s (b / 6) = false) (hr : cellsRun s b = true)
    (hsub : substAt s b pos = false) (hrun : (runsAt s b pos)[hit]? = some ki) (hover : runOverwrites s b ki = false) :
    exec (.parityError b pos ⟨hit, worked⟩) s = .next (match spFind (s.blk b).parity (physOf (s.blk b) pos) with
      | some p => if spGet zeroNat (s.blk b).tiles (physOf (s.blk b) pos) - p ≤ 1024 then
          retireCell (s.setBlk b { s.blk b with parity := spDel (s.blk b).parity (physOf (s.blk b) pos) }) b pos 0x02 worked
        else execParityError.again b pos ⟨hit, worked⟩ s (s.blk b) (physOf (s.blk b) pos)
          (spGet zeroNat (s.blk b).tiles (physOf (s.blk b) pos)) ki
      | none => execParityError.again b pos ⟨hit, worked⟩ s (s.blk b) (physOf (s.blk b) pos)
          (spGet zeroNat (s.blk b).tiles (physOf (s.blk b) pos)) ki) := by
  show execParityError b pos ⟨hit, worked⟩ s = _
  unfold execParityError
  dsimp only
  rw [if_neg (by simp [hc]), if_neg (by simp [hr, hsub]), hrun]
  dsimp only
  rw [if_neg (by simp [hover])] <;> rfl

/-- The stand-in enters the map (R363). -/
theorem substitutionComplete_spec {x : Subst} (hx : (s.blk b).subst = some x) (ha : alive s (b / 6) = true) (hup : dataUp s = true)
    (hpos : x.pos < 16) : ∃ t, exec (.substitutionComplete b) s = .next t ∧ (t.blk b).subst = none ∧ bits (t.blk b).map 21 17 = x.pos ∧
    t.flt.head = s.flt.head + 1 ∧ bits (recordAt t t.flt.head) 413 410 = 2 ∧
    bits (recordAt t t.flt.head) 479 416 = x.tick % 2 ^ 64 ∧ t.mem = s.mem := by
  generalize hs1 : s.setBlk b { clearStandIn (s.blk b) with
    map := setBits (mclr (clearStandIn (s.blk b)).map (physOf (clearStandIn (s.blk b)) x.pos)) 21 17 x.pos, subst := none } = s1
  generalize hs3 : ((s1.each (runsAt s b x.pos) (reissue b x.pos x.worked)).count (kBlkCnt b 2) 1).count (kBlkCnt b 3)
    (runsAt s b x.pos).length = s3
  have hrun : exec (.substitutionComplete b) s = .next
      (logFault s3
        { level := 1, action := 2, cause := x.cause, region := b / 6, blk := b, cell := 16 * b + x.pos, tick := some x.tick }) := by
    show execSubstitutionComplete b s = _
    unfold execSubstitutionComplete
    rw [hx]
    dsimp only
    rw [if_neg (by simp [ha, hup]), hs1, hs3]
  have g : Frame [.evt, .ro, .blks] s s3 := by
    rw [← hs3, ← hs1]
    exact State.count_frame.after (State.count_frame.after ((State.each_frame fun _ _ => reissue_frame).trans State.setBlk_frame.wider))
  have hhead : BlkHead (s1.blk b) (s3.blk b) := by
    rw [← hs3, count_get_blk, count_get_blk]
    exact foldl_inv (P := fun u : State => BlkHead (s1.blk b) (u.blk b)) (.refl _) fun u ki h => h.trans (reissue_head ..)
  have hb1 : (s1.blk b).subst = none ∧ bits (s1.blk b).map 21 17 = x.pos := by
    rw [← hs1, setBlk_blk_same]
    exact ⟨rfl, (bits_setBits_same _ _ _ _ (by decide)).trans (Nat.mod_eq_of_lt (by omega))⟩
  refine ⟨_, hrun, ?_, ?_, congrArg (· + 1) (g.head (by decide)), ?_, ?_, ?_⟩
  · rw [logFault_frame.get_blk (by decide), hhead.subst, hb1.1]
  · rw [logFault_frame.get_blk (by decide), hhead.map, hb1.2]
  · rw [logFault_newest, recordOf_action]
    rfl
  · rw [logFault_newest, recordOf_time]
    rfl
  · rw [logFault_frame.mem (by decide), g.mem (by decide)]

end

/-- Settles O42: a slice error is `sliceFault_spec`, a retired position `retireCell_standIn` or `retireCell_blockOut`, a first parity error
`parityError_again`. -/
theorem cellAndSliceErrorsAct : Obligations.CellAndSliceErrorsAct := by
  refine ⟨fun s cell off hup hdir hseg hc ha => ?_, fun s cell off hup hdir => ?_, fun s cell off c hup => ?_, fun s cell off hup => ?_,
    fun s b pos worked hc hr hruns hsub => ⟨fun hfree hnone => ?_, fun hfree => ?_, fun hit ki hki hover => ⟨fun hpar => ?_,
      fun n hpar hn hfree hnone => ?_⟩⟩, fun s b x => substitutionComplete_spec⟩
  · obtain ⟨h1, h2, h3⟩ := sliceFault_spec (s := s.count (kSram 2) 1) (sliceBase cell + off) hc ha
    refine ⟨_, congrArg Host.Outcome.next ?_, h1, h2, h3⟩
    rw [if_neg (by simp [hup])]
    dsimp only
    rw [if_neg (by simp [hdir]), if_neg (by simp [hseg])]
  · refine congrArg Host.Outcome.next ?_
    rw [if_neg (by simp [hup])]
    dsimp only
    rw [if_pos hdir, if_neg (by decide)]
  · refine ⟨_, congrArg Host.Outcome.next ((if_neg (by simp [hup])).trans (if_pos rfl)), fun i hi => ?_, rfl⟩
    refine List.mem_append_left _ (List.mem_map.mpr ⟨i, List.mem_range.mpr hi, ?_⟩)
    omega
  · exact congrArg Host.Outcome.next ((if_neg (by simp [hup])).trans (if_neg (by decide)))
  · refine ⟨_, congrArg Host.Outcome.next ?_, retireCell_standIn (pos := pos) (cause := 0x03) worked hfree hnone⟩
    rw [if_neg (by simp [hc]), if_neg (by simp [hr, hruns, hsub])]
  · obtain ⟨-, ha, -⟩ : bit (s.blk b).map 31 = true ∧ alive s (b / 6) = true ∧ dataUp s = true := by
      simpa [cellsRun, and_assoc] using hr
    refine ⟨_, congrArg Host.Outcome.next ?_, blockOut_spec (s := s.count (kBlkCnt b 1) 1) (pos := pos) hc ha⟩
    rw [if_neg (by simp [hc]), if_neg (by simp [hr, hruns, hsub]), retireCell_blockOut worked hfree]
  · have hrun := execParityError_run (worked := worked) hc hr hsub hki hover
    rw [hpar] at hrun
    exact ⟨_, hrun, parityError_again ..⟩
  · obtain ⟨h1, -, -⟩ := retireCell_standIn (s := s.setBlk b { s.blk b with parity := spDel (s.blk b).parity (physOf (s.blk b) pos) })
      (b := b) (pos := pos) (cause := 0x02) worked (by rw [setBlk_blk_same]; exact hfree) (by rw [setBlk_blk_same]; exact hnone)
    refine ⟨_, (execParityError_run hc hr hsub hki hover).trans ?_, h1⟩
    rw [hpar]
    dsimp only
    rw [if_pos (by omega)]

end Sys2Proof.Machine


namespace Sys2Proof.Machine

set_option Elab.async false

/-! ## Channels of backing memory -/

section
variable {s : State}

theorem setResult_ro (s : State) (v : Nat) : (setResult s v).ro? (key 0x6023 1) = v := spGet_set_same _ _ _

/-- A channel command with space elsewhere starts emptying its package, and reads BUSY. -/
theorem applyChannel_empties {op ch : Nat} (hst : chState s ch < 4) (hops : s.back.ops = []) (hspace : hasSpace s (ch / 4) = true) :
    (applyChannel s op ch).ro? (key 0x6023 1) = 1 ∧ (opOf (applyChannel s op ch) (ch / 4)).isSome = true := by
  have hu : (unreport s).back.ops = [] := by rw [unreport, hops]; rfl
  have hst' : chState (unreport s) ch < 4 := hst
  have hspace' : hasSpace (unreport s) (ch / 4) = true := hspace
  unfold applyChannel
  dsimp only
  generalize unreport s = u at hu hst' hspace'
  rw [if_neg (by rw [hu]; simp only [List.any_nil, Bool.false_eq_true, or_false]; omega), show opOf u (ch / 4) = none by rw [opOf, hu]; rfl]
  dsimp only
  rw [if_pos hspace']
  refine ⟨setResult_ro .., ?_⟩
  have hback : (setPkg u (ch / 4) 1).back = u.back := setPkg_frame.back (by decide)
  show (((setPkg u (ch / 4) 1).back.ops.filter (fun x : ChOp => x.ch / 4 != ch / 4) ++ [_]).find?
    (fun o : ChOp => o.ch / 4 == ch / 4)).isSome = true
  rw [hback, hu]
  simp

/-- The granule and the free granule exchange their device locations. -/
theorem granuleMove_spec {g : Nat} {m : Nat × Nat} (hm : s.back.moves.find? (fun m => m.1 == g) = some m) (hup : dataUp s = true)
    (hne : m.1 ≠ m.2) : ∃ t, exec (.granuleMoveComplete g) s = .next t ∧ devOf t m.1 = devOf s m.2 ∧ devOf t m.2 = devOf s m.1 ∧
    (∀ k, k ≠ m.1 → k ≠ m.2 → devOf t k = devOf s k) ∧ t = { s with back := t.back } := by
  refine ⟨{ s with back := { s.back with
    moves := s.back.moves.erase m
    remap := spSet (fun k => k) (spSet (fun k => k) s.back.remap m.1 (devOf s m.2)) m.2 (devOf s m.1) } }, ?_, ?_, ?_, fun k h1 h2 =>
        ?_, rfl⟩
  · show execGranuleMoveComplete g s = _
    unfold execGranuleMoveComplete
    rw [hm]
    dsimp only
    rw [if_neg (by simp [hup])]
  · exact (spGet_set_other _ _ hne).trans (spGet_set_same ..)
  · exact spGet_set_same ..
  · exact (spGet_set_other _ _ h2).trans (spGet_set_other _ _ h1)

theorem packageEmptied_spec {p : Nat} {o : ChOp} (ho : opOf s p = some o) (hup : dataUp s = true) (hst : chState s o.ch = 1)
    (hused : usedIn s p = []) (hin : movingIn s p = []) :
    exec (.packageEmptied p) s = .next (if o.op = 1 then setCh o.ch 2 (setPkg s p 3) else endOp (setPkg s p 4) o 2) := by
  show execPackageEmptied p s = _
  unfold execPackageEmptied
  rw [ho]
  dsimp only
  rw [if_neg (by simp [hup, hst, hused, hin])]

theorem Frame.eq_ro_back {t : State} (g : Frame [.ro, .back] s t) : t = { s with back := t.back, ro := t.ro } := g.eq.trans rfl

theorem endOp_ends (s : State) (o : ChOp) (v : Nat) : (o.report = true → (endOp s o v).ro? (key 0x6023 1) = v) ∧
    opOf (endOp s o v) (o.ch / 4) = none := by
  have hnone : (s.back.ops.filter (fun x => x.ch / 4 != o.ch / 4)).find? (fun x => x.ch / 4 == o.ch / 4) = none := by
    rw [List.find?_eq_none]
    intro x hx
    simpa using (List.mem_filter.mp hx).2
  unfold endOp
  dsimp only
  refine ⟨fun hr => ?_, ?_⟩
  · rw [if_pos hr, setResult_ro]
  · split <;> exact hnone

theorem retrainDone_spec {o : ChOp} (ho : s.back.ops.find? (fun o => chState s o.ch == 2) = some o) (hup : dataUp s = true) :
    (∃ t, exec (.channelRetrainDone true) s = .next t ∧ t = { s with back := t.back, ro := t.ro } ∧
      (o.report = true → t.ro? (key 0x6023 1) = 2) ∧ opOf t (o.ch / 4) = none) ∧
    exec (.channelRetrainDone false) s = .next (endOp (setPkg s (o.ch / 4) 4) o 4) := by
  have hrun (ok : Bool) : exec (.channelRetrainDone ok) s = .next (if ok then
      let s1 := endOp (setPkg s (o.ch / 4) 0) o 2
      { s1 with back := { s1.back with gone := mclr s1.back.gone (o.ch / 4) } } else endOp (setPkg s (o.ch / 4) 4) o 4) := by
    show execChannelRetrainDone ok s = _
    unfold execChannelRetrainDone
    rw [ho]
    dsimp only
    rw [if_neg (by simp [hup])]
  refine ⟨⟨_, hrun true, ?_, ?_⟩, hrun false⟩
  · rw [if_pos rfl]
    dsimp only
    exact Frame.eq_ro_back (Frame.put (endOp_frame.after setPkg_frame.wider))
  · rw [if_pos rfl]
    exact endOp_ends (setPkg s (o.ch / 4) 0) o 2

/-- The first uncorrectable read of a granule, and any: its region is killed with cause 0x07. -/
theorem dramUe_run {pa : Nat} (hpa : pa < 0x8000000000) (hup : dataUp s = true)
    (hc : contained s (regOfPkg (devOf s (pa / 2 ^ 28) / 128)) = false)
    (ha : alive s (regOfPkg (devOf s (pa / 2 ^ 28) / 128)) = true) :
        ∃ u, Frame [.ro, .log, .head, .clap, .regs, .ctxs, .steps, .blks, .grds, .fab, .days] s u ∧
      (u.reg (regOfPkg (devOf s (pa / 2 ^ 28) / 128))).st = .resetting ∧ u.flt.head = s.flt.head + 1 ∧
      bits (recordAt u u.flt.head) 409 402 = 0x07 ∧ exec (.dramUe pa) s = .next (if s.back.suspect.contains (pa / 2 ^ 28) then
        failPackage u (devOf s (pa / 2 ^ 28) / 128) else { u with back := { u.back with suspect := u.back.suspect ++ [pa / 2 ^ 28] } }) :=
            by
  obtain ⟨h1, h2, -, -, h3, -⟩ := regionFault_facts (s.count (key 0x6022 (4 * (devOf s (pa / 2 ^ 28) / 128) + pa / 256 % 4)) 1)
    (regOfPkg (devOf s (pa / 2 ^ 28) / 128)) 1 { level := 2, action := 3, cause := 0x07, detail := pa }
    (by rw [contained, Bool.or_eq_false_iff] at hc; exact hc.1) ha
  refine ⟨_, regionFault_frame.after State.count_frame.wider, h3, h1, h2, ?_⟩
  show execDramUe pa s = _
  unfold execDramUe
  dsimp only
  rw [if_neg (by simp only [hup, Bool.true_or, Bool.not_true, Bool.or_false, decide_eq_true_eq]; omega), if_neg (by rw [hc]; decide),
    if_neg (by rw [ha]; decide)]

theorem mbit_mset_same (m d : Nat) : mbit (mset m d) d = true := by
  unfold mbit mset
  split
  · assumption
  · rename_i h
    rw [Nat.testBit_eq_decide_div_mod_eq] at h ⊢
    have hm : ¬ m / 2 ^ d % 2 = 1 := of_decide_eq_false (Bool.eq_false_iff.mpr h)
    rw [Nat.add_div_right _ (Nat.two_pow_pos d)]
    exact decide_eq_true (by omega)

theorem teardown_gone (s : State) (d : Nat) : (teardown s d).back.gone = s.back.gone := by
  unfold teardown
  split
  · rfl
  · extract_lets st s0 s1 _ s2 _ s3 s4 s5
    have hq (u : State) : (quarHeld (dropDaily u d) d).back.gone = u.back.gone := rfl
    have h5 : s5.back.gone = s4.back.gone := hq s4
    have h4 : s4.back = s3.back := (State.each_frame (w := [.fab]) fun _ _ => dropPort_frame).back (by decide)
    have h3 : s3.back = s2.back := (State.each_frame (w := [.ro, .blks]) fun _ _ => dropBlock_frame).back (by decide)
    have h1 : s2.back = s0.back := (closeMutes_frame.back (by decide)).trans (mapCtxs_frame.back (by decide))
    have g0 : Frame [.ctxs] s s0 := frame_ite (.refl _ _) modCmd_frame
    clear_value s0 s2 s3 s4 s5
    show s5.back.gone = _
    rw [h5, h4, h3, h1, g0.back (by decide)]

theorem tearLost_gone (s : State) (d : Nat) : (tearLost s d).back.gone = s.back.gone := by
  unfold tearLost
  split
  · rw [teardown_gone, closeMutes_frame.back (by decide), mapCtxs_frame.back (by decide)]
  · rfl

/-- A package that fails is withdrawn, and its loss is recorded with cause 0x08. -/
theorem failPackage_spec (s : State) (p : Nat) : let t := failPackage s p
    mbit t.back.gone p = true ∧ t.flt.head = s.flt.head + 1 ∧ bits (recordAt t t.flt.head) 409 402 = 0x08 ∧ ∀ r, t.reg r = s.reg r := by
  unfold failPackage
  extract_lets doms s1 _ s2 t
  have g1 : Frame [.ro, .back] s s1 := by
    show Frame _ s (match opOf s p with
      | some o => endOp s o 4
      | none => s)
    split
    · exact endOp_frame
    · exact .refl _ _
  have g2 : Frame [.ro, .back] s1 s2 := setPkg_frame.after (Frame.put (.refl _ _))
  have hgone : s2.back.gone = mset s1.back.gone p := congrArg Backing.gone (setPkg_frame.back (by decide))
  have hf : ∃ f : Fact, f.cause = 8 ∧ t = (logFault s2 f).each (mlist doms 16) tearLost := ⟨_, rfl, rfl⟩
  clear_value s1 s2 t
  obtain ⟨f, hcause, rfl⟩ := hf
  have gt : Frame [.ro, .doms, .ctxs, .ress, .steps, .blks, .back, .grds, .fab, .xchs, .days] (logFault s2 f)
      ((logFault s2 f).each (mlist doms 16) tearLost) := State.each_frame fun _ _ => tearLost_frame
  refine ⟨?_, ?_, ?_, fun r => ?_⟩
  · have h : ((logFault s2 f).each (mlist doms 16) tearLost).back.gone = (logFault s2 f).back.gone :=
      foldl_inv (P := fun u : State => u.back.gone = (logFault s2 f).back.gone) rfl fun u d hu => (tearLost_gone u d).trans hu
    rw [h, logFault_frame.back (by decide), hgone, mbit_mset_same]
  · rw [gt.head (by decide), logFault_head, g2.head (by decide), g1.head (by decide)]
  · rw [gt.get_recordAt (by decide), gt.head (by decide), logFault_newest, recordOf_cause, hcause]
  · rw [gt.get_reg (by decide), logFault_frame.get_reg (by decide), g2.get_reg (by decide), g1.get_reg (by decide)]

end

/-- Settles O43: a lemma for each row; an uncorrectable read is `dramUe_run`, and its second `failPackage_spec`. -/
theorem memoryChannelsAct : Obligations.MemoryChannelsAct := by
  refine ⟨fun s op r x hop hup hcmd => ?_, fun s g m => granuleMove_spec, fun s p o => packageEmptied_spec, fun s o => retrainDone_spec,
    fun s ch hup hst => ?_, fun s pa hpa hup hc ha hsus => ?_, fun s pa hpa hup hc ha hsus => ?_⟩
  · intro t
    have hrun (o : Nat) (h : channelCmd s r o = some x) :
        runChannel o r s = applyChannel { s with mgt := { s.mgt with cmdPend := s.mgt.cmdPend.erase x } } o (x.2 % 256) := by
      unfold runChannel
      rw [if_neg (by simp [hup]), h]
    refine ⟨?_, applyChannel_frame.mem (by decide), fun hst hops hspace => applyChannel_empties hst hops hspace⟩
    rcases hop with rfl | rfl
    · exact congrArg Host.Outcome.next (hrun 1 hcmd)
    · exact congrArg Host.Outcome.next (hrun 2 hcmd)
  · exact congrArg Host.Outcome.next (if_pos (by simp [hup, hst]))
  · obtain ⟨u, gu, hst, hhead, hcause, hrun⟩ := dramUe_run hpa hup hc ha
    rw [hsus, if_neg (by decide)] at hrun
    exact ⟨_, hrun, hst, hhead, hcause, congrArg (fun b : Backing => b.suspect ++ [pa / 2 ^ 28]) (gu.back (by decide))⟩
  · obtain ⟨u, gu, hst, hhead, -, hrun⟩ := dramUe_run hpa hup hc ha
    rw [hsus, if_pos rfl] at hrun
    obtain ⟨h1, h2, h3, h4⟩ := failPackage_spec u (devOf s (pa / 2 ^ 28) / 128)
    exact ⟨_, hrun, h1, by rw [h4]; exact hst, by rw [h2, hhead], h3⟩

end Sys2Proof.Machine


namespace Sys2Proof.Machine

set_option Elab.async false

/-! ## What reception leaves of a port's sequence number -/

/-- Every port expects the sequence number that it expected before. -/
structure RxKept (s t : State) : Prop where
  seq : ∀ q, (t.port q).rxSeq = (s.port q).rxSeq

section
variable {s t u : State}

theorem RxKept.refl (s : State) : RxKept s s := ⟨fun _ => rfl⟩

theorem RxKept.trans (h : RxKept s t) (k : RxKept t u) : RxKept s u :=
  ⟨fun q => (k.seq q).trans (h.seq q)⟩

theorem RxKept.frame {w : List Part} (h : RxKept s t) (g : Frame w t u) (hf : Part.fab ∉ w := by decide) : RxKept s u :=
  ⟨fun q => (congrArg Port.rxSeq (g.get_port hf q)).trans (h.seq q)⟩

theorem RxKept.setPort {p : Nat} {x : Port} (h : RxKept s t) (hx : x.rxSeq = (t.port p).rxSeq) : RxKept s (t.setPort p x) where
  seq q := by
    rw [setPort_port]
    split
    · rename_i hq; subst hq; exact hx.trans (h.seq q)
    · exact h.seq q

theorem RxKept.ite {c : Prop} [Decidable c] (h : RxKept s t) (k : RxKept s u) : RxKept s (if c then t else u) := by
  split
  · exact h
  · exact k

theorem RxKept.each {α : Type} {f : State → α → State} (h : RxKept s t) (hf : ∀ u a, RxKept u (f u a)) (l : List α) :
    RxKept s (l.foldl f t) := foldl_inv (P := fun u => RxKept s u) h fun u a k => k.trans (hf u a)

/-! ## Frames sent -/

/-- A frame that leaves a port, as its port keeps it. -/
theorem emitFrame_port (s : State) (p n l : Nat) (kinds : List Nat) (slots : List (List Byte)) (q : Nat) :
    (emitFrame s p n l kinds slots).port q = if q = p then { s.port p with
      crd := ((s.port p).crd + 1) % 3, nak := false, lcnt := (s.port p).lcnt - 1, lastCtl := controlOf (s.port p) n kinds l } else s.port
          q :=
  setPort_port ..

theorem emitFrame_out (s : State) (p n l : Nat) (kinds : List Nat) (slots : List (List Byte)) :
    (emitFrame s p n l kinds slots).out.length = s.out.length + 1 := List.length_append ..

theorem emitFrame_rx (s : State) (p n l : Nat) (kinds : List Nat) (slots : List (List Byte)) :
    RxKept s (emitFrame s p n l kinds slots) where
  seq q := by
    rw [emitFrame_port]
    split
    · rename_i hq; subst hq; rfl
    · rfl

theorem sendControl_rx (s : State) (p : Nat) : RxKept s (sendControl s p) := by
  unfold sendControl
  exact emitFrame_rx _ _ _ _ _ _

theorem returnCredit_rx (s : State) (p cls : Nat) : RxKept s (returnCredit s p cls) := by
  unfold returnCredit
  exact .ite (.each (.refl s) (fun u _ => sendControl_rx u p) _) (.refl s)

/-! ## What a region's death leaves of the ports -/

/-- Ports change at most by packets that leave their queues, and by the items that their frames no longer name. -/
structure PortsCut (s t : State) : Prop where
  port : ∀ q, t.port q = { s.port q with tx := (t.port q).tx, retry := (t.port q).retry, gone := (t.port q).gone }
  tx : ∀ q, (s.port q).tx = [] → (t.port q).tx = []

theorem PortsCut.refl (s : State) : PortsCut s s := ⟨fun _ => rfl, fun _ h => h⟩

theorem PortsCut.trans (h : PortsCut s t) (k : PortsCut t u) : PortsCut s u :=
  ⟨fun q => by rw [k.port q, h.port q], fun q hq => k.tx q (h.tx q hq)⟩

theorem PortsCut.frame {w : List Part} (h : PortsCut s t) (g : Frame w t u) (hf : Part.fab ∉ w := by decide) : PortsCut s u :=
  ⟨fun q => by rw [g.get_port hf]; exact h.port q, fun q hq => by rw [g.get_port hf]; exact h.tx q hq⟩

theorem PortsCut.each {α : Type} {f : State → α → State} (h : PortsCut s t) (hf : ∀ u a, PortsCut u (f u a)) (l : List α) :
    PortsCut s (l.foldl f t) := foldl_inv (P := fun u => PortsCut s u) h fun u a k => k.trans (hf u a)

theorem PortsCut.ite {c : Prop} [Decidable c] (h : PortsCut s t) (k : PortsCut s u) : PortsCut s (if c then t else u) := by
  split
  · exact h
  · exact k

theorem regionFault_cut (s : State) (r src : Nat) (f : Fact) : PortsCut s (regionFault s r src f) := by
  have hdrop (b : Nat) (u : State) (p : Nat) : PortsCut u (dropItemTx b u p) := by
    unfold dropItemTx
    refine ⟨fun q => ?_, fun q hq => ?_⟩
    · rw [setPort_port]
      split
      · rename_i h; subst h; rfl
      · rfl
    · rw [setPort_port]
      split
      · rename_i h; subst h; dsimp only; rw [hq]; rfl
      · exact hq
  have hstop (u : State) (b : Nat) : PortsCut u (stopBlock u b) := by
    unfold stopBlock
    refine PortsCut.frame (.each (PortsCut.frame (.each (.refl u) (hdrop b) _) drainTrace_frame) (fun v ki => ?_) _) State.setBlk_frame
    exact (PortsCut.refl v).frame stopItem_frame
  have habort (u : State) (d : Nat) : PortsCut u (abortAttempt u d) := by
    unfold abortAttempt
    refine .ite ?_ (.refl u)
    have h0 : PortsCut u (u.setStp d { u.stp d with stopped := true }) := (PortsCut.refl u).frame State.setStp_frame
    have h1 := h0.each hstop
      ((progBlocks (u.setStp d { u.stp d with stopped := true }) d).filter fun b =>
        ((u.setStp d { u.stp d with stopped := true }).blk b).dom == d && ((u.setStp d { u.stp d with stopped := true }).blk b).phase !=
            .idle)
    exact ⟨h1.port, h1.tx⟩
  have hkill (u : State) (n aff : Nat) : PortsCut u (killRegion u r n aff) := by
    unfold killRegion
    refine .each (.each ?_ (fun _ _ => (PortsCut.refl _).frame dailyAbandon_frame) _) habort _
    exact ((PortsCut.frame (.refl u) State.setReg_frame).frame killHomed_frame).frame emptyGrader_frame
  have h := PortsCut.refl s
  unfold regionFault
  refine .ite (h.frame State.count_frame) (.ite (h.frame State.count_frame) (.ite (PortsCut.frame ?_ State.count_frame) h))
  exact ((h.frame logFault_frame).frame strike_frame).trans (hkill _ _ _)

/-! ## Faults and lanes -/

theorem regionFault_rx (s : State) (r src : Nat) (f : Fact) : RxKept s (regionFault s r src f) :=
  ⟨fun q => by rw [(regionFault_cut s r src f).port q]⟩

theorem portFault_rx (s : State) (p detail : Nat) : RxKept s (portFault s p detail) := by
  unfold portFault
  exact regionFault_rx _ _ _ _

/-! ## Reception -/

theorem retransmit_rx (s : State) (p : Nat) : RxKept s (retransmit s p) := by
  unfold retransmit
  dsimp only
  have h (x : Port) (hx : x.rxSeq = (s.port p).rxSeq) (k v : Nat) : RxKept s ((s.setPort p x).count k v) :=
    RxKept.frame (.setPort (.refl s) hx) State.count_frame
  exact .ite (RxKept.trans (h _ (by rfl) _ _) (portFault_rx _ _ _)) (.each (h _ (by rfl) _ _) (fun _ _ => emitFrame_rx _ _ _ _ _ _) _)

theorem onAck_rx (s : State) (p c : Nat) : RxKept s (onAck s p c) := by
  have h : RxKept s (s.setPort p { s.port p with retry := unacked (bits c 67 56) (s.port p).retry }) := .setPort (.refl s) (by rfl)
  unfold onAck
  exact .ite (h.trans (retransmit_rx _ _)) h

theorem arrive_rx (s : State) (p : Nat) (k : Packet) : RxKept s (arrive s p k) := by
  have hfree : RxKept s (arrive.free p k s) := by
    unfold arrive.free
    exact (RxKept.setPort (.refl s) (by rfl)).trans (returnCredit_rx _ _ _)
  unfold arrive
  exact .ite (hfree.frame State.count_frame) (.ite (hfree.frame State.count_frame)
    (.ite ((RxKept.refl s).frame State.count_frame) (.setPort (.refl s) (by rfl))))

theorem onFlit_rx (p : Nat) (s : State) (fl : Nat × List Byte) : RxKept s (onFlit p s fl) := by
  unfold onFlit
  dsimp only
  split
  · exact .refl s
  · exact .ite ((RxKept.setPort (.refl s) (by rfl)).trans (arrive_rx _ _ _)) (.setPort (.refl s) (by rfl))

theorem onFrame_rx (s : State) (p : Nat) (f : Sys2Proof.Frame) : RxKept s (onFrame s p f) := by
  have hcredit (x : Port) (cls tot : Nat) : (onCredit x cls tot).rxSeq = x.rxSeq := by
    unfold onCredit
    split <;> rfl
  unfold onFrame
  dsimp only
  exact RxKept.frame (.each ((RxKept.setPort (.refl s) (by exact hcredit ..)).trans (onAck_rx _ _ _)) (onFlit_rx p) _) State.count_frame

/-! ## Frames discarded and links resynchronised -/

theorem sendControl_port (s : State) (p q : Nat) : (sendControl s p).port q = if q = p then { s.port p with
    crd := ((s.port p).crd + 1) % 3, nak := false, lcnt := (s.port p).lcnt - 1
    lastCtl := controlOf (s.port p) (bits (s.port p).lastCtl 79 68) [] (lstateOf s p) } else s.port q := by
  unfold sendControl
  exact emitFrame_port ..

theorem badFrame_port (s : State) (p q : Nat) : (badFrame s p).port q = if q = p then { s.port p with
    crd := ((s.port p).crd + 1) % 3, nak := false, lcnt := (s.port p).lcnt - 1
    lastCtl := controlOf { s.port p with nak := true } (bits (s.port p).lastCtl 79 68) [] (lstateOf s p) } else s.port q := by
  have hreg (r : Nat) : (s.setPort p { s.port p with nak := true }).reg r = s.reg r := State.setPort_frame.get_reg (by decide) r
  unfold badFrame
  rw [sendControl_port, setPort_port, if_pos rfl, setPort_port]
  unfold lstateOf
  rw [hreg]
  split <;> rfl

/-- What a port keeps when a lane change pending at it is cut short. -/
theorem laneCut_port (s : State) (p : Nat) : (laneCut s p).port p = { s.port p with lreq := none, lcnt := 0 } := by
  have h0 : (s.setPort p { s.port p with lreq := none, lcnt := 0 }).port p = { s.port p with lreq := none, lcnt := 0 } := by
    rw [setPort_port, if_pos rfl]
  have hres (u : State) (v : Nat) : (laneResult u v).port p = u.port p := laneResult_frame.get_port (by decide) p
  have hro (u : State) (k v : Nat) : (u.setRo k v).port p = u.port p := State.setRo_frame.get_port (by decide) p
  unfold laneCut
  dsimp only
  split
  · split
    · exact h0
    · split
      · exact (hres _ _).trans h0
      · exact (hres _ _).trans ((hro _ _ _).trans h0)
  · exact h0

/-- A port after its link resynchronises: full credits, nothing kept to send again, and the state that it held. -/
theorem resync_spec (s : State) (p : Nat) : ((sendControl (resync s p) p).port p).retry = [] ∧
    ((sendControl (resync s p) p).port p).credit = [1024, 1024, 512] ∧ ((sendControl (resync s p) p).port p).rxSeq = 0xFFF ∧
    ((s.port p).st = .hold → ((sendControl (resync s p) p).port p).st = (s.port p).back) := by
  have hx : ∃ x : Port, (resync s p).port p = x ∧ x.retry = [] ∧ x.credit = [1024, 1024, 512] ∧ x.rxSeq = 0xFFF ∧
      ((s.port p).st = .hold → x.st = (s.port p).back) := by
    refine ⟨_, rfl, ?_⟩
    unfold resync
    dsimp only
    rw [State.count_frame.get_port (by decide), setPort_port, if_pos rfl]
    refine ⟨rfl, rfl, rfl, fun hst => ?_⟩
    rw [laneCut_port, hst]
    rfl
  obtain ⟨x, hp, hx⟩ := hx
  rw [sendControl_port, if_pos rfl, hp]
  exact hx

/-! ## Frames sent again and packets granted -/

/-- Frames sent one after another leave a port's retry buffer as it is. -/
theorem resend_spec (p : Nat) (fs : List TxFrame) (s : State) :
    (fs.foldl (fun s f => emitFrame s p f.fseq (lstateOf s p) f.kinds f.slots) s).out.length = s.out.length + fs.length ∧
    ((fs.foldl (fun s f => emitFrame s p f.fseq (lstateOf s p) f.kinds f.slots) s).port p).retry = (s.port p).retry := by
  induction fs generalizing s with
  | nil => exact ⟨rfl, rfl⟩
  | cons f fs ih =>
    obtain ⟨hout, hretry⟩ := ih (emitFrame s p f.fseq (lstateOf s p) f.kinds f.slots)
    rw [List.foldl_cons, hout, hretry, emitFrame_out, emitFrame_port, if_pos rfl, List.length_cons]
    exact ⟨by omega, rfl⟩

theorem retransmit_spec (s : State) (p : Nat) (h : ∀ f ∈ (s.port p).retry, f.tries < s.app (regOfPort p) (key 0x5000 3)) :
    (retransmit s p).out.length = s.out.length + (s.port p).retry.length ∧
    ((retransmit s p).port p).retry = (s.port p).retry.map (fun f => { f with tries := f.tries + 1 }) := by
  obtain ⟨fs, hfs⟩ : ∃ fs, (s.port p).retry.map (fun f => { f with tries := f.tries + 1 }) = fs := ⟨_, rfl⟩
  have hlen : fs.length = (s.port p).retry.length := by rw [← hfs, List.length_map]
  have hnone : fs.any (fun f => f.tries > s.app (regOfPort p) (key 0x5000 3)) = false := by
    rw [← hfs, List.any_map, List.any_eq_false]
    intro f hf hgt
    have hlt := h f hf
    have hge : f.tries + 1 > s.app (regOfPort p) (key 0x5000 3) := of_decide_eq_true hgt
    omega
  unfold retransmit
  dsimp only
  rw [hfs, hnone, if_neg Bool.false_ne_true]
  obtain ⟨hout, hretry⟩ := resend_spec p fs ((s.setPort p { s.port p with retry := fs }).count (kPort p 3) fs.length)
  rw [hout, hretry, State.count_frame.out (by decide), State.setPort_frame.out (by decide), State.count_frame.get_port (by decide),
    setPort_port, if_pos rfl, hlen]
  exact ⟨rfl, rfl⟩

theorem sendFrame_port (p d : Nat) (s : State) (fr : List (Nat × List Byte) × List Nat) :
    ((sendFrame p d s fr).port p).tx = (s.port p).tx ∧ ((sendFrame p d s fr).port p).credit = (s.port p).credit ∧
    ((sendFrame p d s fr).port p).retry.length = (s.port p).retry.length + 1 := by
  unfold sendFrame
  dsimp only
  rw [emitFrame_port, if_pos rfl, setPort_port, if_pos rfl]
  exact ⟨rfl, rfl, List.length_append⟩

/-- The frames of a packet: each stays in the retry buffer. -/
theorem sendFrames_port (p d : Nat) (l : List (List (Nat × List Byte) × List Nat)) (s : State) :
    ((l.foldl (sendFrame p d) s).port p).tx = (s.port p).tx ∧ ((l.foldl (sendFrame p d) s).port p).credit = (s.port p).credit ∧
    ((l.foldl (sendFrame p d) s).port p).retry.length = (s.port p).retry.length + l.length := by
  induction l generalizing s with
  | nil => exact ⟨rfl, rfl, rfl⟩
  | cons fr l ih =>
    obtain ⟨htx, hcredit, hretry⟩ := ih (sendFrame p d s fr)
    obtain ⟨htx1, hcredit1, hretry1⟩ := sendFrame_port p d s fr
    rw [List.foldl_cons, htx, hcredit, hretry, htx1, hcredit1, hretry1, List.length_cons]
    exact ⟨rfl, rfl, by omega⟩

theorem listSet_getD {α : Type} (l : List α) (n : Nat) (x d : α) (h : n < l.length) : (listSet n x l).getD n d = x := by
  induction l generalizing n with
  | nil => exact absurd h (Nat.not_lt_zero _)
  | cons a l ih => cases n with
    | zero => rfl
    | succ n => exact ih n (Nat.lt_of_succ_lt_succ h)

/-- The grant of a packet: it leaves the queue of its port, takes its credits, and its frames stay in the retry buffer. -/
theorem packetSend_spec (s : State) (p i cycles : Nat) (k : TxPkt) (hup : portUp s p = true) (hk : nextTx (s.port p) = some (i, k))
    (hcls : k.cls < (s.port p).credit.length) : ∃ t, exec (.packetSend p cycles) s = .next t ∧
    (t.port p).tx = dropAt i (s.port p).tx ∧
    (t.port p).credit.getD k.cls 0 = (s.port p).credit.getD k.cls 0 - k.pkt.flits ∧
    (t.port p).retry.length = (s.port p).retry.length + (framesOf k).length ∧ t.mem = s.mem := by
  refine ⟨_, rfl, ?_⟩
  rw [hup]
  rw [if_neg (by decide), hk]
  dsimp only
  obtain ⟨v, hv⟩ : ∃ v, (framesOf k).foldl (sendFrame p k.pkt.dom) (s.setPort p (granted (s.port p) k (dropAt i (s.port p).tx))) = v :=
    ⟨_, rfl⟩
  have hmem : v.mem = s.mem := by
    have g : Frame [.out, .fab] s v := by
      rw [← hv]
      exact State.each_frame (fun _ _ => sendFrame_frame) |>.after State.setPort_frame.wider
    exact g.mem (by decide)
  obtain ⟨htx, hcredit, hretry⟩ := sendFrames_port p k.pkt.dom (framesOf k) (s.setPort p (granted (s.port p) k (dropAt i (s.port p).tx)))
  rw [hv] at htx hcredit hretry ⊢
  rw [setPort_port, if_pos rfl] at htx hcredit hretry
  have gend (w : State) : Frame [.ro, .doms, .ctxs, .ress, .blks] w (exportEnd (markFbp cycles (sentBy w k) k) k) :=
    exportEnd_frame.after (markFbp_frame.after sentBy_frame.wider)
  have g : Frame [.ro, .doms, .ctxs, .ress, .blks] v
      (exportEnd (markFbp cycles (sentBy (if k.bulk then ((v.count (kPort p 6) cycles).count (kPort p 4) k.pkt.flits).count (kPort p 9)
        k.pkt.flits else (v.count (kPort p 6) cycles).count (kPort p 4) k.pkt.flits) k) k) k) :=
    (gend _).after (frame_ite (State.count_frame.after (State.count_frame.after State.count_frame.wider))
      (State.count_frame.after State.count_frame.wider))
  rw [g.get_port (by decide), htx, hcredit, hretry, g.mem (by decide), hmem]
  exact ⟨rfl, listSet_getD _ _ _ _ hcls, rfl, rfl⟩

/-! ## Frames taken -/

section
variable (s : State) (p : Nat) (f : Sys2Proof.Frame) (hp : p < 8) (hl : portListens s p = true)
include hp hl

theorem frameReceive_eq : exec (.frameReceive p f) s = .next
    (if f.bad ≠ 0 then badFrame ((s.count (kPort p 0) f.corrected).count (kPort p 1) f.bad) p
    else if frameCrc f.control f.slots != bits f.control 15 0 then badFrame ((s.count (kPort p 0) f.corrected).count (kPort p 2) 1) p
    else goodFrame (s.count (kPort p 0) f.corrected) p f) := by
  have hnot : ¬ (decide (p ≥ 8) || !portListens s p) = true := by
    rw [hl, decide_eq_false (by omega)]
    decide
  exact congrArg Host.Outcome.next (if_neg hnot)

/-- A frame with a bad codeword or CRC is discarded and answered with NAK. -/
theorem frameReceive_bad (hbad : f.bad ≠ 0 ∨ frameCrc f.control f.slots ≠ bits f.control 15 0) :
    ∃ t, exec (.frameReceive p f) s = .next t ∧
    (t.port p).lastCtl = controlOf { s.port p with nak := true } (bits (s.port p).lastCtl 79 68) [] (lstateOf s p) ∧
    t.out.length = s.out.length + 1 ∧ (t.port p).rxSeq = (s.port p).rxSeq ∧ (t.port p).rx = (s.port p).rx ∧ t.mem = s.mem ∧
    ∀ q, q ≠ p → t.port q = s.port q := by
  obtain ⟨u, gu, hu⟩ : ∃ u, Frame [.ro] s u ∧ exec (.frameReceive p f) s = .next (badFrame u p) := by
    rw [frameReceive_eq s p f hp hl]
    by_cases hb : f.bad ≠ 0
    · exact ⟨_, State.count_frame.after State.count_frame, congrArg Host.Outcome.next (if_pos hb)⟩
    · exact ⟨_, State.count_frame.after State.count_frame, congrArg Host.Outcome.next
        ((if_neg hb).trans (if_pos (bne_iff_ne.2 (hbad.resolve_left hb))))⟩
  have hport (q : Nat) : u.port q = s.port q := gu.get_port (by decide) q
  have hlst : lstateOf u p = lstateOf s p := by
    unfold lstateOf
    rw [gu.get_reg (by decide)]
  have hout : (badFrame u p).out.length = s.out.length + 1 := by
    unfold badFrame sendControl
    rw [emitFrame_out, State.setPort_frame.out (by decide), gu.out (by decide)]
  have hmem : (badFrame u p).mem = s.mem := (badFrame_frame.mem (by decide)).trans (gu.mem (by decide))
  refine ⟨_, hu, ?_⟩
  rw [hout, hmem, badFrame_port, if_pos rfl, hport, hlst]
  refine ⟨rfl, rfl, rfl, rfl, rfl, fun q hq => ?_⟩
  rw [badFrame_port, if_neg hq, hport]

variable (hbad : f.bad = 0) (hcrc : frameCrc f.control f.slots = bits f.control 15 0)
include hbad hcrc

theorem frameReceive_good : exec (.frameReceive p f) s = .next (goodFrame (s.count (kPort p 0) f.corrected) p f) := by
  rw [frameReceive_eq s p f hp hl, if_neg (fun h => h hbad), if_neg (by rw [hcrc]; simp)]

/-- A sequenced frame: the next expected one is taken and acknowledged, another is discarded silently. -/
theorem frameReceive_sequenced (hrun : bits f.control 18 17 = 0) (hseq : isControl f.control = false) :
    (bits f.control 79 68 = ((s.port p).rxSeq + 1) % 4096 → ∃ t, exec (.frameReceive p f) s = .next t ∧
      (t.port p).rxSeq = bits f.control 79 68 ∧ (t.port p).nak = false ∧ t.mem = s.mem) ∧
    (bits f.control 79 68 ≠ ((s.port p).rxSeq + 1) % 4096 →
      exec (.frameReceive p f) s = .next (s.count (kPort p 0) f.corrected)) := by
  have hport (q : Nat) : (s.count (kPort p 0) f.corrected).port q = s.port q := State.count_frame.get_port (by decide) q
  have hgood : goodFrame (s.count (kPort p 0) f.corrected) p f =
      if bits f.control 79 68 = ((s.port p).rxSeq + 1) % 4096 then
        let s1 := followLane (s.count (kPort p 0) f.corrected) p f.control
        sendControl (onFrame (s1.setPort p { s1.port p with rxSeq := bits f.control 79 68 }) p f) p
      else s.count (kPort p 0) f.corrected := by
    unfold goodFrame
    dsimp only
    rw [hrun, if_neg (by decide), if_neg (by decide), hseq, if_neg Bool.false_ne_true, hport]
  rw [frameReceive_good s p f hp hl hbad hcrc, hgood]
  refine ⟨fun hn => ⟨_, rfl, ?_⟩, fun hn => by rw [if_neg hn]⟩
  rw [if_pos hn]
  dsimp only
  obtain ⟨u, hu⟩ : ∃ u, followLane (s.count (kPort p 0) f.corrected) p f.control = u := ⟨_, rfl⟩
  have hmem : u.mem = s.mem := by
    rw [← hu]
    exact (followLane_frame.mem (by decide)).trans (State.count_frame.mem (by decide))
  rw [hu]
  have hrx := (onFrame_rx (u.setPort p { u.port p with rxSeq := bits f.control 79 68 }) p f).seq p
  rw [setPort_port, if_pos rfl] at hrx
  refine ⟨?_, ?_, ?_⟩
  · exact ((sendControl_rx _ _).seq _).trans hrx
  · rw [sendControl_port, if_pos rfl]
  · exact (sendControl_frame.mem (by decide)).trans
      ((onFrame_frame.mem (by decide)).trans ((State.setPort_frame.mem (by decide)).trans hmem))

/-- A resynchronising peer. -/
theorem frameReceive_resync (hrun : bits f.control 18 17 = 2) : ∃ t, exec (.frameReceive p f) s = .next t ∧
    (t.port p).retry = [] ∧ (t.port p).credit = [1024, 1024, 512] ∧ (t.port p).rxSeq = 0xFFF ∧
    ((s.port p).st = .hold → (t.port p).st = (s.port p).back) ∧ t.mem = s.mem := by
  have hport : (s.count (kPort p 0) f.corrected).port p = s.port p := State.count_frame.get_port (by decide) p
  have hgood : goodFrame (s.count (kPort p 0) f.corrected) p f = sendControl (resync (s.count (kPort p 0) f.corrected) p) p := by
    unfold goodFrame
    dsimp only
    rw [hrun, if_neg (by decide), if_pos rfl]
  rw [frameReceive_good s p f hp hl hbad hcrc, hgood]
  obtain ⟨hretry, hcredit, hrx, hst⟩ := resync_spec (s.count (kPort p 0) f.corrected) p
  rw [hport] at hst
  exact ⟨_, rfl, hretry, hcredit, hrx, hst, (sendControl_frame.mem (by decide)).trans
    ((resync_frame.mem (by decide)).trans (State.count_frame.mem (by decide)))⟩

end

/-- Settles O44: every row of a link by the shape of the state it answers, the expected sequence number being kept by all of reception. -/
theorem linksCarryFrames : Obligations.LinksCarryFrames := by
  unfold Obligations.LinksCarryFrames
  refine ⟨frameReceive_bad, frameReceive_sequenced, frameReceive_resync, fun s p hup hretry => ⟨?_, retransmit_spec s p⟩,
    packetSend_spec, fun s p cls k ks ha hd hk => ⟨fun hop => ?_, fun q c hop => ?_⟩⟩
  · have hcond : (portUp s p && !(s.port p).retry.isEmpty) = true := by
      rw [hup, Bool.true_and, Bool.not_eq_true', List.isEmpty_eq_false_iff]
      exact hretry
    exact congrArg Host.Outcome.next (if_pos hcond)
  all_goals
    show execPacketForward p cls s = _
    unfold execPacketForward
    rw [ha, hd, hk]
    dsimp only
    rw [hop]
    rfl

end

end Sys2Proof.Machine


namespace Sys2Proof.Machine

set_option Elab.async false

variable {s : State}

/-! ## The 10BASE-T1S segment -/

/-- Settles O58: each event by its equation. -/
theorem segmentEventsAct : Obligations.SegmentEventsAct := by
  unfold Obligations.SegmentEventsAct
  refine ⟨fun s hon => congrArg Host.Outcome.next (if_pos hon), fun s hon hplca => ?_, fun s ans hon => ?_, fun s peer bs hon hup => ?_⟩
  · have hcond : (s.mgt.phyOn && s.live (key 0x8100 1) == 1) = true := by rw [hon, hplca]; rfl
    refine ⟨_, congrArg Host.Outcome.next (if_pos hcond), ?_⟩
    cases hno : s.mgt.noBeacon with
    | true => exact ⟨rfl, fun _ => rfl, fun h => absurd h (by decide)⟩
    | false => exact ⟨rfl, fun h => absurd h (by decide), fun _ => count_ro_same _ _ _⟩
  · exact ⟨_, congrArg Host.Outcome.next (if_pos hon), rfl, rfl⟩
  · have hcond : (s.mgt.phyOn && ctlUp s) = true := by rw [hon, hup]; rfl
    refine ⟨⟨_, congrArg Host.Outcome.next (if_pos hcond), rfl, rfl⟩,
      ⟨_, congrArg Host.Outcome.next ((if_pos hcond).trans (if_pos rfl)), rfl, rfl⟩, fun a ha => ?_⟩
    exact congrArg Host.Outcome.next ((if_pos hcond).trans (if_neg ha))

/-! ## The watchdogs -/

/-- A hang that kills its region: the region resets, its record is the newest, and the other regions stay. -/
structure Killed (s t : State) (r cause : Nat) : Prop where
  st : (t.reg r).st = .resetting
  stage : (t.reg r).stage = .killed
  recNo : (t.reg r).recNo = t.flt.head
  head : t.flt.head = s.flt.head + 1
  action : bits (recordAt t t.flt.head) 413 410 = 3
  region : bits (recordAt t t.flt.head) 401 398 = r
  code : bits (recordAt t t.flt.head) 409 402 = cause % 256
  other : ∀ q, q ≠ r → t.reg q = s.reg q

theorem inChipReset_of_dataUp (h : dataUp s = true) : inChipReset s = false := by
  unfold dataUp at h
  rw [Bool.and_eq_true, Bool.not_eq_true'] at h
  exact h.2

theorem contained_of_up {r : Nat} (hd : dataUp s = true) (hr : (s.reg r).st ≠ .resetting) : contained s r = false := by
  unfold contained
  rw [inChipReset_of_dataUp hd, Bool.false_or]
  exact beq_false_of_ne hr

theorem regionFault_killed {u : State} {r : Nat} (src : Nat) (f : Fact) {w : List Part} (g : Frame w s u) (hc : Part.chip ∉ w)
    (hh : Part.head ∉ w) (hg : Part.regs ∉ w) (hr : r < 4) (hchip : inChipReset s = false) (ha : alive s r = true) :
    Killed s (regionFault u r src f) r f.cause := by
  have hchip' : inChipReset u = false := by
    unfold inChipReset at hchip ⊢
    rw [g.chip hc]
    exact hchip
  obtain ⟨hhead, hcause, haction, hregion, hst, hstage, hrec, hother⟩ := regionFault_facts u r src f hchip' ((g.alive hg r).trans ha)
  exact ⟨hst, hstage, hrec, hhead.trans (congrArg (· + 1) (g.head hh)), haction, hregion.trans (Nat.mod_eq_of_lt (by omega)), hcause,
    fun q hq => (hother q hq).trans (g.get_reg hg q)⟩

theorem unitHang_killed {u : State} {r : Nat} (cause : Nat) {w : List Part} (g : Frame w s u) (hc : Part.chip ∉ w)
    (hh : Part.head ∉ w) (hg : Part.regs ∉ w) (hp : Part.pwr ∉ w) (hr : r < 4) (hd : dataUp s = true) (ha : alive s r = true)
    (hst : (s.reg r).st ≠ .resetting) : Killed s (unitHang u r cause) r cause := by
  have hd' : dataUp u = true := by
    unfold dataUp inChipReset at hd ⊢
    rw [g.pwr hp, g.chip hc]
    exact hd
  unfold unitHang
  rw [if_neg (by omega), g.contained hc hg, contained_of_up hd hst, if_neg Bool.false_ne_true, hd', if_neg (by decide)]
  exact regionFault_killed 0 _ g hc hh hg hr (inChipReset_of_dataUp hd) ha

/-- A block whose watchdog expired kills its region. -/
theorem blockHang_killed {b r : Nat} (hb : b < 24) (hbr : b / 6 = r) (hw : wdtExpired s b = true) (hd : dataUp s = true)
    (ha : alive s r = true) (hst : (s.reg r).st ≠ .resetting) :
    ∃ t, exec (.blockHang b) s = .next t ∧ Killed s t r 0x04 := by
  subst hbr
  refine ⟨_, rfl, ?_⟩
  have hin : ¬ (decide (b ≥ 24) || !wdtExpired s b) = true := by
    rw [hw, decide_eq_false (by omega)]
    decide
  rw [if_neg hin, contained_of_up hd hst, if_neg Bool.false_ne_true, ha, hd, if_neg (by decide)]
  exact regionFault_killed 0 _ (State.count_frame (a := kBlkCnt b 0) (b := 1)) (by decide) (by decide) (by decide) (by omega)
    (inChipReset_of_dataUp hd) ha

/-- An exchange that is late: recorded at level 3, and the module goes on. -/
theorem exchangeHang_spec {d : Nat} (hd : d < 16) (hl : xchLate s d = true) :
    ∃ t, exec (.exchangeHang d) s = .next t ∧ (t.xch d).hung = true ∧
    t.flt.head = s.flt.head + 1 ∧ bits (recordAt t t.flt.head) 409 402 = 0x0A ∧ bits (recordAt t t.flt.head) 413 410 = 7 ∧
    t.flt.regs = s.flt.regs ∧ t.steps = s.steps ∧ t.mem = s.mem := by
  obtain ⟨f, hf, hcause, haction⟩ : ∃ f : Fact, f = { level := 3, action := 7, cause := 0x0A, doms := 2 ^ d } ∧ f.cause = 0x0A ∧ f.action =
      7 :=
    ⟨_, rfl, rfl, rfl⟩
  obtain ⟨u, hu, gu, hx⟩ : ∃ u, s.setXch d { s.xch d with hung := true } = u ∧ Frame [.xchs] s u ∧ (u.xch d).hung = true := by
    refine ⟨_, rfl, State.setXch_frame, ?_⟩
    rw [setXch_xch, if_pos rfl]
  have hin : ¬ (decide (d ≥ 16) || !xchLate s d) = true := by
    rw [hl, decide_eq_false (by omega)]
    decide
  refine ⟨strike ((logFault u f).count (kXchg 3) 1) 4, ?_, ?_⟩
  · rw [hf, ← hu]
    exact congrArg Host.Outcome.next (if_neg hin)
  have g : Frame [.ro, .clap, .blks] (logFault u f) (strike ((logFault u f).count (kXchg 3) 1) 4) :=
    strike_frame.after State.count_frame.wider
  have gl : Frame [.ro, .log, .head, .clap, .blks] u (strike ((logFault u f).count (kXchg 3) 1) 4) := g.wider.trans logFault_frame.wider
  rw [gl.get_xch (by decide), g.head (by decide), g.get_recordAt (by decide), logFault_newest, recordOf_cause, recordOf_action, hcause,
    haction, gl.regs (by decide), gl.steps (by decide), gl.mem (by decide), logFault_head, gu.head (by decide), gu.regs (by decide),
    gu.steps (by decide), gu.mem (by decide)]
  exact ⟨hx, rfl, rfl, rfl, rfl, rfl, rfl⟩

/-- A fault of the chip's own units starts a chip warm reset. -/
theorem chipReset_spec (src dumpOf : Nat) (f : Fact) (hchip : s.flt.chip = none) :
    (chipReset s src dumpOf f).flt.chip.isSome = true ∧ (∀ r, r < 4 → ((chipReset s src dumpOf f).reg r).st = .resetting) ∧
    bits (recordAt (chipReset s src dumpOf f) (chipReset s src dumpOf f).flt.head) 413 410 = 4 := by
  have hin : inChipReset s = false := by
    unfold inChipReset
    rw [hchip]
    rfl
  obtain ⟨_, _, haction, hsome, hregs⟩ := chipFault_facts s src dumpOf f hin
  unfold chipReset
  rw [hin, if_neg Bool.false_ne_true]
  have g (l : List Nat) : Frame [.out] (chipFault s src dumpOf f) (l.foldl sendHold (chipFault s src dumpOf f)) :=
    State.each_frame fun _ _ => sendHold_frame
  rw [(g _).chip (by decide), (g _).head (by decide), (g _).get_recordAt (by decide)]
  exact ⟨hsome, fun r hr => (congrArg Reg.st ((g _).get_reg (by decide) r)).trans (hregs r hr), haction⟩

/-- Settles O52: each watchdog by the fault that it reports. -/
theorem hangsAreFaults : Obligations.HangsAreFaults := by
  unfold Obligations.HangsAreFaults
  refine ⟨fun s c r hd ha hr hst hc => ?_, fun s r hr hchip hst => ?_, fun s d => exchangeHang_spec, fun s c hc hrails hcold hchip => ?_⟩
  · have hkill : ∃ t code, exec c s = .next t ∧ Killed s t r code ∧ (∀ b, c = .blockHang b → code % 256 = 0x04) ∧
        (c = .graderHang r → code % 256 = 0x05) ∧ (c = .hubHang r → code % 256 = 0x06) := by
      rcases hc with ⟨b, hb, hbr, rfl, hw⟩ | ⟨rfl, hbusy⟩ | rfl | rfl
      · obtain ⟨t, ht, hk⟩ := blockHang_killed hb hbr hw hd ha hst
        exact ⟨t, _, ht, hk, fun _ _ => rfl, nofun, nofun⟩
      · refine ⟨_, _, congrArg Host.Outcome.next (if_pos hbusy), unitHang_killed 0x05 (.refl [] s) (by decide) (by decide) (by decide)
          (by decide) hr hd ha hst, nofun, fun _ => rfl, nofun⟩
      · exact ⟨_, _, rfl, unitHang_killed 0x06 (.refl [] s) (by decide) (by decide) (by decide)
          (by decide) hr hd ha hst, nofun, nofun, fun _ => rfl⟩
      · exact ⟨_, _, rfl, unitHang_killed _ State.fresh_frame (by decide) (by decide) (by decide)
          (by decide) hr hd ha hst, nofun, nofun, nofun⟩
    obtain ⟨t, code, ht, hk, hblk, hgrd, hhub⟩ := hkill
    have hparts : Part.mem ∉ mayChange c ∧ Part.dirs ∉ mayChange c := by
      rcases hc with ⟨b, _, _, rfl, _⟩ | ⟨rfl, _⟩ | rfl | rfl <;> dsimp only [mayChange] <;> decide
    have g := next_frame ht
    exact ⟨t, ht, hk.st, hk.stage, hk.recNo, hk.head, hk.action, hk.region, fun b hb => hk.code.trans (hblk b hb),
      fun h => hk.code.trans (hgrd h), fun h => hk.code.trans (hhub h), g.mem hparts.1, g.dirs hparts.2, hk.other⟩
  · have hc : contained s r = true := by
      unfold contained
      rw [hst]
      exact Bool.or_true _
    show Host.Outcome.next (unitHang s r 0x06) = _
    unfold unitHang containFault
    rw [if_neg (by omega), hc, if_pos rfl, hchip, if_neg Bool.false_ne_true, hst, if_pos (by decide)]
  · have hrun : ∃ src f, exec c s = .next (chipReset s src 4 f) := by
      rcases hc with ⟨rfl, hpcie⟩ | ⟨n, rfl⟩
      · have hcond : (s.cp.pcieRef && s.pwr.rails == .up && !s.pwr.coldWait) = true := by rw [hpcie, hrails, hcold]; rfl
        exact ⟨_, _, congrArg Host.Outcome.next (if_pos hcond)⟩
      · have hcond : (s.pwr.rails == .up && !s.pwr.coldWait) = true := by rw [hrails, hcold]; rfl
        exact ⟨_, _, congrArg Host.Outcome.next (if_pos hcond)⟩
    obtain ⟨src, f, ht⟩ := hrun
    obtain ⟨hsome, hregs, haction⟩ := chipReset_spec src 4 f hchip
    have g : Frame _ s (chipReset s src 4 f) := chipReset_frame
    exact ⟨_, ht, hsome, hregs, haction, g.mem (by decide), g.dirs (by decide)⟩

end Sys2Proof.Machine


namespace Sys2Proof.Machine

set_option Elab.async false

variable {s : State}

/-! ## Dailies -/

theorem setPageState_same (s : State) (d page v : Nat) : pageState (setPageState s d page v) d page = v := by
  unfold pageState setPageState
  rw [setDay_day_same]
  exact spGet_set_same _ _ _

/-- A mirror engine that goes on: the domain, the module and the region are up, the daily runs, and the engine is not done. -/
structure Streams (s : State) (d r : Nat) : Prop where
  dom : d < 16
  reg : r < 4
  active : (s.dom d).st = .active
  up : dataUp s = true
  alive : alive s r = true
  running : (s.day d).running = true
  engine : mbit (s.day d).engines r = false

theorem dailyPageStream_eq {d r : Nat} (perf : Perf) (h : Streams s d r) : exec (.dailyPageStream d ⟨r, perf⟩) s = .next
    (match nextDaily (streamDone s d r) d r with
      | none => (streamDone s d r).setDay d { (streamDone s d r).day d with engines := mset ((streamDone s d r).day d).engines r }
      | some page =>
        if ((streamDone s d r).dir page).mig then streamDone s d r
        else
          guardReads (streamDone s d r) d (streamStage (streamDone s d r) d page)
            (guardPhys (streamDone s d r) (if pageState (streamDone s d r) d page == 3 then [] else
                [(streamReel (streamDone s d r) d page, 0x20000)])
              (setPageState ((pagePackets (streamDone s d r) d page).foldl (sendDaily dailyStore r (2 ^ 32 + r))
                (boundEvt (applyMemEvents (streamDone s d r) perf) (blkOfCell ((streamDone s d r).dir page).owner)
                  (streamBytes (streamDone s d r) d page).2)) d page (if pageState (streamDone s d r) d page == 3 then 0 else 2)))) := by
  have hin : ¬ ((s.dom d).st != .active || decide (d ≥ 16) || decide (r ≥ 4) || !dataUp s || !Machine.alive s r || !(s.day d).running ||
      mbit (s.day d).engines r) = true := by
    rw [h.active, decide_eq_false (by have := h.dom; omega), decide_eq_false (by have := h.reg; omega), h.up, h.alive, h.running, h.engine]
    decide
  exact congrArg Host.Outcome.next ((if_neg hin).trans rfl)

/-- The page that an engine takes next is streamed. -/
theorem dailyPageStream_page {d r : Nat} (perf : Perf) (h : Streams s d r) (hclean : s.back.poison = []) {page : Nat}
    (hpage : nextDaily (streamDone s d r) d r = some page) (hmig : ((streamDone s d r).dir page).mig = false) :
    ∃ u, exec (.dailyPageStream d ⟨r, perf⟩) s = .next u ∧
      pageState u d page = (if pageState (streamDone s d r) d page = 3 then 0 else 2) ∧ u.dirs = s.dirs ∧ u.progs = s.progs := by
  have gt : Frame [.days] s (streamDone s d r) := streamDone_frame
  have hclean' : (streamDone s d r).back.poison = [] := by rw [gt.back (by decide)]; exact hclean
  rw [dailyPageStream_eq perf h, hpage]
  dsimp only
  rw [hmig, if_neg Bool.false_ne_true, guardReads_of_clean hclean', guardPhys_of_clean hclean']
  refine ⟨_, rfl, ?_⟩
  have gsend (u : State) (k : Packet) : Frame [.ro, .ctxs, .blks, .mem, .binds, .back, .days, .fab] u
      (sendDaily dailyStore r (2 ^ 32 + r) u k) := sendDaily_frame fun _ _ => dailyStore_frame.wider
  have gbound (b n : Nat) : Frame [.ro, .ctxs, .blks, .mem, .binds, .back, .days, .fab] s
      (boundEvt (applyMemEvents (streamDone s d r) perf) b n) :=
    boundEvt_frame.after (applyMemEvents_frame.after streamDone_frame.wider)
  have g (l : List Packet) (b n v : Nat) : Frame [.ro, .ctxs, .blks, .mem, .binds, .back, .days, .fab] s
      (setPageState (l.foldl (sendDaily dailyStore r (2 ^ 32 + r)) (boundEvt (applyMemEvents (streamDone s d r) perf) b n)) d page v) :=
    setPageState_frame.after ((State.each_frame gsend).trans (gbound b n))
  rw [setPageState_same, (g _ _ _ _).dirs (by decide), (g _ _ _ _).progs (by decide)]
  simp only [beq_iff_eq, and_self]

/-- A daily whose four engines are done is complete, and its half gives way to the other. -/
theorem dailyEnginesDone_spec {d : Nat} (hd : d < 16) (hup : dataUp s = true) (hrun : (s.day d).running = true)
    (hdone : (s.day d).engines = 15) : ∃ t, exec (.dailyEnginesDone d) s = .next t ∧ (t.day d).running = false ∧
    (t.day d).states = [] ∧ (t.day d).engines = 0 ∧ (t.day d).completed = (s.day d).completed + 1 ∧
    t.ro? (key (0x5100 + d) 4) = (s.day d).s ∧ t.mem = s.mem := by
  have hin : ¬ (decide (d ≥ 16) || !dataUp s || !(s.day d).running || (s.day d).engines != 15) = true := by
    rw [decide_eq_false (by omega), hup, hrun, hdone]
    decide
  obtain ⟨k, hk⟩ : ∃ k, mkPacket s 0x31 0 d (dailyBuddy s d)
      [(501, 1), (500, 1), (412, (s.day d).completed % 2), (280, (s.day d).s), (256, (rankedPages s d).length)] [] [] = k := ⟨_, rfl⟩
  have g : Frame [.ro, .fab, .days] s (sendDaily dailyClose 0 (2 ^ 32) s k) := sendDaily_frame fun _ _ => dailyClose_frame.wider
  refine ⟨((sendDaily dailyClose 0 (2 ^ 32) s k).setDay d { (sendDaily dailyClose 0 (2 ^ 32) s k).day d with
    running := false, states := [], engines := 0, completed := (s.day d).completed + 1 }).setRo (key (0x5100 + d) 4) (s.day d).s, ?_, ?_⟩
  · rw [← hk]
    exact congrArg Host.Outcome.next (if_neg hin)
  rw [State.setRo_frame.get_day (by decide), setDay_day_same, setRo_ro_same, State.setRo_frame.mem (by decide), setDay_mem,
    g.mem (by decide)]
  exact ⟨rfl, rfl, rfl, rfl, rfl, rfl⟩

/-- Settles O49: `dailyPageStream_eq` by what the engine takes next, and `dailyEnginesDone_spec`. -/
theorem dailiesStream : Obligations.DailiesStream := by
  unfold Obligations.DailiesStream
  refine ⟨fun s d r perf hd hr hact hup hal hrun heng hclean => ?_, fun s d x hact => ?_, fun s d => dailyEnginesDone_spec⟩
  · have h : Streams s d r := ⟨hd, hr, hact, hup, hal, hrun, heng⟩
    refine ⟨fun hnone => ?_, fun page hpage hmig => ?_, fun page => dailyPageStream_page perf h hclean⟩
    · rw [dailyPageStream_eq perf h, hnone]
    · rw [dailyPageStream_eq perf h, hpage]
      dsimp only
      rw [hmig, if_pos rfl]
  · have hin : ((s.dom d).st != .active || decide (d ≥ 16) || decide (x.n ≥ 4) || !dataUp s || !alive s x.n || !(s.day d).running ||
        mbit (s.day d).engines x.n) = true := by
      rw [bne_iff_ne.2 hact]
      simp only [Bool.true_or]
    exact congrArg Host.Outcome.next (if_pos hin)

end Sys2Proof.Machine


namespace Sys2Proof.Machine

set_option Elab.async false

variable {s : State}

/-! ## Entries that no master is kept from -/

/-- An entry below the protected ranges that is not a protected one itself (R315). -/
def openEntry (i sub : Nat) : Bool := decide (i < 0xA000) && (entryAt i sub).all fun e => e.acc != 3 && e.acc != 4

theorem isProtected_of_open {i sub : Nat} (h : openEntry i sub = true) : isProtected s i sub = false := by
  unfold openEntry at h
  rw [Bool.and_eq_true, decide_eq_true_eq] at h
  obtain ⟨hi, hacc⟩ := h
  unfold isProtected
  rw [decide_eq_false (show ¬ 0xA000 ≤ i by omega), decide_eq_false (show ¬ 0xF000 ≤ i by omega), Bool.and_false]
  cases he : entryAt i sub with
  | none => rfl
  | some e =>
    rw [he, Option.all_some, Bool.and_eq_true, bne_iff_ne, bne_iff_ne] at hacc
    dsimp only
    rw [beq_false_of_ne hacc.1, beq_false_of_ne hacc.2]
    rfl

/-- Slates and counters stand outside the fault handler's own state. -/
theorem Frame.flt_of_slates {t : State} (g : Frame [.ro, .blks] s t) : t.flt = s.flt := by
  have h : t = { s with blks := t.blks, ro := t.ro } := g.eq.trans rfl
  rw [h]

/-! ## The clapper -/

theorem capture_blk (seq cause : Nat) (u : State) (b c : Nat) :
    ((capture seq cause u b).blk c).phase = (u.blk c).phase ∧ (c = b → ((capture seq cause u b).blk c).slate.heads.length = 18) ∧
    (c ≠ b → (capture seq cause u b).blk c = u.blk c) := by
  unfold capture
  rw [State.count_frame.get_blk (by decide), setBlk_blk]
  split
  · rename_i hc
    subst hc
    exact ⟨rfl, fun _ => (List.length_map ..).trans List.length_range, fun h => absurd rfl h⟩
  · rename_i hc
    exact ⟨rfl, fun h => absurd h hc, fun _ => rfl⟩

/-- Blocks that capture one after another: each keeps its phase, and has its slate once its turn is past. -/
theorem captures_blk (seq cause : Nat) (l : List Nat) (u : State) (c : Nat) :
    ((u.each l (capture seq cause)).blk c).phase = (u.blk c).phase ∧
    (c ∈ l ∨ (u.blk c).slate.heads.length = 18 → ((u.each l (capture seq cause)).blk c).slate.heads.length = 18) := by
  induction l generalizing u with
  | nil => exact ⟨rfl, fun h => h.resolve_left List.not_mem_nil⟩
  | cons b l ih =>
    obtain ⟨hphase, hheads⟩ := ih (capture seq cause u b)
    obtain ⟨hphase1, hsame, hother⟩ := capture_blk seq cause u b c
    refine ⟨hphase.trans hphase1, fun h => hheads ?_⟩
    by_cases hc : c = b
    · exact .inr (hsame hc)
    · rcases h with h | h
      · exact .inl ((List.mem_cons.1 h).resolve_left hc)
      · exact .inr ((congrArg (fun k : Blk => k.slate.heads.length) (hother hc)).trans h)

/-- A strike that none precedes: every block captures its slate, and the strike is mirrored. -/
theorem strike_first {src : Nat} (hon : mbit (clapSrc s) src = true) (hnone : s.flt.strike = none) (hseq : s.flt.clapSeq < 0xFFFFFFFF) :
    (strike s src).flt = { s.flt with clapSeq := s.flt.clapSeq + 1, strike := some s.ticks, clapOut := 16 } ∧ (strike s src).mem = s.mem ∧
    ∀ b, b < 24 → ((strike s src).blk b).slate.heads.length = 18 ∧ ((strike s src).blk b).phase = (s.blk b).phase := by
  have hmin : min (s.flt.clapSeq + 1) 0xFFFFFFFF = s.flt.clapSeq + 1 := by omega
  obtain ⟨u, hu, hflt, hmem, hblk⟩ : ∃ u : State, u = { s with flt := { s.flt with
      clapSeq := s.flt.clapSeq + 1, strike := some s.ticks, clapOut := 16 } } ∧
      u.flt = { s.flt with clapSeq := s.flt.clapSeq + 1, strike := some s.ticks, clapOut := 16 } ∧ u.mem = s.mem ∧
      ∀ b, u.blk b = s.blk b := ⟨_, rfl, rfl, rfl, fun _ => rfl⟩
  have hs : strike s src = u.each (List.range 24) (capture (s.flt.clapSeq + 1) src) := by
    unfold strike strike.doStrike
    rw [hon, hnone, hu]
    dsimp only
    rw [hmin]
    rfl
  have g : Frame [.ro, .blks] u (u.each (List.range 24) (capture (s.flt.clapSeq + 1) src)) := State.each_frame fun _ _ => capture_frame
  rw [hs, g.mem (by decide), hmem, ← hflt]
  refine ⟨g.flt_of_slates, rfl, fun b hb => ?_⟩
  obtain ⟨hphase, hheads⟩ := captures_blk (s.flt.clapSeq + 1) src (List.range 24) u b
  exact ⟨hheads (.inl (List.mem_range.2 hb)), hphase.trans (congrArg Blk.phase (hblk b))⟩

theorem strike_merged {src k : Nat} (hon : mbit (clapSrc s) src = true) (hlast : s.flt.strike = some k) (hnear : s.ticks - k ≤ 1250) :
    strike s src = s.count (kChipCnt 4) 1 := by
  unfold strike
  rw [hon, hlast, if_neg (by decide)]
  exact if_pos hnear

/-! ## The fault handler's entries -/

/-- A write of a dump slot's release. -/
theorem dumpRelease_answered {t : State} {src : Source} {n st : Nat} (h : MayWrite s src) (hn : n < 4) (ht : dumpRelease s n 1 = (st, t)) :
    writeRow s src (0x9100 + n) 2 0 1 = answered t src (fixedOp (0x9100 + n) 2 0 1) st := by
  have hslot : openEntry (0x9100 + n) 2 = true ∧ takesWrites (0x9100 + n) 2 0 = true := by
    have hin : ∀ m < 4, openEntry (0x9100 + m) 2 = true ∧ takesWrites (0x9100 + m) 2 0 = true := by decide +kernel
    exact hin n hn
  have hnot : isSetup (0x9100 + n) 2 = false := by
    unfold isSetup
    rw [beq_false_of_ne (by omega), Bool.false_and]
  refine writeRow_effect h (.inr (isProtected_of_open hslot.1)) hslot.2 (fun h => absurd (hnot.symm.trans h) Bool.false_ne_true)
      (by decide) (by decide)
    fun e _ => ?_
  unfold writeFixed
  rw [if_neg (by omega), if_neg (by omega), if_neg (by omega), if_neg (by omega), if_pos (by omega), ← ht, Nat.add_sub_cancel_left]

/-- A write of a microcode command. -/
theorem ucode_answered {t : State} {src : Source} {v st : Nat} (h : MayWrite s src) (hv : v < 256) (ht : ucodeCommand s v = (st, t)) :
    writeRow s src 0x9200 1 0 v = answered t src (fixedOp 0x9200 1 0 v) st :=
  writeRow_effect h (.inr (isProtected_of_open (by decide +kernel))) (by decide +kernel) nofun (by decide) hv fun _ _ => ht

/-- Settles O55: the entries by `writeRow_effect`, the clapper by `strike_first` and `strike_merged`. -/
theorem faultEntriesAreWritten : Obligations.FaultEntriesAreWritten := by
  unfold Obligations.FaultEntriesAreWritten
  refine ⟨fun s src h => ?_, fun s n hon hn => ?_, fun s n hn => ?_, fun s src => strike_first, fun s src k => strike_merged,
    fun s src v h hv hw => ?_, fun s src v h hv hw => ?_, fun s src n h hn => ⟨fun hvalid => ?_, fun hheld hvalid => ?_⟩,
    fun s src h => ⟨fun hidle => ?_, fun hready => ?_, fun hidle hok => ?_⟩, fun s hst => congrArg Host.Outcome.next (if_pos hst),
    fun s hst => ⟨_, congrArg Host.Outcome.next (if_pos hst), rfl, rfl, rfl, rfl, rfl⟩⟩
  · exact congrArg Host.Outcome.next (writeRow_effect h (.inr (isProtected_of_open (by decide +kernel))) (by decide +kernel) nofun
      (by decide) (by decide) fun e _ => rfl)
  · have hin : ¬ (s.pwr.supply != .on || decide (n < 200)) = true := by
      rw [hon, decide_eq_false (by omega)]
      decide
    exact congrArg Host.Outcome.next ((if_neg hin).trans (if_pos hn))
  · have hin : (s.pwr.supply != .on || decide (n < 200)) = true := by
      rw [decide_eq_true hn, Bool.or_true]
    exact congrArg Host.Outcome.next (if_pos hin)
  · refine congrArg Host.Outcome.next (writeRow_effect h (.inr (isProtected_of_open (by decide +kernel))) (by decide +kernel) nofun
      (by decide) (by show v < 256 ^ 4; omega) fun e _ => ?_)
    exact if_neg (show ¬ v > s.flt.head by omega)
  · refine congrArg Host.Outcome.next (writeRow_effect h (.inr (isProtected_of_open (by decide +kernel))) (by decide +kernel) nofun
      (by decide) (by show v < 256 ^ 4; omega) fun e _ => ?_)
    exact if_pos hv
  · refine congrArg Host.Outcome.next ((if_pos hn).trans (dumpRelease_answered h hn ?_))
    unfold dumpRelease
    dsimp only
    rw [hvalid, Bool.not_true, Bool.and_false]
    rfl
  · refine congrArg Host.Outcome.next ((if_pos hn).trans (dumpRelease_answered h hn ?_))
    unfold dumpRelease
    dsimp only
    rw [hvalid, hheld]
    rfl
  · exact congrArg Host.Outcome.next (ucode_answered h (by decide) ((if_neg (by rw [hidle]; decide) : ucodeVerify s = _)))
  · exact congrArg Host.Outcome.next (ucode_answered h (by decide) ((if_neg (by rw [hready]; decide) : ucodeArm s = _)))
  · refine congrArg Host.Outcome.next (ucode_answered h (by decide) ?_)
    show ucodeRevert s = _
    unfold ucodeRevert
    dsimp only
    rw [hidle, hok]
    rfl

end Sys2Proof.Machine


namespace Sys2Proof.Machine

set_option Elab.async false

variable {s : State}

/-! ## Operations that change nothing but counters -/

/-- A READ and a DESCRIBE change counters alone (R312, R334). -/
theorem dictOp_reads (s : State) (src : Source) (c : OpCode) (op : DictOp) (hc : c ≠ .write) : Frame [.ro] s (dictOp s src c op).2.2 := by
  unfold dictOp
  refine frame_ite_third (.refl _ _) (frame_ite_third (.refl _ _) (frame_ite_third ?_ ?_))
  · cases c <;> exact State.count_frame
  · split
    · exact .refl _ _
    · cases c with
      | read => exact .refl _ _
      | describe => exact frame_ite_third (.refl _ _) (.refl _ _)
      | write => exact absurd rfl hc

/-- An operation whose performance changes counters alone leaves only its response. -/
theorem opRow_spec {src : Source} {n : Nat} {c : OpCode} {op : DictOp} (hreach : reaches s src = true)
    (hf : Frame [.ro] s (dictOp s src c op).2.2) :
    (opRow s src n c op).out = s.out ++ [.dict src (opReply n (dictOp s src c op).1 op
      (if (dictOp s src c op).1 = 0 && c != .write then (dictOp s src c op).2.1 else []))] ∧
    opRow s src n c op = { s with ro := (opRow s src n c op).ro, out := (opRow s src n c op).out } := by
  have hcount : Frame [.ro] s (dictOpCounted s src c op).2.2 := State.countIf_frame.after (State.countIf_frame.after hf)
  have g : Frame [.ro, .out] s (opRow s src n c op) := by
    unfold opRow
    exact frame_ite (State.emit_frame.after hcount.wider) (.refl _ _)
  refine ⟨?_, g.eq.trans rfl⟩
  unfold opRow
  rw [if_pos hreach]
  show (dictOpCounted s src c op).2.2.out ++ _ = _
  rw [hcount.out (by decide)]
  rfl

theorem opRow_out_length {src : Source} {n : Nat} {c : OpCode} {op : DictOp} (hreach : reaches s src = true)
    (hf : Frame [.ro] s (dictOp s src c op).2.2) : (opRow s src n c op).out.length = s.out.length + 1 := by
  rw [(opRow_spec hreach hf).1]
  exact List.length_append

section
variable {src : Source} {op : DictOp} (hphase : s.sec.phase ≠ .recovery)
include hphase

/-- A READ of a fixed-width WO entry gives zero (R312). -/
theorem dictOp_read_wo {e : Ent} (he : entryAt op.index op.sub = some e) (hacc : e.acc = 2) (hty : e.ty < 6) (hop : op.ty = e.ty)
    (hvalue : op.value = []) (hoff : op.offset = 0) (hprot : isProtected s op.index op.sub = false) :
    dictOp s src .read op = (0, leBytes (tyWidth e.ty) 0, s) := by
  have hread : readOp s e op = (0, leBytes (tyWidth e.ty) 0) := by
    unfold readOp
    rw [if_neg (by rw [hop]; simp), if_neg (by omega), if_neg (by rw [hvalue, hoff]; simp)]
    unfold readValue liveValue typeBytes
    rw [if_neg (by omega), if_neg (by rw [hacc]; simp), if_pos hacc]
  unfold dictOp
  rw [if_neg (by simp), if_neg (by simp [hphase]), if_neg (by simp [hprot])]
  simp only [he, hread]

/-- An address without an entry answers NO_ENTRY (R312). -/
theorem dictOp_write_none (he : entryAt op.index op.sub = none) (hprot : isProtected s op.index op.sub = false)
    (hshadow : op.shadow = false) :
    dictOp s src .write op = (1, [], s) := by
  unfold dictOp
  rw [if_neg (by simp [hshadow]), if_neg (by simp [hphase]), if_neg (by simp [hprot])]
  simp only [he]

/-- What an ORDINARY master sees of a protected entry (R315). -/
theorem dictOp_ordinary (c : OpCode) (hprot : isProtected s op.index op.sub = true) (hclass : classAt s src op.index = .ordinary)
    (hshadow : op.shadow = false) (hc : c ≠ .describe) :
    dictOp s src c op = (0, if c = .read then fill (tyWidth op.ty) 0 else [], s.count (kDict 3) 1) := by
  unfold dictOp
  rw [if_neg (by simp [hshadow]), if_neg (by simp [hphase]), if_pos (by simp [hphase, hprot, hclass])]
  cases c with
  | describe => exact absurd rfl hc
  | _ => rfl

end

/-- A write of a cue-applied entry within its range and the rules goes to the shadow (R323). -/
theorem writeFixed_shadow {e : Ent} {i sub v : Nat} (hls : isLsEntry i sub = false) (hrange : inRange e v = true)
    (hrules : rulesHold s i sub v = true) (hlo : 0x2010 ≤ i) (hhi : i < 0xA000) (hclap : ¬ (i = 0x9000 ∧ sub = 3))
    (hrows : ¬ (i = 0x9010 ∨ (0x9100 ≤ i ∧ i < 0x9104) ∨ i = 0x9200)) :
    writeFixed s e i sub v = (stOk, shadowWrite s (key i sub) v) := by
  unfold writeFixed
  rw [if_neg (by omega), if_neg (by omega), if_neg hclap, if_neg (fun h => hrows (.inl h.1)), if_neg (fun h => hrows (.inr (.inl h))),
    if_neg (fun h => hrows (.inr (.inr h))), if_neg (by omega), if_neg (by omega), if_neg (by omega), if_neg (by omega),
    if_neg (by rw [hrange, hrules]; decide), if_neg (by rw [hls]; decide)]

theorem write_shadow {src : Source} {op : DictOp} {e : Ent} (h : MayWrite s src) (he : entryAt op.index op.sub = some e) (hacc : e.acc = 1)
    (hty : e.ty < 6) (hop : op.ty = e.ty) (hshadow : op.shadow = false) (hoff : op.offset = 0) (hlen : op.value.length = tyWidth e.ty)
    (hprot : isProtected s op.index op.sub = false) (hhi : op.index < 0xA000)
    (heffect : writeFixed s e op.index op.sub (leNat op.value) = (stOk, shadowWrite s (key op.index op.sub) (leNat op.value))) :
    ∃ t, exec (.write src op) s = .next t ∧ t.shadow (key op.index op.sub) = leNat op.value ∧ t.mgt.live = s.mgt.live ∧ t.mem = s.mem ∧
      t.out = s.out ++ [.dict src (opReply 2 0 op [])] := by
  have hnot : isSetup op.index op.sub = false := by
    unfold isSetup
    rw [beq_false_of_ne (by omega), Bool.false_and]
  have hdict : dictOp s src .write op = (0, [], shadowWrite s (key op.index op.sub) (leNat op.value)) := by
    rw [dictOp_write h (.inr hprot) hshadow he, writeOp_fixed h hop (by omega) (fun h => absurd (hnot.symm.trans h) Bool.false_ne_true)
      (by omega) hlen hoff, heffect]
    rfl
  exact ⟨_, congrArg Host.Outcome.next (opRow_answered h.reach hdict), spGet_set_same _ _ _, rfl, rfl, rfl⟩

/-! ## Messages -/

/-- The mailbox request that is BUSY, within its bounds and not discarded: performed, and its response stored. -/
theorem mailboxMessage_spec (hbusy : s.mgt.mb.st = .busy) (hup : ctlUp s = true) (hdrop : s.mgt.mb.drop = false) (hlo : 16 ≤ s.mgt.mb.len)
    (hhi : s.mgt.mb.len ≤ 4096) : (mailboxMessage s).mgt.mb.st = .done ∧
    (mailboxMessage s).mgt.mb.resp = (runMessage s .mailbox (fitTo s.mgt.mb.len s.mgt.mb.req)).1 ∧
    (mailboxMessage s).mgt.mb.rlen = (mailboxMessage s).mgt.mb.resp.length := by
  have hmgt (u : State) (f v : Nat) : (signalMsix u f v).mgt = u.mgt := signalMsix_frame.mgt (by decide)
  have hin : ¬ (s.mgt.mb.st != .busy || !ctlUp s) = true := by rw [hbusy, hup]; decide
  have hn : (if 16 ≤ s.mgt.mb.len && s.mgt.mb.len ≤ 4096 then s.mgt.mb.len else 8) = s.mgt.mb.len :=
    if_pos (by rw [decide_eq_true hlo, decide_eq_true hhi]; rfl)
  unfold mailboxMessage
  dsimp only
  rw [if_neg hin, hdrop, if_neg Bool.false_ne_true, hn]
  split
  · rw [hmgt]
    exact ⟨rfl, rfl, rfl⟩
  · exact ⟨rfl, rfl, rfl⟩

section
variable {a sp port : Nat} {m : Bool} {bs : List Byte} (hon : s.pwr.supply = .on) (hphy : s.mgt.phyOn = true)
include hon hphy

theorem dictMessage_t1s (ok : Bool) : exec (.dictMessage (.t1s a sp m) port ⟨ok, bs⟩) s =
    .next (if ok then t1sMessage s { src := .t1s a sp m, port := port, bytes := bs } else s.count (kT1s 2) 1) := by
  have hin : ¬ (s.pwr.supply != .on || !s.mgt.phyOn) = true := by rw [hon, hphy]; decide
  exact congrArg Host.Outcome.next (if_neg hin)

/-- A datagram that the module cannot answer. -/
theorem dictMessage_unanswered (h : reaches s (.t1s a sp m) = false ∨ 1452 < bs.length ∨ port ≠ s.live (key 0x8100 3)) :
    exec (.dictMessage (.t1s a sp m) port ⟨true, bs⟩) s = .next ((s.count (kT1s 0) 1).count (kDict 4) 1) := by
  have hin : (!reaches s (.t1s a sp m) || decide (bs.length > 1452) || port != s.live (key 0x8100 3)) = true := by
    rcases h with h | h | h
    · rw [h]; rfl
    · rw [decide_eq_true h, Bool.or_true, Bool.true_or]
    · rw [bne_iff_ne.2 h, Bool.or_true]
  rw [dictMessage_t1s hon hphy]
  exact congrArg Host.Outcome.next (if_pos hin)

variable (hreach : reaches s (.t1s a sp m) = true) (hlen : bs.length ≤ 1452) (hport : port = s.live (key 0x8100 3))
include hreach hlen hport

theorem dictMessage_taken : exec (.dictMessage (.t1s a sp m) port ⟨true, bs⟩) s = .next (
    if s.mgt.mb.st != .busy && s.mgt.rxq.isEmpty then answerDatagram (s.count (kT1s 0) 1) { src := .t1s a sp m, port := port, bytes := bs }
    else if s.mgt.rxq.length < rxDepth then { s.count (kT1s 0) 1 with
      mgt := { (s.count (kT1s 0) 1).mgt with rxq := (s.count (kT1s 0) 1).mgt.rxq ++ [{ src := .t1s a sp m, port := port, bytes := bs }] } }
    else (s.count (kT1s 0) 1).count (kDict 4) 1) := by
  have hin : ¬ (!reaches s (.t1s a sp m) || decide (bs.length > 1452) || port != s.live (key 0x8100 3)) = true := by
    rw [hreach, decide_eq_false (by omega), hport]
    simp
  rw [dictMessage_t1s hon hphy]
  exact congrArg Host.Outcome.next (if_neg hin)

/-- A datagram that repeats its address's SEQ is answered from the cache. -/
theorem dictMessage_cached {r : List Byte} (hidle : s.mgt.mb.st ≠ .busy) (hq : s.mgt.rxq = [])
    (hcache : cachedFor s.mgt a (bits (leNat (bs.take 16)) 63 32) = some r) : ∃ t,
    exec (.dictMessage (.t1s a sp m) port ⟨true, bs⟩) s = .next t ∧ t.out = s.out ++ [.udp port (.t1s a sp m) r] ∧
    t.ro? (kDict 5) = min (s.ro? (kDict 5) + 1) (entMax (kDict 5)) ∧
    t = { s with ro := t.ro, out := t.out, mgt := keepResponse s.mgt a (bits (leNat (bs.take 16)) 63 32) r } := by
  have hin : (s.mgt.mb.st != .busy && s.mgt.rxq.isEmpty) = true := by
    rw [bne_iff_ne.2 hidle, hq]
    rfl
  obtain ⟨ro, hro⟩ : ∃ ro, ((s.count (kT1s 0) 1).count (kDict 5) 1).count (kT1s 1) 1 = { s with ro := ro } := ⟨_, rfl⟩
  have hanswer : answerDatagram (s.count (kT1s 0) 1) { src := .t1s a sp m, port := port, bytes := bs } =
      { s with ro := ro, mgt := keepResponse s.mgt a (bits (leNat (bs.take 16)) 63 32) r, out := s.out ++ [.udp port (.t1s a sp m) r] } :=
          by
    unfold answerDatagram
    dsimp only [sourceAddr]
    rw [show (s.count (kT1s 0) 1).mgt = s.mgt from rfl, hcache]
    dsimp only
    rw [hro]
    rfl
  have hcount : ({ s with ro := ro } : State).ro? (kDict 5) = min (s.ro? (kDict 5) + 1) (entMax (kDict 5)) := by
    have h : (((s.count (kT1s 0) 1).count (kDict 5) 1).count (kT1s 1) 1).ro? (kDict 5) = min (s.ro? (kDict 5) + 1) (entMax (kDict 5)) := by
      rw [count_ro_other _ 1 (by decide), count_ro_same, count_ro_other _ 1 (by decide)]
    rw [hro] at h
    exact h
  have hrun := (dictMessage_taken hon hphy hreach hlen hport).trans (congrArg Host.Outcome.next (if_pos hin))
  rw [hanswer] at hrun
  exact ⟨_, hrun, rfl, hcount, rfl⟩

end

/-- Settles O56: operations by `opRow_spec` and `write_shadow`, messages by where they arrive. -/
theorem dictionaryOperationsAct : Obligations.DictionaryOperationsAct := by
  unfold Obligations.DictionaryOperationsAct
  refine ⟨fun s src op hreach => ⟨⟨_, rfl, ?_, ?_⟩, ⟨_, rfl, ?_, ?_⟩⟩, fun s src op e hreach hphase he hacc hty hop hv ho hp => ?_,
    fun s src op hreach hphase he hp hsh => ?_, fun s src op hreach hphase hp hclass hsh => ⟨?_, ?_⟩,
    fun s src op e h he hacc hty hop hsh ho hlen hp _ hls hrange hrules hlo hhi hclap hrows => ?_, fun s ok port bs hreach => ?_,
    fun s ok port bs hbusy hup hdrop hlo hhi => ⟨_, rfl, mailboxMessage_spec hbusy hup hdrop hlo hhi⟩,
    fun s a sp port m bs hon hphy => ⟨dictMessage_t1s hon hphy false, dictMessage_unanswered hon hphy, fun hreach hlen hport =>
      ⟨fun r => dictMessage_cached hon hphy hreach hlen hport, fun hwait => ?_⟩⟩⟩
  · exact opRow_out_length hreach (dictOp_reads s src .read op (by decide))
  · exact (opRow_spec hreach (dictOp_reads s src .read op (by decide))).2
  · exact opRow_out_length hreach (dictOp_reads s src .describe op (by decide))
  · exact (opRow_spec hreach (dictOp_reads s src .describe op (by decide))).2
  · have hspec := (opRow_spec (n := 1) hreach (dictOp_reads s src .read op (by decide))).1
    rw [dictOp_read_wo hphase he hacc hty hop hv ho hp] at hspec
    exact ⟨_, rfl, hspec⟩
  · have hdict := dictOp_write_none (src := src) hphase he hp hsh
    have hspec := opRow_spec (n := 2) (c := .write) (op := op) hreach (by rw [hdict]; exact .refl _ _)
    rw [hdict] at hspec
    exact ⟨_, rfl, hspec⟩
  · have hspec := (opRow_spec (n := 1) hreach (dictOp_reads s src .read op (by decide))).1
    rw [dictOp_ordinary hphase .read hp hclass hsh (by decide)] at hspec
    exact ⟨_, rfl, hspec⟩
  · have hdict := dictOp_ordinary hphase .write hp hclass hsh (by decide)
    have hspec := opRow_spec (n := 2) (c := .write) (op := op) hreach (by rw [hdict]; exact State.count_frame)
    rw [hdict] at hspec
    exact ⟨_, rfl, hspec⟩
  · exact write_shadow h he hacc hty hop hsh ho hlen hp hhi (writeFixed_shadow hls hrange hrules hlo hhi hclap hrows)
  · refine ⟨_, congrArg Host.Outcome.next (if_pos hreach), ?_⟩
    show (runMessage s .secure bs).2.out ++ _ = _
    rw [runMessage_frame.out (by decide)]
  · have hin : ¬ (s.mgt.mb.st != .busy && s.mgt.rxq.isEmpty) = true := by
      rw [Bool.and_eq_true, bne_iff_ne, List.isEmpty_iff]
      exact fun h => hwait.elim h.1 (fun hq => hq h.2)
    exact (dictMessage_taken hon hphy hreach hlen hport).trans (congrArg Host.Outcome.next (if_neg hin))

end Sys2Proof.Machine


namespace Sys2Proof.Machine

set_option Elab.async false

variable {s : State}

/-! ## Values that units take -/

/-- Copies taken one after another: each listed entry's copy is its live value. -/
theorem loads_app (u : Nat) (l : List Nat) (s : State) (k : Nat) :
    let t := s.each l fun s k => { s with mgt := { s.mgt with applied := spSet appDflt s.mgt.applied (appKey u k) (s.live k) } }
    t.mgt.apply = s.mgt.apply ∧ (k ∈ l ∨ s.app u k = s.live k → t.app u k = s.live k) := by
  induction l generalizing s with
  | nil => exact ⟨rfl, fun h => h.resolve_left List.not_mem_nil⟩
  | cons j l ih =>
    obtain ⟨happly, happ⟩ := ih { s with mgt := { s.mgt with applied := spSet appDflt s.mgt.applied (appKey u j) (s.live j) } }
    refine ⟨happly, fun h => happ ?_⟩
    by_cases hk : k = j
    · subst hk
      exact .inr (spGet_set_same _ _ _)
    · rcases h with h | h
      · exact .inl ((List.mem_cons.1 h).resolve_left hk)
      · have hne : appKey u k ≠ appKey u j := fun he => hk (Nat.add_left_cancel he)
        exact .inr ((spGet_set_other _ _ hne).trans h)

theorem loadGroup_apply (s : State) (g u : Nat) : (loadGroup s g u).mgt.apply = s.mgt.apply := (loads_app u _ s 0).1

/-- A listed value of the group, held by the unit and no layout value, is in force in the unit (R326). -/
theorem loadGroup_app {g u k v : Nat} (hgrp : mbit (grpOf k) g = true) (hlayout : isLayoutKey k = false) (hholds : holdsCopy u k = true)
    (hlive : (k, v) ∈ s.mgt.live) : (loadGroup s g u).app u k = s.live k := by
  refine (loads_app u _ s k).2 (.inl (List.mem_append_right _ (List.mem_map.2 ⟨(k, v), List.mem_filter.2 ⟨hlive, ?_⟩, rfl⟩)))
  dsimp only
  rw [hgrp, hlayout, hholds]
  rfl

/-- What a unit does beside taking values leaves the values in force and the waits of the cue. -/
theorem onApply_kept (s t : State) (g u : Nat) :
    (onApply s t g u).mgt.apply = t.mgt.apply ∧ (onApply s t g u).mgt.applied = t.mgt.applied := by
  have hport (l : List Nat) : (t.each l fun x p => if onApply.fabRetrains s t u p then restartPort x p else x).mgt = t.mgt := by
    have g : Frame _ t (t.each l fun x p => if onApply.fabRetrains s t u p then restartPort x p else x) :=
      State.each_frame fun _ _ => frame_ite restartPort_frame (.refl _ _)
    exact g.mgt (by decide)
  have hgate (old : Nat) (l : List Nat) : (l.foldl (onApply.keepGate old) t).mgt = t.mgt := by
    have g : Frame [.blks] t (l.foldl (onApply.keepGate old) t) := State.each_frame fun _ _ => onApply.keepGate_frame
    exact g.mgt (by decide)
  unfold onApply
  split
  · split
    · rw [hport]; exact ⟨rfl, rfl⟩
    · exact ⟨rfl, rfl⟩
  · split
    · split <;> exact ⟨rfl, rfl⟩
    · split
      · split
        · rw [hgate]; exact ⟨rfl, rfl⟩
        · exact ⟨rfl, rfl⟩
      · exact ⟨rfl, rfl⟩

theorem cueApply_waits {g u : Nat} (done : Nat) (halive : unitAlive s u = true) (hat : atBoundary s g u = false) :
    exec (.cueApply g ⟨u, done⟩) s = .next s := by
  have hin : ¬ (s.mgt.apply.contains (g, u) && (!unitAlive s u || atBoundary s g u)) = true := by
    rw [halive, hat, Bool.not_true, Bool.or_false, Bool.and_false]
    exact Bool.false_ne_true
  exact congrArg Host.Outcome.next (if_neg hin)

section
variable {g u : Nat} (done : Nat) (hwait : (g, u) ∈ s.mgt.apply)
include hwait

/-- A unit at its boundary takes its group's values. -/
theorem cueApply_spec (halive : unitAlive s u = true) (hat : atBoundary s g u = true) : ∃ t, exec (.cueApply g ⟨u, done⟩) s = .next t ∧
    (g, u) ∉ t.mgt.apply ∧ (∀ k, mbit (grpOf k) g = true → isLayoutKey k = false → holdsCopy u k = true → k < 0x1000000 →
      (∃ v, (k, v) ∈ s.mgt.live) → t.app u k = s.live k) ∧ t.mem = s.mem := by
  have hin : (s.mgt.apply.contains (g, u) && (!unitAlive s u || atBoundary s g u)) = true := by
    rw [List.contains_iff_mem.2 hwait, hat, Bool.or_true, Bool.and_true]
  obtain ⟨s1, hs1, happly, hlive, hmem⟩ : ∃ s1, { s with mgt := { s.mgt with apply := s.mgt.apply.filter (· != (g, u)) } } = s1 ∧
      (g, u) ∉ s1.mgt.apply ∧ s1.mgt.live = s.mgt.live ∧ s1.mem = s.mem := by
    refine ⟨_, rfl, fun h => ?_, rfl, rfl⟩
    exact absurd rfl (bne_iff_ne.1 (List.mem_filter.1 h).2)
  obtain ⟨hkeep, happlied⟩ := onApply_kept s1 (loadGroup s1 g u) g u
  have hgrd (c : Prop) [Decidable c] (v : State) : Frame [.grds] v (if c then graderCue v u done else v) :=
      frame_ite graderCue_frame (.refl _ _)
  refine ⟨if u < 4 && mbit (grpOf (key 0x7002 1)) g then graderCue (onApply s1 (loadGroup s1 g u) g u) u done
    else onApply s1 (loadGroup s1 g u) g u, ?_, ?_, fun k hgrp hlayout hholds _ hv => ?_, ?_⟩
  · rw [← hs1]
    exact congrArg Host.Outcome.next ((if_pos hin).trans (if_pos halive))
  · rw [(hgrd _ _).mgt (by decide), hkeep, loadGroup_apply]
    exact happly
  · obtain ⟨v, hv⟩ := hv
    rw [← hlive] at hv
    have happ := loadGroup_app hgrp hlayout hholds hv
    rw [(hgrd _ _).get_app (by decide)]
    unfold State.app State.live at happ ⊢
    rw [happlied, happ, hlive]
  · rw [(hgrd _ _).mem (by decide), onApply_frame.mem (by decide), loadGroup_frame.mem (by decide)]
    exact hmem

theorem cueApply_gone (halive : unitAlive s u = false) : exec (.cueApply g ⟨u, done⟩) s =
    .next { s with mgt := { s.mgt with apply := s.mgt.apply.filter (· != (g, u)) } } := by
  have hin : (s.mgt.apply.contains (g, u) && (!unitAlive s u || atBoundary s g u)) = true := by
    rw [List.contains_iff_mem.2 hwait, halive]
    rfl
  exact congrArg Host.Outcome.next ((if_pos hin).trans (if_neg (by rw [halive]; decide)))

end

/-! ## Takes -/

/-- A write of a take command. -/
theorem take_answered {t : State} {src : Source} {v st : Nat} (h : MayWrite s src) (hv : v < 256) (ht : takeCommand s v = (st, t)) :
    writeRow s src 0x2000 2 0 v = answered t src (fixedOp 0x2000 2 0 v) st :=
  writeRow_effect h (.inr (isProtected_of_open (by decide +kernel))) (by decide +kernel) nofun (by decide) hv fun _ _ => ht

/-- The write of the take that was made meanwhile begins. -/
theorem nextTakeWrite_next (hnext : s.mgt.nvNext = true) (st : Nat) :
    (nextTakeWrite s st).mgt = { s.mgt with nvState := 1, nvWrite := some (liveImage s.mgt), nvNext := false } := by
  unfold nextTakeWrite
  rw [if_pos hnext]
  rfl

theorem nextTakeWrite_last (hnext : s.mgt.nvNext = false) (st : Nat) :
    nextTakeWrite s st = { s with mgt := { s.mgt with nvState := st, nvWrite := none } } := by
  unfold nextTakeWrite
  rw [if_neg (by rw [hnext]; decide)]

theorem takeStoreWriteDone_eq {x : TakeImg} (hx : s.mgt.nvWrite = some x) (ok : Bool) : exec (.takeStoreWriteDone ok) s =
    .next (if ok then nextTakeWrite { s with mgt := putTake s.mgt x } 0
      else nextTakeWrite (({ s with mgt := putTake s.mgt x.torn }).count (kDict 0xC) 1) 2) := by
  show execTakeStoreWriteDone ok s = _
  unfold execTakeStoreWriteDone
  rw [hx]

/-- A take store's write ends, and the take made meanwhile is written next. -/
theorem takeStoreWriteDone_next {x : TakeImg} (hx : s.mgt.nvWrite = some x) (hnext : s.mgt.nvNext = true) (ok : Bool) :
    ∃ t, exec (.takeStoreWriteDone ok) s = .next t ∧ t.mgt.nvWrite = some (liveImage s.mgt) ∧
      t.mgt.nvState = 1 ∧ t.mgt.nvNext = false ∧ t.mgt.nv0 = (if ok then x else x.torn) := by
  refine ⟨_, takeStoreWriteDone_eq hx ok, ?_⟩
  cases ok with
  | true =>
    rw [if_pos rfl, nextTakeWrite_next (s := { s with mgt := putTake s.mgt x }) hnext]
    exact ⟨rfl, rfl, rfl, rfl⟩
  | false =>
    rw [if_neg Bool.false_ne_true, nextTakeWrite_next (s := ({ s with mgt := putTake s.mgt x.torn } : State).count (kDict 0xC) 1) hnext]
    exact ⟨rfl, rfl, rfl, rfl⟩

/-- A configuration sweep ends with its CRC and its differences. -/
theorem configSweepComplete_spec (hsweep : s.mgt.sweep = true) : ∃ t, exec .configSweepComplete s = .next t ∧ t.mgt.sweep = false ∧
    t.ro? (key 0x2010 1) = crc32c (sweepBytes s) ∧ (copyDiffs s = [] → s.live (key 0x2010 4) ≠ 1 → t.ro? (key 0x2010 2) = 0) ∧
    t = { s with ro := t.ro, mgt := { s.mgt with sweep := false } } := by
  obtain ⟨crc, hcrc⟩ : ∃ crc, crc32c (sweepBytes s) = crc := ⟨_, rfl⟩
  have hcount (u : State) (b : Bool) (k j : Nat) (h : k ≠ j) : (u.countIf b j).ro? k = u.ro? k := by
    unfold State.countIf
    split
    · exact count_ro_other _ 1 h
    · rfl
  have hin : ¬ (!s.mgt.sweep) = true := by rw [hsweep]; decide
  refine ⟨_, congrArg Host.Outcome.next (if_neg hin), ?_⟩
  rw [hcrc]
  dsimp only
  refine ⟨?_, ?_, fun hdiffs hlive => ?_, ?_⟩
  · exact congrArg (·.sweep) (State.countIf_frame.mgt (by decide))
  · rw [hcount _ _ _ _ (by decide), count_ro_other _ 1 (by decide), setRo_ro_other _ _ (by decide), setRo_ro_other _ _ (by decide),
      setRo_ro_same]
  · rw [hcount _ _ _ _ (by decide), count_ro_other _ 1 (by decide), setRo_ro_other _ _ (by decide), setRo_ro_same, hdiffs,
      beq_false_of_ne hlive]
    rfl
  · have g (u : State) (b : Bool) : Frame [.ro] u (u.countIf b (kDict 0xA)) := State.countIf_frame
    exact (g _ _).eq_ro

/-! ## The loss scale's entries (R53) -/

/-- The greatest power of two not above a positive finite pattern. -/
theorem roundLs_eq {v : Nat} (hv : v ≤ 0x7F7FFFFF) :
    roundLs v = if v < 0x00800000 then 2 ^ Nat.log2 v else v / 2 ^ 23 * 2 ^ 23 := by
  have hw : (BitVec.ofNat 32 v).toNat = v := by rw [BitVec.toNat_ofNat]; omega
  have hexp : bits v 30 23 = v / 2 ^ 23 := by
    unfold bits
    omega
  unfold roundLs floorPow2
  rw [hw, hexp]
  by_cases hsub : v < 0x00800000
  · rw [if_pos (by omega), if_pos hsub, BitVec.toNat_ofNat]
    refine Nat.mod_eq_of_lt (Nat.pow_lt_pow_right (by decide) ?_)
    by_cases h0 : v = 0
    · subst h0; decide
    · exact (Nat.log2_lt h0).2 (by omega)
  · rw [if_neg (by omega), if_neg hsub, BitVec.toNat_ofNat]
    omega

/-- The rounding is to a power of two, downwards and by less than the power itself. -/
theorem roundLs_spec {v : Nat} (h0 : 0 < v) (hv : v ≤ 0x7F7FFFFF) : roundLs v ≤ v ∧
    (0x00800000 ≤ v → roundLs v % 2 ^ 23 = 0 ∧ v < roundLs v + 2 ^ 23) ∧
    (v < 0x00800000 → v < 2 * roundLs v ∧ ∃ n, roundLs v = 2 ^ n) := by
  rw [roundLs_eq hv]
  by_cases hsub : v < 0x00800000
  · rw [if_pos hsub]
    refine ⟨Nat.log2_self_le (by omega), fun h => absurd hsub (by omega), fun _ => ⟨?_, _, rfl⟩⟩
    have hlt : v < 2 ^ (Nat.log2 v + 1) := Nat.lt_log2_self
    rw [Nat.pow_succ] at hlt
    omega
  · rw [if_neg hsub]
    exact ⟨by omega, fun _ => ⟨by omega, by omega⟩, fun h => absurd h hsub⟩

/-- The entries of the loss scale, and their range: the positive finite patterns. -/
theorem lsEntry {sub : Nat} (hsub : sub = 2 ∨ sub = 4 ∨ sub = 5) : isLsEntry 0x7080 sub = true ∧ openEntry 0x7080 sub = true ∧
    takesWrites 0x7080 sub 5 = true ∧ ((entryAt 0x7080 sub).all fun e => e.lo == 1 && e.hi == 0x7F7FFFFF) = true := by
  rcases hsub with rfl | rfl | rfl <;> decide +kernel

theorem lsWriteFixed {e : Ent} {sub v : Nat} (hsub : sub = 2 ∨ sub = 4 ∨ sub = 5) (he : entryAt 0x7080 sub = some e) :
    writeFixed s e 0x7080 sub v = if 0 < v ∧ v ≤ 0x7F7FFFFF then lsWrite s 0x7080 sub v else (stRange, s) := by
  obtain ⟨hls, _, _, hrange⟩ := lsEntry hsub
  rw [he, Option.all_some, Bool.and_eq_true, beq_iff_eq, beq_iff_eq] at hrange
  obtain ⟨hlo, hhi⟩ := hrange
  have hrules : rulesHold s 0x7080 sub v = true := rfl
  show (if !inRange e v || !rulesHold s 0x7080 sub v then (stRange, s)
    else if isLsEntry 0x7080 sub then lsWrite s 0x7080 sub v else (stOk, shadowWrite s (key 0x7080 sub) v)) = _
  unfold inRange
  rw [hrules, hlo, hhi, hls, if_pos rfl]
  by_cases hv : 0 < v ∧ v ≤ 0x7F7FFFFF
  · rw [if_pos hv, if_neg (by simp; omega)]
  · rw [if_neg hv, if_pos (by simp; omega)]

/-- A write of an entry of the loss scale is answered as `writeFixed` says. -/
theorem cutLsWrite_answered {t : State} {src : Source} {sub st : Nat} {v : Word} (h : MayWrite s src) (hsub : sub = 2 ∨ sub = 4 ∨ sub = 5)
    (heffect : (if 0 < v.toNat ∧ v.toNat ≤ 0x7F7FFFFF then lsWrite s 0x7080 sub v.toNat else (stRange, s)) = (st, t)) :
    exec (.cutLsWrite src sub v) s = .next (answered t src (fixedOp 0x7080 sub 5 v.toNat) st) := by
  obtain ⟨hls, hopen, htakes, _⟩ := lsEntry hsub
  refine congrArg Host.Outcome.next ((if_pos hls).trans (writeRow_effect h (.inr (isProtected_of_open hopen)) htakes nofun (by decide)
    v.isLt fun e he => ?_))
  rw [lsWriteFixed hsub he]
  exact heffect

/-- A positive finite value is rounded into its shadow where the bounds stay in order. -/
theorem cutLsWrite_rounded {src : Source} {sub : Nat} {v : Word} (h : MayWrite s src) (hsub : sub = 2 ∨ sub = 4 ∨ sub = 5)
    (h0 : 0 < v.toNat) (hv : v.toNat ≤ 0x7F7FFFFF)
    (hord : (if sub = 4 then roundLs v.toNat else s.shadow (key 0x7080 4)) ≤ if sub = 5 then roundLs v.toNat else s.shadow (key 0x7080 5)) :
    ∃ t, exec (.cutLsWrite src sub v) s = .next (answered t src (fixedOp 0x7080 sub 5 v.toNat) 0) ∧
      t.shadow (key 0x7080 sub) = roundLs v.toNat ∧ t.mgt.live = s.mgt.live ∧
      (roundLs v.toNat ≠ v.toNat → t.ro? (key 0x7080 7) = min (s.ro? (key 0x7080 7) + 1) (entMax (key 0x7080 7))) := by
  have g (u : State) (b : Bool) : Frame [.ro] u (u.countIf b (key 0x7080 7)) := State.countIf_frame
  refine ⟨_, cutLsWrite_answered h hsub ((if_pos ⟨h0, hv⟩).trans (if_neg (Nat.not_lt.2 hord))), ?_, ?_, fun hne => ?_⟩
  · rw [(g _ _).get_shadow (by decide)]
    exact spGet_set_same _ _ _
  · rw [(g _ _).mgt (by decide)]
    rfl
  · rw [bne_iff_ne.2 hne]
    exact count_ro_same _ _ _

/-- Settles O57: the entries by `writeRow_effect`, the units by `cueApply_spec`, the rounding by `roundLs_spec`. -/
theorem takesAct : Obligations.TakesAct := by
  unfold Obligations.TakesAct
  refine ⟨fun s src v h hv => ?_, fun s g u done hwait => ⟨cueApply_spec done hwait, cueApply_waits done, cueApply_gone done hwait⟩,
    fun s src h => ⟨fun hprev => ?_, fun hprev => ?_, ?_, ?_⟩,
    fun s x hx => ⟨fun hlast => ⟨?_, ?_⟩, takeStoreWriteDone_next hx⟩, fun s hon hmask hsweep => ?_, fun s => configSweepComplete_spec,
    fun s src sub v h hsub h0 hv => ⟨cutLsWrite_rounded h hsub h0 hv, fun hord => ?_, roundLs_spec h0 hv⟩, fun s src sub v h hsub hv => ?_⟩
  · refine congrArg Host.Outcome.next (writeRow_effect h (.inr (isProtected_of_open (by decide +kernel))) (by decide +kernel) nofun
      (by decide)
      (by show v < 256 ^ 4; omega) fun e _ => ?_)
    show cueWrite s v = _
    unfold cueWrite cueMask
    rw [if_neg (by omega)]
    split <;> rfl
  · refine congrArg Host.Outcome.next (take_answered h (by decide) ?_)
    show takeRevert s = _
    unfold takeRevert
    rw [if_neg hprev]
    rfl
  · exact congrArg Host.Outcome.next (take_answered h (by decide) (if_pos hprev))
  · exact congrArg Host.Outcome.next (take_answered h (by decide) rfl)
  · refine ⟨_, congrArg Host.Outcome.next (take_answered h (by decide) rfl), fun k hk => ?_, fun k hk => ?_, rfl⟩
    · exact spGet_filter_gone _ _ fun v => by rw [hk]; rfl
    · exact spGet_filter _ _ fun v => by rw [hk]; rfl
  · rw [takeStoreWriteDone_eq hx, if_pos rfl, nextTakeWrite_last (s := { s with mgt := putTake s.mgt x }) hlast]
    rfl
  · refine ⟨_, takeStoreWriteDone_eq hx false, ?_⟩
    rw [if_neg Bool.false_ne_true, nextTakeWrite_last (s := ({ s with mgt := putTake s.mgt x.torn } : State).count (kDict 0xC) 1) hlast]
    rfl
  · have hin : (cueApplyMask s == 0 && !s.mgt.sweep && s.pwr.supply == .on) = true := by rw [hmask, hsweep, hon]; rfl
    exact congrArg Host.Outcome.next (if_pos hin)
  · exact cutLsWrite_answered h hsub ((if_pos ⟨h0, hv⟩).trans (if_pos hord))
  · exact cutLsWrite_answered h hsub (if_neg (by omega))

end Sys2Proof.Machine


namespace Sys2Proof.Machine

set_option Elab.async false

variable {s t : State}

/-! ## The layout in force while a region's units load the take -/

theorem Lay.trans {u : State} (h : Lay s t) (k : Lay t u) : Lay s u := fun r hr => (k r hr).trans (h r hr)

theorem Lay.each {α : Type} {f : State → α → State} (h : Lay s t) (l : List α) (hf : ∀ u, ∀ a ∈ l, Lay u (f u a)) : Lay s (t.each l f) :=
  foldl_mem (P := fun u => Lay s u) h fun u a ha k => k.trans (hf u a ha)

theorem Lay.setRo {k v : Nat} (h : Lay s t) (hk : OffLayout k) : Lay s (t.setRo k v) := fun r hr =>
  (setRo_ro_other _ _ (fun e => hk r hr e.symm)).trans (h r hr)

theorem laneKey_off {l : Nat} (hl : l < 256) : OffLayout (laneKey l) := by
  intro r hr
  unfold laneKey key addrKey
  omega

theorem exportEnd_lay (s : State) (k : TxPkt) : Lay s (exportEnd s k) := by
  have hif (u : State) (b : Bool) (n : Nat) (hn : n < 16) (h : Lay s u) : Lay s (u.countIf b (kCmdPerf n)) := by
    unfold State.countIf
    split
    · exact count_lay _ _ (key_off hn) h
    · exact h
  unfold exportEnd
  split
  · unfold endCmd
    split
    · exact .refl s
    · dsimp only
      split
      · unfold closeMuted
        refine hif _ _ 3 (by decide) (hif _ _ 2 (by decide) (count_lay _ _ (key_off (by decide)) ?_))
        exact Lay.frame State.setCtx_frame (Lay.frame returnCredits_frame (Lay.frame publish_frame (.refl s)))
      · exact Lay.frame State.setCtx_frame (.refl s)
  · exact .refl s

theorem dropQueue_lay (s : State) (p : Nat) : Lay s (dropQueue s p) := by
  unfold dropQueue
  exact Lay.each (Lay.frame State.setPort_frame (.refl s)) _ fun u k _ =>
    (count_lay _ _ (key_off (by decide)) (.refl u)).trans (exportEnd_lay _ _)

theorem laneCut_lay (s : State) {p : Nat} (hp : p < 8) : Lay s (laneCut s p) := by
  have h1 : Lay s (s.setPort p { s.port p with lreq := none, lcnt := 0 }) := Lay.frame State.setPort_frame (.refl s)
  have hresult (u : State) (v : Nat) : Lay u (laneResult u v) := by
    unfold laneResult
    exact (Lay.refl u).setRo (key_off (by decide))
  unfold laneCut
  dsimp only
  split
  · split
    · exact h1
    · rename_i o _ hlane
      have hlt : o.lane < 256 := by
        have : ¬ o.lane / 4 ≠ p := fun h => hlane (bne_iff_ne.2 h)
        omega
      have h2 : Lay s { s.setPort p { s.port p with lreq := none, lcnt := 0 } with
          fab := { (s.setPort p { s.port p with lreq := none, lcnt := 0 }).fab with lane := none } } := h1
      split
      · exact h2.trans (hresult _ _)
      · exact (h2.setRo (laneKey_off hlt)).trans (hresult _ _)
  · exact h1

theorem restartPort_lay (s : State) {p : Nat} (hp : p < 8) : Lay s (restartPort s p) := by
  have hstart (u : State) : Lay u (startPort u p) := by
    unfold startPort
    split
    · exact Lay.frame State.setPort_frame (.refl u)
    · unfold lanesOff
      refine Lay.each (Lay.frame State.setPort_frame (.refl u)) _ fun v l hl => ?_
      have hl := List.mem_range.1 hl
      split
      · exact .refl v
      · exact (Lay.refl v).setRo (laneKey_off (by omega))
  have h := (laneCut_lay s hp).trans (hstart _)
  unfold restartPort
  dsimp only
  split
  · exact h.trans (dropQueue_lay _ _)
  · exact h

/-- What a region's fabric units do beside taking their values (R283). -/
theorem onApply_fabric (s t : State) (u : Nat) : onApply s t 5 u = if fabChanged s t u then
    t.each (portsOf u) (fun x p => if onApply.fabRetrains s t u p then restartPort x p else x) else t := if_pos rfl

theorem onApply_fabric_lay (s t : State) {r : Nat} (hr : r < 4) : Lay t (onApply s t 5 r) := by
  rw [onApply_fabric]
  split
  · refine Lay.each (.refl t) _ fun u p hp => ?_
    have hp : p = 2 * r ∨ p = 2 * r + 1 := by
      unfold portsOf at hp
      simpa using hp
    split
    · exact restartPort_lay u (by omega)
    · exact .refl u
  · exact .refl t

theorem onApply_fabric_frame (s t : State) (r : Nat) : Frame [.ro, .doms, .ctxs, .ress, .fab] t (onApply s t 5 r) := by
  rw [onApply_fabric]
  exact frame_ite (State.each_frame fun _ _ => frame_ite restartPort_frame (.refl _ _)) (.refl _ _)

theorem loadCopies_cmdPend (s : State) (u : Nat) (p : Nat → Bool) : (loadCopies s u p).mgt.cmdPend = s.mgt.cmdPend := by
  unfold loadCopies
  dsimp only
  refine State.each_same_of_mem (fun v => v.mgt.cmdPend) _ _ (fun _ _ _ => ?_) s
  rfl

/-- A region that loads the take keeps the layout in force, and the commands that wait. -/
theorem loadRegion_spec (s : State) {r : Nat} (hr : r < 4) (off : Bool) :
    Lay s (loadRegion s r off) ∧ (loadRegion s r off).mgt.cmdPend = s.mgt.cmdPend := by
  obtain ⟨s1, hs1, hlay, hpend⟩ : ∃ s1, (s.each (unitsIn r) fun s u => loadCopies s u fun k => off || !isLayoutKey k) = s1 ∧ Lay s s1 ∧
      s1.mgt.cmdPend = s.mgt.cmdPend :=
    ⟨_, rfl, Lay.each (.refl s) _ fun u _ _ => Lay.frame loadCopies_frame (.refl u),
      State.each_same_of_mem (fun v => v.mgt.cmdPend) _ _ (fun u _ _ => loadCopies_cmdPend u _ _) s⟩
  obtain ⟨s2, hs2, hlay2, hpend2⟩ : ∃ s2, { s1 with mgt := { s1.mgt with apply := s1.mgt.apply.filter (fun p => unitReg p.2 != r) } } = s2 ∧
      Lay s1 s2 ∧ s2.mgt.cmdPend = s1.mgt.cmdPend := by
    refine ⟨_, rfl, fun _ _ => ?_, ?_⟩ <;> rfl
  have hload : loadRegion s r off = onApply s s2 5 r := by
    rw [← hs2, ← hs1]
    rfl
  rw [hload, (onApply_fabric_frame s s2 r).mgt (by decide)]
  exact ⟨(hlay.trans hlay2).trans (onApply_fabric_lay s s2 hr), hpend2.trans hpend⟩

/-- A region that loads the take leaves its blocks (R326). -/
theorem loadRegion_fabric_frame (s : State) (r : Nat) (off : Bool) : Frame [.mgt, .ro, .doms, .ctxs, .ress, .fab] s (loadRegion s r off) :=
    by
  have gl (u : State) (k : Nat) : Frame [.mgt, .ro, .doms, .ctxs, .ress, .fab] u (loadCopies u k fun k => off || !isLayoutKey k) :=
    loadCopies_frame.wider
  unfold loadRegion
  exact (onApply_fabric_frame _ _ _).wider.trans (Frame.put (State.each_frame gl))

/-! ## Region commands -/

/-- A region command that its cue handed over, performed where the region's state allows it. -/
theorem regionCmd_run {r v : Nat} (hr : r < 4) (hp : cmdPending s (kRegCmd r) v = true) {valid : RState → Bool}
    (hv : valid (s.reg r).st = true) (f : State → State) : regionCmd s r v valid f =
      f { s with mgt := { s.mgt with cmdPend := s.mgt.cmdPend.erase (kRegCmd r, v) } } := by
  unfold regionCmd
  rw [if_neg (by rw [hp, decide_eq_false (by omega)]; decide)]
  dsimp only
  rw [if_pos hv]

/-- One that the state does not allow is counted. -/
theorem regionCmd_counted {r v : Nat} (hr : r < 4) (hp : cmdPending s (kRegCmd r) v = true) {valid : RState → Bool}
    (hv : valid (s.reg r).st = false) (f : State → State) : regionCmd s r v valid f =
      { s with mgt := { s.mgt with cmdPend := s.mgt.cmdPend.erase (kRegCmd r, v) } }.count (kRegCnt r 3) 1 := by
  unfold regionCmd
  rw [if_neg (by rw [hp, decide_eq_false (by omega)]; decide)]
  dsimp only
  rw [if_neg (by rw [hv]; decide)]

theorem goOffline_spec (s : State) (r : Nat) : ((goOffline s r).reg r).st = .offline ∧ (goOffline s r).mem = s.mem ∧
    (goOffline s r).blks = s.blks ∧ (goOffline s r).mgt = s.mgt := by
  have g : Frame [.out, .ro, .regs] s (goOffline s r) := goOffline_frame
  refine ⟨?_, g.mem (by decide), g.blks (by decide), g.mgt (by decide)⟩
  have hsend (u : State) : Frame [.out] u (sendHold u r) := sendHold_frame
  unfold goOffline
  rw [(hsend _).get_reg (by decide), State.count_frame.get_reg (by decide), setReg_reg_same]

/-! ## A region that starts again -/

/-- Pools of a region are zero once they are emptied. -/
theorem emptyPools_rd {r cell p x : Nat} (hpools : poolSlots s r ≤ 128) (hcell : cell / 96 = r) (hp : p < poolSlots s r) (hx : x < 65536) :
    (emptyPools s r).rd (sliceBase cell + (128 - poolSlots s r + p) * 65536 + x) = 0 := by
  refine spGet_filter_gone _ _ fun v => ?_
  unfold sliceBase
  have ha : 0x8000000000 + cell * 0x1000000 + (128 - poolSlots s r + p) * 65536 + x - 0x8000000000 =
      cell * 0x1000000 + ((128 - poolSlots s r + p) * 65536 + x) := by omega
  have hlt : (128 - poolSlots s r + p) * 65536 + x < 0x1000000 := by omega
  have hdiv : (cell * 0x1000000 + ((128 - poolSlots s r + p) * 65536 + x)) / 0x1000000 = cell := by omega
  have hmod : (cell * 0x1000000 + ((128 - poolSlots s r + p) * 65536 + x)) % 0x1000000 / 65536 = 128 - poolSlots s r + p := by omega
  dsimp only
  rw [ha, hdiv, hmod, hcell, decide_eq_true (by omega), decide_eq_true (by omega), decide_eq_true (by omega)]
  simp

theorem emptyPools_kept (s : State) (r : Nat) : (∀ e ∈ (emptyPools s r).binds, keyCell e.1 / 96 ≠ r) ∧
    (∀ e ∈ s.mem, e.1 < 0x8000000000 → e ∈ (emptyPools s r).mem) ∧ (∀ e ∈ (emptyPools s r).mem, e ∈ s.mem) := by
  have g (lost : Held → Bool) : Frame [.back] s (dropHeld s lost) := dropHeld_frame
  refine ⟨fun e he => bne_iff_ne.1 (List.mem_filter.1 he).2, fun e he hlow => List.mem_filter.2 ⟨?_, ?_⟩, fun e he => ?_⟩
  · rw [(g _).mem (by decide)]
    exact he
  · dsimp only
    rw [decide_eq_false (by omega)]
    rfl
  · have h := (List.mem_filter.1 he).1
    rw [(g _).mem (by decide)] at h
    exact h

/-- ONLINE of a region that is OFFLINE: its clocks start, and its pools are zero and unbound. -/
theorem regionOnline_spec {r : Nat} (hr : r < 4) (hp : cmdPending s (kRegCmd r) 2 = true) (hst : (s.reg r).st = .offline) :
    ∃ t, exec (.regionOnline r) s = .next t ∧ t.mgt.cmdPend = s.mgt.cmdPend.erase (kRegCmd r, 2) ∧ (t.reg r).onlining = true ∧
    (∀ e ∈ t.binds, keyCell e.1 / 96 ≠ r) ∧ (∀ e ∈ s.mem, e.1 < 0x8000000000 → e ∈ t.mem) ∧ (∀ e ∈ t.mem, e ∈ s.mem) ∧
    (poolSlots t r ≤ 128 → ∀ cell p x, cell / 96 = r → p < poolSlots t r → x < 65536 → t.rd (poolBase t cell p + x) = 0) := by
  obtain ⟨s0, hs0, hcmd0, hmem0⟩ : ∃ s0, { s with mgt := { s.mgt with cmdPend := s.mgt.cmdPend.erase (kRegCmd r, 2) } } = s0 ∧
      s0.mgt.cmdPend = s.mgt.cmdPend.erase (kRegCmd r, 2) ∧ s0.mem = s.mem := ⟨_, rfl, rfl, rfl⟩
  obtain ⟨s1, hs1⟩ : ∃ s1, applyLayout s0 r = s1 := ⟨_, rfl⟩
  have g01 : Frame [.ro] s0 s1 := hs1 ▸ applyLayout_frame
  obtain ⟨s2, hs2⟩ : ∃ s2, emptyPools s1 r = s2 := ⟨_, rfl⟩
  have g12 : Frame [.mem, .binds, .back] s1 s2 := hs2 ▸ emptyPools_frame
  obtain ⟨hbinds, hkeep, hsub⟩ := emptyPools_kept s1 r
  rw [hs2] at hbinds hkeep hsub
  rw [g01.mem (by decide), hmem0] at hkeep hsub
  obtain ⟨s3, hs3, hon3⟩ : ∃ s3, s2.setReg r { s2.reg r with onlining := true } = s3 ∧ (s3.reg r).onlining = true :=
    ⟨_, rfl, by rw [setReg_reg_same]⟩
  have g23 : Frame [.regs] s2 s3 := hs3 ▸ State.setReg_frame
  have g3 : Frame [.mgt, .ro, .doms, .ctxs, .ress, .blks, .fab] s3 (loadRegion s3 r true) := loadRegion_frame
  obtain ⟨hlay3, hpend3⟩ := loadRegion_spec s3 hr true
  have hlay : Lay s2 (loadRegion s3 r true) := (Lay.frame g23 (.refl s2)).trans hlay3
  have hpools : poolSlots (loadRegion s3 r true) r = poolSlots s1 r := (hlay.pools r).trans ((Lay.frame g12 (.refl s1)).pools r)
  have hrun : exec (.regionOnline r) s = .next (loadRegion s3 r true) := by
    rw [← hs3, ← hs2, ← hs1, ← hs0]
    exact congrArg Host.Outcome.next (regionCmd_run hr hp (by rw [hst]; rfl) _)
  refine ⟨_, hrun, ?_, ?_, ?_, ?_, ?_, fun hle cell p x hcell hpx hx => ?_⟩
  · rw [hpend3, g23.mgt (by decide), g12.mgt (by decide), g01.mgt (by decide)]
    exact hcmd0
  · rw [g3.get_reg (by decide)]
    exact hon3
  · rw [g3.binds (by decide), g23.binds (by decide)]
    exact hbinds
  · rw [g3.mem (by decide), g23.mem (by decide)]
    exact hkeep
  · rw [g3.mem (by decide), g23.mem (by decide)]
    exact hsub
  · unfold poolBase
    rw [hcell, hpools, g3.get_rd (by decide), g23.get_rd (by decide), ← hs2]
    rw [hpools] at hle hpx
    exact emptyPools_rd hle hcell hpx hx

theorem Frame.get_usel {w : List Part} (g : Frame w s t) (h : .ucode ∉ w) : t.flt.usel = s.flt.usel := by
  obtain ⟨_, _, husel, _⟩ := g.ucode h
  exact husel

theorem nodup_blocks (r : Nat) : ((List.range 6).map (fun b => 6 * r + b)).Nodup :=
  List.pairwise_map.2 (List.nodup_range.imp fun h => by omega)

/-- A region that starts again is ONLINE, and its blocks run the selected microcode bank. -/
theorem regionOnlineDone_spec {r : Nat} (hr : r < 4) (hst : (s.reg r).st = .offline) (hon : (s.reg r).onlining = true)
    (hidle : ∀ d, d < 16 → (s.stp d).order = .none) : ∃ t, exec (.regionOnlineDone r) s = .next t ∧ (t.reg r).st = .online ∧
    (t.reg r).onlining = false ∧ t.mem = s.mem ∧ ∀ b, b / 6 = r → (t.blk b).ubank = s.flt.usel := by
  obtain ⟨s1, hs1, hst1, hon1⟩ : ∃ s1, s.setReg r { s.reg r with st := .online, onlining := false } = s1 ∧ (s1.reg r).st = .online ∧
      (s1.reg r).onlining = false := ⟨_, rfl, by rw [setReg_reg_same], by rw [setReg_reg_same]⟩
  have g1 : Frame [.regs] s s1 := hs1 ▸ State.setReg_frame
  obtain ⟨s2, hs2⟩ : ∃ s2, ((List.range 6).map (fun b => 6 * r + b)).foldl takeBank (loadRegion s1 r false) = s2 := ⟨_, rfl⟩
  have gl : Frame [.mgt, .ro, .doms, .ctxs, .ress, .blks, .fab] s1 (loadRegion s1 r false) := loadRegion_frame
  have g2 : Frame [.mgt, .ro, .doms, .ctxs, .ress, .blks, .fab] s1 s2 := by
    rw [← hs2]
    exact (State.each_frame fun _ _ => takeBank_frame.wider).trans gl
  obtain ⟨s3, hs3⟩ : ∃ s3, (portsOf r).foldl linkReset s2 = s3 := ⟨_, rfl⟩
  have g3 : Frame [.out, .ro, .fab] s2 s3 := by
    rw [← hs3]
    exact State.each_frame fun _ _ => linkReset_frame
  have hsettle : (List.range 16).foldl (settle r) s3 = s3 := by
    refine foldl_mem (P := fun u => u = s3) rfl fun u d hd hu => ?_
    subst hu
    have hord : (u.stp d).order = .none := by
      rw [g3.get_stp (by decide), g2.get_stp (by decide), g1.get_stp (by decide)]
      exact hidle d (List.mem_range.1 hd)
    unfold settle
    dsimp only
    rw [hord]
    split <;> rfl
  have hrun : exec (.regionOnlineDone r) s = .next s3 := by
    have hin : ¬ (decide (r ≥ 4) || (s.reg r).st != .offline || !(s.reg r).onlining) = true := by
      rw [decide_eq_false (by omega), hst, hon]
      decide
    rw [← hsettle, ← hs3, ← hs2, ← hs1]
    exact congrArg Host.Outcome.next (if_neg hin)
  have hreg : s3.reg r = s1.reg r := (g3.get_reg (by decide) r).trans (g2.get_reg (by decide) r)
  refine ⟨s3, hrun, hreg ▸ hst1, hreg ▸ hon1, ?_, fun b hb => ?_⟩
  · rw [g3.mem (by decide), g2.mem (by decide), g1.mem (by decide)]
  · obtain ⟨u, hu, _, hub⟩ := State.each_at (P := fun u => u.flt.usel = s.flt.usel) (fun u => (u.blk b).ubank) takeBank b
      ((List.range 6).map (fun b => 6 * r + b)) (nodup_blocks r)
      (List.mem_map.2 ⟨b % 6, List.mem_range.2 (by omega), by omega⟩)
      (fun v c hv => (takeBank_frame.get_usel (by decide)).trans hv)
      (fun v c _ hc => by
        unfold takeBank
        dsimp only
        rw [setBlk_blk_other _ _ (fun h => hc h.symm)])
      (loadRegion s1 r false) ((gl.get_usel (by decide)).trans (g1.get_usel (by decide)))
    have hbank : ((takeBank u b).blk b).ubank = u.flt.usel := by
      unfold takeBank
      rw [setBlk_blk_same]
    rw [g3.get_blk (by decide), ← hs2]
    exact hub.trans (hbank.trans hu)

/-- Settles O54: each command by `regionCmd_run`, and the region that starts again by `regionOnline_spec` and `regionOnlineDone_spec`. -/
theorem regionCommandsAct : Obligations.RegionCommandsAct := by
  unfold Obligations.RegionCommandsAct
  refine ⟨fun s r hr => ⟨fun hp hst => ?_, fun hp hst => regionOnline_spec hr hp hst, fun hp hst hchip => ?_, fun hp hst => ?_,
    fun hp hst => ?_⟩, fun s r hr hst hdrain => ?_, fun s r => regionOnlineDone_spec⟩
  · refine ⟨_, congrArg Host.Outcome.next (regionCmd_run hr hp (by rw [hst]; rfl) _), rfl, ?_, rfl⟩
    rw [setReg_reg_same]
  · have hv : ((s.reg r).st == .online || (s.reg r).st == .draining) = true := by
      rcases hst with h | h <;> rw [h] <;> rfl
    obtain ⟨s0, hs0, g0, hcmd⟩ : ∃ s0, { s with mgt := { s.mgt with cmdPend := s.mgt.cmdPend.erase (kRegCmd r, 3) } } = s0 ∧
        Frame [.mgt] s s0 ∧ s0.mgt.cmdPend = s.mgt.cmdPend.erase (kRegCmd r, 3) :=
      ⟨_, rfl, Frame.put (.refl _ s), rfl⟩
    obtain ⟨f, hf, hcause⟩ : ∃ f : Fact, f = { level := 2, action := 3, cause := 0x12 } ∧ f.cause = 0x12 := ⟨_, rfl, rfl⟩
    have hk := regionFault_killed (s := s) 3 f g0 (by decide) (by decide) (by decide) hr hchip hv
    have g : Frame _ s0 (regionFault s0 r 3 f) := regionFault_frame
    refine ⟨regionFault s0 r 3 f, ?_, ?_, hk.st, hk.code.trans (by rw [hcause]), (g.mem (by decide)).trans (g0.mem (by decide))⟩
    · rw [← hs0, hf]
      exact congrArg Host.Outcome.next (regionCmd_run hr hp hv _)
    · show (regionFault s0 r 3 f).mgt.cmdPend = _
      rw [g.mgt (by decide)]
      exact hcmd
  · have hv : ((s.reg r).st == .online || (s.reg r).st == .draining) = true := by
      rcases hst with h | h <;> rw [h] <;> rfl
    obtain ⟨hoff, hmem, _, hmgt⟩ := goOffline_spec { s with mgt := { s.mgt with cmdPend := s.mgt.cmdPend.erase (kRegCmd r, 4) } } r
    exact ⟨_, congrArg Host.Outcome.next (regionCmd_run hr hp hv _), congrArg (·.cmdPend) hmgt, hoff, hmem⟩
  · refine ⟨_, congrArg Host.Outcome.next (regionCmd_counted hr hp (valid := (· == .online)) (beq_false_of_ne hst) _), ?_⟩
    exact ⟨rfl, rfl, rfl, count_ro_same _ _ _⟩
  · have hin : (decide (r < 4) && (s.reg r).st == .draining && !drains s r) = true := by
      rw [decide_eq_true hr, hst, hdrain]
      rfl
    obtain ⟨hoff, hmem, hblks, _⟩ := goOffline_spec s r
    exact ⟨_, congrArg Host.Outcome.next (if_pos hin), hoff, hmem, hblks⟩

end Sys2Proof.Machine


namespace Sys2Proof.Machine

set_option Elab.async false

variable {s t : State}

/-! ## A region leaves reset -/

/-- Page moves that a reset cuts leave their pages where they were. -/
theorem dropMoves_dir (s : State) (r page : Nat) :
    (dropMoves s r).dir page = s.dir page ∨ (dropMoves s r).dir page = { s.dir page with mig := false } := by
  unfold dropMoves
  refine foldl_inv (P := fun (u : State) => u.dir page = s.dir page ∨ u.dir page = { s.dir page with mig := false }) (.inl rfl) fun u m
      h => ?_
  rw [setDir_dir]
  split
  · rename_i hm
    subst hm
    rcases h with h | h <;> rw [h] <;> exact .inr rfl
  · exact h

theorem exportEnd_sameDoms (s : State) (k : TxPkt) : SameDoms s (exportEnd s k) := by
  unfold exportEnd
  split
  · unfold endCmd
    split
    · exact .refl s
    · dsimp only
      split
      · exact closeMuted_sameDoms ..
      · exact .frame State.setCtx_frame
  · exact .refl s

theorem restartPort_sameDoms (s : State) (p : Nat) : SameDoms s (restartPort s p) := by
  have h : SameDoms s (startPort (laneCut s p) p) := (SameDoms.frame startPort_frame).after (.frame laneCut_frame)
  unfold restartPort
  dsimp only
  split
  · unfold dropQueue
    exact (SameDoms.foldl (fun u k => (exportEnd_sameDoms _ _).after (.frame State.count_frame)) _ _).after
        ((SameDoms.frame State.setPort_frame).after h)
  · exact h

theorem loadRegion_sameDoms (s : State) (r : Nat) (off : Bool) : SameDoms s (loadRegion s r off) := by
  have hports (u v : State) : SameDoms v (onApply u v 5 r) := by
    rw [onApply_fabric]
    split
    · refine SameDoms.foldl (fun w p => ?_) _ _
      split
      · exact restartPort_sameDoms ..
      · exact .refl w
    · exact .refl v
  obtain ⟨s1, hs1, h1⟩ : ∃ s1, (s.each (unitsIn r) fun s u => loadCopies s u fun k => off || !isLayoutKey k) = s1 ∧ SameDoms s s1 :=
    ⟨_, rfl, SameDoms.foldl (fun u k => .frame loadCopies_frame) _ _⟩
  obtain ⟨s2, hs2, h2⟩ : ∃ s2, { s1 with mgt := { s1.mgt with apply := s1.mgt.apply.filter (fun p => unitReg p.2 != r) } } = s2 ∧
      SameDoms s1 s2 := by
    refine ⟨_, rfl, ?_⟩
    exact SameDoms.frame (w := [.mgt]) (Frame.put (.refl _ s1))
  have hload : loadRegion s r off = onApply s s2 5 r := by
    rw [← hs2, ← hs1]
    rfl
  rw [hload]
  exact (hports _ _).after (h2.after h1)

/-- The blocks of a region as they leave reset. -/
def resetBlks (s : State) (r : Nat) : State :=
  ((List.range 6).map (fun b => 6 * r + b)).foldl (fun s b => takeBank (s.setBlk b (resetBlk (s.blk b))) b) s

theorem resetBlks_frame (s : State) (r : Nat) : Frame [.blks] s (resetBlks s r) :=
  State.each_frame fun _ _ => takeBank_frame.after State.setBlk_frame

theorem resetBlks_blk {r b : Nat} (hb : b / 6 = r) : ((resetBlks s r).blk b).bank0 = bankEmpty ∧ ((resetBlks s r).blk b).bank1 = bankEmpty ∧
    ((resetBlks s r).blk b).commits = (s.blk b).commits := by
  obtain ⟨u, _, hu, hb⟩ := State.each_at (P := fun _ => True) (fun u => u.blk b)
    (fun s b => takeBank (s.setBlk b (resetBlk (s.blk b))) b) b
    ((List.range 6).map (fun b => 6 * r + b)) (nodup_blocks r)
    (List.mem_map.2 ⟨b % 6, List.mem_range.2 (by omega), by omega⟩) (fun _ _ _ => trivial)
    (fun v c _ hc => by
      unfold takeBank
      rw [setBlk_blk_other _ _ (fun h => hc h.symm), setBlk_blk_other _ _ (fun h => hc h.symm)])
    s trivial
  have hreset : (takeBank (u.setBlk b (resetBlk (u.blk b))) b).blk b = { resetBlk (u.blk b) with
      ubank := u.flt.usel, map := ((takeBank (u.setBlk b (resetBlk (u.blk b))) b).blk b).map } := by
    unfold takeBank
    rw [setBlk_blk_same, setBlk_blk_same]
    rfl
  have h : (resetBlks s r).blk b = _ := hb.trans (hreset.trans (by rw [hu]))
  rw [h]
  exact ⟨rfl, rfl, rfl⟩

/-- What a region that leaves reset finds: it is ONLINE, its blocks' counter banks are empty, and none of its cells is bound. -/
structure Up (s t : State) (r : Nat) : Prop where
  st : (t.reg r).st = .online
  other : ∀ q, q ≠ r → t.reg q = s.reg q
  blks : ∀ b, b / 6 = r → (t.blk b).bank0 = bankEmpty ∧ (t.blk b).bank1 = bankEmpty ∧ (t.blk b).commits = (s.blk b).commits
  binds : ∀ e ∈ t.binds, e ∈ s.binds ∧ keyCell e.1 / 96 ≠ r
  dirs : ∀ page, t.dir page = s.dir page ∨ t.dir page = { s.dir page with mig := false }
  doms : SameDoms s t

theorem regionUp_up (s : State) (r : Nat) : Up s (regionUp s r) r := by
  obtain ⟨s0, hs0, g0⟩ : ∃ s0, (if (s.reg r).wasOff then applyLayout s r else s) = s0 ∧ Frame [.ro] s s0 :=
    ⟨_, rfl, frame_ite applyLayout_frame (.refl _ _)⟩
  obtain ⟨s1, hs1⟩ : ∃ s1, resetBlks s0 r = s1 := ⟨_, rfl⟩
  have g1 : Frame [.blks] s0 s1 := hs1 ▸ resetBlks_frame s0 r
  obtain ⟨s2, hs2⟩ : ∃ s2, emptyPools s1 r = s2 := ⟨_, rfl⟩
  have g2 : Frame [.mem, .binds, .back] s1 s2 := hs2 ▸ emptyPools_frame
  have hbinds : ∀ e ∈ s2.binds, e ∈ s1.binds ∧ keyCell e.1 / 96 ≠ r := by
    have g (lost : Held → Bool) : Frame [.back] s1 (dropHeld s1 lost) := dropHeld_frame
    rw [← hs2]
    intro e he
    obtain ⟨hin, hcell⟩ := List.mem_filter.1 he
    rw [(g _).binds (by decide)] at hin
    exact ⟨hin, bne_iff_ne.1 hcell⟩
  obtain ⟨s3, hs3⟩ : ∃ s3, emptyAlus s2 r = s3 := ⟨_, rfl⟩
  have g3 : Frame [.fab, .xchs] s2 s3 := hs3 ▸ emptyAlus_frame
  obtain ⟨s4, hs4⟩ : ∃ s4, dropMoves s3 r = s4 := ⟨_, rfl⟩
  have g4 : Frame [.dirs, .back] s3 s4 := hs4 ▸ dropMoves_frame
  have hdirs := dropMoves_dir s3 r
  rw [hs4] at hdirs
  obtain ⟨s5, hs5⟩ : ∃ s5, (portsOf r).foldl linkReset (s4.setReg r (regDflt 0)) = s5 := ⟨_, rfl⟩
  have g5 : Frame [.out, .ro, .fab] (s4.setReg r (regDflt 0)) s5 := by
    rw [← hs5]
    exact State.each_frame fun _ _ => linkReset_frame
  have g6 := loadRegion_fabric_frame s5 r (s.reg r).wasOff
  have hup : regionUp s r = loadRegion s5 r (s.reg r).wasOff := by
    rw [← hs5, ← hs4, ← hs3, ← hs2, ← hs1, ← hs0]
    rfl
  have g04 : Frame [.ro, .blks, .mem, .binds, .back, .fab, .xchs, .dirs] s s4 :=
    g4.wider.trans (g3.wider.trans (g2.wider.trans (g1.wider.trans g0.wider)))
  have hreg (q : Nat) : (regionUp s r).reg q = if q = r then regDflt 0 else s.reg q := by
    rw [hup, g6.get_reg (by decide), g5.get_reg (by decide), setReg_reg, g04.get_reg (by decide)]
  refine ⟨by rw [hreg, if_pos rfl]; rfl, fun q hq => by rw [hreg, if_neg hq], fun b hb => ?_, fun e he => ?_, fun page => ?_, ?_⟩
  · rw [hup, g6.get_blk (by decide), g5.get_blk (by decide), State.setReg_frame.get_blk (by decide), g4.get_blk (by decide),
      g3.get_blk (by decide), g2.get_blk (by decide), ← hs1, ← g0.get_blk (by decide)]
    exact resetBlks_blk hb
  · rw [hup, g6.binds (by decide), g5.binds (by decide), State.setReg_frame.binds (by decide), g4.binds (by decide),
      g3.binds (by decide)] at he
    obtain ⟨hin, hcell⟩ := hbinds e he
    rw [g1.binds (by decide), g0.binds (by decide)] at hin
    exact ⟨hin, hcell⟩
  · have hdir := hdirs page
    rw [g3.get_dir (by decide), g2.get_dir (by decide), g1.get_dir (by decide), g0.get_dir (by decide)] at hdir
    rw [hup, g6.get_dir (by decide), g5.get_dir (by decide), State.setReg_frame.get_dir (by decide)]
    exact hdir
  · rw [hup]
    exact (loadRegion_sameDoms ..).after ((SameDoms.frame g5).after ((SameDoms.frame State.setReg_frame).after (.frame g04)))

/-! ## Nothing to replay -/

/-- A domain whose step is not under way owes nothing to a region that leaves reset. -/
theorem settle_none {r d : Nat} (h : (s.stp d).order = .none) : settle r s d = s := by
  unfold settle
  dsimp only
  rw [h]
  split <;> rfl

theorem settles_none (rs : List Nat) (h : ∀ d, d < 16 → (s.stp d).order = .none) :
    rs.foldl (fun s r => (List.range 16).foldl (settle r) s) s = s :=
  foldl_mem (P := fun u => u = s) rfl fun u r _ hu => by
    subst hu
    exact foldl_mem (P := fun v => v = u) rfl fun v d hd hv => by
      subst hv
      exact settle_none (h d (List.mem_range.1 hd))

/-- A replay that finds no domain ACTIVE, and no step under way. -/
theorem replay_none (rs : List Nat) (affected cut : Nat) (hdom : ∀ d, d < 16 → mbit affected d = true → (s.dom d).st ≠ .active)
    (h : ∀ d, d < 16 → (s.stp d).order = .none) : replay s rs affected cut = s := by
  have hdoms : (mlist affected 16).foldl (replayDom cut) s = s :=
    foldl_mem (P := fun u => u = s) rfl fun u d hd hu => by
      subst hu
      obtain ⟨hlt, hbit⟩ := List.mem_filter.1 hd
      unfold replayDom
      rw [if_pos (bne_iff_ne.2 (hdom d (List.mem_range.1 hlt) hbit))]
  unfold replay
  dsimp only
  rw [hdoms]
  exact settles_none rs h

theorem applyAllHeld_none (h : s.cp.heldBar = []) : applyAllHeld s = s := by
  unfold applyAllHeld
  rw [h]
  show ({ s with cp := { s.cp with heldBar := [] } } : State) = s
  rw [← h]

/-! ## Dumps -/

/-- The dump engine takes the lowest slot that is not held (R353). -/
theorem dumpStart_spec {r inc n : Nat} (hr : r < 4) (hst : (s.reg r).stage = .killed) (hn : n < 4) (hfree : (s.dump n).held = false)
    (hlow : ∀ m, m < n → (s.dump m).held = true) : ∃ t, exec (.dumpStart r inc) s = .next t ∧ (t.dump n).held = true ∧
    (t.dump n).valid = false ∧ (t.dump n).region = r ∧ (t.dump n).recNo = (s.reg r).recNo ∧
    (t.dump n).incomplete = (s.dump n).incomplete ∧ (t.dump n).gaps = inc % 128 ∧ (t.reg r).stage = .dumping ∧ (t.reg r).slot = n ∧
    (∀ m, m ≠ n → t.dump m = s.dump m) ∧ t.mem = s.mem ∧ t.ro = s.ro := by
  have hslot : dumpSlot s = n := by
    have hfind : [0, 1, 2, 3].find? (fun m => !(s.dump m).held) = some n := by
      obtain rfl | rfl | rfl | rfl : n = 0 ∨ n = 1 ∨ n = 2 ∨ n = 3 := by omega
      · simp [hfree]
      · simp [hfree, hlow 0 (by decide)]
      · simp [hfree, hlow 0 (by decide), hlow 1 (by decide)]
      · simp [hfree, hlow 0 (by decide), hlow 1 (by decide), hlow 2 (by decide)]
    unfold dumpSlot
    rw [hfind]
    rfl
  have hin : ¬ (decide (r ≥ 4) || (s.reg r).stage != .killed) = true := by
    rw [decide_eq_false (by omega), hst]
    decide
  obtain ⟨x, hx, hheld, hvalid, hreg, hrec, hinc, hgaps⟩ : ∃ x : Dump, x = Dump.mk false true r (s.dump n).incomplete (inc % 128)
      (s.reg r).recNo (bits (recordAt s (s.reg r).recNo) 479 416) s.flt.dumpOrder [] ∧ x.held = true ∧ x.valid = false ∧
      x.region = r ∧ x.recNo = (s.reg r).recNo ∧ x.incomplete = (s.dump n).incomplete ∧ x.gaps = inc % 128 :=
    ⟨_, rfl, rfl, rfl, rfl, rfl, rfl, rfl⟩
  obtain ⟨u, hu, gu, hdump⟩ : ∃ u : State, u =
      { s.setDump n x with flt := { (s.setDump n x).flt with dumpOrder := (s.setDump n x).flt.dumpOrder + 1 } } ∧
      Frame [.dumps] s u ∧ ∀ m, u.dump m = (s.setDump n x).dump m := ⟨_, rfl, Frame.put State.setDump_frame, fun _ => rfl⟩
  have g : Frame [.log, .regs] u ((setRecord u (s.reg r).recNo 331 330 n).setReg r { s.reg r with stage := .dumping, slot := n }) :=
    State.setReg_frame.after setRecord_frame.wider
  refine ⟨(setRecord u (s.reg r).recNo 331 330 n).setReg r { s.reg r with stage := .dumping, slot := n }, ?_, ?_⟩
  · rw [hu, hx]
    refine congrArg Host.Outcome.next ((if_neg hin).trans ?_)
    dsimp only
    rw [hslot, hfree]
    rfl
  · have hmem : u.mem = s.mem := gu.mem (by decide)
    have hro : u.ro = s.ro := gu.ro (by decide)
    rw [g.get_dump (by decide), hdump, setDump_dump_same, setReg_reg_same, g.mem (by decide), g.ro (by decide), hmem, hro]
    refine ⟨hheld, hvalid, hreg, hrec, hinc, hgaps, rfl, rfl, fun m hm => ?_, rfl, rfl⟩
    rw [g.get_dump (by decide), hdump, setDump_dump_other _ _ hm]

/-- A complete dump is VALID, and the region's reset starts (R353, R356). -/
theorem dumpComplete_spec {r : Nat} (hr : r < 4) (hst : (s.reg r).stage = .dumping) (hreg : (s.dump (s.reg r).slot).region = r)
    (hrec : (s.dump (s.reg r).slot).recNo = (s.reg r).recNo) : ∃ t, exec (.dumpComplete r) s = .next t ∧
    (t.dump (s.reg r).slot).valid = true ∧ (t.dump (s.reg r).slot).incomplete = (s.dump (s.reg r).slot).gaps ∧
    (t.reg r).stage = .reset ∧ (t.reg r).st = (s.reg r).st ∧ t.mem = s.mem := by
  have hin : ¬ (decide (r ≥ 4) || (s.reg r).stage != .dumping) = true := by
    rw [decide_eq_false (by omega), hst]
    decide
  obtain ⟨x, hx⟩ : ∃ x, dumpBytes s r (s.dump (s.reg r).slot) = x := ⟨_, rfl⟩
  have gx : Frame [.free] s x.2 := hx ▸ dumpBytes_frame
  obtain ⟨y, hy, hvalid, hinc⟩ : ∃ y : Dump, { s.dump (s.reg r).slot with
      valid := true, incomplete := (s.dump (s.reg r).slot).gaps, bytes := x.1 } = y ∧ y.valid = true ∧
      y.incomplete = (s.dump (s.reg r).slot).gaps := ⟨_, rfl, rfl, rfl⟩
  obtain ⟨u, hu, gu, hdump⟩ : ∃ u, setRecord (x.2.setDump (s.reg r).slot y) (s.reg r).recNo 329 329 1 = u ∧ Frame [.free, .dumps, .log] s u
      ∧
      u.dump (s.reg r).slot = y := by
    have gl : Frame [.log] (x.2.setDump (s.reg r).slot y) (setRecord (x.2.setDump (s.reg r).slot y) (s.reg r).recNo 329 329 1) :=
      setRecord_frame
    refine ⟨_, rfl, gl.wider.trans (State.setDump_frame.after gx.wider), ?_⟩
    rw [gl.get_dump (by decide), setDump_dump_same]
  have g : Frame [.ro, .fab, .out] (u.setReg r { s.reg r with stage := .reset })
      (sendHold (holdPorts ((u.setReg r { s.reg r with stage := .reset }).count (kRegCnt r 1) 1) r) r) :=
    sendHold_frame.after (holdPorts_frame.after State.count_frame.wider)
  refine ⟨sendHold (holdPorts ((u.setReg r { s.reg r with stage := .reset }).count (kRegCnt r 1) 1) r) r, ?_, ?_⟩
  · rw [← hu, ← hy, ← hx]
    refine congrArg Host.Outcome.next ((if_neg hin).trans ?_)
    dsimp only
    rw [if_pos ⟨hreg, hrec⟩]
  · rw [g.get_dump (by decide), State.setReg_frame.get_dump (by decide), hdump, g.get_reg (by decide), setReg_reg_same, g.mem (by decide),
      State.setReg_frame.mem (by decide), gu.mem (by decide)]
    exact ⟨hvalid, hinc, rfl, rfl, rfl⟩

/-! ## Region resets and chip warm resets -/

/-- A region reset of which no step and no domain is affected. -/
theorem regionResetComplete_spec {r : Nat} (hr : r < 4) (hstage : (s.reg r).stage = .reset) (hst : (s.reg r).st = .resetting)
    (hchip : inChipReset s = false) (haff : (s.reg r).affected = 0) (hord : ∀ d, d < 16 → (s.stp d).order = .none) :
    ∃ t, exec (.regionResetComplete r) s = .next t ∧
    (t.reg r).st = .online ∧ (∀ b, b / 6 = r → (t.blk b).bank0 = bankEmpty ∧ (t.blk b).bank1 = bankEmpty ∧
      (t.blk b).commits = (s.blk b).commits) ∧
    (∀ e ∈ t.binds, keyCell e.1 / 96 ≠ r) ∧ (∀ q, q ≠ r → (t.reg q).st = (s.reg q).st) ∧
    ∀ page, t.dir page = s.dir page ∨ t.dir page = { s.dir page with mig := false } := by
  have hin : ¬ (decide (r ≥ 4) || (s.reg r).stage != .reset || (s.reg r).st != .resetting || inChipReset s) = true := by
    rw [decide_eq_false (by omega), hstage, hst, hchip]
    decide
  have hup := regionUp_up s r
  have gup : Frame _ s (regionUp s r) := regionUp_frame
  have hreplay : replay (regionUp s r) [r] 0 (s.reg r).cut = regionUp s r :=
    replay_none _ _ _ (fun d _ hbit => absurd hbit (by unfold mbit; simp)) fun d hd => by
      rw [gup.get_stp (by decide)]
      exact hord d hd
  have g : Frame [.ctxs] (regionUp s r) (resumeCtxs (regionUp s r) (· == r)) := resumeCtxs_frame
  refine ⟨resumeCtxs (regionUp s r) (· == r), ?_, ?_⟩
  · refine congrArg Host.Outcome.next ((if_neg hin).trans ?_)
    dsimp only
    rw [haff, hreplay]
  · rw [g.get_reg (by decide), g.binds (by decide)]
    refine ⟨hup.st, fun b hb => ?_, fun e he => (hup.binds e he).2, fun q hq => ?_, fun page => ?_⟩
    · rw [g.get_blk (by decide)]
      exact hup.blks b hb
    · rw [g.get_reg (by decide), hup.other q hq]
    · rw [g.get_dir (by decide)]
      exact hup.dirs page

/-- The record of a chip warm reset names its cause. -/
theorem chipReset_cause (src dumpOf : Nat) (f : Fact) (hin : inChipReset s = false) :
    bits (recordAt (chipReset s src dumpOf f) (chipReset s src dumpOf f).flt.head) 409 402 = f.cause % 256 := by
  obtain ⟨_, hcause, _⟩ := chipFault_facts s src dumpOf f hin
  unfold chipReset
  rw [hin, if_neg Bool.false_ne_true]
  have g (l : List Nat) : Frame [.out] (chipFault s src dumpOf f) (l.foldl sendHold (chipFault s src dumpOf f)) :=
    State.each_frame fun _ _ => sendHold_frame
  rw [(g _).head (by decide), (g _).get_recordAt (by decide)]
  exact hcause

/-- A region reset that overruns leads to a chip warm reset. -/
theorem regionResetOverrun_spec {r : Nat} (hr : r < 4) (hst : (s.reg r).st = .resetting) (hchip : inChipReset s = false) :
    ∃ t, exec (.regionResetOverrun r) s = .next t ∧ t.flt.chip.isSome = true ∧ bits (recordAt t t.flt.head) 409 402 = 0x0B ∧
    ∀ q, q < 4 → (t.reg q).st = .resetting := by
  have hin : ¬ (decide (r ≥ 4) || (s.reg r).st != .resetting || inChipReset s) = true := by
    rw [decide_eq_false (by omega), hst, hchip]
    decide
  obtain ⟨f, hf, hcause⟩ : ∃ f : Fact, f = { level := 3, action := 4, cause := 0x0B, region := r } ∧ f.cause = 0x0B := ⟨_, rfl, rfl⟩
  obtain ⟨u, hu, gu⟩ : ∃ u, (s.count (kChipCnt 1) 1).setReg r { s.reg r with st := .failed } = u ∧ Frame [.ro, .regs] s u :=
    ⟨_, rfl, State.setReg_frame.after State.count_frame.wider⟩
  have hchip' : inChipReset u = false := by
    unfold inChipReset at hchip ⊢
    rw [gu.chip (by decide)]
    exact hchip
  have hrun : exec (.regionResetOverrun r) s = .next (chipReset u 2 r f) := by
    rw [← hu, hf]
    exact congrArg Host.Outcome.next (if_neg hin)
  have hnone : u.flt.chip = none := by
    unfold inChipReset at hchip'
    exact Option.isSome_eq_false_iff.1 hchip' |> Option.isNone_iff_eq_none.1
  obtain ⟨hsome, hregs, _⟩ := chipReset_spec (s := u) 2 r f hnone
  exact ⟨_, hrun, hsome, (chipReset_cause 2 r f hchip').trans (by rw [hcause]), hregs⟩

/-- The four regions leave reset. -/
theorem regionsUp_spec (s : State) : (∀ r, r < 4 → (([0, 1, 2, 3].foldl regionUp s).reg r).st = .online) ∧
    (∀ e ∈ ([0, 1, 2, 3].foldl regionUp s).binds, 384 ≤ keyCell e.1) ∧ SameDoms s ([0, 1, 2, 3].foldl regionUp s) := by
  have hfold : [0, 1, 2, 3].foldl regionUp s = regionUp (regionUp (regionUp (regionUp s 0) 1) 2) 3 := by
    simp only [List.foldl_cons, List.foldl_nil]
  rw [hfold]
  have h0 := regionUp_up s 0
  generalize regionUp s 0 = s1 at h0 ⊢
  have h1 := regionUp_up s1 1
  generalize regionUp s1 1 = s2 at h1 ⊢
  have h2 := regionUp_up s2 2
  generalize regionUp s2 2 = s3 at h2 ⊢
  have h3 := regionUp_up s3 3
  generalize regionUp s3 3 = s4 at h3 ⊢
  refine ⟨fun r hr => ?_, fun e he => ?_, h3.doms.after (h2.doms.after (h1.doms.after h0.doms))⟩
  · obtain rfl | rfl | rfl | rfl : r = 0 ∨ r = 1 ∨ r = 2 ∨ r = 3 := by omega
    · exact (congrArg Reg.st ((h3.other 0 (by decide)).trans ((h2.other 0 (by decide)).trans (h1.other 0 (by decide))))).trans h0.st
    · exact (congrArg Reg.st ((h3.other 1 (by decide)).trans (h2.other 1 (by decide)))).trans h1.st
    · exact (congrArg Reg.st (h3.other 2 (by decide))).trans h2.st
    · exact h3.st
  · obtain ⟨he2, hne3⟩ := h3.binds e he
    obtain ⟨he1, hne2⟩ := h2.binds e he2
    obtain ⟨he0, hne1⟩ := h1.binds e he1
    obtain ⟨_, hne0⟩ := h0.binds e he0
    omega

/-- A chip warm reset that finds no domain and no held write. -/
theorem chipWarmResetComplete_spec {c : ChipRst} (hchip : s.flt.chip = some c) (hover : c.overrun = false) (href : s.pwr.refclk = true)
    (hstage : ∀ r, r < 4 → (s.reg r).stage = .reset) (hheld : s.cp.heldBar = [])
    (hfree : ∀ d, d < 16 → (s.dom d).st = .free ∧ (s.stp d).order = .none) : ∃ t, exec (.chipWarmResetComplete []) s = .next t ∧
    t.flt.chip = none ∧ (∀ r, r < 4 → (t.reg r).st = .online) ∧ t.binds.all (fun e => keyCell e.1 ≥ 384) = true := by
  have hin : ¬ (c.overrun || !s.pwr.refclk || (List.range 4).any (fun r => (s.reg r).stage != .reset)) = true := by
    rw [hover, href, Bool.or_eq_true, List.any_eq_true]
    rintro (h | ⟨r, hr, hne⟩)
    · exact absurd h (by decide)
    · exact bne_iff_ne.1 hne (hstage r (List.mem_range.1 hr))
  obtain ⟨s0, hs0, g0⟩ : ∃ s0, bootCells s [] = s0 ∧ Frame [.ro, .blks] s s0 := ⟨_, rfl, bootCells_frame⟩
  obtain ⟨s1, hs1, g1, hnone⟩ : ∃ s1 : State, { s0 with flt := { s0.flt with chip := none } } = s1 ∧
      Frame [.ro, .blks, .chip] s s1 ∧ s1.flt.chip = none := ⟨_, rfl, Frame.put g0.wider, rfl⟩
  obtain ⟨hon, hbinds, hdoms⟩ := regionsUp_spec s1
  obtain ⟨s2, hs2, g2⟩ : ∃ s2, loadUnit ([0, 1, 2, 3].foldl regionUp s1) 4 = s2 ∧ Frame [.mgt] ([0, 1, 2, 3].foldl regionUp s1) s2 :=
    ⟨_, rfl, loadUnit_frame⟩
  have gup : Frame _ s1 ([0, 1, 2, 3].foldl regionUp s1) := State.each_frame fun _ _ => regionUp_frame
  have hreplay : replay s2 [0, 1, 2, 3] 0xFFFF c.cut = s2 := by
    refine replay_none _ _ _ (fun d hd _ => ?_) fun d hd => ?_
    · rw [g2.get_dom (by decide), hdoms.dom, g1.get_dom (by decide)]
      exact fun h => absurd ((hfree d hd).1.symm.trans h) (by decide)
    · rw [g2.get_stp (by decide), gup.get_stp (by decide), g1.get_stp (by decide)]
      exact (hfree d hd).2
  have g : Frame [.ctxs] s2 (resumeCtxs s2 fun _ => true) := resumeCtxs_frame
  have happly : applyAllHeld (resumeCtxs s2 fun _ => true) = resumeCtxs s2 fun _ => true := by
    refine applyAllHeld_none ?_
    rw [g.heldBar (by decide), g2.heldBar (by decide), gup.heldBar (by decide), g1.heldBar (by decide)]
    exact hheld
  refine ⟨resumeCtxs s2 fun _ => true, ?_, ?_, fun r hr => ?_, ?_⟩
  · show execChipWarmResetComplete [] s = _
    unfold execChipWarmResetComplete
    rw [hchip]
    dsimp only
    rw [if_neg hin, hs0, hs1, hs2, hreplay, happly]
  · rw [g.chip (by decide), g2.chip (by decide), gup.chip (by decide)]
    exact hnone
  · rw [g.get_reg (by decide), g2.get_reg (by decide)]
    exact hon r hr
  · rw [g.binds (by decide), g2.binds (by decide), List.all_eq_true]
    exact fun e he => decide_eq_true (hbinds e he)

/-- A chip warm reset that overruns: the module waits for a cold boot. -/
theorem chipWarmResetOverrun_spec {c : ChipRst} (hchip : s.flt.chip = some c) (hover : c.overrun = false) (hheld : s.cp.heldBar = []) :
    ∃ t, exec .chipWarmResetOverrun s = .next t ∧ t.flt.chip = some { c with overrun := true } ∧ t.pwr = { s.pwr with coldWait := true } ∧
    bits (recordAt t t.flt.head) 409 402 = 0x0D ∧ t.mem = s.mem := by
  obtain ⟨f, hf, hcause⟩ : ∃ f : Fact, f = { level := 3, action := 8, cause := 0x0D, doms := c.affected } ∧ f.cause = 0x0D := ⟨_, rfl, rfl⟩
  obtain ⟨u, hu⟩ : ∃ u, logFault s f = u := ⟨_, rfl⟩
  have gu : Frame [.ro, .log, .head] s u := hu ▸ logFault_frame
  have hrec : recordAt u u.flt.head = recordOf s (s.flt.head + 1) f := by
    rw [← hu, logFault_newest]
  obtain ⟨t, ht, hchip', hpwr, hhead, hlog, hmem, hbar⟩ : ∃ t : State, t = { u with
      flt := { u.flt with chip := some { c with overrun := true } }, pwr := { u.pwr with coldWait := true } } ∧
      t.flt.chip = some { c with overrun := true } ∧ t.pwr = { u.pwr with coldWait := true } ∧ t.flt.head = u.flt.head ∧
      (∀ n, recordAt t n = recordAt u n) ∧ t.mem = u.mem ∧ t.cp.heldBar = u.cp.heldBar :=
    ⟨_, rfl, rfl, rfl, rfl, fun _ => rfl, rfl, rfl⟩
  have happly : applyAllHeld t = t := applyAllHeld_none (hbar.trans ((gu.heldBar (by decide)).trans hheld))
  refine ⟨t, ?_, hchip', hpwr.trans (by rw [gu.pwr (by decide)]), ?_, hmem.trans (gu.mem (by decide))⟩
  · show execChipWarmResetOverrun s = _
    unfold execChipWarmResetOverrun
    rw [hchip]
    dsimp only
    rw [hover, if_neg Bool.false_ne_true, ← hf, hu, ← ht, happly]
  · rw [hhead, hlog, hrec, recordOf_cause, hcause]

/-- Settles O53: each row by the state it answers. -/
theorem dumpsAndResetsProceed : Obligations.DumpsAndResetsProceed := by
  unfold Obligations.DumpsAndResetsProceed
  exact ⟨fun s r inc n => dumpStart_spec, fun s r => dumpComplete_spec, fun s r => regionResetComplete_spec,
    fun s r => regionResetOverrun_spec, fun s c => chipWarmResetComplete_spec, fun s c => chipWarmResetOverrun_spec⟩

end Sys2Proof.Machine


namespace Sys2Proof.Machine

set_option Elab.async false

variable {s t : State}

theorem State.ro?_congr (h : t.ro = s.ro) (k : Nat) : t.ro? k = s.ro? k := by
  unfold State.ro?
  rw [h]

/-! ## Ports that train -/

/-- Lanes set to 0 one after another, each in its own entry. -/
theorem setLanes_frame (p : Nat) (l : List Nat) (s : State) : Frame [.ro] s (l.foldl (fun s l => s.setRo (laneKey (4 * p + l)) 0) s) :=
  State.each_frame fun _ _ => State.setRo_frame

/-- The lanes of a port that are RETIRED. -/
def retiredLanes (s : State) (p : Nat) : List Nat := (List.range 4).filter fun l => s.ro? (laneKey (4 * p + l)) == 2

theorem retiredLanes_none {p : Nat} (h : ∀ l, l < 4 → s.ro? (laneKey (4 * p + l)) ≠ 2) : retiredLanes s p = [] :=
  List.filter_eq_nil_iff.2 fun l hl he => h l (List.mem_range.1 hl) (beq_iff_eq.1 he)

theorem retiredLanes_one {p l : Nat} (hl : l < 4) (h : s.ro? (laneKey (4 * p + l)) = 2)
    (hother : ∀ m, m < 4 → m ≠ l → s.ro? (laneKey (4 * p + m)) ≠ 2) : retiredLanes s p = [l] := by
  have hf : retiredLanes s p = (List.range 4).filter (· == l) := by
    refine List.filter_congr fun m hm => ?_
    by_cases hml : m = l
    · subst hml
      rw [h, beq_self_eq_true, beq_self_eq_true]
    · rw [beq_false_of_ne (hother m (List.mem_range.1 hm) hml), beq_false_of_ne hml]
  rw [hf]
  obtain rfl | rfl | rfl | rfl : l = 0 ∨ l = 1 ∨ l = 2 ∨ l = 3 := by omega
  all_goals rfl

/-- A port that has trained: four lanes, or three where one is RETIRED (R283). -/
theorem portTrained_spec {p : Nat} (hst : (s.port p).st = .training) (hal : alive s (regOfPort p) = true) :
    ∃ t, exec (.portTrained p) s = .next t ∧
    ((∀ l, l < 4 → s.ro? (laneKey (4 * p + l)) ≠ 2) → (t.port p).st = .up4) ∧
    (∀ l, l < 4 → s.ro? (laneKey (4 * p + l)) = 2 → (∀ m, m < 4 → m ≠ l → s.ro? (laneKey (4 * p + m)) ≠ 2) →
      (t.port p).st = .up3 ∧ (t.port p).lost = l) ∧ t.mem = s.mem ∧ ∀ q, q ≠ p → t.port q = s.port q := by
  have hin : ¬ ((s.port p).st != .training || !alive s (regOfPort p)) = true := by
    rw [hst, hal]
    decide
  obtain ⟨u, hu, gu⟩ : ∃ u, ((List.range 4).filter (fun l => !(retiredLanes s p).contains l)).foldl
      (fun s l => s.setRo (laneKey (4 * p + l)) 0) s = u ∧ Frame [.ro] s u := ⟨_, rfl, setLanes_frame ..⟩
  refine ⟨u.setPort p { freshLink (s.port p) with
    st := if (retiredLanes s p).isEmpty then .up4 else if (retiredLanes s p).length = 1 then .up3 else .down
    lost := (retiredLanes s p).headD 4 }, ?_, ?_⟩
  · rw [← hu]
    exact congrArg Host.Outcome.next (if_neg hin)
  rw [setPort_port, if_pos rfl, State.setPort_frame.mem (by decide), gu.mem (by decide)]
  refine ⟨fun h => ?_, fun l hl h hother => ?_, rfl, fun q hq => ?_⟩
  · dsimp only
    rw [retiredLanes_none h]
    rfl
  · dsimp only
    rw [retiredLanes_one hl h hother]
    exact ⟨rfl, rfl⟩
  · rw [setPort_port, if_neg hq, gu.get_port (by decide)]

/-! ## Lane commands -/

theorem laneKey_ne_result {l : Nat} (h : l < 256) : laneKey l ≠ key 0x5032 1 := by
  unfold laneKey key addrKey
  omega

/-- A lane change that is announced: six frames remain after the one that announces it. -/
theorem announce_spec (s : State) (p lane : Nat) (three : Bool) : ((announce s p lane three).port p).lreq = some (lane, three) ∧
    ((announce s p lane three).port p).lcnt = 6 ∧ (announce s p lane three).fab.lane = s.fab.lane ∧ (announce s p lane three).ro = s.ro :=
        by
  have g (u : State) : Frame [.out, .fab] u (sendControl u p) := sendControl_frame
  have hlane (u : State) : (sendControl u p).fab.lane = u.fab.lane := rfl
  unfold announce
  rw [sendControl_port, if_pos rfl, setPort_port, if_pos rfl, hlane, (g _).ro (by decide)]
  exact ⟨rfl, rfl, rfl, rfl⟩

/-- Whether a lane command is accepted (R282): a port in UP4 with no change pending, no other command under way, and a peer that is ready.
    -/
def laneAccepted (s : State) (p : Nat) (ready : Bool) : Bool :=
  (s.port p).st == .up4 && !(s.port p).lreq.isSome && !s.fab.lane.isSome && ready && portUp s p

theorem laneCommand_spec {op v : Nat} (ready : Bool) (hcmd : laneCmd s op = some v) :
    (laneAccepted s (v % 256 / 4) ready = true → (laneCommand s op ready).ro? (key 0x5032 1) = 1 ∧
      ((laneCommand s op ready).port (v % 256 / 4)).lreq = some (v % 256 % 4, true) ∧
      ((laneCommand s op ready).port (v % 256 / 4)).lcnt = 6 ∧ (laneCommand s op ready).fab.lane = some { op := op, lane := v % 256 }) ∧
    (laneAccepted s (v % 256 / 4) ready = false → (laneCommand s op ready).ro? (key 0x5032 1) = 4 ∧ (laneCommand s op ready).fab =
        s.fab) := by
  have hcond : ((s.port (v % 256 / 4)).st != .up4 || (s.port (v % 256 / 4)).lreq.isSome || s.fab.lane.isSome || !ready ||
      !portUp s (v % 256 / 4)) = !laneAccepted s (v % 256 / 4) ready := by
    unfold laneAccepted
    simp only [Bool.not_and, Bool.not_not, bne]
  unfold laneCommand
  rw [hcmd]
  dsimp only
  rw [hcond]
  refine ⟨fun h => ?_, fun h => ?_⟩
  · rw [h, if_neg (by decide)]
    obtain ⟨hreq, hcnt, hlane, hro⟩ := announce_spec (laneResult { s with
      mgt := { s.mgt with cmdPend := s.mgt.cmdPend.erase (key 0x5032 0, v) }
      fab := { s.fab with lane := some { op := op, lane := v % 256 } } } 1) (v % 256 / 4) (v % 256 % 4) true
    refine ⟨(State.ro?_congr hro _).trans (setRo_ro_same _ _ _), hreq, hcnt, hlane⟩
  · rw [h, if_pos (by decide)]
    exact ⟨setRo_ro_same _ _ _, rfl⟩

/-! ## Lane changes -/

/-- The frames that a change still counts leave the port's state, the lane command and the entries. -/
theorem countDown_spec (s : State) (p : Nat) :
    (countDown s p).fab.lane = s.fab.lane ∧ (countDown s p).ro = s.ro ∧ (countDown s p).mem = s.mem := by
  unfold countDown
  refine foldl_inv (P := fun u : State => u.fab.lane = s.fab.lane ∧ u.ro = s.ro ∧ u.mem = s.mem) ⟨rfl, rfl, rfl⟩ fun u _ h => ?_
  exact ⟨h.1, (sendControl_frame.ro (by decide)).trans h.2.1, (sendControl_frame.mem (by decide)).trans h.2.2⟩

theorem endLane_kept (s : State) (g : Nat) : (endLane s g).fab.ports = s.fab.ports ∧ (endLane s g).ro = s.ro ∧ (endLane s g).mem = s.mem :=
    by
  unfold endLane
  split
  · split <;> exact ⟨rfl, rfl, rfl⟩
  · exact ⟨rfl, rfl, rfl⟩

/-- The port of a change, and the memory, as both ends have switched. -/
theorem switchLane_port (s : State) (p lane : Nat) (three : Bool) : (switchLane s p lane three).port p =
    { s.port p with st := if three then .up3 else .up4, lost := if three then lane else 4, lreq := none, lcnt := 0 } ∧
    (switchLane s p lane three).mem = s.mem := by
  obtain ⟨x, hx⟩ : ∃ x : Port, { s.port p with
      st := if three then .up3 else .up4, lost := if three then lane else 4, lreq := none, lcnt := 0 } = x := ⟨_, rfl⟩
  have h1 : (s.setPort p x).port p = x ∧ (s.setPort p x).mem = s.mem := ⟨by rw [setPort_port, if_pos rfl], rfl⟩
  have hro (u : State) (k v : Nat) (h : u.port p = x ∧ u.mem = s.mem) : (u.setRo k v).port p = x ∧ (u.setRo k v).mem = s.mem := h
  have hend (u : State) (g : Nat) (h : u.port p = x ∧ u.mem = s.mem) : (endLane u g).port p = x ∧ (endLane u g).mem = s.mem := by
    obtain ⟨hports, _, hmem⟩ := endLane_kept u g
    exact ⟨(congrArg (spGet portDflt · p) hports).trans h.1, hmem.trans h.2⟩
  unfold switchLane
  dsimp only
  rw [hx]
  split
  · split
    · split
      · exact hend _ _ (hro _ _ _ (hro _ _ _ h1))
      · exact hro _ _ _ h1
    · exact hro _ _ _ h1
  · split
    · split
      · exact hro _ _ _ h1
      · split
        · exact hro _ _ _ h1
        · exact hend _ _ (hro _ _ _ (hro _ _ _ h1))
    · exact hro _ _ _ h1

/-- The lane's entry as both ends have switched: in use again, or RETIRED where no lane command is under way. -/
theorem switchLane_ro (s : State) (p lane : Nat) (three : Bool) (hg : 4 * p + lane < 256) :
    (three = false → (switchLane s p lane three).ro? (laneKey (4 * p + lane)) = 0) ∧
    (three = true → s.fab.lane = none → (switchLane s p lane three).ro? (laneKey (4 * p + lane)) = 2) := by
  have hresult (u : State) (v : Nat) : (laneResult u v).ro? (laneKey (4 * p + lane)) = u.ro? (laneKey (4 * p + lane)) :=
    setRo_ro_other _ _ (laneKey_ne_result hg)
  have hend (u : State) (k : Nat) : (endLane u k).ro? (laneKey (4 * p + lane)) = u.ro? (laneKey (4 * p + lane)) := by
    obtain ⟨_, hro, _⟩ := endLane_kept u k
    exact State.ro?_congr hro _
  refine ⟨fun h => ?_, fun h hnone => ?_⟩
  · subst h
    unfold switchLane
    dsimp only
    rw [if_pos (by decide)]
    split
    · split
      · rw [hend, hresult, setRo_ro_same]
      · exact setRo_ro_same _ _ _
    · exact setRo_ro_same _ _ _
  · subst h
    unfold switchLane
    dsimp only
    rw [if_neg (by decide), hnone]
    exact setRo_ro_same _ _ _

/-- Both ends switch. -/
theorem laneChange_spec {p lane : Nat} {three : Bool} (hp : p < 8) (hup : portUp s p = true) (hlane : lane < 4)
    (hreq : (s.port p).lreq = some (lane, three)) : ∃ t, exec (.laneChange p) s = .next t ∧
    (t.port p).st = (if three then .up3 else .up4) ∧ (t.port p).lreq = none ∧
    (three = false → t.ro? (laneKey (4 * p + lane)) = 0) ∧ (three = true → s.fab.lane = none → t.ro? (laneKey (4 * p + lane)) = 2) ∧
    t.mem = s.mem := by
  obtain ⟨hfab, _, hmem⟩ := countDown_spec s p
  obtain ⟨hport, hmem2⟩ := switchLane_port (countDown s p) p lane three
  obtain ⟨hfour, hthree⟩ := switchLane_ro (countDown s p) p lane three (by omega)
  rw [hfab] at hthree
  refine ⟨switchLane (countDown s p) p lane three, ?_, ?_⟩
  · show execLaneChange p s = _
    unfold execLaneChange
    rw [hup, hreq]
    rfl
  · rw [hport]
    exact ⟨rfl, rfl, hfour, hthree, hmem2.trans hmem⟩

/-- A recalibration ends: back to four lanes by a second change, or FAILED with the lane RETIRED. -/
theorem laneRecalDone_spec {p : Nat} {o : LaneOp} (ho : s.fab.lane = some o) (hop : o.op = 1) (hlane : o.lane < 32) (hp : o.lane / 4 = p)
    (hreq : (s.port p).lreq = none) (hro : s.ro? (laneKey o.lane) = 1) :
    (∃ t, exec (.laneRecalDone p true) s = .next t ∧ (t.port p).lreq = some (o.lane % 4, false)) ∧
    (∃ t, exec (.laneRecalDone p false) s = .next t ∧ t.ro? (key 0x5032 1) = 3 ∧ t.ro? (laneKey o.lane) = 2 ∧ t.fab.lane = none) := by
  have hin : ¬ (o.op ≠ 1 ∨ o.lane / 4 ≠ p ∨ (s.port p).lreq.isSome = true ∨ s.ro? (laneKey o.lane) ≠ 1) := by
    rw [hop, hp, hreq, hro]
    simp
  have hrun (ok : Bool) : exec (.laneRecalDone p ok) s = .next (if ok then announce s p (o.lane % 4) false
      else laneResult ({ s with fab := { s.fab with lane := none } }.setRo (laneKey o.lane) 2) 3) := by
    show execLaneRecalDone p ok s = _
    unfold execLaneRecalDone
    rw [ho]
    dsimp only
    rw [if_neg hin]
  refine ⟨⟨_, hrun true, (announce_spec ..).1⟩, ⟨_, hrun false, setRo_ro_same _ _ _, ?_, rfl⟩⟩
  exact (setRo_ro_other _ _ (laneKey_ne_result (by omega))).trans (setRo_ro_same _ _ _)

/-! ## Lanes lost -/

/-- A lane that is RETIRED stays so where a change at its port is cut short. -/
theorem laneCut_ro {p l : Nat} (hl : l < 256) (hro : s.ro? (laneKey l) = 2) : (laneCut s p).ro? (laneKey l) = 2 := by
  have hresult (u : State) (v : Nat) : (laneResult u v).ro? (laneKey l) = u.ro? (laneKey l) := setRo_ro_other _ _ (laneKey_ne_result hl)
  unfold laneCut
  dsimp only
  split
  · split
    · exact hro
    · split
      · exact (hresult _ _).trans hro
      · rename_i o _ _ _
        rw [hresult]
        by_cases ho : laneKey l = laneKey o.lane
        · rw [ho]
          exact setRo_ro_same _ _ _
        · rw [setRo_ro_other _ _ ho]
          exact hro
  · exact hro

theorem laneLoss_in {lane : Nat} (hl : lane < 32) (hup : dataUp s = true) :
    ¬ (decide (lane ≥ 32) || !(s.pwr.rails == .up && s.pwr.trained && !s.pwr.coldWait)) = true := by
  unfold dataUp at hup
  simp only [Bool.and_eq_true] at hup
  obtain ⟨⟨⟨hrails, htrained⟩, hcold⟩, _⟩ := hup
  rw [decide_eq_false (by omega), hrails, htrained, hcold]
  decide

/-- A port that loses one of four lanes goes on with three. -/
theorem laneLoss_four {lane : Nat} (hl : lane < 32) (hup : dataUp s = true) (hst : (s.port (lane / 4)).st = .up4) :
    ∃ t, exec (.laneLoss lane) s = .next t ∧ (t.port (lane / 4)).st = .up3 ∧ (t.port (lane / 4)).lost = lane % 4 ∧
    (t.port (lane / 4)).lreq = none ∧ t.ro? (laneKey lane) = 2 := by
  have hcut := laneCut_port (s.setRo (laneKey lane) 2) (lane / 4)
  refine ⟨(laneCut (s.setRo (laneKey lane) 2) (lane / 4)).setPort (lane / 4)
      { (laneCut (s.setRo (laneKey lane) 2) (lane / 4)).port (lane / 4) with
    st := .up3, lost := lane % 4 }, congrArg Host.Outcome.next ((if_neg (laneLoss_in hl hup)).trans (if_pos (by rw [hst]; rfl))), ?_⟩
  rw [setPort_port, if_pos rfl, hcut, State.setPort_frame.get_ro (by decide)]
  exact ⟨rfl, rfl, rfl, laneCut_ro (by omega) (setRo_ro_same _ _ _)⟩

/-- One that loses a second lane is DOWN, with a port fault. -/
theorem laneLoss_three {lane : Nat} (hl : lane < 32) (hup : dataUp s = true) (hst : (s.port (lane / 4)).st = .up3)
    (hlost : (s.port (lane / 4)).lost ≠ lane % 4) (hal : alive s (regOfPort (lane / 4)) = true) :
    ∃ t, exec (.laneLoss lane) s = .next t ∧
    (t.port (lane / 4)).st = .down ∧ (t.port (lane / 4)).tx = [] ∧ (t.reg (regOfPort (lane / 4))).st = .resetting ∧
    bits (recordAt t t.flt.head) 409 402 = 0x09 := by
  obtain ⟨f, hf, hcause⟩ : ∃ f : Fact, f = { level := 2, action := 3, cause := 0x09, detail := lane } ∧ f.cause = 0x09 := ⟨_, rfl, rfl⟩
  obtain ⟨s1, hs1, g1⟩ : ∃ s1, laneCut (s.setRo (laneKey lane) 2) (lane / 4) = s1 ∧ Frame [.ro, .fab] s s1 :=
    ⟨_, rfl, laneCut_frame.after State.setRo_frame.wider⟩
  obtain ⟨s2, hs2, g2, hst2⟩ : ∃ s2, s1.setPort (lane / 4) { s1.port (lane / 4) with st := .down } = s2 ∧ Frame [.fab] s1 s2 ∧
      (s2.port (lane / 4)).st = .down := ⟨_, rfl, State.setPort_frame, by rw [setPort_port, if_pos rfl]⟩
  obtain ⟨s3, hs3, g3, hst3, htx3⟩ : ∃ s3, dropQueue s2 (lane / 4) = s3 ∧ Frame [.ro, .doms, .ctxs, .ress, .fab] s2 s3 ∧
      (s3.port (lane / 4)).st = .down ∧ (s3.port (lane / 4)).tx = [] := by
    have gq (l : List TxPkt) (u : State) : Frame [.ro, .doms, .ctxs, .ress] u
        (l.foldl (fun s t => exportEnd (s.count (kPort (if t.src ≥ 2 ^ 60 then t.src - 2 ^ 60 else lane / 4) 8) 1) t) u) :=
      State.each_frame fun _ _ => exportEnd_frame.after State.count_frame.wider
    have hq : (dropQueue s2 (lane / 4)).port (lane / 4) = { s2.port (lane / 4) with tx := [] } := by
      unfold dropQueue
      dsimp only
      rw [(gq _ _).get_port (by decide), setPort_port, if_pos rfl]
    refine ⟨_, rfl, dropQueue_frame, ?_, ?_⟩
    · rw [hq]; exact hst2
    · rw [hq]
  have g : Frame [.ro, .doms, .ctxs, .ress, .fab] s s3 := g3.trans (g2.wider.trans g1.wider)
  have hk := regionFault_killed (s := s) (u := s3) (r := regOfPort (lane / 4)) 1 f g (by decide) (by decide) (by decide)
    (by unfold regOfPort; omega) (inChipReset_of_dataUp hup) hal
  have hcut := regionFault_cut s3 (regOfPort (lane / 4)) 1 f
  have hrun : exec (.laneLoss lane) s = .next (regionFault s3 (regOfPort (lane / 4)) 1 f) := by
    have hnot : ¬ ((s.port (lane / 4)).st == .up4) = true := by rw [hst]; decide
    have hyes : ((s.port (lane / 4)).st == .up3 && (s.port (lane / 4)).lost != lane % 4) = true := by rw [hst, bne_iff_ne.2 hlost]; rfl
    rw [← hs3, ← hs2, ← hs1, hf]
    exact congrArg Host.Outcome.next ((if_neg (laneLoss_in hl hup)).trans ((if_neg hnot).trans (if_pos hyes)))
  refine ⟨_, hrun, ?_, hcut.tx _ htx3, hk.st, hk.code.trans (by rw [hcause])⟩
  rw [hcut.port]
  exact hst3

/-- Settles O46: each row by the state it answers. -/
theorem lanesChange : Obligations.LanesChange := by
  unfold Obligations.LanesChange
  refine ⟨fun s p => portTrained_spec, fun s op v ready hop hcmd => ?_, fun s p lane three => laneChange_spec, fun s p o =>
      laneRecalDone_spec,
    fun s lane => laneLoss_four, fun s lane hl hup hst hlost hal _ => laneLoss_three hl hup hst hlost hal⟩
  have haccept (u : State) (p : Nat) (b : Bool) : laneAccepted u p b = true ↔
      (u.port p).st = .up4 ∧ (u.port p).lreq = none ∧ u.fab.lane = none ∧ portUp u p = true ∧ b = true := by
    unfold laneAccepted
    simp only [Bool.and_eq_true, beq_iff_eq, Bool.not_eq_true', Option.isSome_eq_false_iff, Option.isNone_iff_eq_none]
    constructor
    · rintro ⟨⟨⟨⟨h1, h2⟩, h3⟩, h4⟩, h5⟩
      exact ⟨h1, h2, h3, h5, h4⟩
    · rintro ⟨h1, h2, h3, h5, h4⟩
      exact ⟨⟨⟨⟨h1, h2⟩, h3⟩, h4⟩, h5⟩
  rcases hop with rfl | rfl
  · obtain ⟨hyes, hno⟩ := laneCommand_spec ready hcmd
    refine ⟨_, rfl, fun h => hyes ((haccept _ _ _).2 ?_), fun h => hno (Bool.eq_false_iff.2 fun ha => h ?_)⟩
    · obtain ⟨h1, h2, h3, h4, h5, _⟩ := h
      exact ⟨h1, h2, h3, h4, h5 rfl⟩
    · obtain ⟨h1, h2, h3, h4, h5⟩ := (haccept _ _ _).1 ha
      exact ⟨h1, h2, h3, h4, fun _ => h5, fun h => absurd h (by decide)⟩
  · obtain ⟨hyes, hno⟩ := laneCommand_spec (s := s.fresh.2) (bit (Config.freeWord s.fresh.1).toNat 0) hcmd
    refine ⟨_, rfl, fun h => hyes ((haccept _ _ _).2 ?_), fun h => hno (Bool.eq_false_iff.2 fun ha => h ?_)⟩
    · obtain ⟨h1, h2, h3, h4, _, h6⟩ := h
      exact ⟨h1, h2, h3, h4, h6 rfl⟩
    · obtain ⟨h1, h2, h3, h4, h6⟩ := (haccept _ _ _).1 ha
      exact ⟨h1, h2, h3, h4, fun h => absurd h (by decide), fun _ => h6⟩

end Sys2Proof.Machine


namespace Sys2Proof.Machine

set_option Elab.async false

variable {s : State}

/-! ## Packets at their destination -/

/-- The first packet of a class, of its row's type and for this module: performed in its domain's generation, else dropped and counted. -/
theorem onPacket_head {p cls ty : Nat} {k : Packet} {ks : List Packet} (hp : p < 8) (ha : alive s (regOfPort p) = true)
    (hd : dataUp s = true) (hrx : rxOf s p cls = k :: ks) (hdst : k.dst = fabCoord s (regOfPort p)) (hty : k.ty = ty)
    (f : State → Packet → State) :
    onPacket s p cls ty f = if k.current s then f (takeRx s p cls 0) k else (takeRx s p cls 0).count (kPort p 7) 1 := by
  unfold onPacket
  rw [if_neg (by rw [ha, hd, decide_eq_false (by omega)]; decide), hrx]
  exact if_neg fun h => h.elim (fun hne => hne hty) fun hne => hne hdst

/-- The combine packet that a row takes. -/
theorem onCombine_head {p n : Nat} {k : Packet} {ok : Packet → Bool} (hp : p < 8) (ha : alive s (regOfPort p) = true)
    (hd : dataUp s = true) (hk : combineOf s p ok = some (n, k)) (f : State → Packet → State) :
    onCombine s p ok f = if k.current s then f (takeRx s p 2 n) k else (takeRx s p 2 n).count (kPort p 7) 1 := by
  unfold onCombine
  rw [if_neg (by rw [ha, hd, decide_eq_false (by omega)]; decide), hk]

/-- A TUP chunk by what becomes of it (R267, R362). -/
theorem tup_taken {p n : Nat} {k : Packet} (perf : Perf) (hp : p < 8) (ha : alive s (regOfPort p) = true) (hd : dataUp s = true)
    (hcur : k.current s = true)
    (hk : combineOf s p (fun x => x.ty == 0x10 && (!x.current s || (tupFate s p x).1 != 0)) = some (n, k)) :
    (∀ c, tupFate s p k = (1, some c) → exec (.tup ⟨p, perf⟩) s = .next (tupInto (applyMemEvents (takeRx s p 2 n) perf) p k c)) ∧
    (∀ c, tupFate s p k = (2, some c) → exec (.tup ⟨p, perf⟩) s =
      .next (tupInto (domNonfin ((applyMemEvents (takeRx s p 2 n) perf).count (kXchg 2) 1) k.dom) p k c)) ∧
    (tupFate s p k = (3, none) → exec (.tup ⟨p, perf⟩) s =
      .next (domNonfin ((applyMemEvents (takeRx s p 2 n) perf).count (kXchg 2) 1) k.dom)) := by
  refine ⟨fun c h => ?_, fun c h => ?_, fun h => ?_⟩
  all_goals
    show execTup ⟨p, perf⟩ s = _
    unfold execTup
    dsimp only
    rw [onCombine_head hp ha hd hk, if_pos hcur, h]
    rfl

/-- Settles O47: each row by `onPacket_head` or `onCombine_head`. -/
theorem packetsArePerformed : Obligations.PacketsArePerformed := by
  unfold Obligations.PacketsArePerformed
  refine ⟨fun s p cls k ks hp ha hd hrx hdst => ?_, fun s p n k hp ha hd => ?_, fun s p n k perf hp ha hd hcur hk => ?_,
    fun s p n k c perf hp ha hd hcur hk => ?_⟩
  · have hrow (ty : Nat) (f : State → Packet → State) (hty : k.ty = ty) : Host.Outcome.next (onPacket s p cls ty f) =
        (.next (if k.current s then f (takeRx s p cls 0) k else (takeRx s p cls 0).count (kPort p 7) 1) :
            Host.Outcome State Fault Refusal) :=
      congrArg Host.Outcome.next (onPacket_head hp ha hd hrx hdst hty f)
    exact ⟨hrow _ _, hrow _ _, fun _ => hrow _ _, hrow _ _, hrow _ _, fun _ => hrow _ _, hrow _ _⟩
  · have hrow (ty : Nat) (f : State → Packet → State) (hk : combineOf s p (fun x => x.ty == ty) = some (n, k)) :
        Host.Outcome.next (onCombine s p (fun x => x.ty == ty) f) =
        (.next (if k.current s then f (takeRx s p 2 n) k else (takeRx s p 2 n).count (kPort p 7) 1) : Host.Outcome State Fault Refusal) :=
      congrArg Host.Outcome.next (onCombine_head hp ha hd hk f)
    exact ⟨hrow _ _, hrow _ _, hrow _ _, hrow _ _⟩
  · exact congrArg Host.Outcome.next ((onCombine_head hp ha hd hk _).trans (if_pos hcur))
  · obtain ⟨h1, h2, h3⟩ := tup_taken perf hp ha hd hcur hk
    exact ⟨h1 c, h2 c, h3⟩

end Sys2Proof.Machine
